-- ==== Sys2Proof/Word.lean ====
section
/-!
DEFINITION. The words of the LZ-8: the types its registers, addresses and object numbers are written in
(spec/00_scope.md, Numbers and units and Unit names). Nothing here has a behaviour of its own.
-/

namespace Sys2Proof

/-- A 64-bit register, address or doubleword (02_cores_and_threads.md, R38). -/
abbrev Word := BitVec 64

/-- A byte of memory or of a record. -/
abbrev Byte := BitVec 8

/-- A 5-bit register field of an instruction (Table 2.4). -/
abbrev Reg := BitVec 5

/-- A thread g.t in the WAITER encoding of R17 without VALID: bits [12:2] g, bits [1:0] t. -/
abbrev ThreadId := BitVec 13

/-- A global core number g, die × 256 + core index (00_scope.md). -/
abbrev CoreId := BitVec 11

/-- A quad q, which holds cores 4q to 4q + 3 (R63). -/
abbrev QuadId := BitVec 9

/-- A compute die CD0 to CD7. -/
abbrev DieId := BitVec 3

/-- A context slot 0 to 15. -/
abbrev CtxId := BitVec 4

/-- A fabric port 0 to 15 (R311). -/
abbrev PortId := BitVec 4

/-- A module number of the fabric (R318); 0xFFFF means this module. -/
abbrev ModuleNo := BitVec 16

/-- A reason code: class in bits [15:8], code in bits [7:0] (R15). -/
abbrev Reason := BitVec 16

/-- A unit ID: the unit's block number from 0x0000_00F0_0000_0000 (Table 0.4). -/
abbrev UnitId := BitVec 16

/-- A SHA3-512 digest or fingerprint, first byte in bits [7:0]. -/
abbrev Digest := BitVec 512

/-- A sparse table by key, in rising order of keys; a key not listed stands for its table's default entry. -/
abbrev SMap (α : Type) := List (Nat × α)

end Sys2Proof
end

