-- ==== Sys2Proof/Syntax.lean ====
section
/-!
DEFINITION. The commands of the block: one constructor of `Instr` per row of spec/opcode_table.json.
Instruction rows carry the issuing thread and the raw fields of the instruction word (Tables 2.4, 4.10, 5.8, 5.11,
7.12, 9.8), the fields that must be 0 among them. Event rows carry what the event names and what arrives from
outside: a packet's number in the hub's inbox, a request, an image, a reading. An image is carried with its sections
already read, because the manual gives most sections no byte layout; the verdict of ML-DSA-87 on it is an operand,
because FIPS 204 is another document (log 12).
-/

namespace Sys2Proof

/-! ### Operands of vector instructions (Table 5.8) -/

/-- Fields of opcode 0x30. -/
structure VInt where
  vd : Reg
  vs1 : Reg
  vs2 : Reg
  pg : BitVec 3
  z : Bool
  esz : BitVec 2
deriving DecidableEq, Repr

/-- Fields of opcodes 0x31 and 0x32. -/
structure VFlt where
  vd : Reg
  vs1 : Reg
  vs2 : Reg
  pg : BitVec 3
  z : Bool
  fmt : BitVec 4
deriving DecidableEq, Repr

/-- Fields of opcode 0x33: `sub` is bits [6:3], the format (INT = 0) or esz and [4:3] (INT = 1). -/
structure VRed where
  vd : Reg
  vs : Reg
  mbz : Reg
  pg : BitVec 3
  int : Bool
  sub : BitVec 4
deriving DecidableEq, Repr

/-- Fields of opcode 0x34. -/
structure VCvt where
  vd : Reg
  vs : Reg
  dfmt : BitVec 4
  sfmt : BitVec 4
  pg : BitVec 3
  rm : BitVec 2
  part : BitVec 3
deriving DecidableEq, Repr

/-- Fields of opcodes 0x35 and 0x36: `v` is the register loaded or stored. -/
structure VMem where
  v : Reg
  rb : Reg
  rx : Reg
  pg : BitVec 3
  esz : BitVec 2
  sc : BitVec 2
  z : Bool
deriving DecidableEq, Repr

/-- Fields of opcode 0x37 (Table 5.11): `sub` is what the fn value carries in its low bits, esz in [1:0], a format
in [3:0], or rm in [5:4] over a format. -/
structure VMisc where
  rd : Reg
  rs1 : Reg
  rs2 : Reg
  sub : BitVec 6
deriving DecidableEq, Repr

/-- A register of the vector unit's register files, as the scrub names it (R167). -/
inductive VRegName where
  | v (n : Reg)
  | p (n : BitVec 4)
  | ffr
deriving DecidableEq, Repr

/-! ### Operands of tile instructions (Table 4.10) -/

/-- Fields of opcodes 0x38, 0x39 and 0x3A: `rsc` is bits [12:8], `n` is the row count less 1. -/
structure TMem where
  t : BitVec 3
  rb : Reg
  rs : Reg
  rsc : Reg
  fmt : BitVec 4
  n : BitVec 4
deriving DecidableEq, Repr

/-- Fields of TALD and TAST (opcode 0x3B). -/
structure TAcc where
  a : BitVec 2
  rb : Reg
  rs : Reg
  int : Bool
  mbz : BitVec 11
deriving DecidableEq, Repr

/-- Fields of TACVT. -/
structure TCvt where
  as : BitVec 2
  td : BitVec 3
  fmt : BitVec 4
  rm : BitVec 2
  cg : BitVec 3
  mbz : BitVec 10
deriving DecidableEq, Repr

/-- Fields of TMMA and TMMAZ. -/
structure TMul where
  a : BitVec 2
  t : BitVec 3
  u : BitVec 3
  tfmt : BitVec 4
  ufmt : BitVec 4
  mbz : BitVec 10
deriving DecidableEq, Repr

/-- What a memory timeout waited on (R222). -/
inductive TimeoutOf where
  /-- the pending load, walk or reply instruction -/
  | reply
  /-- the pending line fill -/
  | fetch
  /-- the k-th posted store in flight -/
  | store (k : Nat)
deriving DecidableEq, Repr

/-! ### Fabric packets (Table 11.8) -/

/-- Packet header fields (Table 11.8). LENGTH is left to the payload. -/
structure PktHdr where
  dest : ModuleNo
  src : ModuleNo
  vc : BitVec 3
  cls : Bool
  hops : BitVec 4
  flow : BitVec 16
  sctx : CtxId
  sgen : Byte
  dctx : CtxId
  typ : Byte
  unit : UnitId
  tag : Word
deriving DecidableEq, Repr

/-- Frame header of a reduction message (Table 10.5). -/
structure FrameHdr where
  bucket : BitVec 16
  ring : BitVec 3
  step : BitVec 32
  pass : Byte
  phase : Byte
  breach : Bool
  nonfinite : Bool
  srcfail : Bool
  h : Nat
  e : Int
  maxexp : Int
  chunk : Nat
  offset : Nat
deriving DecidableEq, Repr

/-- Snapshot packet header (Table 13.8). -/
structure SnapHdr where
  kind : Byte
  context : CtxId
  client : ModuleNo
  round : BitVec 32
  block : BitVec 32
  offset : Nat
deriving DecidableEq, Repr

/-- A manifest with what is stored beside it (Table 13.4, R382, R392): LAYOUT, ROOT, SIGNER, the module, context and round, the
parent's round (none: 0xFFFFFFFF), whether the context was PAUSED; the signature, whether ML-DSA-87 verifies it under the
key (log 12), the signer's public key; the digest of each block. -/
structure Manifest where
  layout : Digest
  root : Digest
  signer : Digest
  module : ModuleNo
  context : CtxId
  round : BitVec 32
  parent : Option (BitVec 32)
  paused : Bool
  sig : BitVec 37016
  sigOk : Bool
  key : BitVec 20736
  leaves : List Digest
deriving DecidableEq, Repr

/-- What GO says of one bucket in flight (R420): RERUN, or COPY, with one entry per member that has not completed it:
that member and the completed member nearest upstream of it. -/
structure GoEntry where
  ring : BitVec 3
  bucket : BitVec 16
  step : BitVec 32
  copy : Bool
  target : ModuleNo
  source : ModuleNo
deriving DecidableEq, Repr

/-- One bucket of an acknowledgement of SWITCH (R420). -/
structure AckEntry where
  ring : BitVec 3
  bucket : BitVec 16
  step : BitVec 32
  completed : Bool
deriving DecidableEq, Repr

/-- Payloads, by the TYPE of Table 11.8. Reeve messages (TYPE 0x50) have one constructor each. -/
inductive Payload where
  | signal (tally : Nat) (amount : BitVec 32) (thread : ThreadId)
  | bellArrival (child : Nat) (parent : Nat) (slot : Nat)
  | bellRelease (child : Nat)
  /-- reduction frames, pre-round messages and announces, told apart by PHASE -/
  | frame (hdr : FrameHdr) (words : List Int) (roll : List (BitVec 2))
  | shadowRequest (ring : BitVec 3) (bucket : BitVec 16) (step : BitVec 32)
  /-- the shadow's registered source bytes, its format (true: BF16), local exponent and digest; or no copy -/
  | shadowCopy (ring : BitVec 3) (bucket : BitVec 16) (step : BitVec 32)
      (copy : Option (List Byte × Bool × Int × BitVec 256)) (srcfail : Bool)
  | putData (id : Nat) (len : Nat) (offset : Nat) (daddr : Word) (granary : Bool) (signal : Option Nat)
      (last : Bool) (data : List Byte)
  | putReply (id : Nat) (reason : Reason) (part : Bool)
  | snap (hdr : SnapHdr) (data : List Byte)
  | snapManifest (hdr : SnapHdr) (m : Manifest)
  | undeliverable (hdr : PktHdr) (code : Reason)
  | genNotice (ctx : CtxId) (gen : Byte)
  | heartbeat
  | faultNotice (ctx : CtxId) (byCommand : Bool)
  | deadNotice (ring : BitVec 3) (dead : ModuleNo)
  | switch (ring : BitVec 3) (dead : ModuleNo)
  | switchAck (ring : BitVec 3) (buckets : List AckEntry)
  | go (ring : BitVec 3) (dead : ModuleNo) (buckets : List GoEntry) (join : Bool)
  | bucketCopy (ring : BitVec 3) (bucket : BitVec 16) (step : BitVec 32) (res scale : List Byte) (info : BitVec 32)
      (recv : BitVec 256)
  /-- JOIN, with the leaves of the round that the replacement has restored -/
  | join (ring : BitVec 3) (shard : Nat) (layout : Digest) (leaves : List Digest)
  | joinRefused (ring : BitVec 3) (shard : Nat)
  /-- the pairing exchange of R384: feed, the layout of the copies held, hosted length and KEEP, catalogue empty -/
  | pairing (ctx : CtxId) (feed : BitVec 32) (layout : Digest) (hostedLen keep : Nat) (catalogueEmpty : Bool)
deriving DecidableEq, Repr

/-- A packet: header, what the payload says, the payload's bytes as they travel, and E2E_CRC (R332). The manual gives most
payloads no byte layout, so that `body` and `wire` stand side by side (log 13). A message longer than 4,160 bytes travels as
several packets, each with its own header and E2E_CRC; `part` counts them (log 134). -/
structure Packet where
  hdr : PktHdr
  body : Payload
  wire : List Byte
  crc : BitVec 32
  part : Nat := 0
  parts : Nat := 1
deriving DecidableEq, Repr

/-- A flit as it arrives (R313, R325, R327): its bytes [247:0] and the CRC-64 that follows them; what its link header says:
number, idle or not, credits returned as (channel, class, flits); and what the FEC met: corrected symbols of each lane,
lanes with an uncorrectable codeword. -/
structure Flit where
  seq : BitVec 12
  idle : Bool
  credits : List (BitVec 3 × Bool × Nat)
  data : List Byte
  crc : BitVec 64
  corr : List (BitVec 3 × Nat)
  unc : List (BitVec 3)
deriving DecidableEq, Repr

/-- What a training attempt finds (R323): receive lanes good here, lanes the neighbour receives well, the identity
the neighbour sent. -/
structure Training where
  rxGood : Byte
  txGood : Byte
  peer : ModuleNo
  peerPort : BitVec 4
  fabricId : BitVec 32
deriving DecidableEq, Repr

/-! ### Images (Tables 15.4, 15.5 and the sections' own chapters) -/

/-- A directory entry (Table 15.4). -/
structure DirEntry where
  typ : BitVec 16
  offset : Nat
  size : Nat
  reservedZero : Bool
deriving DecidableEq, Repr

/-- Image header and trailer, with the digest of the image, the fingerprint of the signer's key and the verdict of
ML-DSA-87 on the signature (R440, R441). `reservedZero`: every reserved bit of the header and the last 13 bytes of the trailer
are 0. -/
structure ImgHdr where
  magic : BitVec 32
  format : BitVec 16
  kind : Byte
  burnFloor : Bool
  transfer : Bool
  reservedZero : Bool
  length : Nat
  svn : Nat
  build : BitVec 512
  dir : List DirEntry
  digest : Digest
  signer : Digest
  sigOk : Bool
deriving DecidableEq, Repr

/-- One thread of the context header (R65, R91). -/
structure ThreadInit where
  th : ThreadId
  entry : Word
  tvec : Word
  vkey : BitVec 128
  tkey : BitVec 128
deriving DecidableEq, Repr

/-- Context header, section 0x0201: quads, threads, mode, CFRAC request, keys and step (Table 15.5), and the
configured coalescer window (Table 4.11). -/
structure CtxHeader where
  quads : List QuadId
  strict : Bool
  cfrac : BitVec 3
  reservedZero : Bool
  window : Byte
  step : Word
  threads : List ThreadInit
deriving DecidableEq, Repr

/-- A region entry (R193). -/
structure RegionEntry where
  win : Byte
  die : Byte
  base : Nat
  limit : Nat
  r : Bool
  w : Bool
  x : Bool
  u : Bool
  reservedZero : Bool
deriving DecidableEq, Repr

/-- Memory section, 0x0202. -/
structure MemSection where
  regions : List RegionEntry
  salt : Byte
  memto : BitVec 32
  ptroot : Nat
deriving DecidableEq, Repr

/-- A grant entry (Table 9.2). -/
structure Grant where
  kind : Byte
  die : Byte
  latch : Bool
  remote : Bool
  first : Nat
  count : Nat
  reservedZero : Bool
deriving DecidableEq, Repr

/-- A bell entry (Table 9.3). -/
structure BellEntry where
  bell : Nat
  count : Nat
  rchild : Nat
  rleaves : Nat
  pbell : BitVec 16
  pindex : Nat
  pmodule : ModuleNo
deriving DecidableEq, Repr

/-- Sync section, 0x0203. -/
structure SyncSection where
  grants : List Grant
  bells : List BellEntry
deriving DecidableEq, Repr

/-- A tensor entry (Table 6.3). -/
structure TensorEntry where
  id : BitVec 16
  kind : Byte
  actFmt : BitVec 4
  keep16 : Bool
  reservedZero : Bool
  name : BitVec 32
  gbufBase : Word
  gbufLen : BitVec 32
  gbufFmt : Byte
deriving DecidableEq, Repr

/-- Tensor table, 0x0204: its bytes, of which the directory's SIZE counts (R177, R181). -/
structure TensorSection where
  bytes : List Byte
deriving DecidableEq, Repr

/-- A ring member (R275, R276). -/
structure Member where
  module : ModuleNo
  shadow : Bool
  shard : Nat
deriving DecidableEq, Repr

/-- A ring of the reduction section (R275 to R278, R306). -/
structure RingCfg where
  kindOk : Bool
  reservedZero : Bool
  twoD : Bool
  nrow : Nat
  ncol : Nat
  predict : Bool
  drop : Bool
  pmargin : Nat
  deadline : Nat
  timeout : Nat
  h : Nat
  maxBuckets : Nat
  digestFrame : Nat
  digestLen : Nat
  members : List Member
deriving DecidableEq, Repr

/-- A queue of 64-byte records in the Larder with its queue tally (R280, R341). -/
structure QueueCfg where
  base : Word
  slots : Nat
  tally : Nat
deriving DecidableEq, Repr

/-- Reduction section, 0x0205. -/
structure RedSection where
  reservedZero : Bool
  rings : List RingCfg
  queue : QueueCfg
deriving DecidableEq, Repr

/-- Feed section, 0x0207 (R371). -/
structure FeedSection where
  key : Nat
  port : BitVec 16
  dataset : BitVec 32
  shard : BitVec 32
  offset : Word
  epoch : BitVec 32
  region : Nat
  nslots : Nat
  slot : Nat
  ready : Nat
  free : Nat
  window : Nat
  retryUs : Nat
  reservedZero : Bool
deriving DecidableEq, Repr

/-- An area of the snapshot section: window code, die, physical base, length (Table 13.5). -/
structure AreaCfg where
  win : Byte
  die : Byte
  base : Nat
  len : Nat
deriving DecidableEq, Repr

/-- Context snapshot section, 0x0208 (Table 13.5). -/
structure SnapSection where
  reservedZero : Bool
  stepBell : Nat
  period : Nat
  phase : Nat
  extEvery : Nat
  quiesce : Nat
  sendLimit : Nat
  captureTally : Nat
  commitTally : Nat
  stageBase : Nat
  stageLen : Nat
  areas : List AreaCfg
  signers : List Digest
deriving DecidableEq, Repr

/-- Recovery section, 0x0209 (R429). -/
structure RecoverySection where
  join : Bool
  joinHold : Nat
  switch : Byte
  reservedZero : Bool
deriving DecidableEq, Repr

/-- One placement of the contents section, 0x020A: a physical location of the model's memory (Machine/Memory)
and bytes. -/
structure Placement where
  addr : Nat
  bytes : List Byte
deriving DecidableEq, Repr

/-- A context image. -/
structure CtxImage where
  hdr : ImgHdr
  header : CtxHeader
  memory : MemSection
  sync : SyncSection
  tensors : TensorSection
  red : Option RedSection
  putq : Option QueueCfg
  feed : Option FeedSection
  snap : Option SnapSection
  recovery : Option RecoverySection
  contents : List Placement
deriving DecidableEq, Repr

/-- A port of the fabric section (R318). -/
structure PortCfg where
  enable : Bool
  peer : ModuleNo
  peerPort : Byte
  dateline : Bool
deriving DecidableEq, Repr

/-- A route entry: destination and candidate ports (R318, R335). -/
structure RouteEntry where
  dest : ModuleNo
  cands : List Byte
deriving DecidableEq, Repr

/-- Fabric section, 0x0101. -/
structure FabSection where
  module : ModuleNo
  fabricId : BitVec 32
  reservedZero : Bool
  ports : List PortCfg
  life : Nat
  hopsMax : Nat
  hold : Nat
  weights : List Nat
  snapcap : Nat
  routes : List RouteEntry
deriving DecidableEq, Repr

/-- Session roles (12_gate_and_commands.md, Sessions). -/
inductive Role where
  | control
  | monitor
  | feed
  | store
deriving DecidableEq, Repr

/-- An authorised key of the Gate section (R354): ML-DSA-87 public key, role (none: undefined) and MAC address. -/
structure GateKey where
  pk : BitVec 20736
  role : Option Role
  mac : BitVec 48
deriving DecidableEq, Repr

/-- Gate section, 0x0102. -/
structure GateSection where
  addr : BitVec 128
  prefixLen : Nat
  port : BitVec 16
  keys : List GateKey
deriving DecidableEq, Repr

/-- A hosted range of the module snapshot section (Table 13.6). -/
structure HostedCfg where
  client : ModuleNo
  clientFeed : BitVec 32
  base : Nat
  len : Nat
  keep : Nat
deriving DecidableEq, Repr

/-- Module snapshot section, 0x0103. -/
structure ModSnapSection where
  reservedZero : Bool
  partner : ModuleNo
  partnerFeed : BitVec 32
  hosted : List HostedCfg
deriving DecidableEq, Repr

/-- Image-keys section, 0x0104. -/
structure KeySection where
  reservedZero : Bool
  keys : List Digest
deriving DecidableEq, Repr

/-- Ownership-transfer section, 0x0105: the bytes of the new owner's public key (R442). -/
structure TransferSection where
  reservedZero : Bool
  key : List Byte
deriving DecidableEq, Repr

/-- Power policy section, 0x0106 (Table 16.5). -/
structure PolicySection where
  pcap : Nat
  fastlim : Nat
  hyst : Nat
  dwell : Nat
  uphold : Nat
  tWarn : Nat
  tThrot : Nat
deriving DecidableEq, Repr

/-- A module configuration image. -/
structure ModImage where
  hdr : ImgHdr
  fabric : FabSection
  gate : GateSection
  snap : Option ModSnapSection
  keys : Option KeySection
  transfer : Option TransferSection
  policy : Option PolicySection
deriving DecidableEq, Repr

/-- A bundle: a firmware image and a module configuration image (R439), with SHA3-512 of both (R450). -/
structure Bundle where
  firmware : ImgHdr
  module : ModImage
  digest : Digest
deriving DecidableEq, Repr

/-! ### Gate messages -/

/-- What the store sends in answer to a fetch (R396, R398): a manifest, or none where it has none of that round; a block of a
round, at its index, with its bytes put together from their parts. -/
inductive FromStore where
  | manifest (round : BitVec 32) (m : Option Manifest)
  | block (round : BitVec 32) (i : Nat) (data : List Byte)
deriving DecidableEq, Repr

/-- The same in the frame that brings it, with its packet number. -/
structure StoreFrame where
  pn : Word
  x : FromStore
deriving DecidableEq, Repr

/-- The store's acknowledgement of a context's manifest (R396). -/
structure StoreAck where
  ctx : CtxId
  round : BitVec 32
  pn : Word
deriving DecidableEq, Repr

/-- A message header (Table 12.3), byte 0 lowest: VERSION 1 and the reserved bytes 0. -/
def headerOf (kind opcode context : Byte) (session : BitVec 32) (seq : Word) (reason : BitVec 16) (flags : Byte)
    (timeoutUs bodyLen : BitVec 32) : BitVec 256 :=
  0#32 ++ bodyLen ++ timeoutUs ++ 0#8 ++ flags ++ reason ++ seq ++ session ++ context ++ opcode ++ kind ++ 1#8

/-- The header of a message other than a request or a reply, of a kind and a body of so many bytes: VERSION, KIND, OPCODE 0,
BODY_LEN, and the fields shown as 0 (R358). -/
def headerOk (h : BitVec 256) (kind : Byte) (bodyLen : Nat) : Bool :=
  h.extractLsb' 0 8 == 1#8 && h.extractLsb' 8 8 == kind && h.extractLsb' 16 8 == 0#8 && h.extractLsb' 146 14 == 0#14 &&
    h.extractLsb' 192 32 == BitVec.ofNat 32 bodyLen && h.extractLsb' 224 32 == 0#32

/-- SESSION and CONTEXT of a header. -/
def headerSession (h : BitVec 256) : BitVec 32 := h.extractLsb' 32 32
def headerContext (h : BitVec 256) : Byte := h.extractLsb' 24 8

/-- A request: the 32 bytes of its header as received, the packet number of its frame (R357), and whether the body suits
its opcode beyond what the command's own operands show. -/
structure ReqHdr where
  raw : BitVec 256
  pn : Word
  bodyOk : Bool
deriving DecidableEq, Repr

namespace ReqHdr

def version (r : ReqHdr) : Byte := r.raw.extractLsb' 0 8
def kind (r : ReqHdr) : Byte := r.raw.extractLsb' 8 8
def opcode (r : ReqHdr) : Byte := r.raw.extractLsb' 16 8
def context (r : ReqHdr) : Byte := r.raw.extractLsb' 24 8
def session (r : ReqHdr) : BitVec 32 := r.raw.extractLsb' 32 32
def seq (r : ReqHdr) : Word := r.raw.extractLsb' 64 64
def flags (r : ReqHdr) : Byte := r.raw.extractLsb' 144 8
def timeoutUs (r : ReqHdr) : BitVec 32 := r.raw.extractLsb' 160 32
def bodyLen (r : ReqHdr) : BitVec 32 := r.raw.extractLsb' 192 32

/-- FINAL: the last chunk of LOAD or FW_STAGE. -/
def final (r : ReqHdr) : Bool := r.flags.getLsbD 0

/-- The fields shown as 0 are 0. -/
def reservedZero (r : ReqHdr) : Bool :=
  r.flags.extractLsb' 2 6 == 0 && r.raw.extractLsb' 152 8 == 0 && r.raw.extractLsb' 224 32 == 0

/-- The header is a request's: version, kind, reserved fields, and a body that fits a datagram. -/
def formatOk (r : ReqHdr) : Bool :=
  r.version == 1 && r.kind == 1 && r.reservedZero && decide (r.bodyLen.toNat ≤ 9086) && r.bodyOk

end ReqHdr

/-- HELLO (Table 12.2) from the peer at a MAC address: message header, key index, bytes [3:2], peer nonce, encapsulation key, and whether
the body is otherwise well formed (its length, the key by FIPS 203). -/
structure Hello where
  hdr : BitVec 256
  mac : BitVec 48
  key : BitVec 16
  rsv : BitVec 16
  nonce : BitVec 256
  ek : BitVec 12544
  bodyOk : Bool
deriving DecidableEq, Repr

/-- Why a frame is dropped (R348, R352, R357). -/
inductive DropWhy where
  | unprotected
  | icv
  | headerRule
  /-- a frame of a session with this packet number, which has come before or lies below the window -/
  | replay (session : BitVec 32) (pn : Word)
deriving DecidableEq, Repr

/-- FEED_DATA (Table 12.10) with its message header, in a frame with a packet number. -/
structure FeedFragment where
  pn : Word
  hdr : BitVec 256
  dataset : BitVec 32
  shard : BitVec 32
  epoch : BitVec 32
  offset : Word
  len : Nat
  crc : BitVec 32
  fragOffset : Nat
  bytes : List Byte
deriving DecidableEq, Repr

/-- FEED_END (Table 12.10) but its OFFSET. -/
structure FeedEnd where
  pn : Word
  hdr : BitVec 256
  dataset : BitVec 32
  shard : BitVec 32
  epoch : BitVec 32
deriving DecidableEq, Repr

/-- FEED_ERR (Table 12.10). -/
structure FeedErr where
  pn : Word
  hdr : BitVec 256
  dataset : BitVec 32
  shard : BitVec 32
  offset : Word
  code : BitVec 16
deriving DecidableEq, Repr

/-- A Neighbour Solicitation: destination MAC address, hop limit, target (R351). -/
structure Solicitation where
  dst : BitVec 48
  hopLimit : Byte
  target : BitVec 128
deriving DecidableEq, Repr

/-- An Echo request: destination MAC address, and the address it asks (R351). -/
structure EchoReq where
  dst : BitVec 48
  target : BitVec 128
deriving DecidableEq, Repr

/-- CLOSE of a session, with the frame's packet number (R357). -/
structure CloseMsg where
  session : BitVec 32
  pn : Word
  hdr : BitVec 256
deriving DecidableEq, Repr

/-- What SEND_LIMIT ends: the snapshot in hand, or the external copy (R396, R403). -/
structure SnapBound where
  ctx : CtxId
  copy : Bool
deriving DecidableEq, Repr

/-! ### Readings of the Reeve (R475) and findings of the boot -/

/-- One sample: rail currents (0.1 A) and voltages (mV), the readings of each die's temperature sensors, coolant inlet and outlet
(0.1 °C); `badTemp` and `badRail` name the sensors whose reading leaves its physical range (R476): sensor k of die i, (10, 0) the
inlet, (11, 0) the outlet, and the current sensor of a rail. -/
structure Sample where
  rails : List (Nat × Nat)
  temps : List (List Int)
  inlet : Int
  outlet : Int
  badTemp : List (Nat × Nat)
  badRail : List Nat
deriving DecidableEq, Repr

/-- What LINK_MARGIN_READ reads of one port: corrected symbols per receive lane in the last 2^24 uncore cycles. -/
structure Margin where
  port : PortId
  corrected : List Nat
deriving DecidableEq, Repr

/-- What the FUSE phase finds (R437, R436). -/
inductive FuseFind where
  | clean
  | corrected
  | uncorrectable
deriving DecidableEq, Repr

/-- Why a laser source module loses health (R316). -/
inductive LaserWhy where
  | absent
  | disabled
  | fault
  | lowPower
deriving DecidableEq, Repr

/-- Who commands a stream channel or writes a register: the Reeve, or a thread by a store (R225, R242). -/
inductive Writer where
  | reeve
  | thread (th : ThreadId)
deriving DecidableEq, Repr

/-! ### The commands -/

/-- The commands of the block, one constructor per row of spec/opcode_table.json, in its order. `th` is the thread
that issues an instruction or that an event happens to; `k` numbers an entry of the queue the row's own comment
names in Machine: a request of a thread, a message of the sync network, a packet of the hub's inbox. -/
inductive Instr where
  /-- ADD (R49) -/
  | add (th : ThreadId) (rd rs1 rs2 : Reg)
  /-- SUB (R49) -/
  | sub (th : ThreadId) (rd rs1 rs2 : Reg)
  /-- AND (R49) -/
  | and (th : ThreadId) (rd rs1 rs2 : Reg)
  /-- OR (R49) -/
  | or (th : ThreadId) (rd rs1 rs2 : Reg)
  /-- XOR (R49) -/
  | xor (th : ThreadId) (rd rs1 rs2 : Reg)
  /-- SHL (R49) -/
  | shl (th : ThreadId) (rd rs1 rs2 : Reg)
  /-- SHR (R49) -/
  | shr (th : ThreadId) (rd rs1 rs2 : Reg)
  /-- SRA (R49) -/
  | sra (th : ThreadId) (rd rs1 rs2 : Reg)
  /-- SLT (R49) -/
  | slt (th : ThreadId) (rd rs1 rs2 : Reg)
  /-- SLTU (R49) -/
  | sltu (th : ThreadId) (rd rs1 rs2 : Reg)
  /-- MUL (R49) -/
  | mul (th : ThreadId) (rd rs1 rs2 : Reg)
  /-- MULH (R49) -/
  | mulh (th : ThreadId) (rd rs1 rs2 : Reg)
  /-- MULHU (R49) -/
  | mulhu (th : ThreadId) (rd rs1 rs2 : Reg)
  /-- DIV (R50) -/
  | div (th : ThreadId) (rd rs1 rs2 : Reg)
  /-- DIVU (R50) -/
  | divu (th : ThreadId) (rd rs1 rs2 : Reg)
  /-- REM (R50) -/
  | rem (th : ThreadId) (rd rs1 rs2 : Reg)
  /-- REMU (R50) -/
  | remu (th : ThreadId) (rd rs1 rs2 : Reg)
  /-- ADDI (R49) -/
  | addi (th : ThreadId) (rd rs1 : Reg) (imm : BitVec 16)
  /-- ANDI (R49) -/
  | andi (th : ThreadId) (rd rs1 : Reg) (imm : BitVec 16)
  /-- ORI (R49) -/
  | ori (th : ThreadId) (rd rs1 : Reg) (imm : BitVec 16)
  /-- XORI (R49) -/
  | xori (th : ThreadId) (rd rs1 : Reg) (imm : BitVec 16)
  /-- SLTI (R49) -/
  | slti (th : ThreadId) (rd rs1 : Reg) (imm : BitVec 16)
  /-- SLTIU (R49) -/
  | sltiu (th : ThreadId) (rd rs1 : Reg) (imm : BitVec 16)
  /-- SHIFTI (R49) -/
  | shifti (th : ThreadId) (rd rs1 : Reg) (imm : BitVec 16)
  /-- LUI (R49) -/
  | lui (th : ThreadId) (rd : Reg) (imm : BitVec 21)
  /-- AUIPC (R49) -/
  | auipc (th : ThreadId) (rd : Reg) (imm : BitVec 21)
  /-- LDB (R49) -/
  | ldb (th : ThreadId) (rd rs1 : Reg) (imm : BitVec 16)
  /-- LDBU (R49) -/
  | ldbu (th : ThreadId) (rd rs1 : Reg) (imm : BitVec 16)
  /-- LDH (R49) -/
  | ldh (th : ThreadId) (rd rs1 : Reg) (imm : BitVec 16)
  /-- LDHU (R49) -/
  | ldhu (th : ThreadId) (rd rs1 : Reg) (imm : BitVec 16)
  /-- LDW (R49) -/
  | ldw (th : ThreadId) (rd rs1 : Reg) (imm : BitVec 16)
  /-- LDWU (R49) -/
  | ldwu (th : ThreadId) (rd rs1 : Reg) (imm : BitVec 16)
  /-- LDD (R49) -/
  | ldd (th : ThreadId) (rd rs1 : Reg) (imm : BitVec 16)
  /-- STB (R49) -/
  | stb (th : ThreadId) (rs2 rs1 : Reg) (imm : BitVec 16)
  /-- STH (R49) -/
  | sth (th : ThreadId) (rs2 rs1 : Reg) (imm : BitVec 16)
  /-- STW (R49) -/
  | stw (th : ThreadId) (rs2 rs1 : Reg) (imm : BitVec 16)
  /-- STD (R49) -/
  | std (th : ThreadId) (rs2 rs1 : Reg) (imm : BitVec 16)
  /-- BEQ (R49) -/
  | beq (th : ThreadId) (rs1 rs2 : Reg) (off : BitVec 16)
  /-- BNE (R49) -/
  | bne (th : ThreadId) (rs1 rs2 : Reg) (off : BitVec 16)
  /-- BLT (R49) -/
  | blt (th : ThreadId) (rs1 rs2 : Reg) (off : BitVec 16)
  /-- BGE (R49) -/
  | bge (th : ThreadId) (rs1 rs2 : Reg) (off : BitVec 16)
  /-- BLTU (R49) -/
  | bltu (th : ThreadId) (rs1 rs2 : Reg) (off : BitVec 16)
  /-- BGEU (R49) -/
  | bgeu (th : ThreadId) (rs1 rs2 : Reg) (off : BitVec 16)
  /-- JAL (R49) -/
  | jal (th : ThreadId) (rd : Reg) (imm : BitVec 21)
  /-- JALR (R49) -/
  | jalr (th : ThreadId) (rd rs1 : Reg) (imm : BitVec 16)
  /-- TRAP (R49) -/
  | trap (th : ThreadId) (rd rs1 code : Reg)
  /-- ERET (R56) -/
  | eret (th : ThreadId) (rd rs1 rs2 : Reg)
  /-- HALT (R65) -/
  | halt (th : ThreadId) (rd rs1 rs2 : Reg)
  /-- IFLUSH (R46) -/
  | iflush (th : ThreadId) (rd rs1 rs2 : Reg)
  /-- CSRR (R53) -/
  | csrr (th : ThreadId) (rd rs1 : Reg) (csr : BitVec 16)
  /-- CSRW (R53) -/
  | csrw (th : ThreadId) (rd rs1 : Reg) (csr : BitVec 16)
  /-- FENCE (R219) -/
  | fence (th : ThreadId) (rd rs1 rs2 : Reg)
  /-- PGINV (R212) -/
  | pginv (th : ThreadId) (rd rs1 rs2 : Reg)
  /-- PGINVA (R221) -/
  | pginva (th : ThreadId) (rd rs1 rs2 : Reg)
  /-- PGINV_COMPLETE (R212) -/
  | pginvComplete (th : ThreadId)
  /-- INTERRUPT_TAKE (R59) -/
  | interruptTake (th : ThreadId)
  /-- ASYNC_MEM (R58) -/
  | asyncMem (th : ThreadId)
  /-- CORE_TIMER_EXPIRY (R59) -/
  | coreTimerExpiry (th : ThreadId)
  /-- CORE_DOORBELL (R54) -/
  | coreDoorbell (th : ThreadId)
  /-- ICACHE_FILL (R44) -/
  | icacheFill (th : ThreadId)
  /-- MEM_REPLY (R58) -/
  | memReply (th : ThreadId) (k : Nat)
  /-- STORE_ACK (R218) -/
  | storeAck (th : ThreadId) (k : Nat)
  /-- MEM_TIMEOUT (R222) -/
  | memTimeout (th : ThreadId) (what : TimeoutOf)
  /-- MEM_MEMTO_WRITE (R225) -/
  | memMemtoWrite (c : CtxId) (v : Word)
  /-- BENCH_OUTSIDE_PROMOTE (R201) -/
  | benchOutsidePromote (g : CoreId) (k : Nat)
  /-- GRAN_HOT_BANK (R224) -/
  | granHotBank (n : BitVec 4) (ch : BitVec 4) (bank : BitVec 4) (reqs : List (CtxId × Nat))
  /-- MEM_SCRUB (R216) -/
  | memScrub (loc : Nat) (ue : Bool)
  /-- TLD (R105) -/
  | tld (th : ThreadId) (f : TMem)
  /-- TST (R108) -/
  | tst (th : ThreadId) (f : TMem)
  /-- TLDT (R109) -/
  | tldt (th : ThreadId) (f : TMem)
  /-- TALD (R110) -/
  | tald (th : ThreadId) (f : TAcc)
  /-- TAST (R110) -/
  | tast (th : ThreadId) (f : TAcc)
  /-- TAZERO (R110) -/
  | tazero (th : ThreadId) (a : BitVec 2) (mbz10 : BitVec 10) (int : Bool) (mbz11 : BitVec 11)
  /-- TACVT (R111) -/
  | tacvt (th : ThreadId) (f : TCvt)
  /-- TMMA (R113) -/
  | tmma (th : ThreadId) (f : TMul)
  /-- TMMAZ (R113) -/
  | tmmaz (th : ThreadId) (f : TMul)
  /-- TZERO (R135) -/
  | tzero (th : ThreadId) (rd rs1 rs2 : Reg)
  /-- TMOV (R135) -/
  | tmov (th : ThreadId) (rd rs1 rs2 : Reg)
  /-- TINV (R135) -/
  | tinv (th : ThreadId) (rd rs1 rs2 : Reg)
  /-- TTAG (R135) -/
  | ttag (th : ThreadId) (rd rs1 rs2 : Reg)
  /-- TSETM (R135) -/
  | tsetm (th : ThreadId) (rd rs1 rs2 : Reg)
  /-- TGETM (R135) -/
  | tgetm (th : ThreadId) (rd rs1 rs2 : Reg)
  /-- TILE_RETIRE (R125) -/
  | tileRetire (th : ThreadId)
  /-- COAL_WINDOW_EXPIRY (R130) -/
  | coalWindowExpiry (g : CoreId) (k : Nat)
  /-- TILE_HOLD_EXPIRY (R126) -/
  | tileHoldExpiry (g : CoreId)
  /-- TILE_RAMP_DOWN_END (R126) -/
  | tileRampDownEnd (g : CoreId)
  /-- TILE_RAMP_UP_END (R126) -/
  | tileRampUpEnd (g : CoreId)
  /-- TILE_THROT (R127) -/
  | tileThrot (g : CoreId) (v : Word)
  /-- TILE_SCRUB (R118) -/
  | tileScrub (th : ThreadId) (acc : Bool) (n : BitVec 3) (row : BitVec 4) (ue : Bool)
  /-- VADD (R146) -/
  | vadd (th : ThreadId) (f : VInt)
  /-- VSUB (R146) -/
  | vsub (th : ThreadId) (f : VInt)
  /-- VMUL (R146) -/
  | vmul (th : ThreadId) (f : VInt)
  /-- VMULH (R146) -/
  | vmulh (th : ThreadId) (f : VInt)
  /-- VMULHU (R146) -/
  | vmulhu (th : ThreadId) (f : VInt)
  /-- VAND (R146) -/
  | vand (th : ThreadId) (f : VInt)
  /-- VOR (R146) -/
  | vor (th : ThreadId) (f : VInt)
  /-- VXOR (R146) -/
  | vxor (th : ThreadId) (f : VInt)
  /-- VSHL (R146) -/
  | vshl (th : ThreadId) (f : VInt)
  /-- VSHR (R146) -/
  | vshr (th : ThreadId) (f : VInt)
  /-- VSRA (R146) -/
  | vsra (th : ThreadId) (f : VInt)
  /-- VMIN (R146) -/
  | vmin (th : ThreadId) (f : VInt)
  /-- VMAX (R146) -/
  | vmax (th : ThreadId) (f : VInt)
  /-- VMINU (R146) -/
  | vminu (th : ThreadId) (f : VInt)
  /-- VMAXU (R146) -/
  | vmaxu (th : ThreadId) (f : VInt)
  /-- VADDS (R146) -/
  | vadds (th : ThreadId) (f : VInt)
  /-- VSUBS (R146) -/
  | vsubs (th : ThreadId) (f : VInt)
  /-- VADDSU (R146) -/
  | vaddsu (th : ThreadId) (f : VInt)
  /-- VSUBSU (R146) -/
  | vsubsu (th : ThreadId) (f : VInt)
  /-- VCMPEQ (R146) -/
  | vcmpeq (th : ThreadId) (f : VInt)
  /-- VCMPLT (R146) -/
  | vcmplt (th : ThreadId) (f : VInt)
  /-- VCMPLTU (R146) -/
  | vcmpltu (th : ThreadId) (f : VInt)
  /-- VCMPLE (R146) -/
  | vcmple (th : ThreadId) (f : VInt)
  /-- VCMPLEU (R146) -/
  | vcmpleu (th : ThreadId) (f : VInt)
  /-- VSEL (R148) -/
  | vsel (th : ThreadId) (f : VInt)
  /-- VPERM (R148) -/
  | vperm (th : ThreadId) (f : VInt)
  /-- VFADD (R147) -/
  | vfadd (th : ThreadId) (f : VFlt)
  /-- VFSUB (R147) -/
  | vfsub (th : ThreadId) (f : VFlt)
  /-- VFMUL (R147) -/
  | vfmul (th : ThreadId) (f : VFlt)
  /-- VFDIV (R90) -/
  | vfdiv (th : ThreadId) (f : VFlt)
  /-- VFMAX (R147) -/
  | vfmax (th : ThreadId) (f : VFlt)
  /-- VFMIN (R147) -/
  | vfmin (th : ThreadId) (f : VFlt)
  /-- VFMA (R147) -/
  | vfma (th : ThreadId) (f : VFlt)
  /-- VFNMA (R147) -/
  | vfnma (th : ThreadId) (f : VFlt)
  /-- VFSQRT (R147) -/
  | vfsqrt (th : ThreadId) (f : VFlt)
  /-- VFABS (R147) -/
  | vfabs (th : ThreadId) (f : VFlt)
  /-- VFNEG (R147) -/
  | vfneg (th : ThreadId) (f : VFlt)
  /-- VFCMPEQ (R147) -/
  | vfcmpeq (th : ThreadId) (f : VFlt)
  /-- VFCMPLT (R147) -/
  | vfcmplt (th : ThreadId) (f : VFlt)
  /-- VFCMPLE (R147) -/
  | vfcmple (th : ThreadId) (f : VFlt)
  /-- VFCMPNE (R147) -/
  | vfcmpne (th : ThreadId) (f : VFlt)
  /-- VRED_SUM (R158) -/
  | vredSum (th : ThreadId) (f : VRed)
  /-- VRED_SUMSQ (R159) -/
  | vredSumsq (th : ThreadId) (f : VRed)
  /-- VRED_MAX (R159) -/
  | vredMax (th : ThreadId) (f : VRed)
  /-- VRED_MIN (R159) -/
  | vredMin (th : ThreadId) (f : VRed)
  /-- VRED_AND (R160) -/
  | vredAnd (th : ThreadId) (f : VRed)
  /-- VRED_OR (R160) -/
  | vredOr (th : ThreadId) (f : VRed)
  /-- VRED_XOR (R160) -/
  | vredXor (th : ThreadId) (f : VRed)
  /-- VCVT (R161) -/
  | vcvt (th : ThreadId) (f : VCvt)
  /-- VLD (R152) -/
  | vld (th : ThreadId) (f : VMem)
  /-- VLDS (R152) -/
  | vlds (th : ThreadId) (f : VMem)
  /-- VGATH (R152) -/
  | vgath (th : ThreadId) (f : VMem)
  /-- VLDFF (R155) -/
  | vldff (th : ThreadId) (f : VMem)
  /-- VGATHFF (R155) -/
  | vgathff (th : ThreadId) (f : VMem)
  /-- VST (R153) -/
  | vst (th : ThreadId) (f : VMem)
  /-- VSTS (R153) -/
  | vsts (th : ThreadId) (f : VMem)
  /-- VSCAT (R153) -/
  | vscat (th : ThreadId) (f : VMem)
  /-- PAND (R140) -/
  | pand (th : ThreadId) (f : VMisc)
  /-- POR (R140) -/
  | por (th : ThreadId) (f : VMisc)
  /-- PXOR (R140) -/
  | pxor (th : ThreadId) (f : VMisc)
  /-- PANDN (R140) -/
  | pandn (th : ThreadId) (f : VMisc)
  /-- PSET (R172) -/
  | pset (th : ThreadId) (f : VMisc)
  /-- PCLR (R172) -/
  | pclr (th : ThreadId) (f : VMisc)
  /-- PLEN (R172) -/
  | plen (th : ThreadId) (f : VMisc)
  /-- PPOP (R172) -/
  | ppop (th : ThreadId) (f : VMisc)
  /-- PLOW (R172) -/
  | plow (th : ThreadId) (f : VMisc)
  /-- FFARM (R157) -/
  | ffarm (th : ThreadId) (f : VMisc)
  /-- FFTAKE (R157) -/
  | fftake (th : ThreadId) (f : VMisc)
  /-- FFPUT (R157) -/
  | ffput (th : ThreadId) (f : VMisc)
  /-- FFCUT (R157) -/
  | ffcut (th : ThreadId) (f : VMisc)
  /-- VDUP (R148) -/
  | vdup (th : ThreadId) (f : VMisc)
  /-- VGETX (R148) -/
  | vgetx (th : ThreadId) (f : VMisc)
  /-- VIOTA (R148) -/
  | viota (th : ThreadId) (f : VMisc)
  /-- FMVXF (R172) -/
  | fmvxf (th : ThreadId) (f : VMisc)
  /-- FMVFX (R143) -/
  | fmvfx (th : ThreadId) (f : VMisc)
  /-- FADD (R90) -/
  | fadd (th : ThreadId) (f : VMisc)
  /-- FSUB (R90) -/
  | fsub (th : ThreadId) (f : VMisc)
  /-- FMUL (R90) -/
  | fmul (th : ThreadId) (f : VMisc)
  /-- FDIV (R90) -/
  | fdiv (th : ThreadId) (f : VMisc)
  /-- FSQRT (R90) -/
  | fsqrt (th : ThreadId) (f : VMisc)
  /-- FMAX (R84) -/
  | fmax (th : ThreadId) (f : VMisc)
  /-- FMIN (R84) -/
  | fmin (th : ThreadId) (f : VMisc)
  /-- FMA (R90) -/
  | fma (th : ThreadId) (f : VMisc)
  /-- FEQ (R84) -/
  | feq (th : ThreadId) (f : VMisc)
  /-- FLT (R84) -/
  | flt (th : ThreadId) (f : VMisc)
  /-- FLE (R84) -/
  | fle (th : ThreadId) (f : VMisc)
  /-- FCVTXF (R162) -/
  | fcvtxf (th : ThreadId) (f : VMisc)
  /-- FCVTFX (R162) -/
  | fcvtfx (th : ThreadId) (f : VMisc)
  /-- GLD (R166) -/
  | gld (th : ThreadId) (f : VMisc)
  /-- GST (R166) -/
  | gst (th : ThreadId) (f : VMisc)
  /-- GFILL (R166) -/
  | gfill (th : ThreadId) (f : VMisc)
  /-- GCHK (R166) -/
  | gchk (th : ThreadId) (f : VMisc)
  /-- VECTOR_RETIRE (R145) -/
  | vectorRetire (th : ThreadId)
  /-- VEC_POWER_DOWN (R163) -/
  | vecPowerDown (g : CoreId)
  /-- VEC_WAKE_END (R164) -/
  | vecWakeEnd (g : CoreId)
  /-- VEC_SCRUB (R167) -/
  | vecScrub (th : ThreadId) (reg : VRegName) (word : Nat) (ue : Bool)
  /-- TSIG (R266) -/
  | tsig (th : ThreadId) (rd rs1 rs2 : Reg)
  /-- TDEC (R266) -/
  | tdec (th : ThreadId) (rd rs1 rs2 : Reg)
  /-- TSET (R254) -/
  | tset (th : ThreadId) (rd rs1 rs2 : Reg)
  /-- TREAD (R265) -/
  | tread (th : ThreadId) (rd rs1 rs2 : Reg)
  /-- TWAIT (R254) -/
  | twait (th : ThreadId) (rd rs1 rs2 : Reg)
  /-- BARR (R258) -/
  | barr (th : ThreadId) (rd rs1 rs2 : Reg)
  /-- BWAIT (R259) -/
  | bwait (th : ThreadId) (rd rs1 rs2 : Reg)
  /-- BREAD (R265) -/
  | bread (th : ThreadId) (rd rs1 rs2 : Reg)
  /-- TSIGR (R269) -/
  | tsigr (th : ThreadId) (rd rs1 rs2 : Reg)
  /-- TALLY_SIGNAL (R254) -/
  | tallySignal (k : Nat)
  /-- TALLY_DECREMENT (R254) -/
  | tallyDecrement (k : Nat)
  /-- TALLY_SET (R254) -/
  | tallySet (k : Nat)
  /-- TALLY_WAIT (R254) -/
  | tallyWait (k : Nat)
  /-- BELL_ARRIVE (R258) -/
  | bellArrive (k : Nat)
  /-- BELL_WAIT (R259) -/
  | bellWait (k : Nat)
  /-- SYNC_TIMEOUT (R262) -/
  | syncTimeout (th : ThreadId)
  /-- SYNC_WITHDRAW (R263) -/
  | syncWithdraw (k : Nat)
  /-- REMOTE_SIGNAL (R269) -/
  | remoteSignal (k : Nat)
  /-- REMOTE_BELL_ARRIVAL (R270) -/
  | remoteBellArrival (k : Nat)
  /-- REMOTE_BELL_RELEASE (R270) -/
  | remoteBellRelease (k : Nat)
  /-- STRM_START (R242) -/
  | strmStart (q : QuadId) (ch : BitVec 3) (w : Writer)
  /-- STRM_RETRY (R242) -/
  | strmRetry (q : QuadId) (ch : BitVec 3) (w : Writer)
  /-- STRM_ABORT (R242) -/
  | strmAbort (q : QuadId) (ch : BitVec 3) (w : Writer)
  /-- STRM_DESC_REPLY (R231) -/
  | strmDescReply (q : QuadId) (ch : BitVec 3)
  /-- STRM_DESC_TIMEOUT (R229) -/
  | strmDescTimeout (q : QuadId) (ch : BitVec 3)
  /-- STRM_ISSUE (R234) -/
  | strmIssue (q : QuadId) (ch : BitVec 3)
  /-- STRM_READ_REPLY (R232) -/
  | strmReadReply (q : QuadId) (ch : BitVec 3) (k : Nat)
  /-- STRM_WRITE_ACK (R238) -/
  | strmWriteAck (q : QuadId) (ch : BitVec 3) (k : Nat)
  /-- STRM_TIMEOUT (R244) -/
  | strmTimeout (q : QuadId) (ch : BitVec 3)
  /-- STRM_WAIT_TIMEOUT (R244) -/
  | strmWaitTimeout (q : QuadId) (ch : BitVec 3)
  /-- REGISTRATION_READ (R280) -/
  | registrationRead (c : CtxId)
  /-- ANNOUNCE (R289) -/
  | announce (k : Nat)
  /-- PREROUND_GATHER (R289) -/
  | preroundGather (k : Nat)
  /-- PREROUND_SPREAD (R289) -/
  | preroundSpread (k : Nat)
  /-- REDUCE_SCATTER_FRAME (R292) -/
  | reduceScatterFrame (k : Nat)
  /-- ALL_GATHER_FRAME (R291) -/
  | allGatherFrame (k : Nat)
  /-- COLUMN_REDUCE_SCATTER (R291) -/
  | columnReduceScatter (k : Nat)
  /-- COLUMN_ALL_GATHER (R291) -/
  | columnAllGather (k : Nat)
  /-- RED_DEADLINE (R297) -/
  | redDeadline (e : BitVec 3) (slot : Nat)
  /-- RED_TIMEOUT (R296) -/
  | redTimeout (e : BitVec 3) (slot : Nat)
  /-- SHADOW_REQUEST (R300) -/
  | shadowRequest (k : Nat)
  /-- SHADOW_COPY (R300) -/
  | shadowCopy (k : Nat)
  /-- SHADOW_ANSWER_TIMEOUT (R300) -/
  | shadowAnswerTimeout (e : BitVec 3) (slot : Nat)
  /-- PACKET_RECEIVE (R335) -/
  | packetReceive (p : PortId) (pkt : Packet)
  /-- PACKET_EXPIRY (R336) -/
  | packetExpiry (p : PortId) (k : Nat)
  /-- ROUTE_HOLD_EXPIRY (R338) -/
  | routeHoldExpiry (dest : ModuleNo)
  /-- GENERATION_NOTICE (R339) -/
  | generationNotice (k : Nat)
  /-- UNDELIVERABLE_NOTICE (R340) -/
  | undeliverableNotice (k : Nat)
  /-- FLIT_RECEIVE (R325) -/
  | flitReceive (p : Fin 17) (flit : Flit)
  /-- FLIT_ACK (R325) -/
  | flitAck (p : Fin 17) (seq : BitVec 12)
  /-- NAK (R325) -/
  | nak (p : Fin 17) (seq : BitVec 12)
  /-- FAB_ACKTO_EXPIRY (R325) -/
  | fabAcktoExpiry (p : Fin 17)
  /-- PORT_SILENCE (R326) -/
  | portSilence (p : Fin 17)
  /-- LANE_LOCK_LOSS (R330) -/
  | laneLockLoss (p : Fin 17) (lanes : Byte)
  /-- LANEMAP (R330) -/
  | lanemap (p : Fin 17) (map : Byte)
  /-- REEVE_LANE_DROP (R330) -/
  | reeveLaneDrop (p : Fin 17) (lane : BitVec 3)
  /-- LANE_RESTORE (R331) -/
  | laneRestore (p : Fin 17) (lane : BitVec 3) (ok : Bool)
  /-- FAB_LANES_ALLOWED (R330) -/
  | fabLanesAllowed (p : PortId) (v : Byte)
  /-- FAB_PORT_ENABLE (R320) -/
  | fabPortEnable (p : Fin 17)
  /-- TRAINING_DONE (R323) -/
  | trainingDone (p : Fin 17) (found : Training)
  /-- TRAIN_LIMIT_EXPIRY (R323) -/
  | trainLimitExpiry (p : Fin 17)
  /-- FAB_RETRAIN_EXPIRY (R324) -/
  | fabRetrainExpiry (p : Fin 17)
  /-- LASER_LOSS (R316) -/
  | laserLoss (m : BitVec 2) (why : LaserWhy)
  /-- LASER_RESTORE (R317) -/
  | laserRestore (m : BitVec 2)
  /-- FAB_LASER_CTL (R315) -/
  | fabLaserCtl (m : BitVec 2) (v : Word)
  /-- PUT_READ (R342) -/
  | putRead (c : CtxId)
  /-- PUT_DATA (R343) -/
  | putData (k : Nat)
  /-- PUT_REPLY (R343) -/
  | putReply (k : Nat)
  /-- PUT_TIMEOUT (R344) -/
  | putTimeout (i : Nat)
  /-- GATE_ENABLE (R350) -/
  | gateEnable
  /-- GATE_DAD (R351) -/
  | gateDad (linkLocal dup : Bool)
  /-- NEIGHBOUR_SOLICITATION (R351) -/
  | neighbourSolicitation (m : Solicitation)
  /-- ECHO_REQUEST (R351) -/
  | echoRequest (m : EchoReq)
  /-- GATE_FRAME_DROP (R357) -/
  | gateFrameDrop (why : DropWhy)
  /-- HELLO (R355) -/
  | hello (h : Hello)
  /-- FINISH (R355) -/
  | finish (hdr : BitVec 256) (sigOk : Bool)
  /-- CLOSE (R357) -/
  | close (m : CloseMsg)
  /-- HANDSHAKE_TIMEOUT (R356) -/
  | handshakeTimeout (session : BitVec 32)
  /-- LOAD (R361) -/
  | load (r : ReqHdr) (offset length : Nat) (image : CtxImage)
  /-- START (R361) -/
  | start (r : ReqHdr)
  /-- PAUSE (R62) -/
  | pause (r : ReqHdr)
  /-- PAUSE_DONE (R363) -/
  | pauseDone (c : CtxId)
  /-- RESUME (R361) -/
  | resume (r : ReqHdr)
  /-- STOP (R364) -/
  | stop (r : ReqHdr)
  /-- DRAIN_DONE (R364) -/
  | drainDone (c : CtxId)
  /-- RESET_CTX (R409) -/
  | resetCtx (r : ReqHdr)
  /-- SNAP (R384) -/
  | snap (r : ReqHdr) (round : BitVec 32) (external : Bool)
  /-- RESTORE (R398) -/
  | restore (r : ReqHdr) (round : BitVec 32) (source : Byte) (noFallback : Bool) (rsv : BitVec 7)
  /-- QUERY_CONTEXT (R361) -/
  | queryContext (r : ReqHdr)
  /-- QUERY_EVENTS (R368) -/
  | queryEvents (r : ReqHdr) (first : Word) (count : Nat)
  /-- QUERY_REGISTER (R361) -/
  | queryRegister (r : ReqHdr) (addr : Word)
  /-- QUERY_DIGEST (R305) -/
  | queryDigest (r : ReqHdr) (ring : Byte) (bucket : BitVec 16) (step : BitVec 32)
  /-- QUERY_FEED (R361) -/
  | queryFeed (r : ReqHdr)
  /-- QUERY_RING (R361) -/
  | queryRing (r : ReqHdr) (ring : Byte)
  /-- TELEM_SET (R487) -/
  | telemSet (r : ReqHdr)
  /-- TELEM_PERIODIC (R487) -/
  | telemPeriodic (r : ReqHdr) (periodUs : Nat)
  /-- TELEM_SUBSCRIBE (R369) -/
  | telemSubscribe (r : ReqHdr) (minSeverity : Byte)
  /-- TELEM_CANCEL (R369) -/
  | telemCancel (r : ReqHdr) (what : Byte)
  /-- TELEM_PERIOD_EXPIRY (R487) -/
  | telemPeriodExpiry (session : BitVec 32)
  /-- EVENT_FLUSH (R369) -/
  | eventFlush (session : BitVec 32)
  /-- ATTEST_REPORT (R462) -/
  | attestReport (r : ReqHdr) (nonce : BitVec 256)
  /-- ATTEST_CERT (R462) -/
  | attestCert (r : ReqHdr)
  /-- FW_STAGE (R450) -/
  | fwStage (r : ReqHdr) (offset length : Nat) (bundle : Bundle)
  /-- FW_COMMIT (R451) -/
  | fwCommit (r : ReqHdr)
  /-- CMD_TIMEOUT (R366) -/
  | cmdTimeout (target : Option CtxId)
  /-- CMD_LOAD_IDLE (R362) -/
  | cmdLoadIdle (target : Option CtxId)
  /-- FEED_REQUEST (R373) -/
  | feedRequest (c : CtxId)
  /-- FEED_DATA (R374) -/
  | feedData (c : CtxId) (f : FeedFragment)
  /-- FEED_END (R370) -/
  | feedEnd (c : CtxId) (m : FeedEnd) (offset : Word)
  /-- FEED_ERR (R374) -/
  | feedErr (c : CtxId) (m : FeedErr)
  /-- FEED_RETRY_EXPIRY (R374) -/
  | feedRetryExpiry (c : CtxId)
  /-- SNAP_QUIESCE_DONE (R386) -/
  | snapQuiesceDone (c : CtxId)
  /-- SNAP_QUIESCE (R385) -/
  | snapQuiesce (c : CtxId)
  /-- SNAP_BLOCK_READ (R387) -/
  | snapBlockRead (c : CtxId)
  /-- SNAP_STAGE_DONE (R389) -/
  | snapStageDone (c : CtxId)
  /-- SNAP_PKT_DATA (R390) -/
  | snapPktData (k : Nat)
  /-- SNAP_PKT_DIGEST (R390) -/
  | snapPktDigest (k : Nat)
  /-- SNAP_PKT_ACK (R390) -/
  | snapPktAck (k : Nat)
  /-- SNAP_PKT_ASK_AGAIN (R390) -/
  | snapPktAskAgain (k : Nat)
  /-- SNAP_PKT_MANIFEST (R390) -/
  | snapPktManifest (k : Nat)
  /-- SNAP_PKT_FETCH (R396) -/
  | snapPktFetch (k : Nat)
  /-- SNAP_PKT_CATALOGUE (R384) -/
  | snapPktCatalogue (k : Nat)
  /-- SNAP_PAIRING (R384) -/
  | snapPairing
  /-- SNAP_TIMEOUT (R403) -/
  | snapTimeout (b : SnapBound)
  /-- VAULT_SIGN_DONE (R382) -/
  | vaultSignDone (c : CtxId)
  /-- HOSTED_COMPACTION (R393) -/
  | hostedCompaction (i : BitVec 2)
  /-- SNAP_EXTERNAL_COPY (R396) -/
  | snapExternalCopy (c : CtxId)
  /-- RESTORE_BLOCK (R399) -/
  | restoreBlock (c : CtxId) (f : StoreFrame)
  /-- SNAP_SCHED_ENABLE (R383) -/
  | snapSchedEnable (c : CtxId)
  /-- PROBE_ANSWER (R406) -/
  | probeAnswer (u : UnitId)
  /-- PROBE_TIMEOUT (R406) -/
  | probeTimeout (u : UnitId)
  /-- QUIESCE_ACK (R408) -/
  | quiesceAck (c : CtxId) (u : UnitId)
  /-- PURGE_BOUND_EXPIRY (R410) -/
  | purgeBoundExpiry (c : CtxId)
  /-- FENCE_TIMEOUT (R410) -/
  | fenceTimeout (c : CtxId) (u : UnitId)
  /-- GEN_GAP_EXPIRY (R411) -/
  | genGapExpiry (c : CtxId)
  /-- RST_QUIESCE_WRITE (R433) -/
  | rstQuiesceWrite (v : Word)
  /-- RST_GEN_GAP_WRITE (R433) -/
  | rstGenGapWrite (v : Word)
  /-- ENGINE_RESET_DONE (R412) -/
  | engineResetDone (u : UnitId)
  /-- ENGINE_RESET_TIMEOUT (R415) -/
  | engineResetTimeout (u : UnitId)
  /-- DIE_RESET_DONE (R413) -/
  | dieResetDone (d : Nat)
  /-- DIE_RESET_TIMEOUT (R415) -/
  | dieResetTimeout (d : Nat)
  /-- WATCHDOG_EXPIRY (R414) -/
  | watchdogExpiry
  /-- LOCKSTEP_MISMATCH (R466) -/
  | lockstepMismatch
  /-- CARRIER_RESET (R496) -/
  | carrierReset
  /-- RESET_N_RISE (R495) -/
  | resetNRise
  /-- HEARTBEAT_SEND (R417) -/
  | heartbeatSend
  /-- HEARTBEAT (R417) -/
  | heartbeat (k : Nat)
  /-- PEER_DEAD (R419) -/
  | peerDead (c : CtxId) (ring : BitVec 3) (m : ModuleNo)
  /-- FAULT_NOTICE (R418) -/
  | faultNotice (k : Nat)
  /-- DEAD_NOTICE (R419) -/
  | deadNotice (k : Nat)
  /-- SWITCH (R420) -/
  | switch (k : Nat)
  /-- SWITCH_ACK (R420) -/
  | switchAck (k : Nat)
  /-- GO (R421) -/
  | go (k : Nat)
  /-- BUCKET_COPY (R422) -/
  | bucketCopy (k : Nat)
  /-- JOIN (R428) -/
  | join (k : Nat)
  /-- JOIN_HOLD_EXPIRY (R428) -/
  | joinHoldExpiry (c : CtxId)
  /-- BOOT_START (R434) -/
  | bootStart
  /-- FUSE (R437) -/
  | fuse (found : FuseFind)
  /-- FW_VERIFY (R441) -/
  | fwVerify (sigOk : Bool)
  /-- CFG (R443) -/
  | cfg (sigOk : Bool)
  /-- TRAIN (R434) -/
  | train (ok : Bool)
  /-- RELEASE (R435) -/
  | release
  /-- BOOT_CTL_ENABLE (R443) -/
  | bootCtlEnable
  /-- JOURNAL_READBACK (R454) -/
  | journalReadback (ok : Bool)
  /-- JOURNAL_COMPACT (R457) -/
  | journalCompact
  /-- JOURNAL_COMPACT_DONE (R457) -/
  | journalCompactDone
  /-- DRBG_RESEED (R459) -/
  | drbgReseed
  /-- VAULT_HEALTH_FAIL (R461) -/
  | vaultHealthFail (selftest : Bool)
  /-- SAMPLE (R480) -/
  | sample (x : Sample)
  /-- THERMAL_COMPARE (R481) -/
  | thermalCompare
  /-- LINK_MARGIN_READ (R475) -/
  | linkMarginRead (ms : List Margin)
  /-- SETTLE_EXPIRY (R479) -/
  | settleExpiry (d : DieId)
  /-- PWR_LEVEL_WINDOW_END (R488) -/
  | pwrLevelWindowEnd (d : DieId) (cause : BitVec 2)
  /-- COMPARATOR_TRIP (R482) -/
  | comparatorTrip (d : Nat)
  /-- ROOT_PLL_UNLOCK (R472) -/
  | rootPllUnlock
  /-- PHY_PLL_UNLOCK (R472) -/
  | phyPllUnlock (u : UnitId)
  /-- VIN_LOCKOUT (R492) -/
  | vinLockout (mv : Int)
  /-- VIN_RETURN (R492) -/
  | vinReturn
  /-- VSTBY_LOSS (R506) -/
  | vstbyLoss
  /-- REFCLK_LOSS (R497) -/
  | refclkLoss
  /-- REFCLK_RETURN (R497) -/
  | refclkReturn
  /-- CORE_GATE (R473) -/
  | coreGate (g : CoreId)
  /-- QUAD_GATE (R473) -/
  | quadGate (q : QuadId)
  /-- HUB_ENGINE_GATE (R473) -/
  | hubEngineGate (h : Fin 2)
  /-- REGISTER_WRITE (R11) -/
  | registerWrite (addr : Word) (v : Word) (bytes : Nat)
  /-- ILLEGAL_OPCODE (R48) -/
  | illegalOpcode (th : ThreadId) (word : BitVec 32)
  /-- EXTERNAL_STORE_ACK (R396) -/
  | externalStoreAck (a : StoreAck)
  /-- SWITCHOVER_BOUND_EXPIRY (R426) -/
  | switchoverBoundExpiry (c : CtxId) (ring : BitVec 3)
  /-- VSTBY_RETURN (R506) -/
  | vstbyReturn
  /-- HOSTED_COMPACTION_END (R393) -/
  | hostedCompactionEnd (i : BitVec 2)
deriving DecidableEq, Repr

end Sys2Proof
end

