-- ==== Sys2Proof/Decode.lean ====
section
/-!
DEFINITION. What words spell. `decodeInstr` is the instruction set's decoder: the instruction that a 32-bit word is, for the
thread that issues it, by the formats of Table 2.4 and the encodings of Tables 2.5, 2.6, 4.10, 5.8, 5.9, 5.11, 7.12 and
9.8; none for an opcode or an fn value that the tables do not define (R47 to R49). A field that must be 0 is left to the
instruction's meaning, which raises ILLEGAL where it is not. `decodeTableWord` is the command that a word spells by the
bits of spec/opcode_table.json, of which no row gives any.
-/

namespace Sys2Proof

/-- No row has bits. -/
def decodeTableWord (_nbits _w : Nat) : Option Instr := none

/-- The n bits of a word from bit off. -/
def field (w : BitVec 32) (off n : Nat) : BitVec n := (w >>> off).setWidth n

/-- Opcode 0x01. -/
def decodeReg (th : ThreadId) (fn : Nat) (rd rs1 rs2 : Reg) : Option Instr :=
  match fn with
  | 0x000 => some (.add th rd rs1 rs2)
  | 0x001 => some (.sub th rd rs1 rs2)
  | 0x002 => some (.and th rd rs1 rs2)
  | 0x003 => some (.or th rd rs1 rs2)
  | 0x004 => some (.xor th rd rs1 rs2)
  | 0x005 => some (.shl th rd rs1 rs2)
  | 0x006 => some (.shr th rd rs1 rs2)
  | 0x007 => some (.sra th rd rs1 rs2)
  | 0x008 => some (.slt th rd rs1 rs2)
  | 0x009 => some (.sltu th rd rs1 rs2)
  | 0x010 => some (.mul th rd rs1 rs2)
  | 0x011 => some (.mulh th rd rs1 rs2)
  | 0x012 => some (.mulhu th rd rs1 rs2)
  | 0x018 => some (.div th rd rs1 rs2)
  | 0x019 => some (.divu th rd rs1 rs2)
  | 0x01A => some (.rem th rd rs1 rs2)
  | 0x01B => some (.remu th rd rs1 rs2)
  | _ => none

/-- Opcodes 0x28, 0x2C to 0x2F and 0x3E. -/
def decodeSys (th : ThreadId) (op fn : Nat) (rd rs1 rs2 : Reg) : Option Instr :=
  match op, fn with
  | 0x28, 0x000 => some (.trap th rd rs1 rs2)
  | 0x28, 0x001 => some (.eret th rd rs1 rs2)
  | 0x28, 0x002 => some (.halt th rd rs1 rs2)
  | 0x28, 0x003 => some (.iflush th rd rs1 rs2)
  | 0x2C, 0x000 => some (.fence th rd rs1 rs2)
  | 0x2C, 0x001 => some (.pginv th rd rs1 rs2)
  | 0x2C, 0x002 => some (.pginva th rd rs1 rs2)
  | 0x2D, 0x000 => some (.tsig th rd rs1 rs2)
  | 0x2D, 0x001 => some (.tdec th rd rs1 rs2)
  | 0x2D, 0x002 => some (.tset th rd rs1 rs2)
  | 0x2D, 0x003 => some (.tread th rd rs1 rs2)
  | 0x2D, 0x004 => some (.twait th rd rs1 rs2)
  | 0x2E, 0x000 => some (.barr th rd rs1 rs2)
  | 0x2E, 0x001 => some (.bwait th rd rs1 rs2)
  | 0x2E, 0x002 => some (.bread th rd rs1 rs2)
  | 0x2F, 0x000 => some (.tsigr th rd rs1 rs2)
  | 0x3E, 0x000 => some (.tzero th rd rs1 rs2)
  | 0x3E, 0x001 => some (.tmov th rd rs1 rs2)
  | 0x3E, 0x002 => some (.tinv th rd rs1 rs2)
  | 0x3E, 0x003 => some (.ttag th rd rs1 rs2)
  | 0x3E, 0x004 => some (.tsetm th rd rs1 rs2)
  | 0x3E, 0x005 => some (.tgetm th rd rs1 rs2)
  | _, _ => none

/-- Formats I, S, B and J: opcodes 0x04 to 0x27, 0x29 and 0x2A. -/
def decodeImm (th : ThreadId) (op : Nat) (a b : Reg) (imm : BitVec 16) (off : BitVec 21) : Option Instr :=
  match op with
  | 0x04 => some (.addi th a b imm)
  | 0x05 => some (.andi th a b imm)
  | 0x06 => some (.ori th a b imm)
  | 0x07 => some (.xori th a b imm)
  | 0x08 => some (.slti th a b imm)
  | 0x09 => some (.sltiu th a b imm)
  | 0x0A => some (.shifti th a b imm)
  | 0x0B => some (.lui th a off)
  | 0x0C => some (.auipc th a off)
  | 0x10 => some (.ldb th a b imm)
  | 0x11 => some (.ldbu th a b imm)
  | 0x12 => some (.ldh th a b imm)
  | 0x13 => some (.ldhu th a b imm)
  | 0x14 => some (.ldw th a b imm)
  | 0x15 => some (.ldwu th a b imm)
  | 0x16 => some (.ldd th a b imm)
  | 0x18 => some (.stb th a b imm)
  | 0x19 => some (.sth th a b imm)
  | 0x1A => some (.stw th a b imm)
  | 0x1B => some (.std th a b imm)
  | 0x20 => some (.beq th a b imm)
  | 0x21 => some (.bne th a b imm)
  | 0x22 => some (.blt th a b imm)
  | 0x23 => some (.bge th a b imm)
  | 0x24 => some (.bltu th a b imm)
  | 0x25 => some (.bgeu th a b imm)
  | 0x26 => some (.jal th a off)
  | 0x27 => some (.jalr th a b imm)
  | 0x29 => some (.csrr th a b imm)
  | 0x2A => some (.csrw th a b imm)
  | _ => none

/-- Opcode 0x30. -/
def decodeVInt (th : ThreadId) (fn : Nat) (f : VInt) : Option Instr :=
  match fn with
  | 0x00 => some (.vadd th f)
  | 0x01 => some (.vsub th f)
  | 0x02 => some (.vmul th f)
  | 0x03 => some (.vmulh th f)
  | 0x04 => some (.vmulhu th f)
  | 0x05 => some (.vand th f)
  | 0x06 => some (.vor th f)
  | 0x07 => some (.vxor th f)
  | 0x08 => some (.vshl th f)
  | 0x09 => some (.vshr th f)
  | 0x0A => some (.vsra th f)
  | 0x0B => some (.vmin th f)
  | 0x0C => some (.vmax th f)
  | 0x0D => some (.vminu th f)
  | 0x0E => some (.vmaxu th f)
  | 0x0F => some (.vadds th f)
  | 0x10 => some (.vsubs th f)
  | 0x11 => some (.vaddsu th f)
  | 0x12 => some (.vsubsu th f)
  | 0x13 => some (.vcmpeq th f)
  | 0x14 => some (.vcmplt th f)
  | 0x15 => some (.vcmpltu th f)
  | 0x16 => some (.vcmple th f)
  | 0x17 => some (.vcmpleu th f)
  | 0x18 => some (.vsel th f)
  | 0x19 => some (.vperm th f)
  | _ => none

/-- Opcodes 0x31 and 0x32. -/
def decodeVFlt (th : ThreadId) (op fn : Nat) (f : VFlt) : Option Instr :=
  match op, fn with
  | 0x31, 0 => some (.vfadd th f)
  | 0x31, 1 => some (.vfsub th f)
  | 0x31, 2 => some (.vfmul th f)
  | 0x31, 3 => some (.vfdiv th f)
  | 0x31, 4 => some (.vfmax th f)
  | 0x31, 5 => some (.vfmin th f)
  | 0x31, 6 => some (.vfma th f)
  | 0x31, 7 => some (.vfnma th f)
  | 0x32, 0 => some (.vfsqrt th f)
  | 0x32, 1 => some (.vfabs th f)
  | 0x32, 2 => some (.vfneg th f)
  | 0x32, 3 => some (.vfcmpeq th f)
  | 0x32, 4 => some (.vfcmplt th f)
  | 0x32, 5 => some (.vfcmple th f)
  | 0x32, 6 => some (.vfcmpne th f)
  | _, _ => none

/-- Opcode 0x33. -/
def decodeVRed (th : ThreadId) (fn : Nat) (f : VRed) : Option Instr :=
  match fn with
  | 0 => some (.vredSum th f)
  | 1 => some (.vredSumsq th f)
  | 2 => some (.vredMax th f)
  | 3 => some (.vredMin th f)
  | 4 => some (.vredAnd th f)
  | 5 => some (.vredOr th f)
  | 6 => some (.vredXor th f)
  | _ => none

/-- Opcodes 0x35 and 0x36, by mode. Bit [0] of a store, `z`, must be 0. -/
def decodeVMem (th : ThreadId) (op mode : Nat) (f : VMem) : Option Instr :=
  match op, mode with
  | 0x35, 0 => some (.vld th f)
  | 0x35, 1 => some (.vlds th f)
  | 0x35, 2 => some (.vgath th f)
  | 0x35, 3 => some (.vldff th f)
  | 0x35, 4 => some (.vgathff th f)
  | 0x36, 0 => some (.vst th f)
  | 0x36, 1 => some (.vsts th f)
  | 0x36, 2 => some (.vscat th f)
  | _, _ => none

/-- Scalar floating point: fn[7:4] of 0x200 to 0x2AF. -/
def decodeSFlt (th : ThreadId) (k : Nat) (f : VMisc) : Option Instr :=
  match k with
  | 0 => some (.fadd th f)
  | 1 => some (.fsub th f)
  | 2 => some (.fmul th f)
  | 3 => some (.fdiv th f)
  | 4 => some (.fsqrt th f)
  | 5 => some (.fmax th f)
  | 6 => some (.fmin th f)
  | 7 => some (.fma th f)
  | 8 => some (.feq th f)
  | 9 => some (.flt th f)
  | 0xA => some (.fle th f)
  | _ => none

/-- Opcode 0x37 (Table 5.11): what fn carries in its low bits goes into `sub`. -/
def decodeVMisc (th : ThreadId) (fn : Nat) (rd rs1 rs2 : Reg) : Option Instr :=
  let f (n : Nat) : VMisc := ⟨rd, rs1, rs2, BitVec.ofNat 6 (fn % 2 ^ n)⟩
  if fn / 16 ≥ 0x20 && fn / 16 ≤ 0x2A then decodeSFlt th (fn / 16 - 0x20) (f 4)
  else if fn / 64 == 0xC then some (.fcvtxf th (f 6))
  else if fn / 64 == 0xD then some (.fcvtfx th (f 6))
  else
    match fn / 4 with
    | 0x01 => some (.pset th (f 2))
    | 0x03 => some (.plen th (f 2))
    | 0x40 => some (.vdup th (f 2))
    | 0x41 => some (.vgetx th (f 2))
    | 0x42 => some (.viota th (f 2))
    | _ =>
      match fn with
      | 0x000 => some (.pand th (f 0))
      | 0x001 => some (.por th (f 0))
      | 0x002 => some (.pxor th (f 0))
      | 0x003 => some (.pandn th (f 0))
      | 0x008 => some (.pclr th (f 0))
      | 0x010 => some (.ppop th (f 0))
      | 0x011 => some (.plow th (f 0))
      | 0x020 => some (.ffarm th (f 0))
      | 0x021 => some (.fftake th (f 0))
      | 0x022 => some (.ffput th (f 0))
      | 0x023 => some (.ffcut th (f 0))
      | 0x110 => some (.fmvxf th (f 0))
      | 0x111 => some (.fmvfx th (f 0))
      | 0x700 => some (.gld th (f 0))
      | 0x701 => some (.gst th (f 0))
      | 0x702 => some (.gfill th (f 0))
      | 0x703 => some (.gchk th (f 0))
      | _ => none

/-- Opcodes 0x38 to 0x3D (Table 4.10). -/
def decodeTile (th : ThreadId) (op : Nat) (w : BitVec 32) : Option Instr :=
  let m : TMem := ⟨field w 23 3, field w 18 5, field w 13 5, field w 8 5, field w 4 4, field w 0 4⟩
  let a : TAcc := ⟨field w 22 2, field w 17 5, field w 12 5, w.getLsbD 11, field w 0 11⟩
  let x : TMul := ⟨field w 24 2, field w 21 3, field w 18 3, field w 14 4, field w 10 4, field w 0 10⟩
  match op, (field w 24 2).toNat with
  | 0x38, _ => some (.tld th m)
  | 0x39, _ => some (.tst th m)
  | 0x3A, _ => some (.tldt th m)
  | 0x3B, 0 => some (.tald th a)
  | 0x3B, 1 => some (.tast th a)
  | 0x3B, 2 => some (.tazero th (field w 22 2) (field w 12 10) (w.getLsbD 11) (field w 0 11))
  | 0x3B, _ => some (.tacvt th ⟨field w 22 2, field w 19 3, field w 15 4, field w 13 2, field w 10 3, field w 0 10⟩)
  | 0x3C, _ => some (.tmma th x)
  | 0x3D, _ => some (.tmmaz th x)
  | _, _ => none

/-- The instruction a word is, issued by thread th; none where the word raises ILLEGAL by its opcode or fn (R48). -/
def decodeInstr (th : ThreadId) (w : BitVec 32) : Option Instr :=
  let op := (field w 26 6).toNat
  let a : Reg := field w 21 5
  let b : Reg := field w 16 5
  let c : Reg := field w 11 5
  let fn := (field w 0 11).toNat
  let pg : BitVec 3 := field w 8 3
  match op with
  | 0x01 => decodeReg th fn a b c
  | 0x30 => decodeVInt th (fn % 32) ⟨a, b, c, pg, w.getLsbD 7, field w 5 2⟩
  | 0x31 => decodeVFlt th op (fn % 8) ⟨a, b, c, pg, w.getLsbD 7, field w 3 4⟩
  | 0x32 => decodeVFlt th op (fn % 8) ⟨a, b, c, pg, w.getLsbD 7, field w 3 4⟩
  | 0x33 => decodeVRed th (fn % 8) ⟨a, b, c, pg, w.getLsbD 7, field w 3 4⟩
  | 0x34 => some (.vcvt th ⟨a, b, field w 12 4, field w 8 4, field w 5 3, field w 3 2, field w 0 3⟩)
  | 0x35 => decodeVMem th op (field w 3 3).toNat ⟨a, b, c, pg, field w 6 2, field w 1 2, w.getLsbD 0⟩
  | 0x36 => decodeVMem th op (field w 3 3).toNat ⟨a, b, c, pg, field w 6 2, field w 1 2, w.getLsbD 0⟩
  | 0x37 => decodeVMisc th fn a b c
  | _ =>
    if 0x38 ≤ op && op ≤ 0x3D then decodeTile th op w
    else if op == 0x28 || 0x2C ≤ op then decodeSys th op fn a b c
    else decodeImm th op a b (field w 0 16) (field w 0 21)

end Sys2Proof
end

