-- ==== Sys2Proof/Machine/Bits.lean ====
section
/-!
DEFINITION. Bit fields, packing and sign extension.
-/

namespace Sys2Proof.Machine

/-- The w bits of v from bit off. -/
def getF {n : Nat} (v : BitVec n) (off w : Nat) : Nat := v.toNat >>> off % 2 ^ w

/-- v with the w bits from off replaced by x. -/
def putF {n : Nat} (v : BitVec n) (off w x : Nat) : BitVec n :=
  (v &&& ~~~ (BitVec.ofNat n (2 ^ w - 1) <<< off)) ||| (BitVec.ofNat n (x % 2 ^ w) <<< off)

/-- Fields of w bits, the first lowest. -/
def packF (w : Nat) (l : List Nat) : Nat := l.foldr (fun x acc => x % 2 ^ w + acc * 2 ^ w) 0

/-- The first k fields of w bits of v. -/
def unpackF {n : Nat} (v : BitVec n) (w k : Nat) : List Nat := (List.range k).map fun i => getF v (w * i) w

/-- A Bool as a bit. -/
def b2n (b : Bool) : Nat := if b then 1 else 0

/-- Sign extension of a low part of a word. -/
def sextN (w : Nat) (v : Nat) : Word :=
  if v % 2 ^ w ≥ 2 ^ (w - 1) then BitVec.ofNat 64 (v % 2 ^ w + (2 ^ 64 - 2 ^ w)) else BitVec.ofNat 64 (v % 2 ^ w)

/-- Number of set bits below k. -/
def popCount {n : Nat} (v : BitVec n) (k : Nat) : Nat := ((List.range k).filter fun i => v.getLsbD i).length

/-- Index of the lowest set bit below k, k if none. -/
def lowBit {n : Nat} (v : BitVec n) (k : Nat) : Nat := ((List.range k).find? fun i => v.getLsbD i).getD k

/-- The low k bits set. -/
def lowMask (n k : Nat) : BitVec n := BitVec.ofNat n (2 ^ k - 1)

/-- Saturating count of a register field. -/
def satAdd (w a b : Nat) : Nat := min (a + b) (2 ^ w - 1)

end Sys2Proof.Machine
end

