-- ==== Sys2Proof/Config.lean ====
section
/-!
DEFINITION. What one machine fixes and the manual leaves open: free values, opaque constants with no body, so that no
proof can rest on a value of theirs (log 2).
-/

namespace Sys2Proof

/-- The n-th free value of w bits: DRBG output, session keys, signature bytes, a cache victim, whether a store of an
old generation took effect. The machine applies it to its counter and advances the counter. -/
opaque Config.free : (w : Nat) → Nat → BitVec w

/-- How the sets of a cache of `sets` sets are numbered by the key of a line or page: any fixed function, taken modulo the
number of sets (R207, R211). -/
opaque Config.setOf : (sets key : Nat) → Nat

/-- ELEMS of a bucket of which a member knows neither a registration nor an earlier step: context, ring, BUCKET_ID, step
(R298: the frame header does not give it, log 160). -/
opaque Config.lateElems : CtxId → Nat → BitVec 16 → BitVec 32 → BitVec 32

/-- Where in its home's Cellar the line of a Granary granule lies, as a die offset. -/
opaque Config.cacheOffset : (cfrac granule : Nat) → Nat

/-- The i-th byte of a payload whose layout the manual does not give (log 13). -/
opaque Config.wireByte : Payload → Nat → Byte

/-- The link header of a flit that is sent, by its number (R313): the manual gives its bytes no layout (log 13). -/
opaque Config.linkHeader : BitVec 12 → BitVec 64

/-- The public key of the device's identity key pair (R460). -/
opaque Config.identityKey : BitVec 20736

/-- The device's ML-DSA-87 signature over a digest, hedged with 256 random bits (R382, R459). -/
opaque Config.sign : (msg : Digest) → (rnd : BitVec 256) → BitVec 37016

/-- The Reeve code of section 0x0001 of the firmware image with this digest (R466). -/
opaque Config.reeveCode : Digest → List Byte

/-- The owner's ML-DSA-87 public key that Acerama wrote into the journal before delivery (R442). -/
opaque Config.ownerKey : BitVec 20736

/-- The journal key, which never leaves the Vault (R453). -/
opaque Config.journalKey : BitVec 512

/-- The certificate authority's signature over the digest of a device certificate (R460). -/
opaque Config.certified : Digest → BitVec 37016

/-- ML-KEM-1024 encapsulation to a key with 32 random bytes: the shared secret and the ciphertext (R355). -/
opaque Config.encaps : BitVec 12544 → BitVec 256 → BitVec 256 × BitVec 12544

/-- The set-point of a rail in mV by the fuses' TRIM: of a core rail by its divider (V4 to V8), of another rail with 0. -/
opaque Config.setPoint : (trim : BitVec 8192) → (rail div : Nat) → Nat

/-- The rating of a rail in 0.1 A. -/
opaque Config.rating : (rail : Nat) → Nat

end Sys2Proof
end

