-- ==== Sys2Proof/Machine/State.lean ====
section
/-!
DEFINITION. The state of the module: every register, memory, queue and mark the manual names, as plain data, and the
queue of commands. Tables over threads, cores, quads, tallies and bells are sparse: an entry not listed stands at its
reset value. INVENTORY.md gives each item's rule and reset value. `State.reset` is the module as it enters
RESET_ENTRY, with the carrier holding RESET_N low.
-/

namespace Sys2Proof.Machine

/-! ### Event records (00_scope.md) -/

/-- An event record (Table 0.4). FORMAT is 0x01. -/
structure EventRec where
  code : Reason
  severity : Byte
  context : Option CtxId
  generation : Byte
  unit : UnitId
  object : BitVec 32
  waiter : Option ThreadId
  seq : Nat
  stamp : Nat
  clock : Byte
  detail : BitVec 192
deriving DecidableEq, Repr

/-- Where a unit's STAMP counter runs (R19). -/
inductive Clk where
  | core (d : DieId)
  | mesh
  | uncore
  | reeve
deriving DecidableEq, Repr

/-- Cycle counts of the named clocks since the model's reset (Table 0.1); `phase` counts root cycles. -/
structure Clocks where
  phase : Nat := 0
  core : SMap Nat := []
  corePhase : SMap Nat := []
  mesh : Nat := 0
  uncore : Nat := 0
  reeve : Nat := 0
deriving DecidableEq, Repr

/-! ### Threads (02_cores_and_threads.md) -/

/-- Thread states (Table 2.2). -/
inductive TState where
  | halted
  | ready
  | waitFetch
  | waitMem
  | waitSync
  | waitUnit
  | paused
deriving DecidableEq, Repr

/-- What a thread in WAIT_UNIT waits for (R41, R60, R124, R126, R130, R144, R145, R164, R200). -/
inductive Why where
  | none
  | slot
  | retire
  | wake
  | divider
  | array
  | group
  | bench
deriving DecidableEq, Repr

/-- Base control and status registers of a thread (Table 2.7). -/
structure Csrs where
  status : BitVec 6 := 1
  tvec : Word := 0
  epc : Word := 0
  cause : Word := 0
  tval : Word := 0
  ien : BitVec 2 := 0
  ipend : BitVec 2 := 0
  timer : Word := 0
  instret : Word := 0
  scratch : Word := 0
deriving DecidableEq, Repr

/-- A tile register (R99, R100); row r is bits [512r + 511 : 512r] of `data`, [32r + 31 : 32r] of `side`. `bad` marks
an uncorrectable error in it (R118). -/
structure TileReg where
  fmt : BitVec 4 := 0xF
  rows : Nat := 16
  data : BitVec 8192 := 0
  side : BitVec 512 := 0
  bad : Bool := false
deriving DecidableEq, Repr

/-- An accumulator tile (R99, R100); element (i, j) is the 32 bits from 32(16i + j). -/
structure AccReg where
  fmt : BitVec 4 := 0xF
  poison : Bool := false
  data : BitVec 8192 := 0
  bad : Bool := false
deriving DecidableEq, Repr

/-- Tile state of a thread (R99, R103, Tables 3.9, 4.15). -/
structure TileRegs where
  t : SMap TileReg := []
  a : SMap AccReg := []
  trm : BitVec 16 := 0xFFFF
  tbm : BitVec 16 := 0xFFFF
  tkm : BitVec 16 := 0xFFFF
  abort : Word := 0
  key : BitVec 128 := 0
  ctr : BitVec 128 := 0
deriving DecidableEq, Repr

/-- Vector and arithmetic state of a thread (R139, Tables 3.9, 5.13). `badV` lists (register, word), `badP` the
predicate registers' bad words and `badF` those of FFR (R167). -/
structure VecRegs where
  v : SMap (BitVec 2048) := []
  p : SMap (BitVec 256) := []
  ffr : BitVec 256 := BitVec.allOnes 256
  badV : List (Nat × Nat) := []
  badP : List (Nat × Nat) := []
  badF : List Nat := []
  fault : Word := 0
  flags : BitVec 6 := 0
  strict : Bool := false
  key : BitVec 128 := 0
  ctr : BitVec 128 := 0
  step : Word := 0
deriving DecidableEq, Repr

/-- One write that an instruction in flight makes when it retires. -/
inductive Wr where
  | x (r : Reg) (v : Word)
  | v (r : Nat) (v : BitVec 2048)
  /-- a cut load: the words named are written whole, the others in part or not at all (R155) -/
  | vpart (r : Nat) (v : BitVec 2048) (words : List Nat)
  | f (r : Nat) (v : BitVec 64)
  | p (r : Nat) (v : BitVec 256)
  | ffr (v : BitVec 256)
  | ffrPart (v : BitVec 256) (words : List Nat)
  | flags (f : BitVec 6)
  | vfault (w : Word)
  | t (i : Nat) (v : TileReg)
  | a (i : Nat) (v : AccReg)
  | mask (m : Nat) (v : BitVec 16)
  | abort (w : Word)
  | vecCtr
  | tileCtr
  | bench (cells : List (Nat × Byte))
deriving DecidableEq, Repr

/-- Which unit an instruction in flight uses, for the counters of its retirement and what it holds meanwhile. -/
inductive FlyUnit where
  | vector
  | divider
  | tile
  | tmma
  | array
deriving DecidableEq, Repr

/-- An instruction in flight (R124, R144): what it writes at retirement. -/
structure Fly where
  unit : FlyUnit
  wr : List Wr
deriving DecidableEq, Repr

/-- A part of a memory access that is checked on its own (R192): address, bytes, its number (element, row), and the
bytes to store (none for a load). -/
structure Part where
  va : Word
  len : Nat
  idx : Nat
  data : List Byte := []
deriving DecidableEq, Repr

/-- Access kinds, in the encoding of DETAIL byte [58] (R199). -/
inductive AKind where
  | load
  | store
  | fetch
deriving DecidableEq, Repr

/-- What an access does when its parts are served. -/
inductive AccEnd where
  /-- scalar load of rd -/
  | ld (rd : Reg) (len : Nat) (signed : Bool)
  | tld (t : BitVec 3) (fmt : BitVec 4) (n : Nat)
  | tald (a : BitVec 2) (int : Bool)
  /-- vector load of vd under `act`; `cut`: the cut of a first-fault load so far (R155) -/
  | vld (vd : Reg) (esz : BitVec 2) (act : BitVec 256) (z : Bool) (ff : Bool) (cut : Nat)
  | gld (k : Nat)
  | gchk (rd : Reg) (k : Nat)
  | st
  /-- tile register n, or accumulator n - 8 -/
  | tst (n : Nat)
  | vst
  | gst
deriving DecidableEq, Repr

/-- A memory access of one instruction. `pc` is the instruction's own address; it is the thread's PC until it
retires. -/
structure Access where
  kind : AKind
  parts : List Part
  fin : AccEnd
deriving DecidableEq, Repr

/-- Request of an access: the numbers (in `parts`) of the parts it carries, the line it goes to, whether it has been
sent, what came back. -/
structure Req where
  line : Nat
  parts : List Nat
  sent : Bool := false
  got : Option (List (List Byte)) := none
  err : Option Reason := none
deriving DecidableEq, Repr

/-- Operations of the sync units (Table 9.10), reads and withdrawals among them. -/
inductive SyncOp where
  | signal
  | decrement
  | set
  | read
  | wait
  | arrive
  | bellWait
  | bellRead
  | withdraw
deriving DecidableEq, Repr

/-- Exceptions and interrupts (Table 2.11). -/
inductive Cause where
  | illegal
  | priv
  | divZero
  | trap
  | fetch
  | memory
  | asyncMem
  | execution
  | sync
  | soft
  | timer
deriving DecidableEq, Repr

/-- What an exception leaves beside the handler's registers, once it is taken: the mark of a load or of a vector access
(R107, R152), an uncorrectable error found in a tile (R118), in a vector register (R167), or in the own Bench: place and
address (R216). -/
inductive ExcEffect where
  | access (f : AccEnd) (idx rows : Nat)
  | tileEcc (n : Nat)
  | vecEcc
  | benchEcc (loc : Nat) (va : Word)
  /-- the core's own record for a sync instruction (R271) -/
  | syncRec (code : Reason) (obj : BitVec 32) (detail : BitVec 192)
deriving DecidableEq, Repr

/-- An exception at the thread's instruction: its cause, code and CORE_TVAL, whether the core writes its record, the
record's OBJECT and further DETAIL. -/
structure Exc where
  cause : Cause
  reason : Reason
  tval : Word
  logs : Bool := true
  obj : BitVec 32 := 0xFFFFFFFF
  extra : BitVec 192 := 0
  effects : List ExcEffect := []
  /-- at the instruction not fetched -/
  atFetch : Bool := false
deriving DecidableEq, Repr

/-- What a thread waits a reply for (R41, R212, R219, R266). -/
inductive Pend where
  /-- an access, with the page whose walk is outstanding, or its requests -/
  | access (acc : Access) (walk : Option Nat) (reqs : List Req)
  /-- a scalar load from a register of a unit -/
  | reg (rd : Reg) (addr : Word) (len : Nat) (signed : Bool)
  /-- a reply instruction at a sync unit, and its answer once applied -/
  | sync (op : SyncOp) (obj : Nat) (rd : Reg) (answer : Option (Reason × Word))
  /-- PGINV of a page, or of all -/
  | pginv (addr : Option Word)
  | fence
deriving DecidableEq, Repr

/-- A posted store in flight (R218): its number among the thread's stores, the address it raises, what it writes. -/
inductive PostWhat where
  | cells (cells : List (Nat × Byte))
  | reg (addr : Word) (v : Word) (len : Nat)
deriving DecidableEq, Repr

structure Posted where
  id : Nat
  va : Word
  pc : Word := 0
  gen : Byte
  what : PostWhat
deriving DecidableEq, Repr

/-- A thread. `exc` is an exception that waits for the tile and vector instructions in flight (R55, R60); `fills` lists
the fetch addresses whose line fills are outstanding, oldest first; `dropped` counts the requests in flight whose
instruction has ended without them (R107), which hold their slots until they are answered; `late` those that have timed
out, whose replies are counted when they come (R222); `csrWait` the Reeve's writes of stream registers that wait for an SR
instruction in flight (R98). -/
structure Thread where
  st : TState := .halted
  why : Why := .none
  pauseReq : Bool := false
  stopReq : Bool := false
  enabled : Bool := false
  pc : Word := 0
  x : SMap Word := []
  csr : Csrs := {}
  asyncQ : List (Reason × Word) := []
  nextId : Nat := 0
  posted : List Posted := []
  late : Nat := 0
  pend : Option Pend := none
  wait : Option (Bool × Nat) := none
  exc : Option Exc := none
  fills : List Word := []
  dropped : Nat := 0
  csrWait : List (Nat × Word) := []
  vec : VecRegs := {}
  tile : TileRegs := {}
  tfly : Option Fly := none
  vfly : Option Fly := none
deriving DecidableEq, Repr

/-! ### Cores -/

/-- A translation: level-2 entry fields (Table 7.9). -/
structure Pte where
  ppn : Nat
  r : Bool
  w : Bool
  x : Bool
  u : Bool
deriving DecidableEq, Repr

/-- Activity of the arrays (R126). -/
inductive Arr where
  | off
  | rampUp
  | active
  | hold
  | rampDown
deriving DecidableEq, Repr

/-- Power of the vector datapath (R163, R164): `waking true` is off when the wake ends. -/
inductive VPow where
  | off
  | waking (offAfter : Bool)
  | on
deriving DecidableEq, Repr

/-- A product waiting for the arrays or in a group: thread, opcode (true: TMMAZ), fields. -/
structure Mma where
  th : ThreadId
  zero : Bool
  f : TMul
deriving DecidableEq, Repr

/-- A coalescer group: members in joining order, and the window it opened with (R130, R138). -/
structure Group where
  members : List Mma
  window : Nat
deriving DecidableEq, Repr

/-- A core. `userLines` are the lines of the instruction cache that a USER fetch has passed the checks for (R197); `tlbUsed`
the cached pages marked as recently used (R211); `slotQ` the threads that have asked for a slot and not had it, in the
order they asked (R42); `latch` what the arrays' operand-reuse latches hold (R122); `idleLo` and `idleHi` the least and
greatest IDLE since the pass in the arrays issued (R127). -/
structure Core where
  icache : SMap (BitVec 512) := []
  userLines : List Nat := []
  tlb : SMap Pte := []
  tlbUsed : List Nat := []
  slotQ : List ThreadId := []
  last : BitVec 2 := 0
  promised : Bool := false
  gated : Bool := true
  thresh : BitVec 16 := 0x1000
  vpow : VPow := .off
  cntOps : Nat := 0
  cntWake : Nat := 0
  vEccC : Nat := 0
  vEccU : Nat := 0
  window : Byte := 48
  hold : Byte := 16
  idle : BitVec 4 := 0
  cntTmma : Nat := 0
  cntMerge : Nat := 0
  cntIdle : Nat := 0
  tEccC : Nat := 0
  tEccU : Nat := 0
  arr : Arr := .off
  ready : List (List Mma) := []
  groups : List Group := []
  latch : Option TileReg := none
  idleLo : Nat := 0
  idleHi : Nat := 0
deriving DecidableEq, Repr

/-! ### Memory units (07_memory_tiers.md) -/

/-- A sector whose data the cache holds and the Granary does not yet: its number in the line, what the Granary holds, and
whether that is poisoned. -/
structure Stale where
  sector : Nat
  data : BitVec 512
  poison : Bool
deriving DecidableEq, Repr

/-- A line of a Cellar cache part (R207): the sectors it holds, the dirty ones with what they replace, whether it has been
used recently. The data in force is the module's memory. -/
structure CellLine where
  valid : BitVec 4
  dirty : List Stale := []
  used : Bool := true
deriving DecidableEq, Repr

/-- Die memory block (Table 7.18), and the lines of the die's cache part by granule of the physical Granary (R206,
R207). -/
structure DieMem where
  lines : SMap CellLine := []
  flushing : Bool := false
  hit : Nat := 0
  miss : Nat := 0
  wb : Nat := 0
  benchC : Nat := 0
  benchU : Nat := 0
  lardC : Nat := 0
  lardU : Nat := 0
  cellC : Nat := 0
  cellU : Nat := 0
  scrub : BitVec 48 := 0x1000000000
deriving DecidableEq, Repr

/-- Granary controller block (Table 7.19, 7.20), and the hot-bank episodes running: channel, bank,
context. -/
structure Gran where
  trained : Bool := false
  req : Nat := 0
  eccC : Nat := 0
  eccU : Nat := 0
  hotCh : BitVec 4 := 0
  hotBank : BitVec 4 := 0
  hotCtx : BitVec 4 := 0
  episodes : Nat := 0
  hotValid : Bool := false
  episode : List (Nat × Nat × CtxId) := []
  hotth : BitVec 32 := 0x10000
  scrub : BitVec 48 := 0x1000000000
deriving DecidableEq, Repr

/-- Context memory block (Table 7.15), and the salt the slot last held (R214). -/
structure CtxMem where
  gsalt : BitVec 4 := 0
  rehash : Bool := false
  lastSalt : Option (BitVec 4) := none
  ptroot : Nat := 0
  memto : BitVec 32 := 0x02000000
  walks : Nat := 0
  pageFaults : Nat := 0
  late : Nat := 0
  regions : List RegionEntry := []
deriving DecidableEq, Repr

/-! ### Sync units (09_tallies_and_bells.md) -/

/-- The hub's three queue readers of a context (R264). -/
inductive HubQ where
  | reg
  | put
  | feed
deriving DecidableEq, Repr

/-- Who issued an operation. -/
inductive Src where
  | thread (th : ThreadId)
  | chan (q : QuadId) (ch : BitVec 3)
  | hub (c : CtxId) (k : HubQ)
  | fabric (m : ModuleNo)
  | child (bell : Nat)
deriving DecidableEq, Repr

/-- A queued waiter: amount or token, PEEK, timeout, wait operand. -/
structure Waiter where
  src : Src
  ctx : CtxId
  n : Nat
  peek : Bool := false
  timeout : BitVec 32 := 0
  arg : BitVec 32 := 0
deriving DecidableEq, Repr

/-- A tally (Table 9.14). -/
structure Tally where
  value : BitVec 32 := 0
  latch : Bool := false
  sat : Bool := false
  under : Bool := false
  ovr : Bool := false
  remote : Bool := false
  ctx : CtxId := 0
  assigned : Bool := false
  q : List Waiter := []
deriving DecidableEq, Repr

/-- A bell (Tables 9.3, 9.13). `arr`, `early` and `absent` list slots, without repeats. -/
structure Bell where
  count : Nat := 0
  arr : List Nat := []
  early : List Nat := []
  absent : List Nat := []
  done : BitVec 32 := 0
  held : Bool := false
  ovr : Bool := false
  overruns : Nat := 0
  /-- remote children by slot: module and its bell (R270) -/
  remote : List (Nat × ModuleNo × Nat) := []
  parent : Option (Nat × Nat × ModuleNo) := none
  rchild : Nat := 0
  leaves : Nat := 0
  ctx : CtxId := 0
  assigned : Bool := false
  q : List Waiter := []
  /-- the release is held by Harvest for a due round (R385) -/
  snapHold : Bool := false
deriving DecidableEq, Repr

/-- Counters of a sync unit (Table 9.12). -/
structure SyncDie where
  ops : Nat := 0
  timeouts : Nat := 0
  withdrawals : Nat := 0
  late : Nat := 0
  eSat : Nat := 0
  eUnder : Nat := 0
  eTally : Nat := 0
  eBell : Nat := 0
  most : Nat := 0
  notify : SMap Word := []
deriving DecidableEq, Repr

/-- A message on its way to a sync unit; `after` is the number of the first later store of the issuing thread: its
earlier stores must be acknowledged first (R219); `dest` is another module that the signal goes to (R269). -/
structure SyncMsg where
  op : SyncOp
  bell : Bool := false
  obj : Nat
  src : Src
  ctx : CtxId
  gen : Byte
  arg : BitVec 32 := 0
  timeout : BitVec 32 := 0
  after : Nat := 0
  dest : Option ModuleNo := none
  /-- its thread has timed out: the reply will be discarded (R222) -/
  lost : Bool := false
deriving DecidableEq, Repr

structure Sync where
  tallies : SMap Tally := []
  bells : SMap Bell := []
  dies : SMap SyncDie := []
  msgs : List SyncMsg := []
deriving DecidableEq, Repr

/-! ### The Gate, commands and contexts (12_gate_and_commands.md) -/

/-- Context states, in the encoding of CMD_CTX_c (Tables 12.5, 12.13). -/
inductive CtxState where
  | empty
  | loaded
  | running
  | paused
  | draining
  | faulted
deriving DecidableEq, Repr

/-- Commands of Table 12.4. -/
inductive CmdOp where
  | load
  | start
  | pause
  | resume
  | stop
  | resetCtx
  | snap
  | restore
  | query
  | telem
  | attest
  | fwStage
  | fwCommit
  /-- an OPCODE outside Table 12.4 -/
  | other (n : Byte)
deriving DecidableEq, Repr

/-- Body of a reply (Tables 12.4, 12.6, 12.7, and the chapters that own the subjects). -/
inductive Body where
  | none
  | bytes (b : List Byte)
  | words (w : List Word)
  | context (ctx : Word) (quads : List QuadId) (gen : Byte) (restored : Bool)
  | events (first : Nat) (recs : List EventRec)
  | digest (sent recv : BitVec 256) (roll : List (BitVec 2))
  | ring (nrow ncol : Nat) (members : List Member)
deriving DecidableEq, Repr

/-- A reply (Table 12.3). -/
structure Reply where
  session : BitVec 32
  seq : Word
  op : Option CmdOp
  context : Byte
  reason : Reason
  inProgress : Bool := false
  body : Body := .none
deriving DecidableEq, Repr

/-- A command executing (R359, R366). -/
structure CmdExec where
  session : BitVec 32
  seq : Word
  op : CmdOp
  context : Byte
deriving DecidableEq, Repr

/-- An open session (R354 to R360, R369): `last` is the last SEQ evaluated, `stored` its reply. -/
structure Session where
  num : BitVec 32
  key : Nat
  role : Role
  mac : BitVec 48
  /-- a request of the session has been evaluated; SEQ of the last one (R360) -/
  begun : Bool := false
  last : Word := 0
  stored : Option Reply := none
  /-- secure associations (R355): key and XPN salt of each direction -/
  rxKey : BitVec 256 := 0
  txKey : BitVec 256 := 0
  rxSalt : BitVec 96 := 0
  txSalt : BitVec 96 := 0
  /-- packet numbers (R357): the last sent; the highest received; bit i, that rxTop - i has come -/
  txPn : Word := 0
  rxTop : Word := 0
  rxSeen : BitVec 64 := 0
  period : Option Nat := none
  minSev : Option Byte := none
  waiting : List Nat := []
deriving DecidableEq, Repr

/-- A handshake begun: HELLO and ACCEPT sent (R355). -/
structure Handshake where
  num : BitVec 32
  key : Nat
  mac : BitVec 48
  /-- ML-KEM shared secret; SHA3-512 over the HELLO and ACCEPT bodies -/
  shared : BitVec 256
  transcript : Digest
deriving DecidableEq, Repr

/-- States of the Gate and of a fabric port (Tables 11.3, 12.12). -/
inductive PortState where
  | disabled
  | training
  | up
  | down
deriving DecidableEq, Repr

/-- The Gate (Table 12.12). -/
structure Gate where
  enable : Bool := false
  /-- duplicate address detection has ended with no conflict: of the static address, of the link-local one (R351) -/
  dadOk : Bool := false
  llOk : Bool := false
  /-- the static address conflicts: only the link-local one is used -/
  linkLocalOnly : Bool := false
  addr : BitVec 128 := 0
  prefixLen : Nat := 0
  port : BitVec 16 := 0
  keys : List GateKey := []
  rx : Nat := 0
  tx : Nat := 0
  dUnprot : Nat := 0
  dIcv : Nat := 0
  dHeader : Nat := 0
  dReplay : Nat := 0
  fecC : Nat := 0
  fecU : Nat := 0
  hands : List Handshake := []
  sessions : List Session := []
  nextNum : BitVec 32 := 1
  echoes : Nat := 0
  echoWindow : Nat := 0
deriving DecidableEq, Repr

/-- The command sequencer (Table 12.13) and what it executes for the module. -/
structure Sequencer where
  executed : Nat := 0
  refused : Nat := 0
  modCmd : Option CmdExec := none
deriving DecidableEq, Repr

/-- States of a feed (Table 12.14). -/
inductive FeedState where
  | idle
  | active
  | paused
  | stopped
deriving DecidableEq, Repr

/-- A record requested and not yet written: cursor, length and CRC once a fragment came, fragments by offset, failed
requests since the last FEED_TIMEOUT (R374). -/
structure FeedRec where
  offset : Word
  epoch : BitVec 32
  len : Option Nat := none
  crc : BitVec 32 := 0
  frags : List (Nat × List Byte) := []
  done : Bool := false
  fails : Nat := 0
deriving DecidableEq, Repr

/-- A context's feed (R370 to R375, Table 12.14). `slots` lists the cursors written and not freed, oldest first;
`credits` is the number of slots the engine may still write; `nextSlot` the next ring slot. -/
structure Feed where
  st : FeedState := .idle
  stopReason : Reason := 0
  cfg : Option FeedSection := none
  fillOff : Word := 0
  fillEpoch : BitVec 32 := 0
  doneOff : Word := 0
  doneEpoch : BitVec 32 := 0
  /-- the cursor the next request begins at -/
  reqOff : Word := 0
  reqEpoch : BitVec 32 := 0
  delivered : Nat := 0
  repeats : Nat := 0
  flight : List FeedRec := []
  slots : List (Word × BitVec 32) := []
  credits : Nat := 0
  nextSlot : Nat := 0
  /-- the cursor of the image, or the DONE cursor of the last restore (Table 14.3) -/
  baseOff : Word := 0
  baseEpoch : BitVec 32 := 0
deriving DecidableEq, Repr

/-! ### Recovery (14_faults_and_recovery.md) -/

/-- A purge in progress: the units that have not acknowledged, whether the 40 µs bound has passed, the generation it
set, whether RESET_CTX waits for it (R408 to R411). -/
structure Purge where
  units : List UnitId
  bound : Bool := false
deriving DecidableEq, Repr

/-- FILL of RST_CTX_STATUS (Table 14.11). -/
inductive Fill where
  | none
  | restoring
  | joinSent
  | held
  | done
  | abandoned
deriving DecidableEq, Repr

/-- A switchover in progress (R420): the dead member, who has acknowledged and what they list, whether this module
coordinates, whether GO has been applied here. -/
structure Switch where
  dead : ModuleNo
  coordinator : Bool
  acks : List (ModuleNo × List AckEntry) := []
  frozen : Bool := false
deriving DecidableEq, Repr

/-- A ring of a context as it stands (R275, R417 to R428): roles in force, dead members, the switchover in progress and
the deaths queued behind it, the heartbeat periods missed of each member watched. -/
structure RingSt where
  cfg : RingCfg
  members : List Member
  dead : List ModuleNo := []
  dropped : List Nat := []
  switch : Option Switch := none
  queued : List ModuleNo := []
  missed : List (ModuleNo × Nat) := []
  /-- the death whose GO was applied last (R426) -/
  lastSwitch : Option ModuleNo := none
deriving DecidableEq, Repr

/-- Recovery state of a context (Tables 14.10, 14.11). -/
structure CtxRst where
  fenced : List UnitId := []
  fill : Fill := .none
  switches : Nat := 0
  deadMod : ModuleNo := 0
  deadRing : BitVec 3 := 0
  deadValid : Bool := false
  lastReason : Reason := 0
  lastLevel : BitVec 3 := 0
  joinHold : BitVec 32 := 0
  switchMask : Byte := 0
  join : Bool := false
  purge : Option Purge := none
  gap : Bool := false
  /-- a purge waits for the gap to end (R411) -/
  purgeWaits : Bool := false
  /-- quads, regions and grants that a fenced unit holds for the context after its release (R410) -/
  keepQuads : List (UnitId × Nat) := []
  keepRegions : List (UnitId × RegionEntry) := []
  keepObjs : List (UnitId × Grant) := []
deriving DecidableEq, Repr

/-- Reset levels, in the encoding of RST_STATUS. -/
abbrev Level := BitVec 3

/-- A fault-history entry (Table 14.7). -/
structure FhEntry where
  resetCount : BitVec 32
  index : BitVec 64
  record : EventRec
  level : Byte
  escalations : Byte
deriving DecidableEq, Repr

/-- The recovery block (Table 14.9) and the probes and resets running (R406, R412 to R415). `dieResets` lists die
numbers, 8 for HD1. -/
structure Rst where
  level : Level := 0
  quiesce : BitVec 32 := 53125
  engTo : BitVec 32 := 212500
  hbPeriod : BitVec 32 := 21250
  hbMiss : BitVec 4 := 3
  genGap : BitVec 32 := 108800
  probeTo : BitVec 32 := 2125
  cntPurge : Nat := 0
  cntEngine : Nat := 0
  cntDie : Nat := 0
  cntProbe : Nat := 0
  fhSel : BitVec 14 := 0
  fhNext : Nat := 0
  fhWrapped : Bool := false
  fhDropped : Nat := 0
  fhThisSecond : Nat := 0
  fhSecond : Nat := 0
  history : SMap FhEntry := []
  probes : List UnitId := []
  engines : List UnitId := []
  dieResets : List Nat := []
  /-- module resets in a row that have not released in time (R414) -/
  attempts : Nat := 0
  /-- RST_ESCALATE records of the episode (R431) -/
  episode : Nat := 0
  /-- module resets that have begun and are not yet in RESET_COUNT; the watchdog holds them with the cause -/
  begun : Nat := 0
  modCause : Option (Reason × BitVec 16) := none
  /-- a module reset waits for the read-back of its fault-history entry (R431, R454) -/
  due : Option (Reason × BitVec 16) := none
  /-- RST_ESCALATE of a module reset, read back into the held records after release (R415) -/
  carried : List EventRec := []
deriving DecidableEq, Repr

/-! ### The fabric (11_optical_fabric.md) -/

/-- Counters of a receive lane (Table 11.13). -/
structure LaneCnt where
  corr : Nat := 0
  unc : Nat := 0
  losses : Nat := 0
deriving DecidableEq, Repr

/-- A flit in the replay buffer: number, its 240 bytes of packet data, and the packet that ends with it. -/
structure SentFlit where
  seq : BitVec 12
  data : List Byte
  pkt : Option Packet
deriving DecidableEq, Repr

/-- A port of the fabric, 0 to 15; entry 16 is the Gate's (Tables 11.13 to 11.15, R325 to R327, R334). `used` counts
the flits of each channel and class sent and not credited; `rxHeld` the flits of the receive buffer (R327) that no packet
taken yet accounts for; `peerMap` is what the neighbour's last LANEMAP named; `replayFrom`, `replays` the consecutive
replays from one number, `replayEnd` the last flit of a replay under way; `laneNext` the place among the active lanes where the
next flit starts (R329); `rxPart` and `rxPkts` the bytes of a packet whose flits are arriving and of those that are whole
(R313); `wrr` the weighted round-robin's place; `snapSent` the SNAP flits sent in the last 4,096 uncore
cycles, by cycle (R334). -/
structure Port where
  enable : Bool := false
  dateline : Bool := false
  peerPort : BitVec 4 := 0
  peer : ModuleNo := 0
  allowed : Byte := 0xFF
  st : PortState := .disabled
  txWidth : Nat := 0
  rxWidth : Nat := 0
  cause : BitVec 4 := 0
  txGood : Byte := 0
  rxGood : Byte := 0
  peerMap : Byte := 0
  seenPeer : ModuleNo := 0
  flitsTx : Nat := 0
  flitsRx : Nat := 0
  cntReplay : Nat := 0
  cntNak : Nat := 0
  cntCrc : Nat := 0
  cntFec : Nat := 0
  margin : BitVec 32 := 0x100000
  lanes : SMap LaneCnt := []
  nextSeq : BitVec 12 := 0
  expected : BitVec 12 := 0
  discard : Bool := false
  replay : List SentFlit := []
  replayFrom : BitVec 12 := 0
  replays : Nat := 0
  replayEnd : Option (BitVec 12) := none
  laneNext : Nat := 0
  rxPart : List Byte := []
  rxPkts : List (List Byte) := []
  used : SMap Nat := []
  queue : List Packet := []
  wrr : Nat × Nat := (0, 0)
  rxHeld : Nat := 0
  snapSent : List (Nat × Nat) := []
deriving DecidableEq, Repr

/-- A laser source module (Table 11.17). `seen`: the Reeve has read it over the management interface since its reset (R315);
until then FAB_LASER_STATUS reads 0. -/
structure Laser where
  seen : Bool := false
  present : Bool := true
  enabled : Bool := true
  fault : Bool := false
  lowPower : Bool := false
  losses : Nat := 0
  insertions : Nat := 0
deriving DecidableEq, Repr

/-- A put that this module sends (R342 to R344): the slot it was read from, the header's identity, what is left. -/
structure PutSt where
  ctx : CtxId
  gen : Byte
  id : Nat
  slot : Word
  dest : ModuleNo
  done : Nat
  /-- more than one packet was sent -/
  many : Bool := false
deriving DecidableEq, Repr

/-- A put that arrives: source, number, the generation of its destination context when it began, whether a packet of it was refused or written (R343). -/
structure PutIn where
  src : ModuleNo
  id : Nat
  gen : Byte
  refused : Bool := false
  wrote : Bool := false
deriving DecidableEq, Repr

/-- The fabric block (Table 11.16), laser source modules, packets delivered to units, puts. -/
structure Fab where
  module : ModuleNo := 0
  fabricId : BitVec 32 := 0
  life : BitVec 20 := 0
  hopsMax : BitVec 4 := 0
  hold : BitVec 24 := 0
  weights : List Nat := []
  snapcap : BitVec 7 := 0
  retrain : BitVec 32 := 0x1954FC40
  ackto : BitVec 16 := 0x2000
  routeSel : BitVec 16 := 0
  transit : Nat := 0
  drop : Nat := 0
  stale : Nat := 0
  cntHold : Nat := 0
  putDone : Nat := 0
  putBad : Nat := 0
  routes : List RouteEntry := []
  ports : SMap Port := []
  lasers : SMap Laser := []
  kept : SMap Byte := []
  holds : List ModuleNo := []
  held : List Packet := []
  rate : SMap Nat := []
  inbox : List Packet := []
  /-- messages of which not every packet has come yet, each with the bytes so far (log 134) -/
  arriving : List Packet := []
  puts : List PutSt := []
  putsIn : List PutIn := []
  nextPut : Nat := 0
deriving DecidableEq, Repr
/-! ### Stream engines (08_stream_engines.md) -/

/-- States of a channel (Table 8.4), numbered in STRM_CH_STATUS in this order. -/
inductive ChSt where
  | idle
  | waiting
  | running
  | paused
  | faulted
  | draining
deriving DecidableEq, Repr

/-- A descriptor as read (Table 8.2); strides are signed. -/
structure Desc where
  op : Nat
  flags : Byte
  esz : Nat
  timeout : Nat
  src : Word
  dst : Word
  cols : Nat
  rows : Nat
  ss : Int
  ds : Int
  waitTally : Nat
  waitArg : BitVec 32
  sigTally : Nat
  rep : Nat
  srs : Int
  drs : Int
deriving DecidableEq, Repr

/-- An outstanding read: of descriptor `idx`, or of a piece of a copy: row and byte offset in the row, with the places
its bytes go to (none for XPOSE). `live` is false once the channel has faulted or been aborted. -/
structure SRead where
  loc : Nat
  va : Word
  len : Nat
  desc : Option Nat := none
  row : Nat := 0
  off : Nat := 0
  dests : List (Word × Nat × Nat) := []
  live : Bool := true
deriving DecidableEq, Repr

/-- An outstanding write; `half` is the location whose byte keeps its high nibble (R235). -/
structure SWrite where
  va : Word
  cells : List (Nat × Byte)
  half : Option Nat := none
  live : Bool := true
deriving DecidableEq, Repr

/-- Where a paused channel goes on (R243). -/
inductive ChResume where
  | descriptor (idx : Nat)
  /-- the descriptor of the repetition at hand is read again -/
  | reread
  | repetition
  | data
deriving DecidableEq, Repr

/-- A channel (R226, Tables 8.10 to 8.13). `pre` is the descriptor read ahead, none where its read failed; `want` the
descriptor whose read the channel waits for, `again` that it is read again for the repetition at hand; `row` and `off` the
next byte of the copy to issue; `cut` the translation failure that ended the issue (R235), `bound` the element of an XPOSE
at which its destination failed; `buf` the source rows an XPOSE has read, `xloc` the destination pages it has translated;
`dq` and `wq` the descriptor read and the writes that wait for room among the 512 lines of R227. -/
structure Chan where
  base : Word := 0
  notify : BitVec 32 := 0
  st : ChSt := .idle
  waited : Bool := false
  index : Nat := 0
  rep : Nat := 0
  pass : Nat := 0
  fault : Word := 0
  faddr : Word := 0
  ctx : CtxId := 0
  gen : Byte := 0
  desc : Option Desc := none
  pre : Option (Nat × Option (List Byte)) := none
  want : Option Nat := none
  again : Bool := false
  badDesc : Bool := false
  inData : Bool := false
  row : Nat := 0
  off : Nat := 0
  cut : Option (Reason × Nat × Word × Nat) := none
  bound : Option (Nat × Nat) := none
  buf : SMap Nat := []
  xloc : SMap Nat := []
  wrote : Bool := false
  dq : Option Nat := none
  reads : List SRead := []
  writes : List SWrite := []
  wq : List SWrite := []
  pauseReq : Bool := false
  resume : Option ChResume := none
  expired : Bool := false
deriving DecidableEq, Repr

/-- A stream engine. -/
structure Engine where
  chans : SMap Chan := []
  tlb : SMap Pte := []
  tlbUsed : List Nat := []
  cntBytes : Nat := 0
  cntDesc : Nat := 0
  cntLate : Nat := 0
  cntMiss : Nat := 0
  cntXfault : Nat := 0
deriving DecidableEq, Repr

/-! ### Gradient reduction (10_gradient_reduction.md) -/

/-- An accepted registration (Table 10.2), `k` its queue index. -/
structure RegRec where
  k : Nat
  id : BitVec 16
  ring : Nat
  step : BitVec 32
  src : Nat
  elems : Nat
  bf16 : Bool
  tensor : BitVec 16
  doneTally : Nat
  res : Nat
  scale : Nat
  defer : Nat
deriving DecidableEq, Repr

/-- A frame in an engine: header, words, roll. -/
structure Frame where
  hdr : FrameHdr
  words : List Int
  roll : List (BitVec 2)
deriving DecidableEq, Repr

/-- A bucket in a slot (R274). `outcome` is this member's roll entry once decided (R297, R300); `late`: its contribution
was declared late; `asked`: the shadow's answer is awaited; `timing`: the deadline runs; `pre`: the bucket uses PREROUND;
`e` the pass exponent once fixed; `begun`: the chunks of this member's positions have started in this pass; `origin`,
`colOrigin`: the circuits it originates have started. `waiting` holds (position, frame) that cannot go on yet; `rows` holds,
by position, pre-round results of rows, row totals and part totals of a two-dimensional ring; `totals` the final totals.
`copy` is the shadow's copy: bytes, format, local exponent, digest. `ended`: complete but for a registration not yet
accepted (R298), with `bad` the error it ended by. `usesDefer`: the contribution includes the deferral slot. -/
structure Bucket where
  ctx : CtxId
  gen : Byte
  ring : Nat
  id : BitVec 16
  step : BitVec 32
  reg : Option RegRec := none
  outcome : Option (BitVec 2) := none
  late : Bool := false
  asked : Bool := false
  timing : Bool := false
  pre : Bool := false
  e : Option Int := none
  pass : Byte := 0
  roll : List (BitVec 2) := []
  /-- at a shadow: its deadline has passed without a registration (R289) -/
  due : Bool := false
  begun : Bool := false
  origin : Bool := false
  colOrigin : Bool := false
  waiting : List (Nat × Frame) := []
  rows : List (Nat × Frame) := []
  totals : List Frame := []
  copy : Option (List Byte × Bool × Int × BitVec 256) := none
  srcfail : Bool := false
  ended : Bool := false
  bad : Option Reason := none
  usesDefer : Bool := false
  /-- the late registration differs from the shadow's copy (R301) -/
  diff : Bool := false
  frozen : Bool := false
  /-- the pass exponent that a re-run keeps (R422) -/
  keepE : Option Int := none
  /-- PHASE of the last frame handled (R309) -/
  phase : Nat := 0
  /-- at a shadow: its copy has gone into its deferral slot (R424) -/
  filled : Bool := false
deriving DecidableEq, Repr

/-- A reduction engine (Table 10.11). -/
structure RedEngine where
  slots : SMap Bucket := []
  cntBytes : Nat := 0
  cntBucket : Nat := 0
  cntRepass : Nat := 0
  cntLate : Nat := 0
  cntShadow : Nat := 0
  cntDefer : Nat := 0
  cntDrop : Nat := 0
  cntStale : Nat := 0
  errNonfinite : Nat := 0
  errTimeout : Nat := 0
  errShadow : Nat := 0
  errSource : Nat := 0
deriving DecidableEq, Repr

/-- What an engine keeps of a (ring, BUCKET_ID) between steps (R285, R282, R302): the engine, last accepted step, E_hist,
deferral slot (0: none known) and whether it holds a pending value, element count (0: none known). `later` holds
what is deferred beside a value in the slot that a step in flight uses (R303), `done` the last step whose bucket has completed here
(R420). -/
structure Hist where
  ring : Nat
  id : BitVec 16
  eng : Nat := 0
  step : BitVec 32
  eHist : Option Int := none
  defer : Nat := 0
  pendingDefer : Bool := false
  elems : Nat := 0
  later : List (List Byte) := []
  done : Option (BitVec 32) := none
  /-- restored, and no registration accepted since (R282) -/
  fresh : Bool := false
deriving DecidableEq, Repr

/-- An entry of a digest store (R305, R306): what 384 bytes of memory hold. -/
structure DigEntry where
  ring : Nat
  id : BitVec 16
  step : BitVec 32
  sent : BitVec 256 := 0
  recv : BitVec 256 := 0
  roll : List (BitVec 2) := []
deriving DecidableEq, Repr

/-- Reduction state of a context (Table 10.12): registrations read, signals taken and not yet used, tables. -/
structure RedCtx where
  k : Nat := 0
  ready : Nat := 0
  notify : BitVec 32 := 0
  digSel : BitVec 64 := 0
  hist : List Hist := []
deriving DecidableEq, Repr

/-! ### Harvest (13_harvest_snapshots.md) -/

/-- Phases of a snapshot (Table 13.15) but ARMED, which is read off what is awaited. -/
inductive SnapPhase where
  | idle
  | quiescing
  | state
  | data
  | committed
  | restore
deriving DecidableEq, Repr

/-- A restore in progress (R398, R399): its manifest once fetched, the next block, whether the block at hand is asked of
the other source after a bad digest. -/
structure Restoring where
  round : BitVec 32
  external : Bool
  noFallback : Bool
  manifest : Option Manifest := none
  /-- the round is the partner's latest -/
  latest : Bool := false
  next : Nat := 0
  retried : Bool := false
deriving DecidableEq, Repr

/-- Snapshot state of a context (Tables 13.9, 13.14, 13.15). `req` is what a SNAP command asked for: a round (none:
the next) and EXTERNAL; `direct`: blocks go straight to the store (R397); `set` is the changed set, `toStage` the blocks
of it not yet in the stage, `toSend` those not yet sent; `cells` the state blocks' bytes that are not 0, captured or
restored; `digests` the digests known of the blocks of this snapshot; `unacked` the blocks sent and not acknowledged,
`tries` how often a block was asked again; `leaves` and `parent` those of the snapshot whose blocks the next one may
reuse; `kept` the bytes of blocks sent and not acknowledged, `buf` those of blocks being fetched, at their places in the
snapshot; `ext` the external copy that is due or runs, with its next block, `extQ` those that wait for it; `off` a partner
refused, `paired` the exchange of R384 done, `hostSlots` the slots the partner has for this context, `maxSet` the largest
changed set of a snapshot with a PARENT (R394). -/
structure SnapSt where
  sched : Bool := false
  phase : SnapPhase := .idle
  reason : Reason := 0
  round : BitVec 32 := 0
  last : Option (BitVec 32) := none
  lastExt : Bool := false
  root : Digest := 0
  notify : BitVec 32 := 0
  req : Option (Option (BitVec 32) × Bool) := none
  external : Bool := false
  direct : Bool := false
  flagPaused : Bool := false
  set : List Nat := []
  toStage : List Nat := []
  toSend : List Nat := []
  staged : Bool := false
  cells : List Host.Cell := []
  digests : SMap Digest := []
  unacked : List Nat := []
  kept : List Host.Cell := []
  tries : SMap Nat := []
  leaves : List Digest := []
  parent : Option (BitVec 32) := none
  off : Bool := false
  paired : Bool := false
  hostSlots : Nat := 0
  maxSet : Nat := 0
  signing : Option Manifest := none
  manifest : Option Manifest := none
  commits : Nat := 0
  ext : Option (Manifest × Nat) := none
  extQ : List Manifest := []
  join : Option ModuleNo := none
  /-- the leaves that the module to be filled has restored (R428) -/
  joinLeaves : List Digest := []
  /-- JOINs that wait for the join in hand (Table 14.6) -/
  joinQueue : List (ModuleNo × List Digest) := []
  restore : Option Restoring := none
  buf : List Host.Cell := []
deriving DecidableEq, Repr

/-- A committed snapshot that this module hosts: its manifest, the slot of each block. -/
structure HostedSnap where
  ctx : CtxId
  manifest : Manifest
  map : SMap Nat
deriving DecidableEq, Repr

/-- A snapshot arriving at its host: the slots written, the bytes received of each block. -/
structure Incoming where
  ctx : CtxId
  round : BitVec 32
  slots : SMap Nat := []
  bad : SMap Nat := []
deriving DecidableEq, Repr

/-- A hosted range (Table 13.6, R392, R393). `waiting` are the fetches that wait for a compaction to end. -/
structure Hosted where
  cfg : HostedCfg
  snaps : List HostedSnap := []
  incoming : List Incoming := []
  compacting : Bool := false
  waiting : List Packet := []
deriving DecidableEq, Repr

/-- A Harvest instance (Table 13.13). -/
structure HarvCnt where
  bytes : Nat := 0
  recv : Nat := 0
  mismatch : Nat := 0
  again : Nat := 0
  abandon : Nat := 0
deriving DecidableEq, Repr

/-- Harvest of the module: instances, hosted ranges, the partner; `feedSaid`: CFG_PAIR_FEED has been recorded of it since the
last LOAD (R384). -/
structure Harvest where
  inst : SMap HarvCnt := []
  hosted : List Hosted := []
  partner : ModuleNo := 0xFFFF
  partnerFeed : BitVec 32 := 0
  feedSaid : Bool := false
deriving DecidableEq, Repr


/-! ### Boot, NVM, Vault (15_boot_and_security.md) -/

/-- Boot phases, numbered in BOOT_STATUS in this order (Table 15.17). -/
inductive BootPhase where
  | resetEntry
  | fuse
  | fwVerify
  | cfg
  | train
  | released
  | recovery
deriving DecidableEq, Repr

/-- The fuse array (Table 15.2); `svnFloor` counts the blown bits of its thermometer. -/
structure Fuses where
  serial : BitVec 128 := 0
  mac : BitVec 48 := 0
  lifecycle : Byte := 0x02
  jtagOff : Bool := true
  vendorFp : Digest := 0
  svnFloor : Nat := 0
  trim : BitVec 8192 := 0
  repair : BitVec 7168 := 0
deriving DecidableEq, Repr

/-- SLOT of the journal (Table 15.11): slots are false A, true B; `staging` is the slot STAGING or, with `staged`,
STAGED. -/
structure SlotRec where
  active : Bool := false
  previous : Bool := false
  trial : Bool := false
  tries : Nat := 0
  staging : Option Bool := none
  staged : Bool := false
  digest : Digest := 0
deriving DecidableEq, Repr

/-- A snapshot-catalogue entry (Table 15.11). -/
structure CatEntry where
  ctx : CtxId
  round : BitVec 32
  partner : ModuleNo
  root : Digest
deriving DecidableEq, Repr

/-- What a journal record holds (Table 15.11): a mark of a checkpoint, or a change of persistent state, which takes effect at
its read-back (R454). The owner's key comes in parts of 96 bytes, 0 to 26. -/
inductive JChange where
  | cpBegin (s : Nat)
  | cpEnd (s : Nat) (digest : Digest)
  | slot (r : SlotRec)
  | counters (fw cfg resets boots : Nat)
  | owner (part : Nat) (bytes : BitVec 768)
  | fault (e : FhEntry)
  | catalogue (e : CatEntry)
  | pairing (own : BitVec 32) (partner : ModuleNo) (partnerFeed : BitVec 32)
deriving DecidableEq, Repr

/-- A record of the journal: its SEQ, and whether its TAG is good (R453). -/
structure JRec where
  seq : Nat
  item : JChange
  good : Bool := true
deriving DecidableEq, Repr

/-- The 27 OWNER records of a key. -/
def ownerParts (key : BitVec 20736) : List JChange := (List.range 27).map fun i => .owner i (key.extractLsb' (768 * i) 768)

/-- The journal as it is delivered: the slot, the counters and the owner's key, in half 0, and no checkpoint yet (R442; DESIGN
CHOICE, log 165). -/
def deliveredJournal : List JRec :=
  ([JChange.slot {}, JChange.counters 0 0 0 0] ++ ownerParts Config.ownerKey).zipIdx.map fun x => { seq := x.2 + 1, item := x.1 }

/-- The NVM (Tables 15.3, 15.10, 15.11). `bundles` and the two halves of the journal are what the device holds; the rest is the
live state, which replay rebuilds from them: 0 before it. The fault history is in `Rst`. -/
structure Nvm where
  bundles : SMap Bundle := []
  half0 : List JRec := deliveredJournal
  half1 : List JRec := []
  slot : SlotRec := {}
  fwSvn : Nat := 0
  cfgSvn : Nat := 0
  resets : Nat := 0
  boots : Nat := 0
  /-- the owner's key: the parts that have come of the next one, the key, and its fingerprint (R441, R442) -/
  ownerGot : List (BitVec 768) := []
  ownerKey : BitVec 20736 := 0
  owner : Digest := 0
  catalogue : List CatEntry := []
  ownFeed : Option (BitVec 32) := none
  partner : ModuleNo := 0
  partnerFeed : BitVec 32 := 0
  /-- the active half, the records in it, the last SEQ -/
  half : Bool := false
  records : Nat := 0
  seq : Nat := 0
  /-- the compaction under way: s, and the state frozen at s (R457) -/
  frozen : Option (Nat × List JChange) := none
  compactions : Nat := 0
  tagFail : Nat := 0
  /-- records to be written and read back, oldest first -/
  queue : List JChange := []
deriving DecidableEq, Repr

/-- The boot block (Table 15.16). `stopped`: a failure of the boot left the module in reset (R436); `tried` lists the
slots that have failed in this boot; `from` is the Reeve cycle FUSE began at; `mod` the module image in force; `stage`
the pending stage: session and bytes received. -/
structure Boot where
  enable : Bool := false
  phase : BootPhase := .resetEntry
  stopped : Bool := false
  trial : Bool := false
  fallback : Bool := false
  reason : Reason := 0
  start : Nat := 0
  time : Nat := 0
  tried : List Bool := []
  /-- the Reeve's SRAM, into which the code of the verified firmware is loaded (R466) -/
  sram : List Byte := []
  fuseFixed : Nat := 0
  ownFeed : Option (BitVec 32) := none
  mod : Option ModImage := none
  fw : Option ImgHdr := none
  stage : Option (BitVec 32 × Nat) := none
deriving DecidableEq, Repr

/-- Vault states (Table 15.18). -/
inductive VaultState where
  | selftest
  | ready
  | error
deriving DecidableEq, Repr

structure Vault where
  st : VaultState := .selftest
  reason : Reason := 0
  signs : Nat := 0
  verifies : Nat := 0
  generates : Nat := 0
  reseeds : Nat := 0
deriving DecidableEq, Repr

/-! ### The Reeve, clocks, power (16_reeve_clocks_power.md) -/

/-- Clock of a compute die (Tables 16.13, 16.14). `setDiv` names the rail set-point by its divider; `cool` counts the
comparisons below the limit; `win` holds, per cause whose 1 ms runs, the level after of its last record (R488). -/
structure DieClk where
  div : Nat := 4
  pending : Nat := 0
  idle : Nat := 0
  level : Nat := 0
  lt : Nat := 0
  setDiv : Nat := 4
  cool : Nat := 0
  steps : Nat := 0
  switches : Nat := 0
  cancelled : Nat := 0
  above : Nat := 0
  at11 : Nat := 0
  win : SMap Nat := []
  /-- the divider that switches at the next core-clock edge that is a beat boundary of every array, 0 for none, and the edges
  that were not one (R471) -/
  next : Nat := 0
  edges : Nat := 0
deriving DecidableEq, Repr

/-- The defaults of Table 16.5. -/
def defaultPolicy : PolicySection := ⟨2200, 125, 5, 10, 1000, 95, 100⟩

/-- The Reeve block and the power and thermal loops (Table 16.11, R475 to R484). `hist` holds the input powers since the
last change of LP, newest first; `recent` the last 100; `warned` the dies above their warning limit, `failT` and `failR`
the failed sensors of temperature and of rail current, `off` the rails off their set-point in the last sample. -/
structure Power where
  policy : PolicySection := defaultPolicy
  lp : Nat := 0
  lf : Nat := 0
  samples : Nat := 0
  stamp : Nat := 0
  last : Option Sample := none
  hist : List Nat := []
  recent : List Nat := []
  capFloor : Bool := false
  inputOut : Bool := false
  good : Nat := 0
  warned : List Nat := []
  failT : List (Nat × Nat) := []
  failR : List Nat := []
  off : List Nat := []
  fast : Nat := 0
  floors : Nat := 0
  failed : Nat := 0
  clamps : Nat := 0
  dies : SMap DieClk := []
  locked : Bool := false
  lostLocks : Nat := 0
  /-- quad domains and hub-engine domains whose clock runs (R473) -/
  quadOn : List Nat := []
  hubOn : List Nat := []
deriving DecidableEq, Repr

/-! ### The carrier (17_carrier_interface.md) -/

/-- Levels at the blade and the header (Tables 17.1 to 17.3). `vin`: in range for 10 ms; `under`: VIN has fallen below
38 V since the latch was set; `fid` and `fidPres`: the straps. -/
structure Carrier where
  vin : Bool := true
  vstby : Bool := true
  resetN : Bool := false
  refclk : Bool := true
  latch : Bool := false
  under : Bool := false
  third : Bool := false
  fid : BitVec 16 := 0
  fidPres : Bool := false
deriving DecidableEq, Repr

/-! ### Contexts -/

/-- A context slot. `img` is the image as loaded, none when EMPTY; `load` the pending load: session and bytes
received (R362). -/
structure Ctx where
  st : CtxState := .empty
  gen : Byte := 0
  restored : Bool := false
  img : Option CtxImage := none
  load : Option (BitVec 32 × Nat) := none
  cmd : Option CmdExec := none
  mem : CtxMem := {}
  feed : Feed := {}
  rst : CtxRst := {}
  rings : List RingSt := []
  red : RedCtx := {}
  snap : SnapSt := {}
  /-- the put queue: records read so far, signals taken and not yet used (R341) -/
  putK : Nat := 0
  putReady : Nat := 0
deriving DecidableEq, Repr

/-! ### The module -/

/-- What leaves the module other than through registers: replies and event messages, feed requests, messages to the
store, packets of the fabric (log 3). -/
inductive Out where
  | reply (r : Reply)
  | events (session : BitVec 32) (first : Nat) (recs : List EventRec)
  /-- a Neighbour Solicitation for an address of the Gate's own; answers to Neighbour Solicitation and Echo Request, from an
  address; ACCEPT (Table 12.2): session number, nonce, ML-KEM ciphertext, signature -/
  | solicit (target : BitVec 128)
  | advert (target : BitVec 128)
  | echo (source : BitVec 128)
  | accept (session : BitVec 32) (nonce : BitVec 256) (ct : BitVec 12544) (sig : BitVec 37016)
  /-- a packet handed to port p's link, with the bytes of its flits that each active lane carries (R313, R329) -/
  | packet (p : Nat) (pkt : Packet) (lanes : List (Nat × List Byte))
  /-- what this end tells its neighbour in training (R323): module number, fabric ID, port, lanes received well -/
  | identity (p : Nat) (module : ModuleNo) (fabricId : BitVec 32) (port : Nat) (good : Byte)
  /-- of the link layer: acknowledgement of the flits up to one, NAK, LANEMAP, an idle flit, credits of a channel and class -/
  | ack (p : Nat) (seq : BitVec 12)
  | nak (p : Nat) (seq : BitVec 12)
  | lanemap (p : Nat) (good : Byte)
  | idleFlit (p : Nat)
  | credits (p : Nat) (vc : BitVec 3) (cls : Bool) (flits : Nat)
  /-- a replay of the flits from seq on -/
  | replay (p : Nat) (seq : BitVec 12)
  /-- FEED_REQ of context c's feed, on a session: cursors, and how many -/
  | feedReq (c : CtxId) (session : BitVec 32) (dataset shard : BitVec 32) (offset : Word) (epoch : BitVec 32) (count : Nat)
  /-- STORE messages of context c: a block of a snapshot, its manifest, a request for a block (none: the manifest) -/
  | storeBlock (c : CtxId) (round : BitVec 32) (block : Nat) (data : List Byte)
  | storeManifest (c : CtxId) (m : Manifest)
  | storeFetch (c : CtxId) (round : BitVec 32) (block : Option Nat)
deriving DecidableEq, Repr

/-- Event log (R17, R18, R368): SEQUENCE per unit, held records oldest first, next EVENT_INDEX. -/
structure Log where
  seqs : SMap Nat := []
  held : List (Nat × EventRec) := []
  next : Nat := 0
deriving DecidableEq, Repr

/-- The state of the module. -/
structure State where
  pending : List Instr := []
  freeCtr : Nat := 0
  clk : Clocks := {}
  stampBase : SMap Nat := []
  log : Log := {}
  out : List Out := []
  threads : SMap Thread := []
  cores : SMap Core := []
  quadOwner : SMap CtxId := []
  mem : List Host.Cell := []
  poison : List Nat := []
  /-- poisoned units whose error no read and no scrub has met yet, so that no counter shows it (log 151) -/
  fresh : List Nat := []
  cfrac : BitVec 3 := 0
  dies : SMap DieMem := []
  grans : SMap Gran := []
  sync : Sync := {}
  ctxs : SMap Ctx := []
  gate : Gate := {}
  seqr : Sequencer := {}
  fab : Fab := {}
  rst : Rst := {}
  strm : SMap Engine := []
  red : SMap RedEngine := []
  harv : Harvest := {}
  /-- 4 MiB blocks of locations whose WRITTEN bit is set (R387) -/
  written : List Nat := []
  fuses : Fuses := {}
  nvm : Nvm := {}
  boot : Boot := {}
  vault : Vault := {}
  pwr : Power := {}
  car : Carrier := {}
deriving DecidableEq, Repr

/-- Why a command stops. -/
inductive Fault where
  /-- A voltage outside the absolute limits of Table 17.2, for which the manual promises nothing (R492). Raised by
  VIN_LOCKOUT. Safe: the model stops where the hardware may do anything. -/
  | beyondAbsoluteLimits
deriving DecidableEq, Repr

/-- Why a command has no meaning. -/
inductive Refusal where
  /-- The command's arm of Machine/Dispatch is not written. Safe: the model stops. -/
  | notModelled (mnemonic : String)
deriving DecidableEq, Repr

/-- The module as it enters RESET_ENTRY. -/
def State.reset : State := {}

end Sys2Proof.Machine
end

