-- ==== Sys2Proof/Machine/Readings.lean ====
section
/-!
DEFINITION. What the Reeve makes of a sample's readings (R475, R476): the highest reading of a die, the input voltage, and the
input power.
-/

namespace Sys2Proof

/-- The highest reading of die i, as OBJECT of R488 numbers it, and the first sensor that gives it. -/
def Sample.hot (x : Sample) (i : Nat) : Int × Nat :=
  match (x.temps[i]?).getD [] with
  | [] => (0, 0)
  | t :: l => (l.zipIdx 1).foldl (fun m e => if m.1 < e.1 then e else m) (t, 0)

/-- The reading of one temperature sensor: sensor k of die i; 10 is the coolant inlet, 11 the outlet. -/
def Sample.sensor (x : Sample) (i k : Nat) : Option Int :=
  if i == 10 then (if k == 0 then some x.inlet else none)
  else if i == 11 then (if k == 0 then some x.outlet else none)
  else (x.temps[i]?).bind fun l => l[k]?

/-- The temperature sensors of a sample. -/
def Sample.sensors (x : Sample) : List (Nat × Nat) :=
  (x.temps.zipIdx.flatMap fun e => (List.range e.1.length).map fun k => (e.2, k)) ++ [(10, 0), (11, 0)]

/-- The input voltage in 10 mV: rail 22 is VIN (Table 16.6). -/
def Sample.vin (x : Sample) : Nat := ((x.rails[22]?).getD (0, 0)).2 / 10

/-- The input power in W, summed from the readings of the rails that VIN feeds (DEDUCED, log 95). -/
def Sample.power (x : Sample) : Nat :=
  (x.rails.zipIdx.foldl (fun n e => if e.2 < 22 then n + e.1.1 * e.1.2 else n) 0) / 10000

end Sys2Proof
end

