-- ==== Sys2Proof/Machine/Sparse.lean ====
section
/-!
DEFINITION. Sparse tables and the byte memory over them. A table lists its entries in rising order of their keys;
`sget` reads a default where nothing is listed. The memory (R24, R190) lists bytes that are not 0, since every byte
that nothing has written reads 0 (R194, R414).
-/

namespace Sys2Proof.Machine

/-- The entry at k, or the default d. -/
def sget {α : Type} (d : α) : SMap α → Nat → α
  | [], _ => d
  | (k', v) :: m, k => if k = k' then v else sget d m k

/-- The table with v at k. -/
def sset {α : Type} (k : Nat) (v : α) : SMap α → SMap α
  | [] => [(k, v)]
  | (k', v') :: m =>
    if k < k' then (k, v) :: (k', v') :: m
    else if k = k' then (k, v) :: m
    else (k', v') :: sset k v m

/-- The table without an entry at k. -/
def sdel {α : Type} (k : Nat) : SMap α → SMap α
  | [] => []
  | (k', v') :: m => if k = k' then sdel k m else (k', v') :: sdel k m

/-- The table with the entry at k changed by f. -/
def smod {α : Type} (d : α) (k : Nat) (f : α → α) (m : SMap α) : SMap α := sset k (f (sget d m k)) m

/-- A byte of memory. -/
def memGet (m : List Host.Cell) (a : Nat) : Byte := sget 0 m a

/-- Memory with byte b at a; a 0 is not listed. -/
def memSet (a : Nat) (b : Byte) : List Host.Cell → List Host.Cell
  | [] => if b = 0 then [] else [(a, b)]
  | (a', b') :: m =>
    if a < a' then (if b = 0 then (a', b') :: m else (a, b) :: (a', b') :: m)
    else if a = a' then (if b = 0 then m else (a, b) :: m)
    else (a', b') :: memSet a b m

/-- Canonical form: addresses strictly rising, no byte 0 listed. -/
def Memory.wf : List Host.Cell → Bool
  | [] => true
  | [(_, b)] => b != 0
  | (a, b) :: (a', b') :: m => b != 0 && decide (a < a') && Memory.wf ((a', b') :: m)

/-- n bytes from a, rising addresses. -/
def memBytes (m : List Host.Cell) (a : Nat) : Nat → List Byte
  | 0 => []
  | n + 1 => memGet m a :: memBytes m (a + 1) n

/-- Memory with bytes written from a on. -/
def memWrite (a : Nat) : List Byte → List Host.Cell → List Host.Cell
  | [], m => m
  | b :: bs, m => memWrite (a + 1) bs (memSet a b m)

/-- Memory with every byte of [a, a + n) made 0: the listed bytes of the range are dropped. -/
def memClear (a n : Nat) (m : List Host.Cell) : List Host.Cell :=
  m.filter fun c => !(decide (a ≤ c.1) && decide (c.1 < a + n))

/-- Little-endian value of bytes (R7). -/
def leNat : List Byte → Nat
  | [] => 0
  | b :: bs => b.toNat + 256 * leNat bs

/-- n little-endian bytes of a value. -/
def leBytes (v : Nat) : Nat → List Byte
  | 0 => []
  | n + 1 => BitVec.ofNat 8 v :: leBytes (v / 256) n

end Sys2Proof.Machine
end

