-- ==== Sys2Proof/Machine/Ops.lean ====
section
/-!
DEFINITION. Named operations over the state: access to each table, free values, event records (R17 to R19), ownership
of quads, units' places in memory.
-/

namespace Sys2Proof.Machine

/-! ### Names -/

/-- Core of a thread. -/
def thCore (th : ThreadId) : Nat := th.toNat / 4

/-- Thread t of a core. -/
def thT (th : ThreadId) : Nat := th.toNat % 4

/-- Thread g.t. -/
def mkTh (g t : Nat) : ThreadId := BitVec.ofNat 13 (4 * g + t)

/-- Quad of a thread. -/
def thQuad (th : ThreadId) : Nat := th.toNat / 16

/-- Die of a core. -/
def coreDie (g : Nat) : Nat := g / 256

/-! ### Tables -/

def State.thr (s : State) (th : ThreadId) : Thread := sget {} s.threads th.toNat

def State.setThr (s : State) (th : ThreadId) (t : Thread) : State := { s with threads := sset th.toNat t s.threads }

def State.modThr (s : State) (th : ThreadId) (f : Thread → Thread) : State := s.setThr th (f (s.thr th))

def State.core (s : State) (g : Nat) : Core := sget {} s.cores g

def State.setCore (s : State) (g : Nat) (c : Core) : State := { s with cores := sset g c s.cores }

def State.modCore (s : State) (g : Nat) (f : Core → Core) : State := s.setCore g (f (s.core g))

def State.ctx (s : State) (c : CtxId) : Ctx := sget {} s.ctxs c.toNat

def State.setCtx (s : State) (c : CtxId) (x : Ctx) : State := { s with ctxs := sset c.toNat x s.ctxs }

def State.modCtx (s : State) (c : CtxId) (f : Ctx → Ctx) : State := s.setCtx c (f (s.ctx c))

def State.modCtxMem (s : State) (c : CtxId) (f : CtxMem → CtxMem) : State :=
  s.modCtx c fun x => { x with mem := f x.mem }

def State.modCtxRst (s : State) (c : CtxId) (f : CtxRst → CtxRst) : State :=
  s.modCtx c fun x => { x with rst := f x.rst }

def State.modFeed (s : State) (c : CtxId) (f : Feed → Feed) : State :=
  s.modCtx c fun x => { x with feed := f x.feed }

def State.die (s : State) (d : Nat) : DieMem := sget {} s.dies d

def State.modDie (s : State) (d : Nat) (f : DieMem → DieMem) : State := { s with dies := smod {} d f s.dies }

def State.gran (s : State) (n : Nat) : Gran := sget {} s.grans n

def State.modGran (s : State) (n : Nat) (f : Gran → Gran) : State := { s with grans := smod {} n f s.grans }

def State.port (s : State) (p : Nat) : Port := sget {} s.fab.ports p

def State.modFab (s : State) (f : Fab → Fab) : State := { s with fab := f s.fab }

def State.modPort (s : State) (p : Nat) (f : Port → Port) : State :=
  s.modFab fun b => { b with ports := smod {} p f b.ports }

def State.modGate (s : State) (f : Gate → Gate) : State := { s with gate := f s.gate }

def State.modRst (s : State) (f : Rst → Rst) : State := { s with rst := f s.rst }

def State.modSync (s : State) (f : Sync → Sync) : State := { s with sync := f s.sync }

def State.tally (s : State) (i : Nat) : Tally := sget {} s.sync.tallies i

def State.modTally (s : State) (i : Nat) (f : Tally → Tally) : State :=
  s.modSync fun y => { y with tallies := smod {} i f y.tallies }

def State.bell (s : State) (j : Nat) : Bell := sget {} s.sync.bells j

def State.modBell (s : State) (j : Nat) (f : Bell → Bell) : State :=
  s.modSync fun y => { y with bells := smod {} j f y.bells }

def State.modSyncDie (s : State) (d : Nat) (f : SyncDie → SyncDie) : State :=
  s.modSync fun y => { y with dies := smod {} d f y.dies }

def State.engine (s : State) (q : Nat) : Engine := sget {} s.strm q

def State.modEngine (s : State) (q : Nat) (f : Engine → Engine) : State := { s with strm := smod {} q f s.strm }

def State.chan (s : State) (q ch : Nat) : Chan := sget {} (s.engine q).chans ch

def State.modChan (s : State) (q ch : Nat) (f : Chan → Chan) : State :=
  s.modEngine q fun e => { e with chans := smod {} ch f e.chans }

def State.redEng (s : State) (e : Nat) : RedEngine := sget {} s.red e

def State.modRedEng (s : State) (e : Nat) (f : RedEngine → RedEngine) : State := { s with red := smod {} e f s.red }

def State.modRedCtx (s : State) (c : CtxId) (f : RedCtx → RedCtx) : State := s.modCtx c fun x => { x with red := f x.red }

def State.modSnap (s : State) (c : CtxId) (f : SnapSt → SnapSt) : State := s.modCtx c fun x => { x with snap := f x.snap }

def State.modHarv (s : State) (f : Harvest → Harvest) : State := { s with harv := f s.harv }

def State.modNvm (s : State) (f : Nvm → Nvm) : State := { s with nvm := f s.nvm }

def State.modBoot (s : State) (f : Boot → Boot) : State := { s with boot := f s.boot }

def State.modVault (s : State) (f : Vault → Vault) : State := { s with vault := f s.vault }

def State.modPwr (s : State) (f : Power → Power) : State := { s with pwr := f s.pwr }

def State.dieClk (s : State) (d : Nat) : DieClk := sget {} s.pwr.dies d

def State.modDieClk (s : State) (d : Nat) (f : DieClk → DieClk) : State :=
  s.modPwr fun p => { p with dies := smod {} d f p.dies }

def State.modCar (s : State) (f : Carrier → Carrier) : State := { s with car := f s.car }

def State.send (s : State) (o : Out) : State := { s with out := s.out ++ [o] }

/-- All contexts. -/
def allCtx : List CtxId := (List.range 16).map fun c => BitVec.ofNat 4 c

/-! ### Free values -/

/-- The next free value of w bits, and the state with the counter advanced. -/
def State.draw (s : State) (w : Nat) : BitVec w × State :=
  (Config.free w s.freeCtr, { s with freeCtr := s.freeCtr + 1 })

/-! ### Ownership (R63, R64) -/

/-- The context that owns a quad. -/
def State.quadCtx (s : State) (q : Nat) : Option CtxId := (s.quadOwner.find? fun e => e.1 == q).map (·.2)

/-- The context of a thread. -/
def State.thCtx (s : State) (th : ThreadId) : Option CtxId := s.quadCtx (thQuad th)

/-- The context that owns a core. -/
def State.coreCtx (s : State) (g : Nat) : Option CtxId := s.quadCtx (g / 4)

/-- Quads of a context. -/
def State.quadsOf (s : State) (c : CtxId) : List Nat := (s.quadOwner.filter fun e => e.2 == c).map (·.1)

/-- Cores of a context. -/
def State.coresOf (s : State) (c : CtxId) : List Nat := (s.quadsOf c).flatMap fun q => [4 * q, 4 * q + 1, 4 * q + 2, 4 * q + 3]

/-- Threads of a context. -/
def State.threadsOf (s : State) (c : CtxId) : List ThreadId :=
  (s.coresOf c).flatMap fun g => [mkTh g 0, mkTh g 1, mkTh g 2, mkTh g 3]

/-! ### Event records (R17 to R19, R368, R369, R431) -/

/-- Count of a clock. -/
def State.count (s : State) : Clk → Nat
  | .core d => sget 0 s.clk.core d.toNat
  | .mesh => s.clk.mesh
  | .uncore => s.clk.uncore
  | .reeve => s.clk.reeve

/-- STAMP_CLOCK (Table 0.4). -/
def Clk.code : Clk → Byte
  | .core _ => 0x01
  | .mesh => 0x02
  | .uncore => 0x03
  | .reeve => 0x04

def sevInfo : Byte := 0x00
def sevNotice : Byte := 0x01
def sevError : Byte := 0x02
def sevCtxFatal : Byte := 0x03
def sevDieFatal : Byte := 0x04
def sevModuleFatal : Byte := 0x05

/-- No object (Table 0.4). -/
def noObj : BitVec 32 := 0xFFFFFFFF

/-- A DETAIL field of n bytes from record byte `off` (40 to 63). -/
def det (off n v : Nat) : BitVec 192 := BitVec.ofNat 192 ((v % 2 ^ (8 * n)) <<< (8 * (off - 40)))

/-- What a source gives for a record. -/
structure Rec where
  unit : UnitId
  clk : Clk
  code : Reason
  sev : Byte
  ctx : Option CtxId := none
  obj : BitVec 32 := noObj
  waiter : Option ThreadId := none
  detail : BitVec 192 := 0

/-- Write a journal record; its change takes effect at the read-back (R453, R454). A Vault in ERROR makes no TAG (R461). -/
def State.journal (s : State) (c : JChange) : State :=
  { s with nvm := { s.nvm with queue := if s.vault.st == .error then s.nvm.queue else s.nvm.queue ++ [c] } }

/-- The recovery level that followed a record (Table 14.7): the one that an RST record says was started, a purge for RST_CTX and
RST_FENCED, else the one that its severity brings on (log 164). -/
def EventRec.levelAfter (e : EventRec) : Byte :=
  let started : Byte := (e.detail >>> 8).setWidth 8
  if e.code.toNat / 256 == 0x0B && started != 0 then started
  else if e.code == 0x0B01 || e.code == 0x0B07 then 1
  else if e.severity == sevModuleFatal then 4
  else if e.severity == sevDieFatal then 3
  else if e.severity == sevCtxFatal then 1
  else 0

/-- The fault history takes records of severity CTX_FATAL or above and every RST record, at most 64 in one second
(R431); the entry is journalled. -/
def State.fhAppend (s : State) (idx : Nat) (e : EventRec) : State :=
  if e.severity.toNat ≥ 3 || e.code.toNat / 256 == 0x0B then
    let sec := s.clk.reeve / 212500000
    let r := s.rst
    let r := if r.fhSecond == sec then r else { r with fhSecond := sec, fhThisSecond := 0 }
    let r := if e.code == 0x0B04 then { r with episode := satAdd 8 r.episode 1 } else r
    if r.fhThisSecond < 64 then
      let ent : FhEntry := ⟨BitVec.ofNat 32 s.nvm.resets, BitVec.ofNat 64 idx, e, e.levelAfter, BitVec.ofNat 8 r.episode⟩
      { s with rst := { r with fhThisSecond := r.fhThisSecond + 1 } }.journal (.fault ent)
    else { s with rst := { r with fhDropped := satAdd 32 r.fhDropped 1 } }
  else s

/-- Write one event record. -/
def State.record (s : State) (r : Rec) : State :=
  let sq := sget 0 s.log.seqs r.unit.toNat + 1
  let gen : Byte := match r.ctx with | some c => (s.ctx c).gen | none => 0
  let e : EventRec :=
    { code := r.code, severity := r.sev, context := r.ctx, generation := gen, unit := r.unit, object := r.obj,
      waiter := r.waiter, seq := sq, stamp := s.count r.clk - sget 0 s.stampBase r.unit.toNat, clock := r.clk.code,
      detail := r.detail }
  let idx := s.log.next
  let held := s.log.held ++ [(idx, e)]
  let held := if held.length > 4096 then held.drop (held.length - 4096) else held
  let ss := s.gate.sessions.map fun x =>
    match x.minSev with
    | some m => if m.toNat ≤ r.sev.toNat then { x with waiting := x.waiting ++ [idx] } else x
    | none => x
  let s := { s with
    log := { seqs := sset r.unit.toNat sq s.log.seqs, held := held, next := idx + 1 },
    gate := { s.gate with sessions := ss } }
  s.fhAppend idx e

/-- The 64 bytes of a record (Table 0.4). -/
def EventRec.bytes (e : EventRec) : List Byte :=
  leBytes e.code.toNat 2 ++ [e.severity, (match e.context with | some c => c.setWidth 8 | none => 0xFF), e.generation, 1] ++
  leBytes e.unit.toNat 2 ++ leBytes e.object.toNat 4 ++
  leBytes (match e.waiter with | some t => 2 ^ 31 + t.toNat | none => 0) 4 ++
  leBytes e.seq 8 ++ leBytes e.stamp 8 ++ [e.clock] ++ leBytes 0 7 ++ leBytes e.detail.toNat 24

/-! ### Units -/

def uCore (g : Nat) : UnitId := BitVec.ofNat 16 (0x1000 + g)
def uQuad (q : Nat) : UnitId := BitVec.ofNat 16 (0x1800 + q)
def uCtxMem (c : CtxId) : UnitId := BitVec.ofNat 16 (0x0200 + c.toNat)
def uDieMem (d : Nat) : UnitId := BitVec.ofNat 16 (0x0300 + d)
def uGran (n : Nat) : UnitId := BitVec.ofNat 16 (0x0310 + n)
def uSync (d : Nat) : UnitId := BitVec.ofNat 16 (0x0400 + d)
def uRed (e : Nat) : UnitId := BitVec.ofNat 16 (0x0600 + e)
def uPort (p : Nat) : UnitId := if p == 16 then 0x0900 else BitVec.ofNat 16 (0x0700 + p)
def uFab : UnitId := 0x0710
def uLaser (m : Nat) : UnitId := BitVec.ofNat 16 (0x0720 + m)
def uGate : UnitId := 0x0900
def uSeq : UnitId := 0x0901
def uFeed (c : CtxId) : UnitId := BitVec.ofNat 16 (0x0910 + c.toNat)
def uHarvest (h : Nat) : UnitId := BitVec.ofNat 16 (0x0A00 + h)
def uRst : UnitId := 0x0B00
def uCtxRst (c : CtxId) : UnitId := BitVec.ofNat 16 (0x0B10 + c.toNat)

/-- Blocks of the control window that are assigned to units (R14, R54, R225, R248, R273, R310, R347, R377, R404, R433,
R465, R489). -/
def blockAssigned (b : Nat) : Bool :=
  let inR (lo hi : Nat) : Bool := decide (lo ≤ b) && decide (b ≤ hi)
  inR 0x200 0x20F || inR 0x300 0x307 || inR 0x310 0x31B || inR 0x400 0x407 || inR 0x600 0x607 || inR 0x610 0x61F ||
    inR 0x700 0x710 || inR 0x720 0x723 || inR 0x900 0x901 || inR 0x910 0x91F || inR 0xA00 0xA01 || inR 0xA10 0xA1F ||
    b == 0xB00 || inR 0xB10 0xB1F || inR 0xC00 0xC01 || inR 0xC10 0xC17 || b == 0xD00 || b == 0xD10 ||
    inR 0x1000 0x19FF

/-- Clock of a core's die. -/
def clkOf (g : Nat) : Clk := .core (BitVec.ofNat 3 (coreDie g))

/-! ### Memory: physical locations

A location of the model's memory is: a Bench byte at its any-Bench address, a Larder or Cellar byte at its window
address, a Granary byte at 2^63 plus its physical address. -/

/-- Location of offset off of core g's Bench. -/
def benchLoc (g off : Nat) : Nat := 0x100000000 + g * 0x100000 + off

/-- Location of a physical Granary address. -/
def granLoc (pa : Nat) : Nat := 2 ^ 63 + pa

def isBench (l : Nat) : Bool := decide (0x100000000 ≤ l) && decide (l < 0x180000000)
def isLarder (l : Nat) : Bool := decide (0x200000000 ≤ l) && decide (l < 0x300000000)
def isCellar (l : Nat) : Bool := decide (0x1000000000 ≤ l) && decide (l < 0x5000000000)
def isGran (l : Nat) : Bool := decide (2 ^ 63 ≤ l)

/-- Bytes of a protected unit (Table 7.11). -/
def unitBytes (l : Nat) : Nat := if isBench l || isLarder l then 8 else 64

/-- Start of the protected unit of a location. -/
def unitOf (l : Nat) : Nat := l / unitBytes l * unitBytes l

def State.poisoned (s : State) (l : Nat) : Bool := s.poison.contains (unitOf l)

/-- A location is read: a byte with no mark. -/
def State.peek (s : State) (l n : Nat) : List Byte := memBytes s.mem l n

/-- Some byte of [l, l + n) lies in a poisoned unit. -/
def State.poisonIn (s : State) (l n : Nat) : Bool :=
  s.poison.any fun u => decide (u < l + n) && decide (l < u + unitBytes u)

/-- Blocks of 4 MiB that n bytes from a location touch; Benches have no WRITTEN bit (R387). -/
def blocksAt (l n : Nat) : List Nat :=
  if isBench l || n == 0 then [] else (List.range ((l + n - 1) / 0x400000 - l / 0x400000 + 1)).map (l / 0x400000 + ·)

/-- Blocks with their bits set. -/
def setWritten (bs w : List Nat) : List Nat := bs.foldl (fun w b => if w.contains b then w else b :: w) w

/-- Bytes are written; a write that covers a whole unit clears its mark (R215). -/
def State.poke (s : State) (l : Nat) (bs : List Byte) : State :=
  { s with
    mem := memWrite l bs s.mem,
    written := setWritten (blocksAt l bs.length) s.written,
    poison := s.poison.filter fun u => !(decide (l ≤ u) && decide (u + unitBytes u ≤ l + bs.length)) }

/-- Cells are written one by one; a unit whose every byte is among them loses its mark. -/
def State.pokeCells (s : State) (cs : List (Nat × Byte)) : State :=
  { s with
    mem := cs.foldl (fun m c => memSet c.1 c.2 m) s.mem,
    written := setWritten (cs.flatMap fun c => blocksAt c.1 1) s.written,
    poison := s.poison.filter fun u => !((List.range (unitBytes u)).all fun i => cs.any fun c => c.1 == u + i) }

/-- Some cell lies in a poisoned unit that the cells do not cover whole (R216). -/
def State.subPoison (s : State) (cs : List (Nat × Byte)) : Bool :=
  s.poison.any fun u => (cs.any fun c => unitOf c.1 == u) &&
    !((List.range (unitBytes u)).all fun i => cs.any fun c => c.1 == u + i)

/-- A unit's mark is set; its error is known. -/
def State.setPoison (s : State) (u : Nat) : State :=
  { s with poison := if s.poison.contains u then s.poison else u :: s.poison, fresh := s.fresh.filter (· != u) }

/-! ### Bench, Larder, Cellar places -/

/-- TIER, PLACE and UNIT of a location, for memory-unit records (Table 7.5). -/
def granPlace (pa salt : Nat) : Nat × Nat :=
  let gi := pa / 256
  let g := gi / 192
  let j := gi % 192
  let r := (g + g / 64 + g / 4096 + g / 262144 + 11 * salt) % 192
  ((j + r) % 192, (((g ^^^ (g / 16)) ^^^ (g / 256)) % 16) ^^^ salt)

/-- A physical address of a channel and bank: stripe g with its low four bits as the bank needs them, byte b of the granule. -/
def placeInv (channel bank salt g b : Nat) : Nat :=
  let g := g / 16 * 16 + (((bank ^^^ salt) ^^^ (g / 16)) ^^^ (g / 256)) % 16
  let r := (g + g / 64 + g / 4096 + g / 262144 + 11 * salt) % 192
  (g * 192 + (channel + 192 - r) % 192) * 256 + b

/-- Salt of the context that owns a Granary frame; 0 where none does (R213). -/
def State.saltOf (s : State) (pa : Nat) : Nat :=
  match allCtx.find? fun c => (s.ctx c).mem.regions.any fun r =>
      r.win == 2 && decide (r.base * 0x300000 ≤ pa) && decide (pa < r.limit * 0x300000) with
  | some c => (s.ctx c).mem.gsalt.toNat
  | none => 0

/-- Bench bank of an offset (R201). -/
def benchBank (off : Nat) : Nat :=
  let l := off / 64 % 0x4000
  ((l % 16 ^^^ (l / 16 % 16)) ^^^ (l / 256 % 16)) ^^^ (l / 4096 % 4)

/-- Larder slice of a die offset (R202). -/
def larderSlice (a : Nat) : Nat :=
  ((a / 0x100 % 64 ^^^ (a / 0x4000 % 64)) ^^^ (a / 0x100000 % 64)) ^^^ (a / 0x4000000 % 8)

/-- Cellar vault, DRAM die and bank of a die offset (R203). -/
def cellarVault (a : Nat) : Nat :=
  ((a / 0x100 % 64 ^^^ (a / 0x4000 % 64)) ^^^ (a / 0x100000 % 64)) ^^^ (a / 0x20000000 % 64)

def cellarDram (a : Nat) : Nat := (a / 0x100 % 4) ^^^ (a / 0x40000000 % 4)

def cellarBank (a : Nat) : Nat := (a / 0x4000 % 16) ^^^ (a / 0x40000000 % 16)

/-- home of a physical Granary address (R206). -/
def granHome (pa : Nat) : Nat := (List.range 11).foldl (fun a k => a + pa / 256 / 8 ^ k % 8) 0 % 8

end Sys2Proof.Machine
end

