-- ==== Sys2Proof/Machine/Cache.lean ====
section
/-!
DEFINITION. Set-associative tables with not-recently-used replacement (R207, R211), and the Granary's home caches in the
Cellars: hits, fills, allocation, write-back (R205 to R207). The module's memory is the data in force; a dirty sector
keeps what the Granary holds in its place, so that a line dropped without write-back gives that back. A request is of at
most 64 bytes; the counters count requests (log 128).
-/

namespace Sys2Proof.Machine

/-! ### Sets -/

/-- Members of the set that key belongs to, where every way of it is in use. -/
def fullSet (ways sets key : Nat) (keys : List Nat) : Option (List Nat) :=
  if keys.length < ways then none
  else
    let mates := keys.filter fun k => Config.setOf sets k % sets == Config.setOf sets key % sets
    if mates.length < ways then none else some mates

/-- Members of a full set that a new entry may replace: those not recently used, or any where all are. -/
def victims (mates used : List Nat) : List Nat :=
  let l := mates.filter fun k => !used.contains k
  if l.isEmpty then mates else l

/-- The marks after a use of key: when every way of its set would be marked, only key stays marked. -/
def touchSet (ways sets key : Nat) (keys used : List Nat) : List Nat :=
  let u := if used.contains key then used else key :: used
  match fullSet ways sets key keys with
  | some mates => if mates.all u.contains then u.filter fun k => k == key || !mates.contains k else u
  | none => u

/-- One of several victims, by a free value. -/
def State.pickVictim (s : State) (vs : List Nat) : Option Nat × State :=
  let (v, s) := s.draw 3
  (vs[v.toNat % vs.length]?, s)

/-! ### Lines of the cache parts -/

/-- Sets of a die's cache part: its data of Table 7.7 in lines of 256 bytes, eight ways. -/
def cacheSets (cfrac : BitVec 3) : Nat := min cfrac.toNat 4 * 3047424

/-- Home die of a granule. -/
def homeOf (gi : Nat) : Nat := granHome (gi * 256)

def State.cellLine (s : State) (gi : Nat) : Option CellLine :=
  ((s.die (homeOf gi)).lines.find? fun e => e.1 == gi).map (·.2)

def State.setLine (s : State) (gi : Nat) (l : CellLine) : State :=
  s.modDie (homeOf gi) fun d => { d with lines := sset gi l d.lines }

/-- The controller of a granule serves n requests for it. -/
def State.countGran (s : State) (gi n : Nat) : State :=
  s.modGran ((granPlace (gi * 256) (s.saltOf (gi * 256))).1 / 16) fun g => { g with req := g.req + n }

/-- A line leaves its cache, its dirty sectors written back. -/
def State.evictLine (s : State) (gi : Nat) : State :=
  match s.cellLine gi with
  | none => s
  | some l =>
    let n := l.dirty.length
    let s := s.modDie (homeOf gi) fun d => { d with lines := sdel gi d.lines, wb := d.wb + n }
    if n == 0 then s else s.countGran gi n

/-- A line leaves its cache without write-back: the Granary's own data is in force again. -/
def State.dropLine (s : State) (gi : Nat) : State :=
  match s.cellLine gi with
  | none => s
  | some l =>
    let s := s.modDie (homeOf gi) fun d => { d with lines := sdel gi d.lines }
    l.dirty.foldl (fun s x =>
      let a := granLoc (gi * 256 + 64 * x.sector)
      { s with
        mem := memWrite a (leBytes x.data.toNat 64) s.mem
        poison := if x.poison then (if s.poison.contains a then s.poison else a :: s.poison) else s.poison.filter (· != a) }) s

/-- Room in the set of a granule's line. -/
def State.makeRoom (s : State) (gi : Nat) : State :=
  let ls := (s.die (homeOf gi)).lines
  match fullSet 8 (cacheSets s.cfrac) gi (ls.map (·.1)) with
  | none => s
  | some mates =>
    let (v, s) := s.pickVictim (victims mates ((ls.filter (·.2.used)).map (·.1)))
    match v with
    | some g => s.evictLine g
    | none => s

/-- A line has been used. -/
def State.useLine (s : State) (gi : Nat) : State :=
  let ls := (s.die (homeOf gi)).lines
  let u := touchSet 8 (cacheSets s.cfrac) gi (ls.map (·.1)) ((ls.filter (·.2.used)).map (·.1))
  s.modDie (homeOf gi) fun d => { d with lines := d.lines.map fun e => (e.1, { e.2 with used := u.contains e.1 }) }

/-- n requests of a granule are served at its home: h of them hits. -/
def State.countHome (s : State) (gi h n : Nat) : State :=
  s.modDie (homeOf gi) fun d => { d with hit := d.hit + h, miss := d.miss + (n - h) }

/-- Sectors of a granule as a mask. -/
def sectorMask (l : List Nat) : BitVec 4 := l.foldl (fun m i => m ||| (1#4 <<< i)) 0

/-- Sectors of a granule are read, each by one request: a miss fills the whole line. -/
def State.readGranule (s : State) (gi : Nat) (secs : List Nat) : State :=
  let n := secs.length
  match s.cellLine gi with
  | some l =>
    if l.valid &&& sectorMask secs == sectorMask secs then (s.countHome gi n n).useLine gi
    else (((s.countHome gi (n - 1) n).countGran gi 1).setLine gi { l with valid := 0xF }).useLine gi
  | none => ((((s.countHome gi (n - 1) n).makeRoom gi).countGran gi 1).setLine gi { valid := 0xF }).useLine gi

/-- What the Granary holds of a sector, as a write makes it dirty. -/
def State.stale (s : State) (gi sec : Nat) : Stale :=
  let a := granLoc (gi * 256 + 64 * sec)
  ⟨sec, BitVec.ofNat 512 (leNat (s.peek a 64)), s.poison.contains a⟩

/-- A sector is about to be written: a whole one needs no fill, a part of one fills first. -/
def State.writeSector (s : State) (gi sec : Nat) (whole : Bool) : State :=
  let x := s.stale gi sec
  let dirtied (l : CellLine) : CellLine := if l.dirty.any fun y => y.sector == sec then l else { l with dirty := l.dirty ++ [x] }
  let one : BitVec 4 := 1#4 <<< sec
  match s.cellLine gi with
  | some l =>
    if whole || l.valid.getLsbD sec then
      ((s.countHome gi 1 1).setLine gi (dirtied { l with valid := l.valid ||| one })).useLine gi
    else (((s.countHome gi 0 1).countGran gi 1).setLine gi (dirtied { l with valid := 0xF })).useLine gi
  | none =>
    let s := (s.countHome gi 0 1).makeRoom gi
    if whole then (s.setLine gi (dirtied { valid := one })).useLine gi
    else ((s.countGran gi 1).setLine gi (dirtied { valid := 0xF })).useLine gi

/-! ### Accesses -/

/-- Granules that n bytes from a location touch, with the sectors of each. -/
def granulesOf (l n : Nat) : List (Nat × List Nat) :=
  let a := l - 2 ^ 63
  if n == 0 then []
  else (List.range ((a + n - 1) / 256 - a / 256 + 1)).map fun i =>
    let gi := a / 256 + i
    (gi, (List.range 4).filter fun k => decide (a < gi * 256 + 64 * k + 64) && decide (gi * 256 + 64 * k < a + n))

/-- n bytes from a location are read: Granary ones at their homes, or by the controllers with CFRAC 0. -/
def State.readVia (s : State) (l n : Nat) : State :=
  if !isGran l then s
  else (granulesOf l n).foldl (fun s x =>
    if s.cfrac == 0 then s.countGran x.1 x.2.length else s.readGranule x.1 x.2) s

/-- n bytes from a location are about to be written. -/
def State.writeVia (s : State) (l n : Nat) : State :=
  if !isGran l then s
  else
    let a := l - 2 ^ 63
    (granulesOf l n).foldl (fun s x =>
      if s.cfrac == 0 then s.countGran x.1 x.2.length
      else x.2.foldl (fun s k =>
        s.writeSector x.1 k (decide (a ≤ x.1 * 256 + 64 * k) && decide (x.1 * 256 + 64 * k + 64 ≤ a + n))) s) s

/-- Cells are about to be written: one request for each sector. -/
def State.writeCellsVia (s : State) (cs : List (Nat × Byte)) : State :=
  let secs := ((cs.filter fun c => isGran c.1).map fun c => (c.1 - 2 ^ 63) / 64).eraseDups
  secs.foldl (fun s x =>
    if s.cfrac == 0 then s.countGran (x / 4) 1
    else s.writeSector (x / 4) (x % 4)
      (decide (64 ≤ ((cs.map (·.1)).filter fun c => isGran c && (c - 2 ^ 63) / 64 == x).eraseDups.length))) s

/-- Bytes are written by a unit. -/
def State.pokeVia (s : State) (l : Nat) (bs : List Byte) : State := (s.writeVia l bs.length).poke l bs

/-- Cells are written by a unit. -/
def State.pokeCellsVia (s : State) (cs : List (Nat × Byte)) : State := (s.writeCellsVia cs).pokeCells cs

/-- Every line of the cache part is written back and dropped, as before a change of CFRAC (R205): FLUSHING stands while
it is done. -/
def State.flushCells (s : State) : State :=
  (List.range 8).foldl (fun s d =>
    let s := s.modDie d fun x => { x with flushing := true }
    let s := (s.die d).lines.foldl (fun s e => s.evictLine e.1) s
    s.modDie d fun x => { x with flushing := false }) s

/-- Lines whose granules p holds of leave the caches of the dies in `ds`, without write-back. -/
def State.dropLines (s : State) (ds : List Nat) (p : Nat → Bool) : State :=
  ds.foldl (fun s d => ((s.die d).lines.filter fun e => p e.1).foldl (fun s e => s.dropLine e.1) s) s

/-! ### The unit that holds a location -/

/-- The sector of a Granary location is in its home's cache part. -/
def State.inCache (s : State) (l : Nat) : Bool :=
  isGran l && (match s.cellLine ((l - 2 ^ 63) / 256) with
    | some x => x.valid.getLsbD ((l - 2 ^ 63) / 64 % 4)
    | none => false)

/-- Unit that holds a location, with the clock of its records. -/
def State.memUnit (s : State) (l : Nat) : UnitId × Clk :=
  if isBench l then (uDieMem (coreDie ((l - 0x100000000) / 0x100000)), .uncore)
  else if isLarder l then (uDieMem ((l - 0x200000000) / 0x20000000), .uncore)
  else if isCellar l then (uDieMem ((l - 0x1000000000) / 0x800000000), .uncore)
  else if s.inCache l then (uDieMem (granHome (l - 2 ^ 63)), .uncore)
  else (uGran ((granPlace (l - 2 ^ 63) (s.saltOf (l - 2 ^ 63))).1 / 16), .uncore)

/-- DETAIL of a memory unit's record (Table 7.5). Where a line of a cache part lies in its Cellar is the machine's own. -/
def State.memDetail (s : State) (l : Nat) (addr : Nat) (req : BitVec 16) : BitVec 192 :=
  let (tier, place, sub, bank) : Nat × Nat × Nat × Nat :=
    if isBench l then
      let g := (l - 0x100000000) / 0x100000
      (0, coreDie g, benchBank (l % 0x100000), 0xFF)
    else if isLarder l then
      let a := (l - 0x200000000) % 0x20000000
      (1, (l - 0x200000000) / 0x20000000, larderSlice a, 0xFF)
    else if isCellar l then
      let a := (l - 0x1000000000) % 0x800000000
      (2, (l - 0x1000000000) / 0x800000000, cellarVault a, cellarBank a)
    else
      let pa := l - 2 ^ 63
      if s.inCache l then
        let a := Config.cacheOffset s.cfrac.toNat (pa / 256) % 0x600000000
        (3, granHome pa, cellarVault a, cellarBank a)
      else
        let (ch, bk) := granPlace pa (s.saltOf pa)
        (4, ch / 16, ch % 16, bk)
  det 40 8 (if isGran l then l else addr) ||| det 48 1 tier ||| det 49 1 place ||| det 50 1 sub ||| det 51 1 bank |||
    det 52 2 req.toNat

end Sys2Proof.Machine
end

