-- ==== Sys2Proof/Machine/Hash.lean ====
section
/-!
DEFINITION. The hash functions that the manual names: SHA3-512 and SHAKE256 (R305, R380, R441), as FIPS 202 defines
them. PRESUMED from that standard, which the manual cites and does not repeat.
-/

namespace Sys2Proof.Machine

/-- Round constants of Keccak-f[1600]. -/
def keccakRC : List (BitVec 64) :=
  [0x0000000000000001, 0x0000000000008082, 0x800000000000808A, 0x8000000080008000,
   0x000000000000808B, 0x0000000080000001, 0x8000000080008081, 0x8000000000008009] ++
  [0x000000000000008A, 0x0000000000000088, 0x0000000080008009, 0x000000008000000A,
   0x000000008000808B, 0x800000000000008B, 0x8000000000008089, 0x8000000000008003] ++
  [0x8000000000008002, 0x8000000000000080, 0x000000000000800A, 0x800000008000000A,
   0x8000000080008081, 0x8000000000008080, 0x0000000080000001, 0x8000000080008008]

/-- Rotation of lane (x, y), at index x + 5y. -/
def keccakRot : List Nat :=
  [0, 1, 62, 28, 27, 36, 44, 6, 55, 20, 3, 10, 43] ++ [25, 39, 41, 45, 15, 21, 8, 18, 2, 61, 56, 14]

def lane (a : List (BitVec 64)) (i : Nat) : BitVec 64 := (a[i]?).getD 0

/-- One round. -/
def keccakRound (a : List (BitVec 64)) (rc : BitVec 64) : List (BitVec 64) :=
  let c := (List.range 5).map fun x => lane a x ^^^ lane a (x + 5) ^^^ lane a (x + 10) ^^^ lane a (x + 15) ^^^ lane a (x + 20)
  let d := (List.range 5).map fun x => lane c ((x + 4) % 5) ^^^ (lane c ((x + 1) % 5)).rotateLeft 1
  let t := (List.range 25).map fun i => (lane a i ^^^ lane d (i % 5)).rotateLeft ((keccakRot[i]?).getD 0)
  let b := (List.range 25).map fun i =>
    let x := i % 5
    let y := i / 5
    lane t ((x + 3 * y) % 5 + 5 * x)
  (List.range 25).map fun i =>
    let x := i % 5
    let y := i / 5 * 5
    let v := lane b i ^^^ (~~~(lane b ((x + 1) % 5 + y)) &&& lane b ((x + 2) % 5 + y))
    if i == 0 then v ^^^ rc else v

def keccakF (a : List (BitVec 64)) : List (BitVec 64) := keccakRC.foldl keccakRound a

/-- Absorb one block. -/
def keccakAbsorb (a : List (BitVec 64)) (block : List Byte) : List (BitVec 64) :=
  let lanes (n : Nat) : BitVec 64 := BitVec.ofNat 64 (leNat ((block.drop (8 * n)).take 8))
  keccakF ((List.range 25).map fun i => lane a i ^^^ lanes i)

/-- Absorb a message in blocks of `rate` bytes, the last padded with the suffix and the final bit. -/
def keccakSponge (rate : Nat) (suffix : Byte) : Nat → List (BitVec 64) → List Byte → List (BitVec 64)
  | 0, a, _ => a
  | fuel + 1, a, m =>
    if m.length < rate then
      let p := m ++ [suffix] ++ List.replicate (rate - m.length - 1) 0
      keccakAbsorb a (p.take (rate - 1) ++ [(p.getLast?.getD 0) ||| 0x80])
    else keccakSponge rate suffix fuel (keccakAbsorb a (m.take rate)) (m.drop rate)

/-- The first n bytes of the state, first byte lowest. -/
def keccakOut (a : List (BitVec 64)) (n : Nat) : Nat := packF 64 (a.map BitVec.toNat) % 2 ^ (8 * n)

def keccakHash (rate : Nat) (suffix : Byte) (n : Nat) (m : List Byte) : Nat :=
  keccakOut (keccakSponge rate suffix (m.length / rate + 1) (List.replicate 25 0) m) n

/-- SHA3-512. -/
def sha3_512 (m : List Byte) : Digest := BitVec.ofNat 512 (keccakHash 72 0x06 64 m)

/-- HMAC-SHA3-512 with a key of 64 bytes (FIPS 198-1; the block is the rate, 72 bytes). -/
def hmacSha3 (key : BitVec 512) (m : List Byte) : Digest :=
  let k : List Byte := leBytes key.toNat 72
  sha3_512 (k.map (· ^^^ 0x5C) ++ leBytes (sha3_512 (k.map (· ^^^ 0x36) ++ m)).toNat 64)

/-- SHA3-512 of the identity public key: the fingerprint of the device's signatures, and VAULT_ID (R382, R460). -/
def vaultId : Digest := sha3_512 (leBytes Config.identityKey.toNat 2592)

/-- SHAKE256 with n bytes of output, at most its rate of 136. -/
def shake256Nat (n : Nat) (m : List Byte) : Nat := keccakHash 136 0x1F n m

/-- SHAKE256 with 32 bytes of output. -/
def shake256 (m : List Byte) : BitVec 256 := BitVec.ofNat 256 (shake256Nat 32 m)

end Sys2Proof.Machine
end

