-- ==== Sys2Proof/Machine/Wire.lean ====
section
/-!
DEFINITION. Flits and packets as bytes: the CRC-64 of a flit (R313), the header of Table 11.8 and the E2E_CRC of a packet
(R332), and which lane carries which unit of a flit (R329). The manual names the two CRCs by their polynomials; their
initial value, reflection and final inversion are those of ECMA-182 and of CRC-32C (log 13).
-/

namespace Sys2Proof.Machine

/-! ### CRCs -/

/-- The bits of a byte, the least significant first. -/
def byteBits (b : Byte) : List Bool :=
  [b.getLsbD 0, b.getLsbD 1, b.getLsbD 2, b.getLsbD 3, b.getLsbD 4, b.getLsbD 5, b.getLsbD 6, b.getLsbD 7]

/-- The register of CRC-32C after these bits: Castagnoli's polynomial, reflected. -/
def crc32Run : List Bool → BitVec 32 → BitVec 32
  | [], c => c
  | b :: bs, c => if (c.getLsbD 0 != b) = true then crc32Run bs ((c >>> 1) ^^^ 0x82F63B78) else crc32Run bs (c >>> 1)

/-- CRC-32C, from all ones, complemented; each byte's least significant bit first. -/
def crc32c (bs : List Byte) : BitVec 32 := ~~~(crc32Run (bs.flatMap byteBits) 0xFFFFFFFF)

/-- The register of ECMA-182's CRC-64 after these bits. -/
def crc64Run : List Bool → BitVec 64 → BitVec 64
  | [], c => c
  | b :: bs, c =>
    if (c.getLsbD 63 != b) = true then crc64Run bs ((c <<< 1) ^^^ 0x42F0E1EBA9EA3693) else crc64Run bs (c <<< 1)

/-- CRC-64 of ECMA-182, from zero; each byte's most significant bit first. -/
def crc64 (bs : List Byte) : BitVec 64 := crc64Run (bs.flatMap fun b => (byteBits b).reverse) 0

/-! ### Packets (Tables 10.5, 11.8, 13.8) -/

/-- The packet header: 32 bytes. -/
def hdrBytes (h : PktHdr) (len crc : Nat) : List Byte :=
  leBytes h.dest.toNat 2 ++ leBytes h.src.toNat 2 ++ leBytes (h.vc.toNat + b2n h.cls * 8) 1 ++ leBytes h.hops.toNat 1 ++
    leBytes h.flow.toNat 2 ++ leBytes h.sctx.toNat 1 ++ leBytes h.sgen.toNat 1 ++ leBytes h.dctx.toNat 1 ++
    leBytes h.typ.toNat 1 ++ leBytes len 2 ++ leBytes h.unit.toNat 2 ++ leBytes h.tag.toNat 8 ++ leBytes crc 4 ++ leBytes 0 4

/-- A signed field of n bytes. -/
def intBytes (v : Int) (n : Nat) : List Byte := leBytes (v % 2 ^ (8 * n)).toNat n

/-- The roll of a frame: two bits for each shard, to a multiple of eight bytes. -/
def rollBytes (roll : List (BitVec 2)) : List Byte :=
  leBytes (packF 2 (roll.map (·.toNat))) ((2 * roll.length + 63) / 64 * 8)

/-- A reduction frame: header, roll, words of 32 bits (Table 10.5). -/
def frameBytes (dctx : CtxId) (h : FrameHdr) (ws : List Int) (roll : List (BitVec 2)) : List Byte :=
  leBytes h.bucket.toNat 2 ++ leBytes h.ring.toNat 1 ++ leBytes dctx.toNat 1 ++ leBytes h.step.toNat 4 ++
    leBytes h.pass.toNat 1 ++ leBytes h.phase.toNat 1 ++
    leBytes (b2n h.breach + b2n h.nonfinite * 2 + b2n (!roll.isEmpty) * 4 + b2n h.srcfail * 8) 1 ++ leBytes h.h 1 ++
    intBytes h.e 2 ++ intBytes h.maxexp 2 ++ leBytes h.chunk 4 ++ leBytes h.offset 4 ++ leBytes ws.length 2 ++ leBytes 0 6 ++
    rollBytes roll ++ ws.flatMap fun w => intBytes w 4

/-- The header of a snapshot packet: 64 bytes. -/
def snapHdrBytes (h : SnapHdr) : List Byte :=
  leBytes h.kind.toNat 1 ++ leBytes h.context.toNat 1 ++ leBytes h.client.toNat 2 ++ leBytes h.round.toNat 4 ++
    leBytes h.block.toNat 4 ++ leBytes h.offset 4 ++ leBytes 0 48

/-- The 256 bytes of a manifest (Table 13.4). -/
def manifestBytes (m : Manifest) : List Byte :=
  leBytes m.layout.toNat 64 ++ leBytes m.root.toNat 64 ++ leBytes m.signer.toNat 64 ++ leBytes m.round.toNat 4 ++
    leBytes m.leaves.length 4 ++ leBytes (m.parent.getD 0xFFFFFFFF).toNat 4 ++ leBytes m.module.toNat 2 ++
    [m.context.setWidth 8, BitVec.ofNat 8 (b2n m.paused)] ++ leBytes 0 48

/-- Payload bytes, for the flits a message takes (R332). -/
def payloadSize : Payload → Nat
  | .frame h ws roll => if 3 ≤ h.phase.toNat then 32 + 4 * ws.length + (2 * roll.length + 63) / 64 * 8 else 288
  | .shadowCopy _ _ _ c _ => 64 + (match c with | some x => x.1.length | none => 0)
  | .putData _ _ _ _ _ _ _ d => 64 + d.length
  | .snap _ d => 64 + d.length
  | .snapManifest _ m => 64 + 256 + 7224 + 64 * m.leaves.length
  | .bucketCopy _ _ _ r sc _ _ => 64 + r.length + sc.length
  | .switchAck _ l => 64 + 16 * l.length
  | .go _ _ l _ => 64 + 16 * l.length
  | .join _ _ _ l => 64 + 64 * l.length
  | _ => 64

/-- The payload as it travels. Where the manual lays it out, its bytes; elsewhere they are the machine's own. -/
def payloadBytes (dctx : CtxId) (p : Payload) : List Byte :=
  match p with
  | .frame h ws roll =>
    let bs := frameBytes dctx h ws roll
    if 3 ≤ h.phase.toNat then bs else bs ++ List.replicate (288 - bs.length) 0
  | .snap h d => snapHdrBytes h ++ d
  | .snapManifest h m =>
    snapHdrBytes h ++ manifestBytes m ++ leBytes m.sig.toNat 4627 ++ leBytes m.key.toNat 2592 ++ leBytes 0 5 ++
      m.leaves.flatMap fun d => leBytes d.toNat 64
  | _ => (List.range (payloadSize p)).map (Config.wireByte p)

/-- Flits of a packet (R332). -/
def pktFlits (p : Packet) : Nat := (32 + p.wire.length + 239) / 240

/-- A flit as it is sent: link header, packet data, and the CRC-64 over both (R313). -/
def flitBytes (seq : BitVec 12) (data : List Byte) : List Byte :=
  let bs := leBytes (Config.linkHeader seq).toNat 8 ++ data
  bs ++ leBytes (crc64 bs).toNat 8

/-- Packet data that have arrived: a whole packet, once its last flit is there, or what is still incomplete. -/
def takeFlit (got data : List Byte) : Option (List Byte) × List Byte :=
  let bs := got ++ data
  let n := 32 + 8 * leNat ((bs.drop 12).take 2)
  if n ≤ bs.length then (some (bs.take n), []) else (none, bs)

/-! ### Lanes (R329) -/

/-- Lanes of a map, ascending. -/
def lanesOf (m : Byte) : List Nat := (List.range 8).filter fun i => m.getLsbD i

/-- The active lanes at width w: the lowest-numbered good ones. The others are spares. -/
def activeLanes (good : Byte) (w : Nat) : List Nat := (lanesOf good).take w

/-- Bytes striped in units of eight over lanes, the first unit on the lane of that place: what each lane carries. The next
flit goes on with the lane after the last one (DEDUCED, log 135). -/
def stripe (lanes : List Nat) (start : Nat) (bs : List Byte) : List (Nat × List Byte) :=
  let w := lanes.length
  (List.range w).map fun j => ((lanes[j]?).getD 0,
    ((List.range (bs.length / 8)).filter fun k => (start + k) % w == j).flatMap fun k => (bs.drop (8 * k)).take 8)

end Sys2Proof.Machine

namespace Sys2Proof

open Machine

/-- E2E_CRC of a header over a payload as it travels (R332). -/
def PktHdr.e2e (h : PktHdr) (wire : List Byte) : BitVec 32 := crc32c (hdrBytes h (wire.length / 8) 0 ++ wire)

/-- A packet's bytes: its header, with LENGTH in units of eight bytes, and its payload. -/
def Packet.bytes (p : Packet) : List Byte := hdrBytes p.hdr (p.wire.length / 8) p.crc.toNat ++ p.wire

/-- The packet data of a packet's flits, 240 bytes each. What follows the packet in its last flit is the machine's own. -/
def Packet.flitData (p : Packet) : List (List Byte) :=
  let n := pktFlits p
  let bs := p.bytes ++ (List.range (240 * n - p.bytes.length)).map (Config.wireByte p.body)
  (List.range n).map fun i => (bs.drop (240 * i)).take 240

/-- Two packets are of one message. -/
def Packet.sameMsg (a b : Packet) : Bool :=
  a.hdr.src == b.hdr.src && a.hdr.vc == b.hdr.vc && a.hdr.flow == b.hdr.flow && a.hdr.tag == b.hdr.tag && a.body == b.body

/-- The packet's E2E_CRC agrees. -/
def Packet.crcOk (p : Packet) : Bool := p.hdr.e2e p.wire == p.crc

/-- A packet as its source makes it. -/
def Packet.seal (h : PktHdr) (body : Payload) : Packet :=
  let wire := payloadBytes h.dctx body
  { hdr := h, body := body, wire := wire, crc := h.e2e wire }

/-- A message as the packets that it is cut into, of at most 4,160 payload bytes each (R332). -/
def Packet.pieces (p : Packet) : List Packet :=
  let n := (p.wire.length + 4159) / 4160
  if n ≤ 1 then [p]
  else (List.range n).map fun i =>
    let w := (p.wire.drop (4160 * i)).take 4160
    { p with wire := w, crc := p.hdr.e2e w, part := i, parts := n }

/-- The header changes on the way, as HOPS and the buffer class do: E2E_CRC, which covers them, follows, so that it agrees
afterwards where it agreed before (DESIGN CHOICE, log 13). -/
def Packet.withHdr (p : Packet) (h : PktHdr) : Packet :=
  { p with hdr := h, crc := p.crc ^^^ p.hdr.e2e p.wire ^^^ h.e2e p.wire }

/-- Every codeword of the flit was correctable (R325). -/
def Flit.fecOk (f : Flit) : Bool := f.unc.isEmpty

/-- The CRC-64 over the flit's first 248 bytes agrees with its last eight (R313). -/
def Flit.crcOk (f : Flit) : Bool := crc64 f.data == f.crc

def Flit.ok (f : Flit) : Bool := f.fecOk && f.crcOk

end Sys2Proof
end

