-- ==== Sys2Proof/Machine/FabricOps.lean ====
section
/-!
DEFINITION. Sending packets (11_optical_fabric.md): channels, credits, arbitration, routes, HOLD, undeliverable
packets, a port's way up and down.
-/

namespace Sys2Proof.Machine

/-- TYPE of a payload (Table 11.8); a frame's own PHASE tells frames from pre-round messages. -/
def payloadTyp : Payload → Byte
  | .signal _ _ _ => 0x01
  | .bellArrival _ _ _ => 0x02
  | .bellRelease _ => 0x03
  | .frame h _ _ => if 3 ≤ h.phase.toNat && h.phase.toNat ≤ 6 then 0x10 else 0x11
  | .shadowRequest _ _ _ => 0x12
  | .shadowCopy _ _ _ _ _ => 0x13
  | .putData _ _ _ _ _ _ _ _ => 0x20
  | .putReply _ _ _ => 0x21
  | .snap _ _ => 0x30
  | .snapManifest _ _ => 0x30
  | .undeliverable _ _ => 0x40
  | .genNotice _ _ => 0x41
  | .heartbeat => 0x50
  | .faultNotice _ _ => 0x50
  | .deadNotice _ _ => 0x50
  | .switch _ _ => 0x50
  | .switchAck _ _ => 0x50
  | .go _ _ _ _ => 0x50
  | .bucketCopy _ _ _ _ _ _ _ => 0x50
  | .join _ _ _ _ => 0x50
  | .joinRefused _ _ => 0x50
  | .pairing _ _ _ _ _ _ => 0x50

/-- Virtual channel of a TYPE (Table 11.9). -/
def chanOf (typ : Byte) : BitVec 3 :=
  match typ.toNat / 16 with
  | 0 => 1
  | 1 => 2
  | 2 => if typ == 0x21 then 5 else 3
  | 3 => 4
  | 4 => if typ == 0x40 then 5 else 0
  | _ => 0

/-- A receive buffer's flits per class (Table 11.4, halved by R327). -/
def chanCredits (vc : Nat) : Nat :=
  if vc == 0 then 16 else if vc == 1 then 32 else if vc == 2 then 336 else if vc == 3 || vc == 4 then 304
  else if vc == 5 then 32 else 0

/-- Key of a channel and class in `used`. -/
def chanKey (vc : Nat) (cls : Bool) : Nat := 2 * vc + b2n cls

/-- A record of the fabric units (R346, Table 11.7). -/
def State.fabRecord (s : State) (unit : UnitId) (code : Reason) (sev : Byte) (port : Nat) (detail : BitVec 192)
    (ctx : Option CtxId := none) : State :=
  s.record { unit := unit, clk := .uncore, code := code, sev := sev, ctx := ctx,
             obj := if port ≤ 16 then BitVec.ofNat 32 port else noObj,
             detail := det 40 1 (if port ≤ 16 then port else 0xFF) ||| detail }

/-- DETAIL of a packet's fields. -/
def pktDetail (h : PktHdr) (cause : Nat) : BitVec 192 :=
  det 41 1 0xFF ||| det 42 1 cause ||| det 45 2 0xFFFF ||| det 47 1 h.vc.toNat ||| det 48 2 h.dest.toNat |||
    det 50 2 h.src.toNat ||| det 52 2 h.flow.toNat

/-- DETAIL of a link event: lane, cause, widths before and after, direction (true: receive), peer. -/
def linkDetail (lane cause before after : Nat) (rx : Bool) (peer : ModuleNo) : BitVec 192 :=
  det 41 1 lane ||| det 42 1 cause ||| det 43 1 (before + 16 * after) ||| det 44 1 (b2n rx) ||| det 45 2 peer.toNat |||
    det 47 1 0xFF

/-! ### Choice of a port (R335) -/

/-- The route entry of a destination. -/
def State.route (s : State) (d : ModuleNo) : Option RouteEntry := s.fab.routes.find? fun r => r.dest == d

/-- The candidate a packet takes, among ports that are UP. -/
def State.choosePort (s : State) (h : PktHdr) : Option Nat :=
  match s.route h.dest with
  | none => none
  | some e =>
    let n := e.cands.length
    if n == 0 then none
    else
      let i := (h.src.toNat + 3 * h.dest.toNat + 5 * h.flow.toNat + 7 * h.vc.toNat) % n
      (((List.range n).map fun j => ((e.cands[(i + j) % n]?).getD 0).toNat).find? fun p => (s.port p).st == .up)

/-! ### Sending on a port (R327, R334) -/

/-- The buffer class a packet leaves in: class 1 from a DATELINE port onward (R321). -/
def Port.outCls (p : Port) (q : Packet) : Bool := q.hdr.cls || p.dateline

/-- The head of a channel and class in a port's queue. -/
def Port.head (p : Port) (vc : Nat) (cls : Bool) : Option Packet :=
  p.queue.find? fun q => q.hdr.vc.toNat == vc && p.outCls q == cls

/-- SNAP keeps within its share of the flit slots of a window of 4,096 uncore cycles: at width w there are
4,096 × w × 200 Gb/s / 2,048 bits at 425 MHz, or 16,000 w / 17 of them (R313, R334). -/
def Port.snapRoom (p : Port) (cap now n : Nat) : Bool :=
  let sent := ((p.snapSent.filter fun e => decide (now < e.1 + 4096)).map (·.2)).foldl (· + ·) 0
  decide ((sent + n) * 1700 ≤ cap * p.txWidth * 16000)

/-- A packet may start: credits for the whole of it, room to hold its flits, and for SNAP its share. -/
def Port.eligible (p : Port) (cap now : Nat) (q : Packet) : Bool :=
  p.st == .up && decide (p.replay.length + pktFlits q ≤ 1024) &&
    decide (sget 0 p.used (chanKey q.hdr.vc.toNat (p.outCls q)) + pktFlits q ≤ chanCredits q.hdr.vc.toNat) &&
    (q.hdr.vc != 4 || p.snapRoom cap now (pktFlits q))

/-- The first eligible head of a channel. -/
def Port.pickIn (p : Port) (cap now vc : Nat) : Option Packet :=
  ([false, true].filterMap fun c => p.head vc c).find? fun q => p.eligible cap now q

/-- The next packet, and the round-robin's place after it. -/
def Port.pick (p : Port) (weights : List Nat) (cap now : Nat) : Option (Packet × (Nat × Nat)) :=
  match p.pickIn cap now 0 with
  | some q => some (q, p.wrr)
  | none =>
    match p.pickIn cap now 1 with
    | some q => some (q, p.wrr)
    | none =>
      let (i, left) := p.wrr
      match (if left > 0 then p.pickIn cap now (2 + i) else none) with
      | some q => some (q, (i, left - 1))
      | none =>
        ([i + 1, i + 2, i + 3, i + 4].map (· % 4)).findSome? fun j =>
          (p.pickIn cap now (2 + j)).map fun q => (q, (j, (weights[j]?).getD 1 - 1))

/-- Erase the first packet equal to q. -/
def dropFirst (q : Packet) : List Packet → List Packet
  | [] => []
  | x :: xs => if x = q then xs else x :: dropFirst q xs

/-- The flits of a packet from a sequence number on; the last one ends it. -/
def flitsOf (seq : BitVec 12) (q : Packet) : List SentFlit :=
  let n := pktFlits q
  (List.range n).map fun i => ⟨seq + BitVec.ofNat 12 i, (q.flitData[i]?).getD [], if i + 1 == n then some q else none⟩

/-- The packet leaves by the port: its flits, numbered, wait in the replay buffer. -/
def Port.launch (x : Port) (q : Packet) (w : Nat × Nat) (now : Nat) : Port :=
  let n := pktFlits q
  let out := q.withHdr { q.hdr with cls := x.outCls q }
  { x with
    queue := dropFirst q x.queue, wrr := w, nextSeq := x.nextSeq + BitVec.ofNat 12 n
    replay := x.replay ++ flitsOf x.nextSeq out
    flitsTx := (x.flitsTx + n) % 2 ^ 32
    laneNext := (x.laneNext + 32 * n) % x.txWidth
    used := smod 0 (chanKey q.hdr.vc.toNat (x.outCls q)) (· + n) x.used
    snapSent := (x.snapSent.filter fun e => decide (now < e.1 + 4096)) ++ if q.hdr.vc == 4 then [(now, n)] else [] }

/-- Send what may be sent from a port's queue. With the replay buffer full, idle flits are sent. -/
def State.drainPort (s : State) (p : Nat) : Nat → State
  | 0 => s
  | fuel + 1 =>
    let x := s.port p
    match x.pick s.fab.weights s.fab.snapcap.toNat s.clk.uncore with
    | none =>
      if x.st == .up && x.queue.any fun q => decide (1024 < x.replay.length + pktFlits q) then s.send (.idleFlit p) else s
    | some (q, w) =>
      let out := q.withHdr { q.hdr with cls := x.outCls q }
      let s := s.modPort p fun x => x.launch q w s.clk.uncore
      let bs := (flitsOf x.nextSeq out).flatMap fun f => flitBytes f.seq f.data
      (s.send (.packet p out (stripe (activeLanes x.txGood x.txWidth) x.laneNext bs))).drainPort p fuel

/-- Put a packet into a port's queue and send what may be sent. -/
def State.enqueue (s : State) (p : Nat) (q : Packet) : State :=
  let s := s.modPort p fun x => { x with queue := x.queue ++ [q] }
  s.drainPort p ((s.port p).queue.length)

/-! ### Undeliverable packets (R340) -/

def fabUndeliverable : Reason := 0x0707
def fabNoRoute : Reason := 0x0708
def fabExpired : Reason := 0x0709
def fabE2eCrc : Reason := 0x070A

/-- Cause byte of a loss (Table 11.7 and the causes that R332, R335 and R336 name). -/
def lossCause (code : Reason) : Nat :=
  if code == fabNoRoute then 0x08 else if code == fabExpired then 0x09 else if code == fabE2eCrc then 0x0A else 0x00

/-- Count a loss, and record it at most once per port and code in 4,096 uncore cycles. -/
def State.loseRecord (s : State) (port : Nat) (code : Reason) (h : PktHdr) : State :=
  let key := port * 65536 + code.toNat
  let now := s.clk.uncore
  let due := match s.fab.rate.find? fun e => e.1 == key with
    | some e => decide (e.2 + 4096 ≤ now)
    | none => true
  let s := s.modFab fun b => { b with drop := b.drop + 1 }
  if due then
    (s.fabRecord uFab code sevError port (pktDetail h (lossCause code))).modFab fun b =>
      { b with rate := sset key now b.rate }
  else s

/-- The notice of a lost packet, to its source: SCTX is the packet's destination context, with its generation here. -/
def State.noticeOf (s : State) (h : PktHdr) (code : Reason) : Packet :=
  .seal { dest := h.src, src := s.fab.module, vc := 5, cls := false, hops := 0, flow := h.flow, sctx := h.dctx,
          sgen := (s.ctx h.dctx).gen, dctx := h.sctx, typ := 0x40, unit := 0, tag := h.tag } (.undeliverable h code)

/-- A packet for this module comes to its hub: its unit gets the message once all its packets have come (log 134). -/
def State.deliver (s : State) (q : Packet) : State :=
  if q.parts ≤ 1 then s.modFab fun b => { b with inbox := b.inbox ++ [q] }
  else
    let got := s.fab.arriving.find? fun x => x.sameMsg q && x.part + 1 == q.part
    let s := s.modFab fun b => { b with arriving := b.arriving.filter fun x => !x.sameMsg q }
    if q.part != 0 && got.isNone then s
    else
      let y := { q with wire := (match got with | some x => x.wire | none => []) ++ q.wire }
      if q.part + 1 == q.parts then s.modFab fun b => { b with inbox := b.inbox ++ [{ y with part := 0, parts := 1 }] }
      else s.modFab fun b => { b with arriving := b.arriving ++ [y] }

/-- Route one packet: into the inbox, into the waiting list of a destination on HOLD, or out on a port; none where no
candidate is UP. -/
def State.routePkt (s : State) (q : Packet) : Option State :=
  if q.hdr.dest == s.fab.module || q.hdr.dest == 0xFFFF then
    some (s.deliver q)
  else if s.fab.holds.contains q.hdr.dest then
    some (s.modFab fun b => { b with held := b.held ++ [q] })
  else (s.choosePort q.hdr).map fun p => s.enqueue p q

/-- A packet is lost at this module. -/
def State.lose (s : State) (port : Nat) (code : Reason) (q : Packet) : State :=
  let s := s.loseRecord port code q.hdr
  if q.hdr.typ == 0x40 then s
  else
    let n := s.noticeOf q.hdr code
    match s.routePkt n with
    | some s => s
    | none => s.loseRecord 0xFF fabNoRoute n.hdr

/-- Send one packet. -/
def State.sendOne (s : State) (q : Packet) : State :=
  match s.routePkt q with
  | some s => s
  | none => s.lose 0xFF fabNoRoute q

/-- Send a message: its packets, in order. -/
def State.sendPkt (s : State) (q : Packet) : State := q.pieces.foldl State.sendOne s

/-- A packet of this module. -/
def State.mkPkt (s : State) (dest : ModuleNo) (ctx : CtxId) (dctx : CtxId) (flow : BitVec 16) (unit : UnitId)
    (tag : Word) (body : Payload) : Packet :=
  .seal { dest := dest, src := s.fab.module, vc := chanOf (payloadTyp body), cls := false, hops := 0, flow := flow,
          sctx := ctx, sgen := (s.ctx ctx).gen, dctx := dctx, typ := (payloadTyp body), unit := unit, tag := tag } body

/-- Send one packet to each of a list of modules. -/
def State.sendAll (s : State) (ms : List ModuleNo) (f : State → ModuleNo → Packet) : State :=
  ms.foldl (fun s m => s.sendPkt (f s m)) s

/-- The peer set (R319). -/
def State.peers (s : State) : List ModuleNo := s.fab.routes.map (·.dest)

/-! ### The inbox -/

/-- The k-th packet of the hub's inbox, where it is of one of the types and the first of its flow there (R337). -/
def State.inboxAt (s : State) (k : Nat) (typs : List Byte) : Option Packet :=
  match s.fab.inbox[k]? with
  | some p =>
    if typs.contains p.hdr.typ && !(s.fab.inbox.take k).any fun q =>
        q.hdr.src == p.hdr.src && q.hdr.vc == p.hdr.vc && q.hdr.flow == p.hdr.flow then some p
    else none
  | none => none

def State.dropInbox (s : State) (k : Nat) : State := s.modFab fun b => { b with inbox := b.inbox.eraseIdx k }

/-- A packet is refused: its source learns it. -/
def State.refusePkt (s : State) (p : Packet) (code : Reason) : State :=
  s.sendPkt (s.noticeOf p.hdr code)

/-! ### Ports going up and down (R326, R338) -/

/-- Destinations whose routes name port p go on HOLD, one counted for each; their queued packets wait with those that
arrive later. -/
def State.holdFor (s : State) (p : Nat) : State :=
  let ds := (s.fab.routes.filter fun r => r.cands.any fun c => c.toNat == p).map (·.dest)
  let hit (q : Packet) : Bool := ds.contains q.hdr.dest
  s.modFab fun b => { b with
    holds := b.holds ++ ds.filter fun d => !b.holds.contains d
    cntHold := b.cntHold + ds.length
    held := b.held ++ b.ports.flatMap fun x => x.2.queue.filter hit
    ports := b.ports.map fun x => (x.1, { x.2 with queue := x.2.queue.filter fun q => !hit q }) }

/-- A port leaves UP: its unacknowledged and queued packets wait for another candidate, or are lost. They were sent before
whatever an earlier HOLD keeps for their destinations, and stay ahead of it (R338). -/
def State.flushPort (s : State) (p : Nat) : State :=
  let x := s.port p
  let qs := x.replay.filterMap (·.pkt) ++ x.queue
  let s := s.modPort p fun x => { x with
    replay := [], queue := [], used := [], nextSeq := 0, expected := 0, discard := false, replays := 0, replayEnd := none
    rxHeld := 0, rxPart := [] }
  let s := s.holdFor p
  let goes (q : Packet) : Bool := (s.choosePort q.hdr).isSome
  (qs.filter fun q => !goes q).foldl (fun s q => s.lose p fabUndeliverable q)
    (s.modFab fun b => { b with held := qs.filter goes ++ b.held })

/-- A port that is UP goes DOWN, with a cause of Table 11.7 and one FAB_LINK_DOWN record. -/
def State.portDown (s : State) (p : Nat) (cause : Nat) : State :=
  let x := s.port p
  if x.st == .up then
    let s := s.modPort p fun x => { x with st := .down, cause := BitVec.ofNat 4 cause, txWidth := 0, rxWidth := 0 }
    if p == 16 then
      s.record { unit := uGate, clk := .reeve, code := 0x0230, sev := sevNotice }
    else
      (s.fabRecord (uPort p) 0x0701 sevNotice p (linkDetail 0xFF cause x.txWidth 0 false x.peer)).flushPort p
  else s

/-- HOLD of a destination ends: its held packets take the route as it stands, in their order. -/
def State.endHold (s : State) (d : ModuleNo) : State :=
  let qs := s.fab.held.filter fun q => q.hdr.dest == d
  let s := s.modFab fun b => { b with
    holds := b.holds.filter fun x => x != d
    held := b.held.filter fun q => q.hdr.dest != d }
  qs.foldl (fun s q => s.sendOne q) s

/-! ### Lasers (R315, R316) -/

def State.laser (s : State) (m : Nat) : Laser := sget {} s.fab.lasers m

/-- What a module reset leaves of a laser source module: it is no part of the module's own state, but the Reeve has to read it
again (R315). -/
def Laser.afterReset (l : Laser) : Laser := { present := l.present, fault := l.fault, lowPower := l.lowPower }

def State.modLaser (s : State) (m : Nat) (f : Laser → Laser) : State :=
  s.modFab fun b => { b with lasers := smod {} m f b.lasers }

/-- A laser source module is healthy. -/
def Laser.healthy (l : Laser) : Bool := l.seen && l.present && l.enabled && !l.fault && !l.lowPower

/-- Healthy inputs of engine e: the modules other than L(e mod 4). -/
def State.laserInputs (s : State) (e : Nat) : Nat :=
  (([0, 1, 2, 3].filter fun m => m != e % 4).filter fun m => (s.laser m).healthy).length

/-- Lanes that an engine with n healthy inputs can drive. -/
def drivable (n : Nat) : Nat := if n ≥ 2 then 0xFF else if n == 1 then 0x0F else 0

/-- Good lanes of a lane map. -/
def laneCount (m : Nat) : Nat := ((List.range 8).filter fun i => m.testBit i).length

/-- Width of a direction with so many good lanes (R329). -/
def widthOf (n : Nat) : Nat := if n ≥ 8 then 8 else if n ≥ 6 then n else if n ≥ 4 then 4 else 0

end Sys2Proof.Machine
end

