-- ==== Sys2Proof/Machine/Context.lean ====
section
/-!
DEFINITION. Contexts: replies and sequencer records, state changes, a context's fault, the start of a purge
(12_gate_and_commands.md, R359 to R367; 14_faults_and_recovery.md, R408, R411, R418).
-/

namespace Sys2Proof.Machine

/-- Number of a command (Table 12.4). -/
def opNum : CmdOp → Nat
  | .load => 0x01
  | .start => 0x02
  | .pause => 0x03
  | .resume => 0x04
  | .stop => 0x05
  | .resetCtx => 0x06
  | .snap => 0x07
  | .restore => 0x08
  | .query => 0x09
  | .telem => 0x0A
  | .attest => 0x0B
  | .fwStage => 0x0C
  | .fwCommit => 0x0D
  | .other n => n.toNat

/-- Number of a context state (Table 12.13). -/
def stNum : CtxState → Nat
  | .empty => 0
  | .loaded => 1
  | .running => 2
  | .paused => 3
  | .draining => 4
  | .faulted => 5

/-- A record of the sequencer (R376). With no command OBJECT is none and the command's fields are 0. Where the record names
a context, [53] and [54] are its states before and after: `new`, or the same one where what is recorded changes none
(log 149). -/
def State.seqRecord (s : State) (code : Reason) (sev : Byte) (ctx : Option CtxId) (cmd : Option CmdExec)
    (new : Option CtxState := none) : State :=
  s.record { unit := uSeq, clk := .reeve, code := code, sev := sev, ctx := ctx,
             obj := match cmd with | some c => c.session | none => noObj,
             detail := (match cmd with
               | some c => det 40 1 (opNum c.op) ||| det 41 4 c.session.toNat ||| det 45 8 c.seq.toNat
               | none => 0) ||| (match ctx with
               | some c => det 53 1 (stNum (s.ctx c).st) ||| det 54 1 (stNum (new.getD (s.ctx c).st))
               | none => 0) }

def State.modSession (s : State) (n : BitVec 32) (f : Session → Session) : State :=
  s.modGate fun g => { g with sessions := g.sessions.map fun x => if x.num == n then f x else x }

/-- A frame leaves through the Gate, if it is UP. -/
def State.gateOut (s : State) (o : Out) : State :=
  if (s.port 16).st == .up then (s.modGate fun g => { g with tx := g.tx + 1 }).send o else s

/-- A protected frame of a session leaves, with the next packet number (R357). -/
def State.gateOutOn (s : State) (n : BitVec 32) (o : Out) : State :=
  if (s.port 16).st == .up then (s.modSession n fun x => { x with txPn := x.txPn + 1 }).gateOut o else s

/-- Answer a request: the reply is stored with its session, where the request is the last evaluated, and sent if the Gate
is UP; a reply to a session that has been replaced is discarded (R360, Table 12.8). -/
def State.reply (s : State) (r : Reply) : State :=
  if s.gate.sessions.any fun x => x.num == r.session then
    (s.modGate fun g => { g with
      sessions := g.sessions.map fun x => if x.num == r.session && x.last == r.seq then { x with stored := some r } else x
    }).gateOutOn r.session (.reply r)
  else s

/-- The reply to a command. -/
def CmdExec.answer (c : CmdExec) (reason : Reason) (body : Body := .none) : Reply :=
  { session := c.session, seq := c.seq, op := some c.op, context := c.context, reason := reason, body := body }

/-- The command executing for context c ends: its reply is sent. -/
def State.endCmd (s : State) (c : CtxId) (reason : Reason) (body : Body := .none) : State :=
  match (s.ctx c).cmd with
  | none => s
  | some k => (s.modCtx c fun x => { x with cmd := none }).reply (k.answer reason body)

def cmdSuperseded : Reason := 0x020A

/-- The command executing for context c is overtaken (Table 12.8), by a change to state `new` or by RESET_CTX. -/
def State.supersede (s : State) (c : CtxId) (new : Option CtxState := none) : State :=
  match (s.ctx c).cmd with
  | none => s
  | some k => (s.seqRecord cmdSuperseded sevNotice (some c) (some k) new).endCmd c cmdSuperseded

/-- A change of state writes one CTX_STATE record (R363). Leaving LOADED clears RESTORED (R365). -/
def State.setCtxState (s : State) (c : CtxId) (new : CtxState) (by_ : Option CmdExec) : State :=
  (s.seqRecord 0x0220 sevInfo (some c) by_ (some new)).modCtx c fun x => { x with
    st := new, restored := if x.st == .loaded then false else x.restored }

/-! ### Watch sets (R417) -/

/-- The members of a ring that are live. -/
def RingSt.live (r : RingSt) : List Member := r.members.filter fun m => !r.dead.contains m.module

/-- The element after, and before, the first one with property p, cyclically. -/
def nextOf (l : List Member) (p : Member → Bool) : Option Member :=
  match l.findIdx? p with
  | some i => l[(i + 1) % l.length]?
  | none => none

def prevOf (l : List Member) (p : Member → Bool) : Option Member :=
  match l.findIdx? p with
  | some i => l[(i + l.length - 1) % l.length]?
  | none => none

/-- The watch set of module m in a ring: live predecessor and successor, and the other member of its pair. A replacement that
has not joined yet has none (R428). -/
def RingSt.watch (r : RingSt) (m : ModuleNo) : List ModuleNo :=
  let live := if r.dead.contains m then [] else r.live
  let me := fun (x : Member) => x.module == m
  let pair := match r.members.find? me with
    | some x => (live.filter fun y => y.shard == x.shard && y.module != m).map (·.module)
    | none => []
  let ns := (nextOf live me).toList.map (·.module) ++ (prevOf live me).toList.map (·.module) ++ pair
  (ns.filter fun x => x != m).eraseDups

/-- The watch sets of a context's members. -/
def State.watchSet (s : State) (c : CtxId) : List ModuleNo :=
  ((s.ctx c).rings.flatMap fun r => r.watch s.fab.module).eraseDups

/-- FAULT notices before a purge or a reset that faults the context (R418). -/
def State.faultNotices (s : State) (c : CtxId) (byCommand : Bool) : State :=
  s.sendAll (s.watchSet c) fun s m => s.mkPkt m c c 0 uRst 0 (.faultNotice c byCommand)

/-! ### Probes (R406) -/

/-- The number of a unit in a range of unit IDs. -/
def unitIn (u : UnitId) (base n : Nat) : Option Nat :=
  if base ≤ u.toNat && u.toNat < base + n then some (u.toNat - base) else none

/-- The die that a unit lies on, which is reset where the unit is not reset alone or its own reset fails: a compute die,
HD1 (8), or none on HD0. -/
def dieAbove (u : UnitId) : Option Nat :=
  match unitIn u 0x1000 2048, unitIn u 0x1800 512, unitIn u 0x0400 8, unitIn u 0x0300 8 with
  | some g, _, _, _ => some (g / 256)
  | _, some q, _, _ => some (q / 64)
  | _, _, some d, _ => some d
  | _, _, _, some d => some d
  | _, _, _, _ =>
    match unitIn u 0x0600 8, unitIn u 0x0700 16, unitIn u 0x0310 12, unitIn u 0x0A00 2 with
    | some e, _, _, _ => if e ≥ 4 then some 8 else none
    | _, some p, _, _ => if p ≥ 8 then some 8 else none
    | _, _, some n, _ => if n ≥ 6 then some 8 else none
    | _, _, _, some h => if h == 1 then some 8 else none
    | _, _, _, _ => none

/-- Units of one quad are reset together. -/
def resetUnit (u : UnitId) : UnitId :=
  match unitIn u 0x1000 2048, unitIn u 0x1800 512 with
  | some g, _ => uQuad (g / 4)
  | _, some q => uQuad q
  | _, _ => if (unitIn u 0x0910 16).isSome then uFeed 0 else u

/-- The unit is under a reset of its own or of its die. -/
def State.underReset (s : State) (u : UnitId) : Bool :=
  s.rst.engines.contains (resetUnit u) || (match dieAbove u with | some d => s.rst.dieResets.contains d | none => false)

/-- A recovery is under way. -/
def State.recovering (s : State) : Bool :=
  !s.rst.probes.isEmpty || !s.rst.engines.isEmpty || !s.rst.dieResets.isEmpty || s.rst.due.isSome ||
    allCtx.any fun c => (s.ctx c).rst.purge.isSome || !(s.ctx c).rst.fenced.isEmpty

/-- A recovery that begins while none is under way begins an episode (R431, log 164). -/
def State.newEpisode (s : State) : State := if s.recovering then s else s.modRst fun r => { r with episode := 0 }

/-- The Reeve probes a unit that a timeout waited on, unless it is under probe or reset already. -/
def State.probe (s : State) (u : UnitId) : State :=
  if s.rst.probes.contains u || s.underReset u then s
  else s.newEpisode.modRst fun r => { r with probes := r.probes ++ [u] }

/-! ### Purge (R408, R411) -/

/-- The units that a purge of context c orders to quiesce. -/
def State.purgeUnits (s : State) (c : CtxId) : List UnitId :=
  (s.coresOf c).map uCore ++ (s.quadsOf c).map uQuad ++ (List.range 8).map uSync ++ (List.range 8).map uDieMem ++
    (List.range 8).map uRed ++ [uFab, uHarvest 0, uHarvest 1, uFeed c]

/-- A purge begins: the new generation, the orders, the generation notices. -/
def State.startPurge (s : State) (c : CtxId) (byCommand : Bool) : State :=
  let s := s.newEpisode.faultNotices c byCommand
  let us := s.purgeUnits c
  let s := s.modCtx c fun x => { x with
    gen := x.gen + 1
    rst := { x.rst with purge := some ⟨us, false⟩, gap := true, purgeWaits := false, lastLevel := 1,
                            lastReason := if byCommand then 0x0B01 else x.rst.lastReason } }
  let s := s.modRst fun r => { r with level := 1, cntPurge := satAdd 16 r.cntPurge 1 }
  let g := (s.ctx c).gen
  s.sendAll s.peers fun s m => s.mkPkt m c c 0 uFab 0 (.genNotice c g)

/-- A purge begins, or waits for RST_GEN_GAP to pass; a purge in progress is joined (Table 14.6). -/
def State.purge (s : State) (c : CtxId) (byCommand : Bool) : State :=
  let r := (s.ctx c).rst
  if r.purge.isSome || r.purgeWaits then s
  else if r.gap then s.modCtxRst c fun r => { r with purgeWaits := true }
  else s.startPurge c byCommand

/-- A record of severity CTX_FATAL with this code has named context c: it enters FAULTED, its command is superseded,
and it is purged (R363, R367, R408). -/
def State.ctxFault (s : State) (c : CtxId) (code : Reason) : State :=
  let st := (s.ctx c).st
  if st == .empty || st == .faulted then s
  else
    let s := s.supersede c (some .faulted)
    let s := s.setCtxState c .faulted none
    let s := s.modCtxRst c fun r => { r with lastReason := code, lastLevel := 1 }
    s.purge c false

/-- Threads and engines of the context may work: it is RUNNING and no purge of it runs. -/
def State.ctxRuns (s : State) (c : CtxId) : Bool :=
  (s.ctx c).st == .running && (s.ctx c).rst.purge.isNone

end Sys2Proof.Machine
end

