-- ==== Sys2Proof/Machine/Numbers.lean ====
section
/-!
DEFINITION. Number formats and arithmetic (03_number_formats.md, R68 to R97). A floating-point value is decoded to an
exact value, operations are exact (division and square root carry a sticky bit below every rounding point), and one
rounding writes the destination. Flags are the six bits of VEC_FLAGS (Table 3.11).
-/

namespace Sys2Proof.Machine

/-- The six sticky flags, bit numbers of Table 3.11. -/
abbrev Flags := BitVec 6

def flagInvalid : Flags := 0x01
def flagOverflow : Flags := 0x02
def flagUnderflow : Flags := 0x04
def flagIsat : Flags := 0x08
def flagEmpty : Flags := 0x10
def flagDivzero : Flags := 0x20

/-- A floating-point value: NaN, an infinity, or (-1)^neg * m * 2^e. -/
inductive FVal where
  | nan
  | inf (neg : Bool)
  | fin (neg : Bool) (m : Nat) (e : Int)
deriving DecidableEq, Repr

/-- How the top exponent field is used (R69, Table 3.2). -/
inductive TopField where
  | ieee
  | e4m3
  | finite
deriving DecidableEq, Repr

/-- A floating-point element format (Table 3.2). -/
structure FSpec where
  ebits : Nat
  mbits : Nat
  bias : Nat
  top : TopField
deriving DecidableEq, Repr

def fp32 : FSpec := ⟨8, 23, 127, .ieee⟩
def bf16 : FSpec := ⟨8, 7, 127, .ieee⟩
def fp16 : FSpec := ⟨5, 10, 15, .ieee⟩
def fp64 : FSpec := ⟨11, 52, 1023, .ieee⟩
def e4m3 : FSpec := ⟨4, 3, 7, .e4m3⟩
def e5m2 : FSpec := ⟨5, 2, 15, .ieee⟩
def e2m3 : FSpec := ⟨2, 3, 1, .finite⟩
def e3m2 : FSpec := ⟨3, 2, 3, .finite⟩
def e2m1 : FSpec := ⟨2, 1, 1, .finite⟩

/-- The element format of a code of Table 3.1, where it is a floating-point one. -/
def fspec : BitVec 4 → Option FSpec
  | 0x0 => some fp32
  | 0x1 => some bf16
  | 0x2 => some fp16
  | 0x3 => some e4m3
  | 0x4 => some e5m2
  | 0x5 => some e4m3
  | 0x6 => some e5m2
  | 0x7 => some e2m3
  | 0x8 => some e3m2
  | 0x9 => some e2m1
  | 0xE => some fp64
  | _ => none

/-- Codes 0x5 to 0xA carry a block scale (Table 3.1). -/
def isMx (f : BitVec 4) : Bool := 5 ≤ f.toNat && f.toNat ≤ 0xA

/-- Integer codes INT8, INT4, INT32. -/
def isInt (f : BitVec 4) : Bool := f == 0xB || f == 0xC || f == 0xD

/-- Bits of an element as packed in a tile row or vector (Table 3.1, R71). -/
def elemBits (f : BitVec 4) : Nat :=
  if f == 0x0 || f == 0xD then 32
  else if f == 0x1 || f == 0x2 then 16
  else if f == 0x9 || f == 0xC then 4
  else if f == 0xE then 64
  else 8

/-- Width of the element's own bits. -/
def FSpec.width (s : FSpec) : Nat := 1 + s.ebits + s.mbits

/-- Exponent of the smallest normal. -/
def FSpec.emin (s : FSpec) : Int := 1 - (s.bias : Int)

/-- The largest finite magnitude as significand and exponent. -/
def FSpec.maxFin (s : FSpec) : Nat × Int :=
  match s.top with
  | .ieee => (2 ^ (s.mbits + 1) - 1, (2 ^ s.ebits - 2 : Nat) - (s.bias : Int) - s.mbits)
  | .e4m3 => (2 ^ (s.mbits + 1) - 2, (2 ^ s.ebits - 1 : Nat) - (s.bias : Int) - s.mbits)
  | .finite => (2 ^ (s.mbits + 1) - 1, (2 ^ s.ebits - 1 : Nat) - (s.bias : Int) - s.mbits)

/-- The value of an element's bits (R69). -/
def fdecode (s : FSpec) (b : Nat) : FVal :=
  let frac := b % 2 ^ s.mbits
  let ex := b / 2 ^ s.mbits % 2 ^ s.ebits
  let neg := b / 2 ^ (s.mbits + s.ebits) % 2 == 1
  let ones := 2 ^ s.ebits - 1
  if s.top == .ieee && ex == ones then
    if frac == 0 then .inf neg else .nan
  else if s.top == .e4m3 && ex == ones && frac == 2 ^ s.mbits - 1 then .nan
  else if ex == 0 then .fin neg frac (s.emin - s.mbits)
  else .fin neg (2 ^ s.mbits + frac) ((ex : Int) - s.bias - s.mbits)

/-- The canonical NaN of a format that has one (Table 3.2); 0 where it has none. -/
def FSpec.nanBits (s : FSpec) : Nat :=
  match s.top with
  | .ieee => (2 ^ s.ebits - 1) * 2 ^ s.mbits + 2 ^ (s.mbits - 1)
  | .e4m3 => 2 ^ (s.ebits + s.mbits) - 1
  | .finite => 0

def FSpec.signBit (s : FSpec) (neg : Bool) : Nat := if neg then 2 ^ (s.mbits + s.ebits) else 0

/-- Infinity's bits. -/
def FSpec.infBits (s : FSpec) (neg : Bool) : Nat := s.signBit neg + (2 ^ s.ebits - 1) * 2 ^ s.mbits

/-- The largest finite value's bits. -/
def FSpec.maxBits (s : FSpec) (neg : Bool) : Nat :=
  s.signBit neg + (match s.top with
    | .ieee => (2 ^ s.ebits - 1) * 2 ^ s.mbits - 1
    | .e4m3 => 2 ^ (s.ebits + s.mbits) - 2
    | .finite => 2 ^ (s.ebits + s.mbits) - 1)

/-- Rounding methods (R79). SR carries its random word (R93). -/
inductive Rnd where
  | rne
  | rtz
  | sr (r : BitVec 32)
deriving DecidableEq, Repr

/-- Round the magnitude m * 2^e to a multiple of 2^u: the multiple (R79, R93). -/
def roundTo (r : Rnd) (m : Nat) (e u : Int) : Nat :=
  if e ≥ u then m * 2 ^ (e - u).toNat
  else
    let k := (u - e).toNat
    let q := m / 2 ^ k
    let rem := m % 2 ^ k
    match r with
    | .rtz => q
    | .rne =>
      if 2 * rem > 2 ^ k then q + 1
      else if 2 * rem == 2 ^ k then q + q % 2
      else q
    | .sr w => if rem * 2 ^ 32 / 2 ^ k + w.toNat ≥ 2 ^ 32 then q + 1 else q

/-- floor(log2 (m * 2^e)) of a nonzero m. -/
def flog2 (m : Nat) (e : Int) : Int := (Nat.log2 m : Int) + e

/-- m * 2^e > m' * 2^e'. -/
def magGt (m : Nat) (e : Int) (m' : Nat) (e' : Int) : Bool :=
  if e ≥ e' then m * 2 ^ (e - e').toNat > m' else m > m' * 2 ^ (e' - e).toNat

/-- The bits of a rounded magnitude q * 2^u, a finite value of the format, with its sign; a zero is +0 (R75). -/
def fencode (s : FSpec) (neg : Bool) (q : Nat) (u : Int) : Nat :=
  if q == 0 then 0
  else
    let (q, u) := if q == 2 ^ (s.mbits + 1) then (q / 2, u + 1) else (q, u)
    if q < 2 ^ s.mbits then s.signBit neg + q
    else s.signBit neg + (u + s.bias + s.mbits).toNat * 2 ^ s.mbits + (q - 2 ^ s.mbits)

/-- Where a result is written: format, mode, whether it is an MX element (R80, R81). -/
structure FDest where
  spec : FSpec
  strict : Bool
  mx : Bool
  deriving DecidableEq, Repr

/-- FP32, BF16 and FP16 are flushed in fast mode (R80). -/
def flushes (s : FSpec) (strict : Bool) : Bool :=
  !strict && (s == fp32 || s == bf16 || s == fp16)

/-- The value written on a finite overflow (R81). -/
def overflowBits (d : FDest) (r : Rnd) (neg : Bool) : Nat :=
  if d.spec == fp64 then
    (if r == .rtz then d.spec.maxBits neg else d.spec.infBits neg)
  else if d.mx || d.spec.top != .ieee then d.spec.maxBits neg
  else if d.strict && r != .rtz then d.spec.infBits neg
  else d.spec.maxBits neg

/-- Write a value into a floating-point destination: bits and flags (R74, R75, R79 to R82). -/
def fround (d : FDest) (r : Rnd) : FVal → Nat × Flags
  | .nan => (d.spec.nanBits, 0)
  | .inf neg =>
    match d.spec.top with
    | .ieee => (d.spec.infBits neg, 0)
    | .e4m3 => if d.strict then (d.spec.nanBits, flagInvalid) else (d.spec.maxBits neg, flagOverflow)
    | .finite => (d.spec.maxBits neg, flagInvalid)
  | .fin neg m e =>
    if m == 0 then (0, 0)
    else
      let u := max (flog2 m e) d.spec.emin - d.spec.mbits
      let q := roundTo r m e u
      let (mm, me) := d.spec.maxFin
      if magGt q u mm me then (overflowBits d r neg, flagOverflow)
      else if q == 0 then (0, flagUnderflow)
      else if flushes d.spec d.strict && flog2 q u < d.spec.emin then (0, flagUnderflow)
      else (fencode d.spec neg q u, 0)

/-- An operand as the mode reads it: fast mode takes FP32, BF16 and FP16 subnormals as zero (R80). -/
def fread (s : FSpec) (strict : Bool) (b : Nat) : FVal :=
  match fdecode s b with
  | .fin neg m e => if flushes s strict && m < 2 ^ s.mbits then .fin neg 0 e else .fin neg m e
  | v => v

/-- Signed exact value at exponent u, which is at most its own exponent. -/
def scaled (neg : Bool) (m : Nat) (e u : Int) : Int :=
  let v : Int := (m * 2 ^ (e - u).toNat : Nat)
  if neg then -v else v

/-- A finite value from a signed integer at exponent u. -/
def ofScaled (v : Int) (u : Int) : FVal := .fin (v < 0) v.natAbs u

def fneg : FVal → FVal
  | .nan => .nan
  | .inf n => .inf (!n)
  | .fin n m e => .fin (!n) m e

/-- Exact sum; infinities of both signs give a NaN and INVALID (Table 3.3). -/
def fadd : FVal → FVal → FVal × Flags
  | .nan, _ => (.nan, 0)
  | _, .nan => (.nan, 0)
  | .inf a, .inf b => if a == b then (.inf a, 0) else (.nan, flagInvalid)
  | .inf a, _ => (.inf a, 0)
  | _, .inf b => (.inf b, 0)
  | .fin n m e, .fin n' m' e' =>
    let u := min e e'
    (ofScaled (scaled n m e u + scaled n' m' e' u) u, 0)

/-- Exact product. -/
def fmul : FVal → FVal → FVal × Flags
  | .nan, _ => (.nan, 0)
  | _, .nan => (.nan, 0)
  | .inf a, .inf b => (.inf (a != b), 0)
  | .inf a, .fin n m _ => if m == 0 then (.nan, flagInvalid) else (.inf (a != n), 0)
  | .fin n m _, .inf b => if m == 0 then (.nan, flagInvalid) else (.inf (n != b), 0)
  | .fin n m e, .fin n' m' e' => (.fin (n != n') (m * m') (e + e'), 0)

/-- a * b + c, exact (R90). A product 0 * inf is invalid also when c is NaN only if neither operand is NaN. -/
def ffma (a b c : FVal) : FVal × Flags :=
  let (p, f) := fmul a b
  if f != 0 then (.nan, if c == .nan then 0 else f)
  else fadd p c

/-- Quotient with a sticky bit below every rounding point; zero divisors as R90 states. -/
def fdiv : FVal → FVal → FVal × Flags
  | .nan, _ => (.nan, 0)
  | _, .nan => (.nan, 0)
  | .inf _, .inf _ => (.nan, flagInvalid)
  | .inf a, .fin n _ _ => (.inf (a != n), 0)
  | .fin n _ _, .inf b => (.fin (n != b) 0 0, 0)
  | .fin n m e, .fin n' m' e' =>
    if m' == 0 then
      if m == 0 then (.nan, flagInvalid) else (.inf (n != n'), flagDivzero)
    else
      let k := 130 + Nat.log2 m'
      let num := m * 2 ^ k
      let q := num / m'
      let st := if num % m' == 0 then 0 else 1
      (.fin (n != n') (2 * q + st) (e - e' - k - 1), 0)

/-- Integer square root by bits, from bit `i` down. -/
def isqrtAux (n : Nat) : Nat → Nat → Nat
  | 0, r => r
  | i + 1, r =>
    let c := r + 2 ^ i
    isqrtAux n i (if c * c ≤ n then c else r)

/-- floor(sqrt n). -/
def isqrt (n : Nat) : Nat := isqrtAux n (Nat.log2 n / 2 + 1) 0

/-- Square root with a sticky bit; of a negative nonzero value invalid (Table 3.3). -/
def fsqrt : FVal → FVal × Flags
  | .nan => (.nan, 0)
  | .inf neg => if neg then (.nan, flagInvalid) else (.inf false, 0)
  | .fin neg m e =>
    if m == 0 then (.fin false 0 0, 0)
    else if neg then (.nan, flagInvalid)
    else
      let k : Nat := 140 + (if (e - 140) % 2 == 0 then 0 else 1)
      let n := m * 2 ^ k
      let r := isqrt n
      let st := if r * r == n then 0 else 1
      (.fin false (2 * r + st) ((e - k) / 2 - 1), 0)

/-- Order of finite and infinite values. -/
def fltNum : FVal → FVal → Bool
  | .inf a, .inf b => a && !b
  | .inf a, .fin _ _ _ => a
  | .fin _ _ _, .inf b => !b
  | .fin n m e, .fin n' m' e' =>
    let u := min e e'
    scaled n m e u < scaled n' m' e' u
  | _, _ => false

def feqNum : FVal → FVal → Bool
  | .inf a, .inf b => a == b
  | .fin n m e, .fin n' m' e' =>
    let u := min e e'
    scaled n m e u == scaled n' m' e' u
  | _, _ => false

/-- EQ under Table 3.6. -/
def fcmpEq (strict : Bool) (a b : FVal) : Bool :=
  match a, b with
  | .nan, .nan => !strict
  | .nan, _ => false
  | _, .nan => false
  | a, b => feqNum a b

/-- LT under Table 3.6: fast mode puts NaN above +inf. -/
def fcmpLt (strict : Bool) (a b : FVal) : Bool :=
  match a, b with
  | .nan, _ => false
  | _, .nan => !strict
  | a, b => fltNum a b

/-- LE under Table 3.6. -/
def fcmpLe (strict : Bool) (a b : FVal) : Bool := fcmpLt strict a b || fcmpEq strict a b

/-- NE under Table 3.6. -/
def fcmpNe (strict : Bool) (a b : FVal) : Bool :=
  match strict, a, b with
  | true, .nan, _ => true
  | true, _, .nan => true
  | s, a, b => !fcmpEq s a b

/-- MAX under Table 3.6. -/
def fmaxV (strict : Bool) (a b : FVal) : FVal :=
  match a, b with
  | .nan, .nan => .nan
  | .nan, b => if strict then .nan else b
  | a, .nan => if strict then .nan else a
  | a, b => if fltNum a b then b else a

/-- MIN under Table 3.6. -/
def fminV (strict : Bool) (a b : FVal) : FVal :=
  match a, b with
  | .nan, .nan => .nan
  | .nan, b => if strict then .nan else b
  | a, .nan => if strict then .nan else a
  | a, b => if fltNum b a then b else a

/-! ### Integer destinations (R82) -/

/-- Saturate to a signed width (R81). -/
def satInt (bits : Nat) (v : Int) : Int × Flags :=
  let hi : Int := 2 ^ (bits - 1) - 1
  let lo : Int := -(2 ^ (bits - 1))
  if v > hi then (hi, flagIsat) else if v < lo then (lo, flagIsat) else (v, 0)

/-- Two's-complement bits. -/
def intBits (bits : Nat) (v : Int) : Nat := (v % (2 ^ bits : Nat)).toNat

/-- Signed value of bits. -/
def intVal (bits : Nat) (b : Nat) : Int :=
  let b := b % 2 ^ bits
  if b ≥ 2 ^ (bits - 1) then (b : Int) - (2 ^ bits : Nat) else b

/-- Round a value to an integer destination and saturate (Table 3.5). -/
def toInt (bits : Nat) (r : Rnd) : FVal → Int × Flags
  | .nan => (0, flagInvalid)
  | .inf neg => (if neg then -(2 ^ (bits - 1)) else 2 ^ (bits - 1) - 1, flagInvalid)
  | .fin neg m e =>
    let q : Int := roundTo r m e 0
    satInt bits (if neg then -q else q)

/-! ### Stochastic rounding (R92) -/

def rotl32 (x : BitVec 32) (n : Nat) : BitVec 32 := (x <<< n) ||| (x >>> (32 - n))

/-- One round of sr_word, number i. -/
def srRound (key : BitVec 128) (i : Nat) (x : BitVec 32 × BitVec 32 × BitVec 32 × BitVec 32) :
    BitVec 32 × BitVec 32 × BitVec 32 × BitVec 32 :=
  let k (j : Nat) : BitVec 32 := key.extractLsb' (32 * (j % 4)) 32
  let (x0, x1, x2, x3) := x
  let x0 := x0 + (k i ^^^ BitVec.ofNat 32 i)
  let x1 := rotl32 (x1 ^^^ x0) 7
  let x2 := x2 + x1
  let x3 := rotl32 (x3 ^^^ x2) 13
  let x0 := x0 + x3
  let x1 := rotl32 (x1 ^^^ x0) 17
  let x2 := x2 + (x1 ^^^ k (i + 2))
  let x3 := rotl32 (x3 ^^^ x2) 5
  (x1, x2, x3, x0)

/-- sr_word of R92. -/
def srWord (key ctr : BitVec 128) (step : Word) (p : Nat) : BitVec 32 :=
  let b := (ctr + BitVec.ofNat 128 p) ^^^ ((step.setWidth 128) <<< 64)
  let w (j : Nat) : BitVec 32 := b.extractLsb' (32 * j) 32
  let x := (List.range 10).foldl (fun x i => srRound key i x) (w 0, w 1, w 2, w 3)
  x.1 ^^^ x.2.2.1

/-- The advance of a stream's counter at the retirement of an SR instruction (R94). -/
def srAdvance (ctr : BitVec 128) : BitVec 128 := ctr + 4096

/-- The rounding method that a 2-bit field selects, with the stream's word where SR needs it; 0b11 is illegal (R79). -/
def rndOf (rm : BitVec 2) (w : BitVec 32) : Rnd :=
  if rm == 1 then .rtz else if rm == 2 then .sr w else .rne

/-! ### Conversion of one element (R161, R162, R82) -/

/-- A source element's value: floating-point formats are read in the mode, integers are exact. -/
def readElem (f : BitVec 4) (strict : Bool) (b : Nat) : FVal :=
  match fspec f with
  | some s => fread s strict b
  | none => ofScaled (intVal (elemBits f) b) 0

/-- Write a value as an element of format f that is not an MX format. -/
def writeElem (f : BitVec 4) (strict : Bool) (r : Rnd) (v : FVal) : Nat × Flags :=
  match fspec f with
  | some s => fround ⟨s, strict, false⟩ r v
  | none =>
    let (q, fl) := toInt (elemBits f) r v
    (intBits (elemBits f) q, fl)

/-- fast-mode underflow of a source taken as zero is not flagged; R80 flags only a flushed result. -/
def convElem (dst src : BitVec 4) (strict : Bool) (r : Rnd) (b : Nat) : Nat × Flags :=
  writeElem dst strict r (readElem src strict b)

/-! ### MX blocks (R83) -/

/-- emax of an MX element format (R83). -/
def mxEmax (f : BitVec 4) : Int :=
  if f == 0x5 then 8 else if f == 0x6 then 15 else if f == 0x7 then 2 else if f == 0x8 then 4
  else if f == 0x9 then 2 else 0

def isFin : FVal → Bool
  | .fin _ _ _ => true
  | _ => false

/-- floor(log2) of the block's largest magnitude, none when every value is 0. -/
def blockLog : List FVal → Option Int
  | [] => none
  | .fin _ m e :: vs =>
    match blockLog vs with
    | none => if m == 0 then none else some (flog2 m e)
    | some l => if m == 0 then some l else some (max l (flog2 m e))
  | _ :: vs => blockLog vs

/-- One MX element: value * 2^(-X) into the element format, saturating (R83 step 4). -/
def mxElem (f : BitVec 4) (strict : Bool) (x : Int) (r : Rnd) : FVal → Nat × Flags
  | .fin neg m e =>
    match fspec f with
    | some s => fround ⟨s, strict, true⟩ r (.fin neg m (e - x))
    | none =>
      let (q, fl) := toInt 8 r (.fin neg m (e - x + 6))
      (intBits 8 q, fl)
  | _ => (0, 0)

/-- A block of values into an MX format: scale byte, element bits, flags. `rs` gives each element's method. -/
def mxBlock (f : BitVec 4) (strict : Bool) (vs : List FVal) (rs : List Rnd) : Nat × List Nat × Flags :=
  if vs.any (fun v => !isFin v) then (0xFF, vs.map (fun _ => 0), flagInvalid)
  else
    match blockLog vs with
    | none => (0, vs.map (fun _ => 0), 0)
    | some l =>
      let x := max (-127) (min 127 (l - mxEmax f))
      let els := (vs.zip rs).map fun (v, r) => mxElem f strict x r v
      ((x + 127).toNat, els.map (·.1), els.foldl (fun a b => a ||| b.2) 0)

/-! ### Chunks of the arrays (R87, R88) -/

/-- An FP32 operand rounded by RNE to 16 significand bits, fast mode (R87). One that rounds beyond the FP32 range becomes an
infinity; that this rounding sets no OVERFLOW is the model's choice (DESIGN CHOICE, log 141). -/
def round16 : FVal → FVal
  | .fin neg m e =>
    if m == 0 then .fin neg m e
    else
      let u := max (flog2 m e) (-126) - 15
      let q := roundTo .rne m e u
      let (mm, me) := fp32.maxFin
      if magGt q u mm me then .inf neg else .fin neg q u
  | v => v

/-- A tile operand's value before scaling (R70, R87). -/
def tileElem (f : BitVec 4) (strict : Bool) (b : Nat) : FVal :=
  if f == 0xA then ofScaled (intVal 8 b) (-6)
  else
    match fspec f with
    | some s =>
      let v := fread s strict (b % 2 ^ s.width)
      if f == 0x0 && !strict then round16 v else v
    | none => ofScaled (intVal (elemBits f) b) 0

def scaleVal (v : FVal) (x : Int) : FVal :=
  match v with
  | .fin n m e => .fin n m (e + x)
  | v => v

/-- One term of a chunk: the exact product scaled by both block exponents; a scale of 0xFF makes it NaN. -/
def chunkTerm (t u : FVal) (st su : Option Nat) : FVal × Flags :=
  if st == some 0xFF || su == some 0xFF then (.nan, 0)
  else
    let x : Int := (match st with | some b => (b : Int) - 127 | none => 0) +
      (match su with | some b => (b : Int) - 127 | none => 0)
    let (p, f) := fmul t u
    (scaleVal p x, f)

/-- Exact sum of finite values. -/
def sumFin (vs : List FVal) : FVal :=
  vs.foldl (fun a v => (fadd a v).1) (.fin false 0 0)

/-- Truncate a finite value to multiples of 2^u. -/
def truncAt (u : Int) : FVal → FVal
  | .fin n m e => .fin n (roundTo .rtz m e u) u
  | v => v

/-- chunk() of R87: the accumulator's bits after one chunk of a floating-point product. -/
def chunk (strict : Bool) (acc : Nat) (terms : List (FVal × Flags)) : Nat × Flags :=
  let a := fread fp32 strict acc
  let tf := terms.foldl (fun f t => f ||| t.2) 0
  let vs := a :: terms.map (·.1)
  if vs.any (· == .nan) then (fp32.nanBits, tf)
  else
    let pos := vs.any (· == .inf false)
    let neg := vs.any (· == .inf true)
    if pos && neg then (fp32.nanBits, tf ||| flagInvalid)
    else if pos then (fp32.infBits false, tf)
    else if neg then (fp32.infBits true, tf)
    else
      let s :=
        if strict then sumFin vs
        else
          match blockLog vs with
          | none => .fin false 0 0
          | some e => sumFin (vs.map (truncAt (e - 30)))
      let (b, f) := fround ⟨fp32, strict, false⟩ .rne s
      (b, tf ||| f)

/-- int_chunk() of R88. -/
def intChunk (acc : Nat) (terms : List Int) : Nat × Flags :=
  let (v, f) := satInt 32 (intVal 32 acc + terms.foldl (· + ·) 0)
  (intBits 32 v, f)

/-! ### The wire format (R95 to R97) -/

/-- Wire word of a finite gradient value: RNE(g * 2^(30 - h - E)), saturated (R96). -/
def wireWord (h : Nat) (e : Int) : FVal → Int
  | .fin neg m x =>
    let q : Int := roundTo .rne m (x + 30 - h - e) 0
    let q := min q (2 ^ 31 - 1)
    if neg then -q else q
  | _ => 0

/-- The value of a reduced sum written in the gradient format (R97). -/
def wireBack (s : FSpec) (strict : Bool) (h : Nat) (e : Int) (sum : Int) : Nat × Flags :=
  fround ⟨s, strict, false⟩ .rne (ofScaled sum (e + h - 30))

end Sys2Proof.Machine
end

