-- ==== Sys2Proof/Machine/TileOps.lean ====
section
/-!
DEFINITION. What tile instructions compute (04_tiles_and_arrays.md): row shapes, masks, products, conversions. Nothing
here touches a thread.
-/

namespace Sys2Proof.Machine

/-- A tile format code that tile instructions accept: 0x0 to 0xC (R100, R116). -/
def tileFmtOk (f : BitVec 4) : Bool := f.toNat ≤ 0xC

/-- Elements per row, the K of a product (Table 4.1). -/
def tileK (f : BitVec 4) : Nat := 512 / elemBits f

/-- Sidecar bytes used per row (Table 4.1). -/
def tileScaleBytes (f : BitVec 4) : Nat := if f == 0x9 then 4 else if isMx f then 2 else 0

/-- Row i as instructions read it: 0 at or beyond ROWS (R101). -/
def TileReg.row (t : TileReg) (i : Nat) : Nat := if i < t.rows then getF t.data (512 * i) 512 else 0

def TileReg.sideRow (t : TileReg) (i : Nat) : Nat := if i < t.rows then getF t.side (32 * i) 32 else 0

/-- Element k of row i. -/
def TileReg.elem (t : TileReg) (i k : Nat) : Nat := t.row i >>> (elemBits t.fmt * k) % 2 ^ elemBits t.fmt

/-- Scale byte j of row i. -/
def TileReg.scale (t : TileReg) (i j : Nat) : Nat := t.sideRow i >>> (8 * j) % 256

/-- An INVALID tile register (R101). -/
def TileReg.invalid : TileReg := {}

/-- An INVALID accumulator (R101). -/
def AccReg.invalid : AccReg := {}

/-- A POISONED accumulator keeps its tag and holds 0 (R101). -/
def AccReg.poisoned (a : AccReg) : AccReg := { fmt := a.fmt, poison := true }

/-- Width class of a format as an operand of a product; 3.7's rows (R85). -/
def pairAcc (tf uf : BitVec 4) : Option (BitVec 4) :=
  let f8 (f : BitVec 4) : Bool := f == 0x3 || f == 0x4 || f == 0x5 || f == 0x6 || f == 0x7 || f == 0x8 || f == 0xA
  let f16 (f : BitVec 4) : Bool := f == 0x1 || f == 0x2
  if tf == 0x0 && uf == 0x0 then some 0x0
  else if f16 tf && f16 uf then some 0x0
  else if f8 tf && f8 uf then some 0x0
  else if tf == 0xB && uf == 0xB then some 0xD
  else if tf == 0x9 && uf == 0x9 then some 0x0
  else if tf == 0xC && uf == 0xC then some 0xD
  else none

/-- Output element (i, j) is enabled (R104). -/
def mmaEnabled (t u : TileReg) (trm tbm : BitVec 16) (i j : Nat) : Bool :=
  decide (i < t.rows) && trm.getLsbD i && decide (j < u.rows) && tbm.getLsbD (4 * (i / 4) + j / 4)

/-- One output element of a product: the accumulator bits after its four chunks, ascending (R86, R113). -/
def mmaElem (strict : Bool) (t u : TileReg) (tkm : BitVec 16) (i j : Nat) (acc : Nat) : Nat × Flags :=
  let kLen := tileK t.fmt
  let d := kLen / 4
  (List.range 4).foldl (fun (a : Nat × Flags) c =>
    let ks := ((List.range d).map (fun x => c * d + x)).filter fun k => tkm.getLsbD (k * 16 / kLen)
    if ks.isEmpty then a
    else if isInt t.fmt then
      let terms := ks.map fun k => intVal (elemBits t.fmt) (t.elem i k) * intVal (elemBits u.fmt) (u.elem j k)
      let (b, f) := intChunk a.1 terms
      (b, a.2 ||| f)
    else
      let sb (r : TileReg) (row : Nat) : Option Nat :=
        if isMx r.fmt then some (r.scale row (if r.fmt == 0x9 then c else c / 2)) else none
      let terms := ks.map fun k =>
        chunkTerm (tileElem t.fmt strict (t.elem i k)) (tileElem u.fmt strict (u.elem j k)) (sb t i) (sb u j)
      let (b, f) := chunk strict a.1 terms
      (b, a.2 ||| f)) (acc, 0)

/-- TMMA and TMMAZ on their operands (R113): the accumulator after, and the flags. -/
def mmaRun (strict zero : Bool) (t u : TileReg) (a : AccReg) (trm tbm tkm : BitVec 16) : AccReg × Flags :=
  let cells := (List.range 256).map fun n =>
    let i := n / 16
    let j := n % 16
    let old := if zero then 0 else getF a.data (32 * n) 32
    if mmaEnabled t u trm tbm i j then mmaElem strict t u tkm i j old else (old, (0 : Flags))
  let data := BitVec.ofNat 8192 (packF 32 (cells.map (·.1)))
  let fl := cells.foldl (fun f c => f ||| c.2) 0
  if zero then ({ fmt := (pairAcc t.fmt u.fmt).getD 0xF, data := data }, fl)
  else ({ a with data := data }, fl)

/-- TMMAZ with TKM = 0: 256 zeros, without reading a tile (Table 4.3). -/
def mmaZeroed (tf uf : BitVec 4) : AccReg := { fmt := (pairAcc tf uf).getD 0xF }

/-- Active rows of a product (R129). -/
def activeRows (t : TileReg) (trm : BitVec 16) : Nat :=
  ((List.range 16).filter fun i => decide (i < t.rows) && trm.getLsbD i).length

/-! ### TACVT (R111, Table 4.2) -/

/-- Columns per group and number of groups of a legal conversion. -/
def cvtGroup (src dst : BitVec 4) : Option (Nat × Nat) :=
  if src == 0x0 then
    if dst == 0x0 then some (16, 1)
    else if dst == 0x1 || dst == 0x2 then some (16, 2)
    else if dst == 0x3 || dst == 0x4 then some (16, 4)
    else if dst == 0x9 then some (32, 4)
    else if isMx dst then some (32, 2)
    else none
  else if src == 0xD then
    if dst == 0xB then some (16, 4) else if dst == 0xC then some (16, 8) else none
  else none

/-- The stream word of destination element (i, c) of format fmt (R112). -/
def cvtWord (key ctr : BitVec 128) (step : Word) (fmt : BitVec 4) (i c : Nat) : BitVec 32 :=
  srWord key ctr step (i * tileK fmt + c)

/-- One row's group of a conversion: element bits, scale byte of an MX group, flags. -/
def cvtRow (strict : Bool) (a a1 : AccReg) (fmt : BitVec 4) (rm : BitVec 2) (cg : Nat) (key ctr : BitVec 128)
    (step : Word) (i : Nat) : List Nat × Nat × Flags :=
  let rnd (c : Nat) : Rnd := rndOf rm (cvtWord key ctr step fmt i c)
  if isMx fmt then
    let src := (List.range 32).map fun j =>
      fread fp32 strict (if j < 16 then getF a.data (32 * (16 * i + j)) 32
        else getF a1.data (32 * (16 * i + (j - 16))) 32)
    let (sc, els, fl) := mxBlock fmt strict src ((List.range 32).map fun j => rnd (32 * cg + j))
    (els, sc, fl)
  else
    let out := (List.range 16).map fun j =>
      convElem fmt a.fmt strict (rnd (16 * cg + j)) (getF a.data (32 * (16 * i + j)) 32)
    (out.map (·.1), 0, out.foldl (fun f o => f ||| o.2) 0)

/-- TACVT on its operands: the destination tile and the flags. FP32 to FP32 is a bit copy. -/
def cvtRun (strict : Bool) (a a1 : AccReg) (td : TileReg) (fmt : BitVec 4) (rm : BitVec 2) (cg : Nat)
    (key ctr : BitVec 128) (step : Word) : TileReg × Flags :=
  if fmt == 0x0 then ({ fmt := 0x0, rows := 16, data := a.data }, 0)
  else
    let w := elemBits fmt
    let base : TileReg := if cg == 0 then { fmt := fmt, rows := 16 } else td
    let rows := (List.range 16).map fun i => cvtRow strict a a1 fmt rm cg key ctr step i
    let cols := if isMx fmt then 32 else 16
    let t := (List.range 16).zip rows |>.foldl (fun (t : TileReg) (ir : Nat × List Nat × Nat × Flags) =>
      let d := putF t.data (512 * ir.1 + w * cols * cg) (w * cols) (packF w ir.2.1)
      let s := if isMx fmt then putF t.side (32 * ir.1 + 8 * cg) 8 ir.2.2.1 else t.side
      { t with data := d, side := s }) base
    ({ t with bad := false }, rows.foldl (fun f r => f ||| r.2.2) 0)

/-! ### Transposing load (R109) -/

/-- Tile row i, element k, is element i of source row k. -/
def transposeRows (f : BitVec 4) (n : Nat) (src : List Nat) : TileReg :=
  let w := elemBits f
  let rows := (List.range n).map fun i => packF w (src.map fun r => r >>> (w * i) % 2 ^ w)
  { fmt := f, rows := n, data := BitVec.ofNat 8192 (packF 512 rows) }

/-- A tile loaded from n rows and their scale rows (R105). -/
def tileOfRows (f : BitVec 4) (n : Nat) (rows scales : List Nat) : TileReg :=
  { fmt := f, rows := n, data := BitVec.ofNat 8192 (packF 512 rows), side := BitVec.ofNat 512 (packF 32 scales) }

/-- The word TTAG returns (R135). -/
def TileReg.tag (t : TileReg) : Word := BitVec.ofNat 64 (t.fmt.toNat + (t.rows - 1) * 16)

def AccReg.tag (a : AccReg) : Word := BitVec.ofNat 64 (a.fmt.toNat + 0xF0 + b2n a.poison * 256)

end Sys2Proof.Machine
end

