-- ==== Sys2Proof/Machine/ThreadRegs.lean ====
section
/-!
DEFINITION. A thread's registers: general registers (R38), status (Table 2.9), tiles (R101, R118), what an instruction writes
as it retires, and the records that its core writes (R56).
-/

namespace Sys2Proof.Machine

/-! ### Registers (R38) -/

/-- Read a general register; X0 reads as zero. -/
def Thread.xr (t : Thread) (r : Reg) : Word := if r = 0 then 0 else sget 0 t.x r.toNat

/-- Write a general register; a write to X0 is discarded. -/
def Thread.setX (t : Thread) (r : Reg) (v : Word) : Thread :=
  if r = 0 then t else { t with x := sset r.toNat v t.x }

def State.setX (s : State) (th : ThreadId) (r : Reg) (v : Word) : State := s.modThr th fun t => t.setX r v

/-! ### Status (Table 2.9) -/

def Thread.super (t : Thread) : Bool := t.csr.status.getLsbD 0
def Thread.ie (t : Thread) : Bool := t.csr.status.getLsbD 1
def Thread.inexc (t : Thread) : Bool := t.csr.status.getLsbD 4
def Thread.str (t : Thread) : Bool := t.csr.status.getLsbD 5

/-- A tile or vector instruction is in flight. -/
def Thread.flying (t : Thread) : Bool := t.tfly.isSome || t.vfly.isSome

/-- A register that an instruction in flight will write (R39). -/
def Thread.xBusy (t : Thread) (r : Reg) : Bool :=
  let hits (f : Option Fly) : Bool := match f with
    | some f => f.wr.any fun w => match w with | .x r' _ => r' == r | _ => false
    | none => false
  r != 0 && (hits t.tfly || hits t.vfly)

/-- An interrupt that would be taken at a boundary: TIMER before SOFT (R59). -/
def Thread.interrupt (t : Thread) : Option Nat :=
  let p := t.csr.ipend &&& t.csr.ien
  if !t.ie || t.inexc || t.str then none
  else if p.getLsbD 1 then some 0x21
  else if p.getLsbD 0 then some 0x20
  else none

/-- A pending store error that would be taken at a boundary (R58). -/
def Thread.asyncDue (t : Thread) : Bool := !t.asyncQ.isEmpty && !t.inexc

/-! ### Records of the core (R56) -/

/-- DETAIL of a core's record: CORE_TVAL and the PC. -/
def coreDetail (tval pc : Word) : BitVec 192 := det 40 8 tval.toNat ||| det 48 8 pc.toNat

/-- A record that the core of a thread writes. -/
def State.coreRecord (s : State) (th : ThreadId) (code : Reason) (sev : Byte) (obj : BitVec 32)
    (detail : BitVec 192) : State :=
  s.record { unit := uCore (thCore th), clk := clkOf (thCore th), code := code, sev := sev, ctx := s.thCtx th,
             obj := obj, waiter := some th, detail := detail }

/-! ### Tile state (R101, R116 to R118) -/

/-- TMMA and other users name tiles 0 to 7 for T and 8 to 11 for A. -/
def Thread.treg (t : Thread) (i : Nat) : TileReg := sget {} t.tile.t i

def Thread.areg (t : Thread) (i : Nat) : AccReg := sget {} t.tile.a i

def Thread.setT (t : Thread) (i : Nat) (v : TileReg) : Thread := { t with tile := { t.tile with t := sset i v t.tile.t } }

def Thread.setA (t : Thread) (i : Nat) (v : AccReg) : Thread := { t with tile := { t.tile with a := sset i v t.tile.a } }

/-- The tile holds an uncorrectable error. -/
def Thread.tileBad (t : Thread) (n : Nat) : Bool := if n < 8 then (t.treg n).bad else (t.areg (n - 8)).bad

def Thread.tileFmt (t : Thread) (n : Nat) : BitVec 4 := if n < 8 then (t.treg n).fmt else (t.areg (n - 8)).fmt

/-- A tile register becomes INVALID, an accumulator POISONED. -/
def Thread.tileSpoil (t : Thread) (n : Nat) : Thread :=
  if n < 8 then t.setT n {} else t.setA (n - 8) { fmt := (t.areg (n - 8)).fmt, poison := true }

def tileEcc : Reason := 0x0514

/-- The record of an uncorrectable error in a tile, counted (R118). The halves of TILE_CNT_ECC saturate (DESIGN CHOICE, log 129). -/
def State.tileEccRecord (s : State) (th : ThreadId) (n : Nat) : State :=
  (s.coreRecord th tileEcc sevNotice (BitVec.ofNat 32 n) (det 40 1 n)).modCore (thCore th) fun c =>
    { c with tEccU := satAdd 32 c.tEccU 1 }

/-! ### Writes of retiring instructions -/

/-- VEC_FAULT after a fault or a cut (Table 5.13). -/
def vecFault (elem : Nat) (ff : Bool) : Word := BitVec.ofNat 64 (elem % 256 + b2n ff * 256 + 2 ^ 63)

/-- TILE_ABORT after an abort (Table 4.15). -/
def tileAbort (tile rows : Nat) : Word := BitVec.ofNat 64 (tile + rows * 16 + 2 ^ 63)

/-- One write of a retiring instruction. A vector register written whole loses its bad words; a scalar floating-point
write clears the word it writes (R167). -/
def Thread.applyWr (t : Thread) : Wr → Thread
  | .x r v => t.setX r v
  | .v r v => { t with vec := { t.vec with v := sset r v t.vec.v, badV := t.vec.badV.filter fun b => b.1 != r } }
  | .vpart r v ws =>
    { t with vec := { t.vec with v := sset r v t.vec.v, badV := t.vec.badV.filter fun b => b.1 != r || !ws.contains b.2 } }
  | .f r v =>
    let old := sget 0 t.vec.v r
    { t with vec := { t.vec with v := sset r (putF old 0 64 v.toNat) t.vec.v, badV := t.vec.badV.filter fun b => b != (r, 0) } }
  | .p r v => { t with vec := { t.vec with p := sset r v t.vec.p, badP := t.vec.badP.filter fun b => b.1 != r } }
  | .ffr v => { t with vec := { t.vec with ffr := v, badF := [] } }
  | .ffrPart v ws => { t with vec := { t.vec with ffr := v, badF := t.vec.badF.filter fun w => !ws.contains w } }
  | .flags f => { t with vec := { t.vec with flags := t.vec.flags ||| f } }
  | .vfault w => { t with vec := { t.vec with fault := w } }
  | .t i v => { t with tile := { t.tile with t := sset i v t.tile.t } }
  | .a i v => { t with tile := { t.tile with a := sset i v t.tile.a } }
  | .mask m v =>
    { t with tile := if m == 0 then { t.tile with trm := v } else if m == 1 then { t.tile with tbm := v }
        else { t.tile with tkm := v } }
  | .abort w => { t with tile := { t.tile with abort := w } }
  | .vecCtr => { t with vec := { t.vec with ctr := t.vec.ctr + 4096 } }
  | .tileCtr => { t with tile := { t.tile with ctr := t.tile.ctr + 4096 } }
  | .bench _ => t

/-- State that a faulting access leaves beside the exception: the abort of a tile load (R107), VEC_FAULT of a vector
access (R152, R153). -/
def Thread.accMark (t : Thread) (f : AccEnd) (idx rows : Nat) : Thread :=
  match f with
  | .tld i _ _ => (t.applyWr (.t i.toNat TileReg.invalid)).applyWr (.abort (tileAbort i.toNat rows))
  | .tald a _ => (t.applyWr (.a a.toNat AccReg.invalid)).applyWr (.abort (tileAbort (8 + a.toNat) rows))
  | .tst _ => t
  | .ld _ _ _ => t
  | .st => t
  | _ => t.applyWr (.vfault (vecFault idx false))

/-! ### Writes of control and status registers -/

/-- CORE_CAUSE keeps its defined bits (Table 2.10). -/
def causeMask (v : Word) : Word := v &&& 0x80000000FFFF00FF

/-- A thread whose registers change by a write of csr n; reserved bits are ignored. -/
def Thread.csrWrite (t : Thread) (n : Nat) (v : Word) : Thread :=
  match n with
  | 0x01 => { t with csr := { t.csr with status := v.setWidth 6 } }
  | 0x02 => { t with csr := { t.csr with tvec := v &&& ~~~0xFF } }
  | 0x03 => { t with csr := { t.csr with epc := v &&& ~~~3 } }
  | 0x04 => { t with csr := { t.csr with cause := causeMask v } }
  | 0x05 => { t with csr := { t.csr with tval := v } }
  | 0x06 => { t with csr := { t.csr with ien := v.setWidth 2 } }
  | 0x07 => { t with csr := { t.csr with ipend := t.csr.ipend &&& ~~~v.setWidth 2 } }
  | 0x08 => { t with csr := { t.csr with timer := v } }
  | 0x0A => { t with csr := { t.csr with scratch := v } }
  | 0x0B => { t with csr := { t.csr with ipend := t.csr.ipend ||| 1 } }
  | 0x41 => { t with vec := { t.vec with flags := t.vec.flags &&& ~~~v.setWidth 6 } }
  | 0x42 => { t with vec := { t.vec with key := putF t.vec.key 0 64 v.toNat } }
  | 0x43 => { t with vec := { t.vec with key := putF t.vec.key 64 64 v.toNat } }
  | 0x44 => { t with vec := { t.vec with ctr := putF t.vec.ctr 0 64 v.toNat } }
  | 0x45 => { t with vec := { t.vec with ctr := putF t.vec.ctr 64 64 v.toNat } }
  | 0x46 => { t with tile := { t.tile with key := putF t.tile.key 0 64 v.toNat } }
  | 0x47 => { t with tile := { t.tile with key := putF t.tile.key 64 64 v.toNat } }
  | 0x48 => { t with tile := { t.tile with ctr := putF t.tile.ctr 0 64 v.toNat } }
  | 0x49 => { t with tile := { t.tile with ctr := putF t.tile.ctr 64 64 v.toNat } }
  | 0x4A => { t with vec := { t.vec with step := v } }
  | 0x4B => { t with vec := { t.vec with fault := if v.getLsbD 63 then putF t.vec.fault 63 1 0 else t.vec.fault } }
  | 0x62 => { t with tile := { t.tile with trm := v.setWidth 16, tbm := (v >>> 16).setWidth 16,
                                           tkm := (v >>> 32).setWidth 16 } }
  | 0x63 => { t with tile := { t.tile with
      abort := if v.getLsbD 63 then putF t.tile.abort 63 1 0 else t.tile.abort } }
  | _ => t

/-- An SR instruction in flight uses register n: a stream's key or counter, or VEC_STEP (R98). -/
def Thread.srBusy (t : Thread) (n : Nat) : Bool :=
  let has (w : Wr) (f : Option Fly) : Bool := match f with | some f => f.wr.contains w | none => false
  if 0x42 ≤ n && n ≤ 0x45 then has .vecCtr t.vfly
  else if 0x46 ≤ n && n ≤ 0x49 then has .tileCtr t.tfly
  else n == 0x4A && (has .vecCtr t.vfly || has .tileCtr t.tfly)

/-- Writes that waited for an SR instruction land once it has retired, in their order. -/
def Thread.landWrites (t : Thread) : Thread :=
  let go := t.csrWait.filter fun e => !t.srBusy e.1
  go.foldl (fun t e => t.csrWrite e.1 e.2) { t with csrWait := t.csrWait.filter fun e => t.srBusy e.1 }

end Sys2Proof.Machine
end

