-- ==== Sys2Proof/Machine/Translate.lean ====
section
/-!
DEFINITION. Addresses: windows (R190, R204, R208), translation and its caches (R208 to R212), permissions (R209), the checks of
one part of an access in the order of R196.
-/

namespace Sys2Proof.Machine

def memAlign : Reason := 0x0401
def memWindow : Reason := 0x0402
def memContext : Reason := 0x0403
def memPerm : Reason := 0x0404
def memPage : Reason := 0x0405
def memPte : Reason := 0x0406
def memEcc : Reason := 0x0407
def memReg : Reason := 0x0409
def memTimeout : Reason := 0x040A

/-! ### Windows (Tables 7.1, 7.7) -/

/-- Explicit limit of the Cellar (Table 7.7). -/
def explicitLimit (cfrac : BitVec 3) : Nat := (4 - min cfrac.toNat 4) * 0x180000000

/-- The context declares a Granary region (R208). -/
def CtxMem.hasGran (m : CtxMem) : Bool := m.regions.any fun r => r.win == 2

/-- Windows of Table 7.1 that hold memory. -/
inductive Window where
  | own (off : Nat)
  | bench (g off : Nat)
  | larder (d off : Nat)
  | cellar (d off : Nat)
  | control (off : Nat)
  | granary (o : Nat)
deriving DecidableEq, Repr

/-- The window of an address, where it is populated (R190, R204, R208). -/
def State.window (s : State) (c : CtxId) (va : Word) : Option Window :=
  let a := va.toNat
  if a < 0x100000 then some (.own a)
  else if 0x100000000 ≤ a && a < 0x180000000 then some (.bench ((a - 0x100000000) / 0x100000) (a % 0x100000))
  else if 0x200000000 ≤ a && a < 0x300000000 then some (.larder ((a - 0x200000000) / 0x20000000) (a % 0x20000000))
  else if 0x1000000000 ≤ a && a < 0x5000000000 then
    let off := (a - 0x1000000000) % 0x800000000
    if off < explicitLimit s.cfrac then some (.cellar ((a - 0x1000000000) / 0x800000000) off) else none
  else if 0xF000000000 ≤ a && a < 0xF100000000 then some (.control (a - 0xF000000000))
  else if 0x100000000000 ≤ a && a < 0x200000000000 then
    if (s.ctx c).mem.hasGran then some (.granary (a - 0x100000000000)) else none
  else none

/-! ### Order of one thread's accesses (R217) -/

/-- An earlier store of the thread to a line has not been acknowledged: a load of the line is served after it (R217). -/
def Thread.storesTo (t : Thread) (line : Nat) : Bool :=
  t.posted.any fun p => match p.what with
    | .cells cs => cs.any fun c => c.1 / 64 == line
    | .reg _ _ _ => false

/-! ### Translation (R208 to R212) -/

/-- A physical frame lies in one of the context's Granary regions. -/
def CtxMem.ownsFrame (m : CtxMem) (ppn : Nat) : Bool :=
  m.regions.any fun r => r.win == 2 && decide (r.base * 48 ≤ ppn) && decide (ppn < r.limit * 48)

/-- What a walk finds: an entry, or a MEM code with the level that failed. -/
inductive WalkRes where
  | entry (e : Pte)
  | bad (reason : Reason) (level : Nat)
  | poisoned (loc : Nat)
deriving DecidableEq, Repr

/-- Bit field of a page-table entry. -/
def pteField (v off w : Nat) : Nat := v >>> off % 2 ^ w

/-- The two reads of a walk of page o[43:16] (R210). -/
def State.walkPage (s : State) (c : CtxId) (page : Nat) : WalkRes :=
  let m := (s.ctx c).mem
  let a1 := granLoc (m.ptroot * 0x10000 + page / 0x4000 * 8)
  if s.poisonIn a1 8 then .poisoned a1
  else
    let l1 := leNat (s.peek a1 8)
    let ppn1 := pteField l1 16 25
    if pteField l1 0 1 == 0 then .bad memPage 1
    else if pteField l1 1 15 != 0 || pteField l1 41 23 != 0 || ppn1 % 2 == 1 || !m.ownsFrame ppn1 then .bad memPte 1
    else
      let a2 := granLoc (ppn1 * 0x10000 + page % 0x4000 * 8)
      if s.poisonIn a2 8 then .poisoned a2
      else
        let l2 := leNat (s.peek a2 8)
        let ppn := pteField l2 16 25
        let bit (i : Nat) : Bool := pteField l2 i 1 == 1
        if !bit 0 then .bad memPage 2
        else if pteField l2 5 11 != 0 || pteField l2 41 23 != 0 || (bit 2 && !bit 1) || !m.ownsFrame ppn then
          .bad memPte 2
        else .entry ⟨ppn, bit 1, bit 2, bit 3, bit 4⟩

/-- The unit that holds an address of a context is probed (Table 14.1). -/
def State.probeVa (s : State) (c : CtxId) (va : Word) : State :=
  match s.window c va with
  | some (.bench g off) => s.probe (s.memUnit (benchLoc g off)).1
  | some (.larder _ _) => s.probe (s.memUnit va.toNat).1
  | some (.cellar _ _) => s.probe (s.memUnit va.toNat).1
  | some (.control off) => s.probe (BitVec.ofNat 16 (off / 0x10000))
  | some (.granary o) =>
    match s.walkPage c (o / 0x10000) with
    | .entry e => s.probe (s.memUnit (granLoc (e.ppn * 0x10000 + o % 0x10000))).1
    | _ => s.probe (s.memUnit (granLoc ((s.ctx c).mem.ptroot * 0x10000 + o / 0x10000 / 0x4000 * 8))).1
  | _ => s

/-- The permissions of R209: R, W or X for the kind, and U for a USER thread. -/
def permOk (k : AKind) (super r w x u : Bool) : Bool :=
  (match k with | .load => r | .store => w | .fetch => x) && (super || u)

/-- The translation cache of a core. -/
def State.tlbGet (s : State) (g page : Nat) : Option Pte := ((s.core g).tlb.find? fun e => e.1 == page).map (·.2)

/-- The cached translation of a page has been used: 1,024 entries, 4-way. -/
def State.tlbTouch (s : State) (g page : Nat) : State :=
  s.modCore g fun c => { c with tlbUsed := touchSet 4 256 page (c.tlb.map (·.1)) c.tlbUsed }

/-- Put a translation into a core's cache; in a full set it replaces one not recently used (R211). -/
def State.tlbPut (s : State) (g page : Nat) (e : Pte) : State :=
  let l := (s.core g).tlb
  if l.any fun x => x.1 == page then s
  else
    let (v, s) := match fullSet 4 256 page (l.map (·.1)) with
      | some mates => s.pickVictim (victims mates (s.core g).tlbUsed)
      | none => (none, s)
    let old := match v with | some k => sdel k l | none => l
    (s.modCore g fun c => { c with tlb := sset page e old }).tlbTouch g page

def State.tlbDrop (s : State) (g page : Nat) : State :=
  s.modCore g fun c => { c with tlb := sdel page c.tlb, tlbUsed := c.tlbUsed.filter (· != page) }

/-- The count of a page walk (Table 7.15); both halves wrap (log 129). -/
def State.countWalk (s : State) (c : CtxId) (page : Bool) : State :=
  s.modCtxMem c fun m => { m with walks := (m.walks + 1) % 2 ^ 32, pageFaults := (m.pageFaults + b2n page) % 2 ^ 32 }

/-- The reads of a walk go through the home caches: the level-1 entry, and the level-2 entry where the walk came to it. An
entry that is poisoned is answered with an error. -/
def State.walkReads (s : State) (c : CtxId) (page : Nat) (r : WalkRes) : State :=
  let a1 := granLoc ((s.ctx c).mem.ptroot * 0x10000 + page / 0x4000 * 8)
  let a2 := granLoc (pteField (leNat (s.peek a1 8)) 16 25 * 0x10000 + page % 0x4000 * 8)
  match r with
  | .poisoned l => if l == a1 then s else s.readVia a1 8
  | .bad _ 1 => s.readVia a1 8
  | _ => (s.readVia a1 8).readVia a2 8

/-- Lines of the entries that a walk of a page reads. -/
def State.walkLines (s : State) (c : CtxId) (page : Nat) : List Nat :=
  let a1 := (s.ctx c).mem.ptroot * 0x10000 + page / 0x4000 * 8
  let a2 := pteField (leNat (s.peek (granLoc a1) 8)) 16 25 * 0x10000 + page % 0x4000 * 8
  [granLoc a1 / 64, granLoc a2 / 64]

/-- A walk reads an entry's line only when the thread's earlier stores to it have taken effect (R211, R217). -/
def State.walkBehind (s : State) (th : ThreadId) (c : CtxId) (page : Nat) : Bool :=
  (s.walkLines c page).any (s.thr th).storesTo

/-- A walk of a page for a core: counted, and cached where it finds an entry that the access may use (R210, R211). -/
def State.walkFor (s : State) (g : Nat) (c : CtxId) (page : Nat) (may : Pte → Bool) : WalkRes × State :=
  let r := s.walkPage c page
  let s := (s.countWalk c (match r with | .bad code _ => code == memPage | _ => false)).walkReads c page r
  match r with
  | .entry e => (r, if may e then s.tlbPut g page e else s)
  | _ => (r, s)

/-! ### Checks of one part (R196) -/

/-- What the checks of a part find: its location (own Bench or not), a page to walk, or a failure with its level. -/
inductive PartRes where
  | ok (loc : Nat) (own : Bool)
  | walk (page : Nat)
  | bad (reason : Reason) (level : Nat)
deriving DecidableEq, Repr

/-- The region entry of a Larder or Cellar place. -/
def CtxMem.region (m : CtxMem) (win die unit : Nat) : Option RegionEntry :=
  m.regions.find? fun r => r.win.toNat == win && r.die.toNat == die && decide (r.base ≤ unit) && decide (unit < r.limit)

/-- The checks of a part, alignment first. `failed`: a page whose walk has just failed. -/
def State.checkPart (s : State) (th : ThreadId) (c : CtxId) (k : AKind) (align : Nat)
    (failed : Option (Nat × Reason × Nat)) (p : Part) : PartRes :=
  let g := thCore th
  let super := (s.thr th).super
  let m := (s.ctx c).mem
  let placed (win die unit : Nat) : PartRes :=
    match m.region win die unit with
    | none => .bad memContext 0
    | some r => if permOk k super r.r r.w r.x r.u then .ok p.va.toNat false else .bad memPerm 0
  match s.window c p.va with
  | some (.control off) => .bad (if p.va.toNat % align == 0 && !blockAssigned (off / 0x10000) then memWindow else memReg) 0
  | w =>
    if p.va.toNat % align != 0 then .bad memAlign 0
    else
      match w with
      | none => .bad memWindow 0
      | some (.control _) => .bad memReg 0
      | some (.own off) => .ok (benchLoc g off) true
      | some (.bench g' off) =>
        if s.coreCtx g' == some c then .ok (benchLoc g' off) (g' == g) else .bad memContext 0
      | some (.larder d off) => placed 0 d (off / 0x100000)
      | some (.cellar d off) => placed 1 d (off / 0x4000000)
      | some (.granary o) =>
        let page := o / 0x10000
        match s.tlbGet g page with
        | some e =>
          if permOk k super e.r e.w e.x e.u then .ok (granLoc (e.ppn * 0x10000 + o % 0x10000)) false
          else .bad memPerm 0
        | none =>
          match failed with
          | some (q, r, l) => if q == page then .bad r l else .walk page
          | none => .walk page

/-- The checks of the parts in order: the locations of those that pass, and what stopped them. -/
def State.checkParts (s : State) (th : ThreadId) (c : CtxId) (k : AKind) (align : Part → Nat)
    (failed : Option (Nat × Reason × Nat)) : List Part → List (Nat × Bool) × Option PartRes
  | [] => ([], none)
  | p :: ps =>
    match s.checkPart th c k (align p) failed p with
    | .ok l o =>
      let (ls, r) := s.checkParts th c k align failed ps
      ((l, o) :: ls, r)
    | r => ([], some r)

/-- Count an error of a location's unit (Tables 7.18, 7.19); a Granary sector that its home's cache part holds counts in that
Cellar. The counters saturate (DESIGN CHOICE, log 129). -/
def State.countEcc (s : State) (l : Nat) (ue : Bool) : State :=
  if isBench l then
    s.modDie (coreDie ((l - 0x100000000) / 0x100000)) fun d =>
      if ue then { d with benchU := satAdd 32 d.benchU 1 } else { d with benchC := satAdd 32 d.benchC 1 }
  else if isLarder l then
    s.modDie ((l - 0x200000000) / 0x20000000) fun d =>
      if ue then { d with lardU := satAdd 32 d.lardU 1 } else { d with lardC := satAdd 32 d.lardC 1 }
  else if isCellar l then
    s.modDie ((l - 0x1000000000) / 0x800000000) fun d =>
      if ue then { d with cellU := satAdd 32 d.cellU 1 } else { d with cellC := satAdd 32 d.cellC 1 }
  else if s.inCache l then
    s.modDie (granHome (l - 2 ^ 63)) fun d =>
      if ue then { d with cellU := satAdd 32 d.cellU 1 } else { d with cellC := satAdd 32 d.cellC 1 }
  else
    s.modGran ((granPlace (l - 2 ^ 63) (s.saltOf (l - 2 ^ 63))).1 / 16) fun g =>
      if ue then { g with eccU := satAdd 32 g.eccU 1 } else { g with eccC := satAdd 32 g.eccC 1 }

/-- A read or a scrub meets the errors of the 64 bytes around a location: those met for the first time are counted (R215). -/
def State.meetEcc (s : State) (l : Nat) : State :=
  let new := s.fresh.filter fun u => u / 64 == l / 64 && s.poison.contains u
  new.foldl (fun s u => s.countEcc u true) { s with fresh := s.fresh.filter fun u => u / 64 != l / 64 }

/-- A record of the memory unit that finds poisoned data (Table 7.4). `kind` is 3 for a read of a walk (R210) and else 0. -/
def State.eccRecord (s : State) (loc : Nat) (addr : Nat) (req : UnitId) (ctx : Option CtxId)
    (waiter : Option ThreadId) (kind : Nat := 0) : State :=
  let s := s.meetEcc loc
  let (u, k) := s.memUnit loc
  s.record { unit := u, clk := k, code := memEcc, sev := sevError, ctx := ctx, waiter := waiter,
             detail := s.memDetail loc addr req ||| det 58 1 kind }

end Sys2Proof.Machine
end

