-- ==== Sys2Proof/Machine/ThreadOps.lean ====
section
/-!
DEFINITION. Threads (02_cores_and_threads.md): eligibility, slots, fetch, retirement, arrival at the next instruction,
exceptions and their handler (R56), return from it, pauses.
-/

namespace Sys2Proof.Machine

/-- The thread may issue: READY in a context that runs, with no event to take first (R39, R58, R60, R62). Which eligible
thread issues next is the order of the commands (log 15). -/
def State.canIssue (s : State) (th : ThreadId) : Bool :=
  let t := s.thr th
  t.st == .ready && !t.pauseReq && !t.stopReq && !t.asyncDue && t.interrupt.isNone &&
    (match s.thCtx th with | some c => s.ctxRuns c | none => false)

/-! ### Causes (Table 2.11) -/

def Cause.num : Cause → Nat
  | .illegal => 0x01
  | .priv => 0x02
  | .divZero => 0x03
  | .trap => 0x04
  | .fetch => 0x05
  | .memory => 0x06
  | .asyncMem => 0x07
  | .execution => 0x08
  | .sync => 0x09
  | .soft => 0x20
  | .timer => 0x21

def exeIllegal : Reason := 0x0501
def exePriv : Reason := 0x0502
def exeDivZero : Reason := 0x0503
def exeFetch : Reason := 0x0504
def exeDoubleFault : Reason := 0x0505
def exeNoHandler : Reason := 0x0506

/-- CORE_CAUSE (Table 2.10). -/
def causeWord (c : Cause) (reason : Reason) (intr : Bool) : Word :=
  BitVec.ofNat 64 (c.num + reason.toNat * 2 ^ 16 + b2n intr * 2 ^ 63)

/-- CORE_STATUS on handler entry: PLEVEL and PIE take LEVEL and IE; LEVEL 1, IE 0, INEXC 1; STR stays (R56). -/
def statusEnter (st : BitVec 6) : BitVec 6 :=
  BitVec.ofNat 6 (1 + b2n (st.getLsbD 0) * 4 + b2n (st.getLsbD 1) * 8 + 16 + b2n (st.getLsbD 5) * 32)

/-- CORE_STATUS on ERET: LEVEL and IE take PLEVEL and PIE; INEXC 0 (R56). -/
def statusReturn (st : BitVec 6) : BitVec 6 :=
  BitVec.ofNat 6 (b2n (st.getLsbD 2) + b2n (st.getLsbD 3) * 2 + b2n (st.getLsbD 2) * 4 + b2n (st.getLsbD 3) * 8 +
    b2n (st.getLsbD 5) * 32)

/-! ### Slots (R42) -/

/-- Requests of a load that are in flight. -/
def openReqs (rs : List Req) : List Req := rs.filter fun r => r.sent && r.got.isNone && r.err.isNone

/-- Outstanding-request slots that a thread holds: posted stores, requests in flight, sync operations, a wait, line
fills. -/
def State.slotsHeld (s : State) (th : ThreadId) : Nat :=
  let t := s.thr th
  t.posted.length + t.dropped + t.fills.length +
  (match t.pend with
    | some (.access _ w rs) => (if w.isSome then 1 else 0) + (openReqs rs).length
    | some (.reg _ _ _ _) => 1
    | some (.sync _ _ _ _) => 1
    | some (.pginv _) => 1
    | _ => 0) +
  (if t.wait.isSome then 1 else 0) +
  (s.sync.msgs.filter fun m => m.src == .thread th && (m.op == .signal || m.op == .decrement)).length

/-- Shared slots of a core in use. -/
def State.sharedHeld (s : State) (g : Nat) : Nat :=
  ([0, 1, 2, 3].map fun t => s.slotsHeld (mkTh g t) - 4).foldl (· + ·) 0

/-- A slot is free for the thread: one of its own four, or one of the core's sixteen shared ones beyond those that threads
which asked before it wait for. -/
def State.slotFree (s : State) (th : ThreadId) : Bool :=
  let g := thCore th
  decide (s.slotsHeld th < 4) ||
    decide (s.sharedHeld g + ((s.core g).slotQ.takeWhile fun x => x != th).length < 16)

/-- The thread asks for a slot and has none. -/
def State.askSlot (s : State) (th : ThreadId) : State :=
  s.modCore (thCore th) fun c => if c.slotQ.contains th then c else { c with slotQ := c.slotQ ++ [th] }

/-- The thread has its slot, or asks no more. -/
def State.leaveSlots (s : State) (th : ThreadId) : State :=
  s.modCore (thCore th) fun c => { c with slotQ := c.slotQ.filter fun x => x != th }

/-! ### Fetch (R44, R45, R197) -/

/-- A fetch address passes the window check of R45. -/
def State.fetchable (s : State) (c : CtxId) (pc : Word) : Bool :=
  match s.window c pc with
  | some (.larder _ _) => true
  | some (.cellar _ _) => true
  | some (.granary _) => true
  | _ => false

/-- The line of a fetch address is in the instruction cache. -/
def State.lineHeld (s : State) (th : ThreadId) (pc : Word) : Bool :=
  (s.core (thCore th)).icache.any fun e => e.1 == pc.toNat / 64

/-- What the fetch at an address comes to: the line is held (`mark`: a USER fetch has just passed its checks), it is asked of
its memory, its page is walked first, no window holds the address, or a check fails. -/
inductive FetchRes where
  | held (mark : Bool)
  | fill
  | walk
  | window
  | bad (reason : Reason) (level : Nat)
deriving DecidableEq, Repr

/-- The fetch is refused: the thread takes FETCH or MEMORY (R45, R197). -/
def FetchRes.stops : FetchRes → Bool
  | .window | .bad _ _ => true
  | .held _ | .fill | .walk => false

/-- The checks of a fetch. A line that is held was checked when it came in, for a SUPERVISOR; a USER thread needs U as well,
once for each line. -/
def State.fetchCheck (s : State) (th : ThreadId) (c : CtxId) (pc : Word) : FetchRes :=
  let held := s.lineHeld th pc
  if !s.fetchable c pc then .window
  else if held && ((s.thr th).super || (s.core (thCore th)).userLines.contains (pc.toNat / 64)) then .held false
  else
    match s.checkPart th c .fetch 4 none { va := pc, len := 4, idx := 0 } with
    | .ok _ _ => if held then .held true else .fill
    | .walk _ => .walk
    | .bad reason level => .bad reason level

/-- A USER fetch of a line has passed its checks. -/
def State.markUser (s : State) (th : ThreadId) (pc : Word) : State :=
  if (s.thr th).super then s
  else s.modCore (thCore th) fun c =>
    if c.userLines.contains (pc.toNat / 64) then c else { c with userLines := c.userLines ++ [pc.toNat / 64] }

/-- The line of the next instruction is to come: in WAIT_FETCH with a slot for the request, unless one for the line is
outstanding; in WAIT_UNIT while no slot is free. -/
def State.askLine (s : State) (th : ThreadId) : State :=
  let t := s.thr th
  if t.fills.any fun pc => pc.toNat / 64 == t.pc.toNat / 64 then s.setThr th { t with st := .waitFetch, why := .none }
  else if s.slotFree th then
    (s.leaveSlots th).setThr th { t with st := .waitFetch, why := .none, fills := t.fills ++ [t.pc] }
  else (s.askSlot th).setThr th { t with st := .waitUnit, why := .slot }

/-- A permission failure removes the page's cached translation (R210). -/
def State.permDrop (s : State) (th : ThreadId) (c : CtxId) (va : Word) (reason : Reason) : State :=
  if reason == memPerm then
    match s.window c va with
    | some (.granary o) => s.tlbDrop (thCore th) (o / 0x10000)
    | _ => s
  else s

/-- READY, or the wait for the next instruction's line. -/
def State.fetchNext (s : State) (th : ThreadId) (r : FetchRes) : State :=
  match r with
  | .held mark => (if mark then s.markUser th (s.thr th).pc else s).modThr th fun t => { t with st := .ready, why := .none }
  | _ => s.askLine th

/-! ### Boundaries -/

/-- A product withdraws from its group, or from the products ready for the arrays; the rest of a group stays (R131). -/
def State.leaveArrays (s : State) (th : ThreadId) : State :=
  s.modCore (thCore th) fun c => { c with
    groups := (c.groups.map fun g => { g with members := g.members.filter fun m => m.th != th }).filter
      fun g => !g.members.isEmpty
    ready := (c.ready.map fun l => l.filter fun m => m.th != th).filter fun l => !l.isEmpty }

/-- An error of a posted store: pending for the thread, or the context's fault if it has HALTED (R58). -/
def State.storeError (s : State) (th : ThreadId) (code : Reason) (va : Word) : State :=
  if (s.thr th).st == .halted then
    match s.thCtx th with
    | some c => (s.coreRecord th code sevCtxFatal noObj (coreDetail va (s.thr th).pc ||| det 58 1 1)).ctxFault c code
    | none => s
  else s.modThr th fun t => { t with asyncQ := t.asyncQ ++ [(code, va)] }

/-- The thread is HALTED. The first error of an earlier store that it still holds faults the context (R58). -/
def State.enterHalted (s : State) (th : ThreadId) : State :=
  let q := (s.thr th).asyncQ
  let s := ((s.leaveArrays th).leaveSlots th).modThr th fun t => { t with
    st := .halted, why := .none, stopReq := false, pauseReq := false, asyncQ := [] }
  match q with
  | (code, va) :: _ => s.storeError th code va
  | [] => s

/-- At a boundary, with nothing in flight and no exception to take, a PAUSE order or a halt order takes hold (R61, R62,
R364). -/
def State.settle (s : State) (th : ThreadId) : State :=
  let t := s.thr th
  if t.flying || t.pend.isSome || t.exc.isSome || t.asyncDue then s
  else if t.st == .ready || t.st == .waitFetch || t.st == .waitUnit then
    if t.stopReq then s.enterHalted th
    else if t.pauseReq then
      ((s.leaveArrays th).leaveSlots th).setThr th { t with st := .paused, why := .none, pauseReq := false }
    else s
  else s

/-! ### Exceptions -/

/-- An exception that no handler can take faults the context (R57). -/
def State.noHandler (s : State) (th : ThreadId) (pc tval : Word) : State :=
  let t := s.thr th
  let code := if t.csr.tvec == 0 then exeNoHandler else exeDoubleFault
  let s := s.coreRecord th code sevCtxFatal noObj (coreDetail tval pc)
  match s.thCtx th with
  | some c => s.ctxFault c code
  | none => s

/-- DETAIL of a fetch's record (R199). -/
def fetchDetail (level : Nat) : BitVec 192 := det 58 1 2 ||| det 59 1 level

/-- The handler cannot be fetched: an exception with INEXC = 1 (R45, R57, R197). -/
def State.badHandler (s : State) (th : ThreadId) (code : Reason) (extra : BitVec 192) : State :=
  let pc := (s.thr th).pc
  (s.coreRecord th code sevError noObj (coreDetail pc pc ||| extra)).noHandler th pc pc

/-- The handler's first instruction is fetched. -/
def State.fetchHandler (s : State) (th : ThreadId) (c : CtxId) : State :=
  let pc := (s.thr th).pc
  match s.fetchCheck th c pc with
  | .window => s.badHandler th exeFetch 0
  | .bad reason level => (s.permDrop th c pc reason).badHandler th reason (fetchDetail level)
  | r => (s.fetchNext th r).settle th

/-- take() of R56: the pc saved, cause and value written, status changed, pc at the handler; or the context's fault. -/
def State.take (s : State) (th : ThreadId) (c : Cause) (reason : Reason) (tval : Word) (intr : Bool) : State :=
  let t := s.thr th
  if t.inexc || t.csr.tvec == 0 then s.noHandler th t.pc tval
  else
    let s := (s.leaveSlots th).setThr th { t with
      pc := t.csr.tvec, pend := none, wait := none, exc := none, why := .none, st := .ready,
      csr := { t.csr with epc := t.pc &&& ~~~3, cause := causeWord c reason intr, tval := tval,
                          status := statusEnter t.csr.status } }
    match s.thCtx th with
    | some x => s.fetchHandler th x
    | none => s

/-- What an exception leaves beside the handler's registers. A read that meets a vector word already known bad counts in
VEC_CNT_ECC again, and its halves saturate (DESIGN CHOICE, log 129). -/
def State.excEffect (s : State) (th : ThreadId) : ExcEffect → State
  | .access f idx rows => s.modThr th fun t => t.accMark f idx rows
  | .tileEcc n => (s.tileEccRecord th n).modThr th fun t => t.tileSpoil n
  | .vecEcc => s.modCore (thCore th) fun c => { c with vEccU := satAdd 32 c.vEccU 1 }
  | .benchEcc loc va => s.eccRecord loc va.toNat (uCore (thCore th)) (s.thCtx th) (some th)
  | .syncRec code obj detail => s.coreRecord th code sevError obj detail

/-- An exception is taken: what it leaves, the record, where the core writes one, and the handler. -/
def State.fire (s : State) (th : ThreadId) (e : Exc) : State :=
  let pc := (s.thr th).pc
  let s := e.effects.foldl (fun s x => s.excEffect th x) s
  let s := if e.logs then s.coreRecord th e.reason sevError e.obj (coreDetail e.tval pc ||| e.extra) else s
  s.take th e.cause e.reason e.tval false

/-- An exception waits for the tile and vector instructions in flight; meanwhile the thread issues nothing and is shown in
WAIT_UNIT (R60; DESIGN CHOICE, log 130). -/
def State.holdExc (s : State) (th : ThreadId) (e : Exc) : State :=
  s.modThr th fun t => { t with exc := some e, pend := none, st := .waitUnit, why := .retire }

/-- An exception at the thread's instruction (R55). -/
def State.raiseExc (s : State) (th : ThreadId) (e : Exc) : State :=
  if (s.thr th).flying then s.holdExc th e else (s.modThr th fun t => { t with pend := none }).fire th e

/-- An exception at the thread's instruction that leaves nothing else. -/
def State.raise (s : State) (th : ThreadId) (c : Cause) (reason : Reason) (tval : Word) (rec : Bool := true)
    (obj : BitVec 32 := noObj) (extra : BitVec 192 := 0) : State :=
  s.raiseExc th { cause := c, reason := reason, tval := tval, logs := rec, obj := obj, extra := extra }

/-- An exception at the instruction not fetched: it waits for what is in flight, and a store error that is due is taken ahead
of it, since the instruction has not issued (R45, R58, R197). -/
def State.fetchExc (s : State) (th : ThreadId) (c : Cause) (reason : Reason) (extra : BitVec 192) (rec : Bool := true) :
    State :=
  let t := s.thr th
  let e : Exc := { cause := c, reason := reason, tval := t.pc, logs := rec, extra := extra, atFetch := true }
  if t.flying || t.asyncDue then s.holdExc th e else s.fire th e

/-- The instruction at the thread's PC is fetched (R44, R45, R197). -/
def State.fetchHere (s : State) (th : ThreadId) : State :=
  let pc := (s.thr th).pc
  match s.thCtx th with
  | none => s
  | some c =>
    match s.fetchCheck th c pc with
    | .window => s.fetchExc th .fetch exeFetch 0
    | .bad reason level => (s.permDrop th c pc reason).fetchExc th .memory reason (fetchDetail level)
    | r => (s.fetchNext th r).settle th

/-- The thread comes to an instruction at pc. -/
def State.arrive (s : State) (th : ThreadId) (pc : Word) : State :=
  ((s.leaveSlots th).modThr th fun t => { t with
    pc := pc, pend := none, wait := none, why := .none, st := .ready }).fetchHere th

/-- An instruction retires and the next one is at pc. -/
def State.retireTo (s : State) (th : ThreadId) (pc : Word) : State :=
  (s.modThr th fun t => { t with csr := { t.csr with instret := t.csr.instret + 1 } }).arrive th pc

/-- An instruction retires and the next one follows it. -/
def State.retire (s : State) (th : ThreadId) : State := s.retireTo th ((s.thr th).pc + 4)

/-- An instruction has issued and is in flight: the thread goes on to the next one. -/
def State.advance (s : State) (th : ThreadId) : State := s.arrive th ((s.thr th).pc + 4)

/-- The thread waits in WAIT_UNIT, its instruction not issued; one that waits for a slot has asked for it. While CSRR, CSRW,
HALT or an access waits for a retirement, the thread is shown in WAIT_UNIT (DESIGN CHOICE, log 130). -/
def State.stall (s : State) (th : ThreadId) (w : Why) : State :=
  ((if w == .slot then s.askSlot th else s).modThr th fun t => { t with st := .waitUnit, why := w }).settle th

/-- ILLEGAL at the thread's instruction, whose word is w. -/
def State.illegal (s : State) (th : ThreadId) (w : BitVec 32) : State :=
  s.raise th .illegal exeIllegal (w.setWidth 64)

/-- PRIV at the thread's instruction, whose word is w. -/
def State.privileged (s : State) (th : ThreadId) (w : BitVec 32) : State :=
  s.raise th .priv exePriv (w.setWidth 64)

/-- A tile or vector instruction of the thread has retired: what waited for that goes on; an exception that waited is taken
at this same boundary, ahead of an interrupt or a PAUSE (R55, R60, R61, R124). -/
def State.landed (s : State) (th : ThreadId) : State :=
  let s := if (s.thr th).csrWait.isEmpty then s else s.modThr th Thread.landWrites
  let t := s.thr th
  if t.pend.isSome then s
  else
    match t.exc with
    | some e => if t.flying || (e.atFetch && t.asyncDue) then s else s.fire th e
    | none => if t.st == .waitUnit && t.why == .retire then s.fetchHere th else s.settle th

/-! ### Uncorrectable errors in tiles (R117, R118) -/

def tileFmtCode : Reason := 0x0510
def tileInvalid : Reason := 0x0511
def tilePoison : Reason := 0x0512
def tileXpose : Reason := 0x0513

/-- An EXECUTION exception of the tile engine, naming a tile (R117). -/
def State.tileFault (s : State) (th : ThreadId) (code : Reason) (n : Nat) (field : BitVec 4)
    (effects : List ExcEffect := []) : State :=
  s.raiseExc th {
    cause := .execution, reason := code
    tval := BitVec.ofNat 64 (n + ((s.thr th).tileFmt n).toNat * 16 + field.toNat * 256)
    obj := BitVec.ofNat 32 n, effects := effects }

/-- An uncorrectable error in the source of a tile store, move or conversion (Table 4.5): the tile is INVALID, or POISONED,
as the exception is taken, and CORE_TVAL shows its format then. -/
def State.tileEccSource (s : State) (th : ThreadId) (n : Nat) (field : BitVec 4) : State :=
  s.raiseExc th {
    cause := .execution, reason := if n < 8 then tileInvalid else tilePoison
    tval := BitVec.ofNat 64 (n + (((s.thr th).tileSpoil n).tileFmt n).toNat * 16 + field.toNat * 256)
    obj := BitVec.ofNat 32 n, effects := [.tileEcc n] }

/-- A resource frees: threads of the core that wait for it may try again. -/
def State.wake (s : State) (g : Nat) (w : Why) : State :=
  ([0, 1, 2, 3].map (mkTh g)).foldl (fun s th =>
    let t := s.thr th
    if t.st == .waitUnit && t.why == w && t.pend.isNone && t.exc.isNone then s.fetchHere th else s) s

/-- A core's clock domain is ungated (R474). -/
def State.ungate (s : State) (g : Nat) : State := s.modCore g fun c => { c with gated := false }

/-- An outside request to the Bench that holds a location has been served: the cycle promised to it is used (R201). -/
def State.benchServed (s : State) (l : Nat) : State :=
  let g := (l - 0x100000000) / 0x100000
  if isBench l && (s.core g).promised then (s.modCore g fun c => { c with promised := false }).wake g .bench else s

/-! ### Orders to threads (R60, R62, R263, R364) -/

/-- The thread sends a withdrawal of its wait, once. -/
def State.abandonWait (s : State) (th : ThreadId) : State :=
  match (s.thr th).wait, s.thCtx th with
  | some (bell, obj), some c =>
    if s.sync.msgs.any fun m => m.src == .thread th && m.op == .withdraw then s
    else s.modSync fun y => { y with
      msgs := y.msgs ++ [{ op := .withdraw, bell := bell, obj := obj, src := .thread th, ctx := c, gen := (s.ctx c).gen }] }
  | _, _ => s

/-- An order to pause reaches a thread (R62): it holds at its next boundary, a wait is abandoned. -/
def State.orderPause (s : State) (th : ThreadId) : State :=
  if (s.thr th).st == .halted || (s.thr th).st == .paused then s
  else ((s.modThr th fun t => { t with pauseReq := true }).settle th).abandonWait th

/-- An order to halt reaches a thread (R364): a paused thread is at a boundary. -/
def State.orderStop (s : State) (th : ThreadId) : State :=
  if (s.thr th).st == .halted then s
  else if (s.thr th).st == .paused then s.enterHalted th
  else ((s.modThr th fun t => { t with stopReq := true }).settle th).abandonWait th

/-- Work of the context that has begun may complete: no purge of it runs or waits, and it is not FAULTED or EMPTY. -/
def State.ctxServes (s : State) (c : CtxId) : Bool :=
  let x := s.ctx c
  (x.st == .running || x.st == .paused || x.st == .draining) && x.rst.purge.isNone && !x.rst.purgeWaits

def State.thServes (s : State) (th : ThreadId) : Bool := match s.thCtx th with | some c => s.ctxServes c | none => false

/-- The thread stands at an instruction boundary: nothing in flight, no instruction begun. -/
def Thread.atBoundary (t : Thread) : Bool :=
  !t.flying && t.pend.isNone && (match t.exc with | some e => e.atFetch | none => true) &&
    (t.st == .ready || t.st == .waitFetch || t.st == .waitUnit)

/-- The threads of core g in the order in which it looks for the next one to issue: after the one that issued last. -/
def State.turn (s : State) (g : Nat) : List ThreadId := [1, 2, 3, 4].map fun k => mkTh g (((s.core g).last.toNat + k) % 4)

/-- The thread that core g picks. `next` says of a thread whether its next instruction has its sources and its unit; the
order in which the queue's instructions come is the order of these picks (R39, log 16). -/
def State.picks (s : State) (g : Nat) (next : ThreadId → Bool) : Option ThreadId :=
  (s.turn g).find? fun th => s.canIssue th && next th

/-- An instruction of thread th issues, where the thread may issue and its registers are available (R39). -/
def issueWith (s : State) (th : ThreadId) (regs : List Reg) (act : State → State) : Host.Outcome State Fault Refusal :=
  if s.canIssue th && regs.all (fun r => !(s.thr th).xBusy r) then
    .next (act (s.modCore (thCore th) fun c => { c with last := BitVec.ofNat 2 (thT th) }))
  else .next s

/-- An instruction that writes one register and retires. -/
def State.write1 (s : State) (th : ThreadId) (rd : Reg) (v : Word) : State := (s.setX th rd v).retire th

end Sys2Proof.Machine
end

