-- ==== Sys2Proof/Machine/VectorOps.lean ====
section
/-!
DEFINITION. What vector and scalar floating-point instructions compute (05_long_vectors.md), on vector values. Nothing
here touches a thread.
-/

namespace Sys2Proof.Machine

/-- Element bytes of esz (Table 5.1). -/
def eszBytes (e : BitVec 2) : Nat := 2 ^ e.toNat

/-- Elements of a vector of w-byte elements. -/
def elemsN (w : Nat) : Nat := 256 / w

/-- Element i of w bytes. -/
def vget (v : BitVec 2048) (w i : Nat) : Nat := getF v (8 * w * i) (8 * w)

/-- Write f i to each active element; inactive ones are kept, or zeroed with z (R142). -/
def vmap (w : Nat) (act : BitVec 256) (z : Bool) (old : BitVec 2048) (f : Nat → Nat) : BitVec 2048 :=
  BitVec.ofNat 2048 (packF (8 * w) ((List.range (elemsN w)).map fun i =>
    if act.getLsbD i then f i else if z then 0 else vget old w i))

/-- Write a compare's bits; bits at or above N are 0 (R140, R146). -/
def pmap (w : Nat) (act : BitVec 256) (z : Bool) (old : BitVec 256) (f : Nat → Bool) : BitVec 256 :=
  BitVec.ofNat 256 (packF 1 ((List.range (elemsN w)).map fun i =>
    b2n (if act.getLsbD i then f i else if z then false else old.getLsbD i)))

/-- OR of the flags that active elements raise. -/
def vflags (w : Nat) (act : BitVec 256) (f : Nat → Flags) : Flags :=
  (List.range (elemsN w)).foldl (fun a i => if act.getLsbD i then a ||| f i else a) 0

/-! ### Integer operations (R146) -/

/-- Integer operations of opcode 0x30 that write elements. -/
inductive VIop where
  | add | sub | mul | mulh | mulhu | and | or | xor | shl | shr | sra
  | min | max | minu | maxu | adds | subs | addsu | subsu
deriving DecidableEq, Repr

/-- Saturate to an unsigned width, setting ISAT. -/
def satU (bits : Nat) (v : Int) : Nat × Flags :=
  if v < 0 then (0, flagIsat) else if v > 2 ^ bits - 1 then (2 ^ bits - 1, flagIsat) else (v.toNat, 0)

def satS (bits : Nat) (v : Int) : Nat × Flags :=
  let (q, f) := satInt bits v
  (intBits bits q, f)

/-- One element of an integer operation on b-bit values. -/
def viop (op : VIop) (b : Nat) (x y : Nat) : Nat × Flags :=
  let m := 2 ^ b
  let sx := intVal b x
  let sy := intVal b y
  let sh := y % b
  match op with
  | .add => ((x + y) % m, 0)
  | .sub => ((x + (m - y % m)) % m, 0)
  | .mul => (x * y % m, 0)
  | .mulh => (intBits b (sx * sy / (m : Int)), 0)
  | .mulhu => (x * y / m, 0)
  | .and => (x &&& y, 0)
  | .or => (x ||| y, 0)
  | .xor => (x ^^^ y, 0)
  | .shl => (x * 2 ^ sh % m, 0)
  | .shr => (x / 2 ^ sh, 0)
  | .sra => (intBits b (sx / (2 ^ sh : Nat)), 0)
  | .min => (if sx ≤ sy then x else y, 0)
  | .max => (if sx ≤ sy then y else x, 0)
  | .minu => (min x y, 0)
  | .maxu => (max x y, 0)
  | .adds => satS b (sx + sy)
  | .subs => satS b (sx - sy)
  | .addsu => satU b ((x : Int) + y)
  | .subsu => satU b ((x : Int) - y)

/-- Integer compares. -/
inductive VIcmp where
  | eq | lt | ltu | le | leu
deriving DecidableEq, Repr

def vicmp (op : VIcmp) (b : Nat) (x y : Nat) : Bool :=
  match op with
  | .eq => x == y
  | .lt => decide (intVal b x < intVal b y)
  | .ltu => decide (x < y)
  | .le => decide (intVal b x ≤ intVal b y)
  | .leu => decide (x ≤ y)

/-! ### Floating-point operations (R147, R90) -/

/-- Floating-point arithmetic of opcodes 0x31 and 0x32 and the scalar forms. -/
inductive VFop where
  | add | sub | mul | div | max | min | fma | fnma | sqrt | abs | neg
deriving DecidableEq, Repr

/-- One element: `d` is the destination's own value, read by FMA and FNMA; `x` and `y` the sources. -/
def vfop (op : VFop) (s : FSpec) (strict : Bool) (d x y : Nat) : Nat × Flags :=
  let a := fread s strict x
  let b := fread s strict y
  let (v, f) : FVal × Flags :=
    match op with
    | .add => fadd a b
    | .sub => fadd a (fneg b)
    | .mul => fmul a b
    | .div => fdiv a b
    | .max => (fmaxV strict a b, 0)
    | .min => (fminV strict a b, 0)
    | .fma => ffma a b (fread s strict d)
    | .fnma => ffma (fneg a) b (fread s strict d)
    | .sqrt => fsqrt a
    | .abs => (match a with | .fin _ m e => .fin false m e | .inf _ => .inf false | .nan => .nan, 0)
    | .neg => (fneg a, 0)
  let (r, g) := fround ⟨s, strict, false⟩ .rne v
  (r, f ||| g)

inductive VFcmp where
  | eq | lt | le | ne
deriving DecidableEq, Repr

def vfcmp (op : VFcmp) (s : FSpec) (strict : Bool) (x y : Nat) : Bool :=
  let a := fread s strict x
  let b := fread s strict y
  match op with
  | .eq => fcmpEq strict a b
  | .lt => fcmpLt strict a b
  | .le => fcmpLe strict a b
  | .ne => fcmpNe strict a b

/-- The formats that floating-point arithmetic accepts: 0x0, 0x1, 0x2, 0xE (Table 5.1). -/
def arithFmt (f : BitVec 4) : Option FSpec :=
  if f == 0x0 || f == 0x1 || f == 0x2 || f == 0xE then fspec f else none

/-! ### Reductions (R158 to R160) -/

/-- One level of the tree: neighbours combined. -/
def treeLevel {α : Type} (op : α → α → α) : List α → List α
  | x :: y :: l => op x y :: treeLevel op l
  | l => l

/-- The root after at most n levels. -/
def treeRed {α : Type} (op : α → α → α) : Nat → List α → List α
  | 0, l => l
  | n + 1, l => treeRed op n (treeLevel op l)

/-- Floating-point reductions. -/
inductive VRop where
  | sum | sumsq | max | min
deriving DecidableEq, Repr

/-- A node's value with the flags under it. -/
def fnode (op : VRop) (s : FSpec) (strict : Bool) (a b : Nat × Flags) : Nat × Flags :=
  let x := fread s strict a.1
  let y := fread s strict b.1
  let (v, f) : FVal × Flags :=
    match op with
    | .sum => fadd x y
    | .sumsq => fadd x y
    | .max => (fmaxV strict x y, 0)
    | .min => (fminV strict x y, 0)
  let (r, g) := fround ⟨s, strict, false⟩ .rne v
  (r, a.2 ||| b.2 ||| f ||| g)

/-- Identity of a floating-point reduction (Table 5.4). -/
def fident (op : VRop) (s : FSpec) : Nat :=
  match op with
  | .sum => 0
  | .sumsq => 0
  | .max => s.infBits true
  | .min => s.infBits false

/-- A floating-point reduction: result bits and flags. In fast mode a NaN leaf of MAX or MIN is ignored unless every
active leaf is NaN (R159): the identity stands in its place. -/
def fredRun (op : VRop) (s : FSpec) (strict : Bool) (act : BitVec 256) (v : BitVec 2048) : Nat × Flags :=
  let w := s.width / 8
  let n := elemsN w
  let isMm := op == .max || op == .min
  let actives := (List.range n).filter fun i => act.getLsbD i
  let isNan (i : Nat) : Bool := fread s strict (vget v w i) == .nan
  if actives.isEmpty then (fident op s, if isMm then flagEmpty else 0)
  else if isMm && !strict && actives.all isNan then (s.nanBits, 0)
  else
    let leaf (i : Nat) : Nat × Flags :=
      if !act.getLsbD i then (fident op s, 0)
      else if isMm && !strict && isNan i then (fident op s, 0)
      else if op == .sumsq then vfop .mul s strict 0 (vget v w i) (vget v w i)
      else (vget v w i, 0)
    ((treeRed (fnode op s strict) 8 ((List.range n).map leaf)).head?).getD (0, 0)

/-- Integer reductions: `u` selects the unsigned MAX and MIN. -/
inductive VIred where
  | sum | sumsq | max | min | and | or | xor
deriving DecidableEq, Repr

/-- An integer reduction: bits [63:0] of the destination, and the flags. -/
def iredRun (op : VIred) (u : Bool) (w : Nat) (act : BitVec 256) (v : BitVec 2048) : Nat × Flags :=
  let b := 8 * w
  let xs := ((List.range (elemsN w)).filter fun i => act.getLsbD i).map fun i => vget v w i
  match op with
  | .sum => satS 64 (xs.foldl (fun a x => a + intVal b x) 0)
  | .sumsq => satS 64 (xs.foldl (fun a x => a + intVal b x * intVal b x) 0)
  | .and => (xs.foldl (fun a x => a &&& x) (2 ^ b - 1), 0)
  | .or => (xs.foldl (fun a x => a ||| x) 0, 0)
  | .xor => (xs.foldl (fun a x => a ^^^ x) 0, 0)
  | .max =>
    if u then (xs.foldl max 0, if xs.isEmpty then flagEmpty else 0)
    else (intBits b (xs.foldl (fun a x => max a (intVal b x)) (-(2 ^ (b - 1)))), if xs.isEmpty then flagEmpty else 0)
  | .min =>
    if u then (xs.foldl min (2 ^ b - 1), if xs.isEmpty then flagEmpty else 0)
    else (intBits b (xs.foldl (fun a x => min a (intVal b x)) (2 ^ (b - 1) - 1)), if xs.isEmpty then flagEmpty else 0)

/-! ### VCVT (R161, R162) -/

/-- Codes that VCVT accepts. -/
def vcvtFmt (f : BitVec 4) : Bool :=
  f == 0x0 || f == 0x1 || f == 0x2 || f == 0x3 || f == 0x4 || f == 0xB || f == 0xD || f == 0xE

/-- VCVT on vector values: the destination and the flags. -/
def vcvtRun (strict : Bool) (dst src : BitVec 4) (act : BitVec 256) (rm : BitVec 2) (part : Nat)
    (key ctr : BitVec 128) (step : Word) (old v : BitVec 2048) : BitVec 2048 × Flags :=
  let ws := elemBits src / 8
  let wd := elemBits dst / 8
  let n := elemsN (max ws wd)
  (List.range n).foldl (fun (a : BitVec 2048 × Flags) i =>
    if act.getLsbD i then
      let si := if wd > ws then part * n + i else i
      let di := if wd < ws then part * n + i else i
      let (b, f) := convElem dst src strict (rndOf rm (srWord key ctr step di)) (vget v ws si)
      (putF a.1 (8 * wd * di) (8 * wd) b, a.2 ||| f)
    else a) (old, 0)

/-! ### The G view (R165, R166) -/

/-- 64-bit words of a G register that differ from memory's words. -/
def gdiff (g mem : List Nat) : Nat := ((g.zip mem).filter fun p => p.1 != p.2).length

end Sys2Proof.Machine
end

