-- ==== Sys2Proof/Machine/Access.lean ====
section
/-!
DEFINITION. Memory accesses of threads (07_memory_tiers.md, R190 to R222, with R41, R42, R105 to R110, R150 to R155,
R166): the checks of the parts, walks, the requests of a load, posted stores, and what an access does when its parts are
served.
-/

namespace Sys2Proof.Machine

/-! ### What an access does (its `AccEnd`) -/

/-- Alignment that a part needs: scalar and vector parts their width, tile rows 64 bytes, scale rows their size. -/
def partAlign (f : AccEnd) (p : Part) : Nat :=
  match f with
  | .gld _ => if p.idx == 0 then 64 else 8
  | .gchk _ _ => if p.idx == 0 then 64 else 8
  | .gst => if p.idx == 0 then 64 else 8
  | _ => p.len

/-- Vector and G accesses send one request per line (R150, R166); tiles one per row and scale row (R106). -/
def AccEnd.merges : AccEnd → Bool
  | .vld _ _ _ _ _ _ => true
  | .gld _ => true
  | .gchk _ _ => true
  | .vst => true
  | .gst => true
  | _ => false

def AccEnd.isVector : AccEnd → Bool := AccEnd.merges

def AccEnd.isTile : AccEnd → Bool
  | .tld _ _ _ => true
  | .tald _ _ => true
  | .tst _ => true
  | _ => false

/-- A vector register value with words of 64 bits. -/
def wordsOf (bs : List Byte) : List Nat :=
  match bs with
  | a :: b :: c :: d :: e :: f :: g :: h :: rest => leNat [a, b, c, d, e, f, g, h] :: wordsOf rest
  | _ => []

/-- What a load writes, from its parts' bytes in order. -/
def finWrites (t : Thread) (parts : List Part) (f : AccEnd) (bytes : List (List Byte)) : List Wr :=
  match f with
  | .ld rd len signed =>
    let v := leNat (bytes.head?.getD [])
    [.x rd (if signed then sextN (8 * len) v else BitVec.ofNat 64 v)]
  | .tld i fmt n =>
    let pb := parts.zip bytes
    let rows := (pb.filter fun x => x.1.len == 64).map fun x => leNat x.2
    let scales := (pb.filter fun x => x.1.len != 64).map fun x => leNat x.2
    [.t i.toNat (tileOfRows fmt (n + 1) rows scales)]
  | .tald a int =>
    [.a a.toNat { fmt := if int then 0xD else 0x0, data := BitVec.ofNat 8192 (packF 512 (bytes.map leNat)) }]
  | .vld vd esz act z ff cut =>
    let w := eszBytes esz
    let old := sget 0 t.vec.v vd.toNat
    let pb := parts.zip bytes
    let v := BitVec.ofNat 2048 (packF (8 * w) ((List.range (elemsN w)).map fun i =>
      if i ≥ cut then vget old w i
      else if act.getLsbD i then leNat (((pb.find? fun x => x.1.idx == i).map (·.2)).getD [])
      else if z then 0 else vget old w i))
    if ff && decide (cut < 256) then
      [.vpart vd.toNat v ((List.range 32).filter fun k => decide (8 * k + 8 ≤ w * cut)),
       .ffrPart (t.vec.ffr &&& lowMask 256 cut) ((List.range 4).filter fun k => decide (cut ≤ 64 * k)),
       .vfault (vecFault cut true)]
    else [.v vd.toNat v]
  | .gld k =>
    let ws := bytes.map leNat
    (List.range 8).map fun m => .v (8 * k + m) (BitVec.ofNat 2048 (packF 64 ((ws.drop (32 * m)).take 32)))
  | .gchk rd k =>
    let g := (List.range 8).flatMap fun m => unpackF (sget 0 t.vec.v (8 * k + m)) 64 32
    [.x rd (BitVec.ofNat 64 (gdiff g (bytes.map leNat)))]
  | .st => []
  | .tst _ => []
  | .vst => []
  | .gst => []

/-! ### Retirement of tile and vector instructions -/

/-- Writes of a retiring instruction, stores to its own Bench among them (R218). -/
def State.applyWrs (s : State) (th : ThreadId) (ws : List Wr) : State :=
  ws.foldl (fun s w =>
    match w with
    | .bench cells => s.pokeCells cells
    | w => s.modThr th fun t => t.applyWr w) s

/-- Counters of a retirement: VEC_CNT_OPS, TILE_CNT_TMMA. -/
def State.countRetired (s : State) (th : ThreadId) (vector tmma : Bool) : State :=
  s.modCore (thCore th) fun c => { c with
    cntOps := c.cntOps + b2n vector, cntTmma := c.cntTmma + b2n tmma }

/-- A tile or vector instruction issues and is in flight (R124, R144). -/
def State.fly (s : State) (th : ThreadId) (u : FlyUnit) (ws : List Wr) : State :=
  let f : Fly := ⟨u, ws⟩
  (s.modThr th fun t => match u with
    | .vector => { t with vfly := some f }
    | .divider => { t with vfly := some f }
    | _ => { t with tfly := some f }).advance th

/-- The thread's instruction in flight writes its own Bench: a later access to it waits (R151, R217). -/
def Thread.benchBusy (t : Thread) : Bool :=
  let hits (f : Option Fly) : Bool := match f with
    | some f => f.wr.any fun w => match w with | .bench _ => true | _ => false
    | none => false
  hits t.tfly || hits t.vfly

/-! ### Faults of an access -/

/-- Access kinds of DETAIL byte [58] (R199). -/
def AKind.num : AKind → Nat
  | .load => 0
  | .store => 1
  | .fetch => 2

/-- DETAIL bytes that R199 and R154 add: access kind, walk level, and the element of a vector access. -/
def accDetail (kind level : Nat) (f : AccEnd) (idx : Nat) : BitVec 192 :=
  det 58 1 kind ||| det 59 1 level ||| (if f.isVector then det 56 1 idx ||| det 57 1 1 else 0)

/-- The exception of an access at one of its parts. -/
def accExc (a : Access) (p : Part) (reason : Reason) (kind level rows : Nat) (rec : Bool) : Exc :=
  { cause := .memory, reason := reason, tval := p.va, logs := rec, extra := accDetail kind level a.fin p.idx,
    effects := [.access a.fin p.idx rows] }

/-- MEMORY at the thread's instruction, for a part of an access that failed. `rows` is what TILE_ABORT shows. -/
def State.accFault (s : State) (th : ThreadId) (a : Access) (p : Part) (reason : Reason) (level rows : Nat)
    (rec : Bool) : State :=
  s.raiseExc th (accExc a p reason a.kind.num level rows rec)

/-- MEM_ECC at the thread's instruction, found in its own Bench: the memory unit's record, then the exception (R216). -/
def State.eccFault (s : State) (th : ThreadId) (a : Access) (p : Part) (loc rows : Nat) : State :=
  let e := accExc a p memEcc a.kind.num 0 rows false
  s.raiseExc th { e with effects := .benchEcc loc p.va :: e.effects }

/-- The requests of the thread's access that are in flight will be answered to nobody: they hold their slots until then
(R107). -/
def State.dropOpen (s : State) (th : ThreadId) : State :=
  s.modThr th fun t => match t.pend with
    | some (.access _ w rs) => { t with
        dropped := t.dropped + (if w.isSome then 1 else 0) + (openReqs rs).length, pend := none }
    | _ => t

/-! ### Uncorrectable errors in tile state (R118) -/

/-- The source tile of a tile store holds an uncorrectable error. -/
def AccEnd.badTile (f : AccEnd) (t : Thread) : Bool :=
  match f with
  | .tst n => t.tileBad n
  | _ => false

/-! ### Serving -/

/-- Requests of a load or store beyond the own Bench: by line, or one per part. -/
def reqsOf (merge : Bool) (locs : List Nat) : List Req :=
  let n := locs.length
  if merge then
    let lines := (locs.map (· / 64)).eraseDups
    lines.map fun l => { line := l, parts := (List.range n).filter fun i => (locs[i]?).getD 0 / 64 == l }
  else (List.range n).map fun i => { line := (locs[i]?).getD 0 / 64, parts := [i] }

/-- Send the unsent requests of a load while slots are free. -/
def State.sendLoads (s : State) (th : ThreadId) : Nat → State
  | 0 => s
  | fuel + 1 =>
    match (s.thr th).pend with
    | some (.access a w rs) =>
      match rs.findIdx? (fun r => !r.sent) with
      | none => s.leaveSlots th
      | some i =>
        if s.slotFree th then
          (s.modThr th fun t => { t with
            pend := some (.access a w (rs.modify i fun r => { r with sent := true })) }).sendLoads th fuel
        else s.askSlot th
    | _ => s

/-- Rows of a tile load whose requests have issued (R107). -/
def rowsIssued (a : Access) (rs : List Req) : Nat :=
  (rs.filter fun r => (a.parts[r.parts.headD 0]?).any fun p => p.len == 64).length

/-- A tile load beyond the own Bench issues its row and scale requests in order, each checked as it issues (R106): while
slots are free, until a page must be walked, or until a check fails and the load aborts (R107). `failed`: a page whose walk
has just failed. -/
def State.issueRows (s : State) (th : ThreadId) (c : CtxId) (failed : Option (Nat × Reason × Nat)) : Nat → State
  | 0 => s
  | fuel + 1 =>
    match (s.thr th).pend with
    | some (.access a none rs) =>
      match a.parts[rs.length]? with
      | none => s.leaveSlots th
      | some p =>
        match s.checkPart th c a.kind (partAlign a.fin p) failed p with
        | .ok loc _ =>
          if s.slotFree th then
            (s.modThr th fun t => { t with
              pend := some (.access a none (rs ++ [{ line := loc / 64, parts := [rs.length], sent := true }])) }).issueRows
              th c failed fuel
          else s.askSlot th
        | .walk page =>
          if s.slotFree th then s.modThr th fun t => { t with pend := some (.access a (some page) rs) } else s.askSlot th
        | .bad reason level =>
          ((s.permDrop th c p.va reason).dropOpen th).accFault th a p reason level p.idx true
    | _ => s

/-- Cells that a request of a store writes. -/
def reqCells (a : Access) (r : Req) : List (Nat × Byte) :=
  r.parts.flatMap fun i =>
    match a.parts[i]? with
    | some p => (List.range p.data.length).zip p.data |>.map fun x => (r.line * 64 + p.va.toNat % 64 + x.1, x.2)
    | none => []

/-- Counters and retirement of a vector or tile store whose last request has been sent, and of a scalar one. -/
def State.storeSent (s : State) (th : ThreadId) (f : AccEnd) : State :=
  (s.countRetired th f.isVector false).retire th

/-- A store is posted. -/
def State.post (s : State) (th : ThreadId) (va : Word) (what : PostWhat) : State :=
  let gen := match s.thCtx th with | some c => (s.ctx c).gen | none => 0
  s.modThr th fun t => { t with
    posted := t.posted ++ [{ id := t.nextId, va := va, pc := t.pc, gen := gen, what := what }], nextId := t.nextId + 1 }

/-- Post the requests of a store while slots are free; it retires when the last has been sent (R108, R150). -/
def State.sendStores (s : State) (th : ThreadId) : Nat → State
  | 0 => s
  | fuel + 1 =>
    match (s.thr th).pend with
    | some (.access a w rs) =>
      match rs with
      | [] => (s.modThr th fun t => { t with pend := none }).storeSent th a.fin
      | r :: rest =>
        if s.slotFree th then
          let va := match r.parts with | i :: _ => (match a.parts[i]? with | some p => p.va | none => 0) | [] => 0
          ((s.post th va (.cells (reqCells a r))).modThr th fun t => { t with
            pend := some (.access a w rest) }).sendStores th fuel
        else s.askSlot th
    | _ => s

/-- A load of parts that all lie in the own Bench: a scalar one writes and retires, others are in flight. -/
def State.loadOwn (s : State) (th : ThreadId) (a : Access) (locs : List Nat) : State :=
  let bytes := (a.parts.zip locs).map fun x => s.peek x.2 x.1.len
  let ws := finWrites (s.thr th) a.parts a.fin bytes
  match a.fin with
  | .ld _ _ _ => (s.applyWrs th ws).retire th
  | f => s.fly th (if f.isTile then .tile else .vector) ws

/-- Cells of a part of a store at a location. -/
def partCells (p : Part) (loc : Nat) : List (Nat × Byte) :=
  ((List.range p.data.length).zip p.data).map fun y => (loc + y.1, y.2)

/-- Cells of a store whose parts lie at `locs`. -/
def storeCells (ps : List Part) (locs : List Nat) : List (Nat × Byte) := (ps.zip locs).flatMap fun x => partCells x.1 x.2

/-- A store of parts that all lie in the own Bench. -/
def State.storeOwn (s : State) (th : ThreadId) (a : Access) (locs : List Nat) : State :=
  let cells := storeCells a.parts locs
  match a.fin with
  | .st => (s.pokeCells cells).retire th
  | f => s.fly th (if f.isTile then .tile else .vector) [.bench cells]

/-- The first-fault cut at a part that is not the lowest (R155): the access without it and what follows, or none. -/
def Access.cutAt (a : Access) (i : Nat) : Option Access :=
  match a.fin, a.parts[i]? with
  | .vld vd esz act z true _, some p =>
    if i == 0 then none
    else some { a with parts := a.parts.take i, fin := .vld vd esz act z true p.idx }
  | _, _ => none

/-- Rows whose requests issue before part i of a tile access (R107). -/
def rowsBefore (a : Access) (i : Nat) : Nat := match a.parts[i]? with | some p => p.idx | none => 0

/-- Rows of a tile access: what TILE_ABORT shows where its own Bench holds an uncorrectable error, since the rows of such a
load issue without waiting (DESIGN CHOICE, log 29). -/
def rowsOf (a : Access) : Nat := (a.parts.filter fun q => q.len == 64).length

/-- The lowest part of a store that writes a poisoned unit in part, and its location (R216). -/
def State.badStorePart (s : State) (a : Access) (locs : List Nat) : Option (Part × Nat) :=
  let cells := storeCells a.parts locs
  let bad := s.poison.filter fun u =>
    (cells.any fun c => unitOf c.1 == u) && !((List.range (unitBytes u)).all fun i => cells.any fun c => c.1 == u + i)
  (a.parts.zip locs).find? fun x => (partCells x.1 x.2).any fun c => bad.contains (unitOf c.1)

/-- An earlier instruction of the thread has still to write a line of its own Bench that an access uses: one in flight, or a
store that is posted (R151, R217). -/
def Thread.behind (t : Thread) (ls : List Nat) : Bool := t.benchBusy || ls.any fun l => t.storesTo (l / 64)

/-- An access served by the own Bench (R200, R216). -/
def State.serveOwn (s : State) (th : ThreadId) (c : CtxId) (a : Access) (ls : List Nat) : State :=
  if (s.thr th).behind ls then s.stall th .retire
  else if (s.core (thCore th)).promised then s.stall th .bench
  else
    match a.kind with
    | .store =>
      match s.badStorePart a ls with
      | some (p, l) => s.eccFault th a p l 0
      | none => s.storeOwn th a ls
    | _ =>
      match (a.parts.zip ls).findIdx? fun x => s.poisonIn x.2 x.1.len with
      | some i =>
        match a.parts[i]?, ls[i]? with
        | some p, some l =>
          match a.cutAt i with
          | some a' =>
            (s.eccRecord l p.va.toNat (uCore (thCore th)) (some c) (some th)).loadOwn th a' (ls.take i)
          | none => s.eccFault th a p l (rowsOf a)
        | _, _ => s
      | none => s.loadOwn th a ls

/-- Translations that an access has used. -/
def State.touchParts (s : State) (th : ThreadId) (c : CtxId) (ps : List Part) : State :=
  ps.foldl (fun s p => match s.window c p.va with
    | some (.granary o) => s.tlbTouch (thCore th) (o / 0x10000)
    | _ => s) s

/-- An address lies in the Bench of the thread's core, by either window. -/
def ownVa (th : ThreadId) (va : Word) : Bool :=
  decide (va.toNat < 0x100000) ||
    (decide (0x100000000 ≤ va.toNat) && decide (va.toNat < 0x180000000) && (va.toNat - 0x100000000) / 0x100000 == thCore th)

/-- The places of a first-fault load cut at a check: all beyond the own Bench where some part of the whole load lies there, for
such a load lies beyond it as a whole (R150). -/
def cutPlaces (th : ThreadId) (whole : Access) (locs : List (Nat × Bool)) : List (Nat × Bool) :=
  let own := whole.parts.all fun p => ownVa th p.va
  locs.map fun l => (l.1, l.2 && own)

/-- Serve an access whose parts have passed their checks at `locs`. A tile store reads its source now (R116); beyond the Bench
it has issued, and waits for its slots in WAIT_UNIT (R125). -/
def State.serve (s : State) (th : ThreadId) (c : CtxId) (a : Access) (locs : List (Nat × Bool)) : State :=
  let ls := locs.map (·.1)
  if a.fin.badTile (s.thr th) then
    match a.fin with
    | .tst n => s.tileEccSource th n (if n < 8 then (s.thr th).tileFmt n else 0xF)
    | _ => s
  else if locs.all (·.2) then s.serveOwn th c a ls
  else if (s.thr th).benchBusy && a.parts.any (fun p => ownVa th p.va) then s.stall th .retire
  else
    let s := s.touchParts th c a.parts
    let n := a.parts.length
    match a.kind with
    | .store =>
      if !s.slotFree th && !a.fin.isTile then s.stall th .slot
      else
        (s.modThr th fun t => { t with pend := some (.access a none (reqsOf a.fin.merges ls)), st := .waitUnit,
                                       why := .slot }).sendStores th (n + 1)
    | _ =>
      if !s.slotFree th then s.stall th .slot
      else if a.fin.isTile then
        (s.modThr th fun t => { t with pend := some (.access a none []), st := .waitMem }).issueRows th c none (n + 1)
      else
        (s.modThr th fun t => { t with pend := some (.access a none (reqsOf a.fin.merges ls)), st := .waitMem }).sendLoads
          th (n + 1)

/-- Start an access, or start it again after a walk: every part is checked in order, then it is served; a tile load beyond the
own Bench issues its first rows before the check of a later one fails (R106). A page that no cache holds is walked first,
the thread in WAIT_MEM (R210). An access with no part does nothing and completes. -/
def State.access (s : State) (th : ThreadId) (a : Access) (failed : Option (Nat × Reason × Nat) := none) : State :=
  match s.thCtx th with
  | none => s
  | some c =>
    let (locs, r) := s.checkParts th c a.kind (partAlign a.fin) failed a.parts
    match r with
    | none => s.serve th c a locs
    | some (.ok _ _) => s
    | some _ =>
      if a.kind == .load && a.fin.isTile && locs.any (fun l => !l.2) then
        if (s.thr th).benchBusy && locs.any (·.2) then s.stall th .retire
        else if !s.slotFree th then s.stall th .slot
        else
          (s.modThr th fun t => { t with pend := some (.access a none []), st := .waitMem }).issueRows th c failed
            (a.parts.length + 1)
      else
        match r with
        | some (.walk page) =>
          if s.slotFree th then
            (s.leaveSlots th).modThr th fun t => { t with pend := some (.access a (some page) []), st := .waitMem }
          else s.stall th .slot
        | some (.bad reason level) =>
          let i := locs.length
          match a.parts[i]? with
          | none => s
          | some p =>
            let s := s.permDrop th c p.va reason
            match a.cutAt i with
            | some a' => s.serve th c a' (cutPlaces th a locs)
            | none => s.accFault th a p reason level (rowsBefore a i) true
        | _ => s

/-- A thread that waits for a slot: it sends what it can, starts its line fill, or may try its instruction again. -/
def State.serveSlot (s : State) (th : ThreadId) : State :=
  let t := s.thr th
  match t.pend with
  | some (.access a none rs) =>
    if a.kind == .store then s.sendStores th (rs.length + 1)
    else if a.fin.isTile then
      match s.thCtx th with
      | some c => s.issueRows th c none (a.parts.length + 1)
      | none => s
    else s.sendLoads th (rs.length + 1)
  | some _ => s
  | none =>
    if t.st == .waitUnit && t.why == .slot && t.exc.isNone && s.slotFree th then s.fetchHere th else s

/-- A slot of the core frees: the threads that wait for one are served in the order they asked (R42). -/
def State.pump (s : State) (g : Nat) : State := (s.core g).slotQ.foldl (fun s th => s.serveSlot th) s

end Sys2Proof.Machine
end

