-- ==== Sys2Proof/Machine/Csr.lean ====
section
/-!
DEFINITION. Control and status registers of threads and cores (Tables 2.7 to 2.10, 3.9 to 3.11, 4.11 to 4.15, 5.12 to
5.14): which numbers are allocated (R53), what a read returns, what a write does (Table 0.2).
-/

namespace Sys2Proof.Machine

/-- Allocated per-thread numbers. -/
def csrPerThread (n : Nat) : Bool := n ≤ 0x0C || (0x40 ≤ n && n ≤ 0x4B) || (0x60 ≤ n && n ≤ 0x63)

/-- Allocated core-wide numbers. -/
def csrCoreWide (n : Nat) : Bool := n == 0x80 || n == 0x81 || (0xC0 ≤ n && n ≤ 0xC3) || (0xE0 ≤ n && n ≤ 0xE6)

def csrAllocated (n : Nat) : Bool := csrPerThread n || csrCoreWide n

/-- CORE_TSTATE numbers (Table 2.7). -/
def TState.num : TState → Nat
  | .halted => 0
  | .ready => 1
  | .waitFetch => 2
  | .waitMem => 3
  | .waitSync => 4
  | .waitUnit => 5
  | .paused => 6

/-- CORE_TID (Table 2.8). -/
def State.tidWord (s : State) (th : ThreadId) : Word :=
  let (c, g) := match s.thCtx th with | some c => (c.toNat, (s.ctx c).gen.toNat) | none => (0, 0)
  BitVec.ofNat 64 (th.toNat + c * 2 ^ 16 + g * 2 ^ 20)

/-- CORE_QUAD (Table 2.7). -/
def State.quadWord (s : State) (g : Nat) : Word :=
  match s.coreCtx g with
  | some c => BitVec.ofNat 64 (g / 4 + c.toNat * 2 ^ 16 + 2 ^ 20)
  | none => BitVec.ofNat 64 (g / 4)

/-- TILE_TTAG (Table 4.12). -/
def TileRegs.ttag (t : TileRegs) : Word :=
  BitVec.ofNat 64 (packF 8 ((List.range 8).map fun j =>
    let r := sget {} t.t j
    r.fmt.toNat + (r.rows - 1) * 16))

/-- TILE_ATAG (Table 4.13). -/
def TileRegs.atag (t : TileRegs) : Word :=
  BitVec.ofNat 64 (packF 8 ((List.range 4).map fun j =>
    let a := sget {} t.a j
    a.fmt.toNat + b2n a.poison * 16))

/-- TILE_MASK (Table 4.14). -/
def TileRegs.maskWord (t : TileRegs) : Word :=
  BitVec.ofNat 64 (t.trm.toNat + t.tbm.toNat * 2 ^ 16 + t.tkm.toNat * 2 ^ 32)

/-- The core's cycle count, which is its STAMP counter (R19, Table 2.7). -/
def State.coreCycle (s : State) (g : Nat) : Nat := s.count (clkOf g) - sget 0 s.stampBase (uCore g).toNat

/-- VEC_PWR (Table 5.14). -/
def Core.pwrWord (c : Core) : Word :=
  BitVec.ofNat 64 (c.thresh.toNat + 0x3C * 2 ^ 16 + b2n (c.vpow == .on) * 2 ^ 24)

/-- A read of a per-thread or core-wide register. -/
def State.csrRead (s : State) (th : ThreadId) (n : Nat) : Word :=
  let t := s.thr th
  let g := thCore th
  let c := s.core g
  match n with
  | 0x00 => s.tidWord th
  | 0x01 => t.csr.status.setWidth 64
  | 0x02 => t.csr.tvec
  | 0x03 => t.csr.epc
  | 0x04 => t.csr.cause
  | 0x05 => t.csr.tval
  | 0x06 => t.csr.ien.setWidth 64
  | 0x07 => t.csr.ipend.setWidth 64
  | 0x08 => t.csr.timer
  | 0x09 => t.csr.instret
  | 0x0A => t.csr.scratch
  | 0x0B => 0
  | 0x0C => BitVec.ofNat 64 (t.st.num + s.slotsHeld th * 256)
  | 0x40 => BitVec.ofNat 64 (b2n t.vec.strict + 0x100)
  | 0x41 => t.vec.flags.setWidth 64
  | 0x42 => t.vec.key.setWidth 64
  | 0x43 => (t.vec.key >>> 64).setWidth 64
  | 0x44 => t.vec.ctr.setWidth 64
  | 0x45 => (t.vec.ctr >>> 64).setWidth 64
  | 0x46 => t.tile.key.setWidth 64
  | 0x47 => (t.tile.key >>> 64).setWidth 64
  | 0x48 => t.tile.ctr.setWidth 64
  | 0x49 => (t.tile.ctr >>> 64).setWidth 64
  | 0x4A => t.vec.step
  | 0x4B => t.vec.fault
  | 0x60 => t.tile.ttag
  | 0x61 => t.tile.atag
  | 0x62 => t.tile.maskWord
  | 0x63 => t.tile.abort
  | 0x80 => BitVec.ofNat 64 (s.coreCycle g)
  | 0x81 => s.quadWord g
  | 0xC0 => c.pwrWord
  | 0xC1 => BitVec.ofNat 64 c.cntOps
  | 0xC2 => BitVec.ofNat 64 c.cntWake
  | 0xC3 => BitVec.ofNat 64 (c.vEccC + c.vEccU * 2 ^ 32)
  | 0xE0 => c.window.setWidth 64
  | 0xE1 => BitVec.ofNat 64 (c.hold.toNat + 0x2000)
  | 0xE2 => c.idle.setWidth 64
  | 0xE3 => BitVec.ofNat 64 c.cntTmma
  | 0xE4 => BitVec.ofNat 64 c.cntMerge
  | 0xE5 => BitVec.ofNat 64 c.cntIdle
  | 0xE6 => BitVec.ofNat 64 (c.tEccC + c.tEccU * 2 ^ 32)
  | _ => 0

/-- A core whose core-wide registers change by a write. -/
def Core.csrWrite (c : Core) (n : Nat) (v : Word) : Core :=
  match n with
  | 0xC0 => { c with thresh := v.setWidth 16 }
  | 0xE0 => { c with window := v.setWidth 8 }
  | 0xE1 => { c with hold := v.setWidth 8 }
  | _ => c

/-- A write of an allocated register. -/
def State.csrWrite (s : State) (th : ThreadId) (n : Nat) (v : Word) : State :=
  if csrPerThread n then s.modThr th fun t => t.csrWrite n v
  else s.modCore (thCore th) fun c => c.csrWrite n v

/-- Registers that an instruction in flight reads or writes: an access by their thread waits for its retirement
(R98, R138; DEDUCED for reads, log 24). -/
def csrInFlight (n : Nat) : Bool := 0x41 ≤ n && n ≤ 0x4B || 0x60 ≤ n && n ≤ 0x63

/-- A write of a register by the Reeve, which does not wait its turn in the thread: a stream register or VEC_STEP of an SR
instruction in flight takes it at the retirement (R98). -/
def State.csrLand (s : State) (th : ThreadId) (n : Nat) (v : Word) : State :=
  if csrPerThread n && (s.thr th).srBusy n then s.modThr th fun t => { t with csrWait := t.csrWait ++ [(n, v)] }
  else s.csrWrite th n v

end Sys2Proof.Machine
end

