-- ==== Sys2Proof/Machine/Encode.lean ====
section
/-!
DEFINITION. Instruction words, for CORE_TVAL of ILLEGAL, PRIV and VEC_STR_ONLY (Table 2.11, R165): the formats of
Tables 2.4, 4.10, 5.8, 5.11, 7.12 and 9.8.
-/

namespace Sys2Proof.Machine

/-- R format. -/
def encR (op fn : Nat) (rd rs1 rs2 : Reg) : BitVec 32 :=
  BitVec.ofNat 32 (op * 2 ^ 26 + rd.toNat * 2 ^ 21 + rs1.toNat * 2 ^ 16 + rs2.toNat * 2 ^ 11 + fn)

/-- I and S formats: two registers over a 16-bit immediate. -/
def encI (op : Nat) (a b : Reg) (imm : BitVec 16) : BitVec 32 :=
  BitVec.ofNat 32 (op * 2 ^ 26 + a.toNat * 2 ^ 21 + b.toNat * 2 ^ 16 + imm.toNat)

/-- J format. -/
def encJ (op : Nat) (rd : Reg) (off : BitVec 21) : BitVec 32 :=
  BitVec.ofNat 32 (op * 2 ^ 26 + rd.toNat * 2 ^ 21 + off.toNat)

/-- Opcode 0x30. -/
def encVInt (fn : Nat) (f : VInt) : BitVec 32 :=
  BitVec.ofNat 32 (0x30 * 2 ^ 26 + f.vd.toNat * 2 ^ 21 + f.vs1.toNat * 2 ^ 16 + f.vs2.toNat * 2 ^ 11 +
    f.pg.toNat * 2 ^ 8 + f.z.toNat * 2 ^ 7 + f.esz.toNat * 2 ^ 5 + fn)

/-- Opcodes 0x31 and 0x32. -/
def encVFlt (op fn : Nat) (f : VFlt) : BitVec 32 :=
  BitVec.ofNat 32 (op * 2 ^ 26 + f.vd.toNat * 2 ^ 21 + f.vs1.toNat * 2 ^ 16 + f.vs2.toNat * 2 ^ 11 +
    f.pg.toNat * 2 ^ 8 + f.z.toNat * 2 ^ 7 + f.fmt.toNat * 2 ^ 3 + fn)

/-- Opcode 0x33. -/
def encVRed (fn : Nat) (f : VRed) : BitVec 32 :=
  BitVec.ofNat 32 (0x33 * 2 ^ 26 + f.vd.toNat * 2 ^ 21 + f.vs.toNat * 2 ^ 16 + f.mbz.toNat * 2 ^ 11 +
    f.pg.toNat * 2 ^ 8 + f.int.toNat * 2 ^ 7 + f.sub.toNat * 2 ^ 3 + fn)

/-- Opcode 0x34. -/
def encVCvt (f : VCvt) : BitVec 32 :=
  BitVec.ofNat 32 (0x34 * 2 ^ 26 + f.vd.toNat * 2 ^ 21 + f.vs.toNat * 2 ^ 16 + f.dfmt.toNat * 2 ^ 12 +
    f.sfmt.toNat * 2 ^ 8 + f.pg.toNat * 2 ^ 5 + f.rm.toNat * 2 ^ 3 + f.part.toNat)

/-- Opcodes 0x35 and 0x36. -/
def encVMem (op mode : Nat) (f : VMem) : BitVec 32 :=
  BitVec.ofNat 32 (op * 2 ^ 26 + f.v.toNat * 2 ^ 21 + f.rb.toNat * 2 ^ 16 + f.rx.toNat * 2 ^ 11 +
    f.pg.toNat * 2 ^ 8 + f.esz.toNat * 2 ^ 6 + mode * 2 ^ 3 + f.sc.toNat * 2 + f.z.toNat)

/-- Opcode 0x37: the fn value's fixed part, with what its low bits carry. -/
def encVMisc (fn : Nat) (f : VMisc) : BitVec 32 := encR 0x37 fn f.rd f.rs1 f.rs2

/-- Opcodes 0x38, 0x39, 0x3A. -/
def encTMem (op : Nat) (f : TMem) : BitVec 32 :=
  BitVec.ofNat 32 (op * 2 ^ 26 + f.t.toNat * 2 ^ 23 + f.rb.toNat * 2 ^ 18 + f.rs.toNat * 2 ^ 13 + f.rsc.toNat * 2 ^ 8 +
    f.fmt.toNat * 2 ^ 4 + f.n.toNat)

/-- TALD and TAST: sub-opcodes 0 and 1 of 0x3B. -/
def encTAcc (sub : Nat) (f : TAcc) : BitVec 32 :=
  BitVec.ofNat 32 (0x3B * 2 ^ 26 + sub * 2 ^ 24 + f.a.toNat * 2 ^ 22 + f.rb.toNat * 2 ^ 17 + f.rs.toNat * 2 ^ 12 +
    f.int.toNat * 2 ^ 11 + f.mbz.toNat)

/-- TAZERO. -/
def encTazero (a : BitVec 2) (mbz10 : BitVec 10) (int : Bool) (mbz11 : BitVec 11) : BitVec 32 :=
  BitVec.ofNat 32 (0x3B * 2 ^ 26 + 2 * 2 ^ 24 + a.toNat * 2 ^ 22 + mbz10.toNat * 2 ^ 12 + int.toNat * 2 ^ 11 +
    mbz11.toNat)

/-- TACVT. -/
def encTCvt (f : TCvt) : BitVec 32 :=
  BitVec.ofNat 32 (0x3B * 2 ^ 26 + 3 * 2 ^ 24 + f.as.toNat * 2 ^ 22 + f.td.toNat * 2 ^ 19 + f.fmt.toNat * 2 ^ 15 +
    f.rm.toNat * 2 ^ 13 + f.cg.toNat * 2 ^ 10 + f.mbz.toNat)

/-- TMMA and TMMAZ, opcodes 0x3C and 0x3D. -/
def encTMul (op : Nat) (f : TMul) : BitVec 32 :=
  BitVec.ofNat 32 (op * 2 ^ 26 + f.a.toNat * 2 ^ 24 + f.t.toNat * 2 ^ 21 + f.u.toNat * 2 ^ 18 + f.tfmt.toNat * 2 ^ 14 +
    f.ufmt.toNat * 2 ^ 10 + f.mbz.toNat)

end Sys2Proof.Machine
end

