-- ==== Sys2Proof/Machine/Operands.lean ====
section
/-!
DEFINITION. Operand forms of instructions: immediates and targets (Table 2.4, R49), rows of tile accesses (R105, R109,
R110), elements of vector accesses (R149, R166), registers that a vector instruction reads (R143, R167).
-/

namespace Sys2Proof.Machine

/-! ### Immediates and targets -/

def immS (i : BitVec 16) : Word := i.signExtend 64
def immZ (i : BitVec 16) : Word := i.setWidth 64
def off21 (i : BitVec 21) : Word := i.signExtend 64

/-- Branch target: PC + sext(offset) × 4. -/
def branchTo (pc : Word) (off : BitVec 16) : Word := pc + immS off * 4

def jumpTo (pc : Word) (off : BitVec 21) : Word := pc + off21 off * 4

/-- Shift counts use bits [5:0]. -/
def shCount (v : Word) : Nat := v.toNat % 64

/-! ### Rows of tile accesses -/

/-- Part of row r of a tile access. -/
def rowPart (base stride : Word) (r : Nat) : Part := { va := base + BitVec.ofNat 64 r * stride, len := 64, idx := r }

/-- Row stride: the signed value in bits [31:0] of X[rs] (R105). -/
def rowStride (x : Word) : Word := sextN 32 (getF x 0 32)

/-- Scale stride: the unsigned value in bits [47:32] of X[rs]. -/
def scaleStride (x : Word) : Word := BitVec.ofNat 64 (getF x 32 16)

/-- Parts of TLD and TST: each row, with its scale row just after it for an MX format (R105, R106). -/
def tileParts (fmt : BitVec 4) (n : Nat) (base stride sbase sstride : Word) : List Part :=
  (List.range n).flatMap fun r =>
    let row := rowPart base stride r
    if isMx fmt then [row, { va := sbase + BitVec.ofNat 64 r * sstride, len := tileScaleBytes fmt, idx := r }] else [row]

/-- Parts with their bytes to store. -/
def tileData (t : TileReg) (ps : List Part) : List Part :=
  ps.map fun p => { p with data := if p.len == 64 then leBytes (t.row p.idx) 64 else leBytes (t.sideRow p.idx) p.len }

/-- Rows of TALD and TAST. -/
def accParts (base stride : Word) : List Part := (List.range 16).map fun r => rowPart base stride r

def accData (a : AccReg) (ps : List Part) : List Part :=
  ps.map fun p => { p with data := leBytes (getF a.data (512 * p.idx) 512) 64 }

/-! ### Elements of vector accesses -/

/-- Predicate of a vector instruction. -/
def Thread.pred (t : Thread) (p : Nat) : BitVec 256 := sget 0 t.vec.p p

def Thread.vr (t : Thread) (r : Reg) : BitVec 2048 := sget 0 t.vec.v r.toNat

/-- Low 64 bits of a vector register: an F register (R141). -/
def Thread.fr (t : Thread) (r : Reg) : Nat := getF (t.vr r) 0 64

/-- Address forms of R149. -/
inductive VAddr where
  | unit
  | stride
  | gather
deriving DecidableEq, Repr

/-- Address of element i. -/
def vecAddr (t : Thread) (m : VAddr) (f : VMem) (i : Nat) : Word :=
  let w := eszBytes f.esz
  match m with
  | .unit => t.xr f.rb + BitVec.ofNat 64 (i * w)
  | .stride => t.xr f.rb + BitVec.ofNat 64 i * t.xr f.rx
  | .gather => t.xr f.rb + (sextN (8 * w) (vget (t.vr f.rx) w i) <<< f.sc.toNat)

/-- Active elements' parts, ascending; `data` of a store comes from the data register. -/
def vecParts (t : Thread) (m : VAddr) (f : VMem) (store : Bool) : List Part :=
  let w := eszBytes f.esz
  let act := t.pred f.pg.toNat
  ((List.range (elemsN w)).filter fun i => act.getLsbD i).map fun i =>
    { va := vecAddr t m f i, len := w, idx := i, data := if store then leBytes (vget (t.vr f.v) w i) w else [] }

/-- Encoding checks of a vector access: the fields that must be 0, and esz of a gather or scatter (R149, Table 5.8). -/
def vecMemLegal (m : VAddr) (f : VMem) (store : Bool) : Bool :=
  (match m with
    | .unit => f.rx == 0 && f.sc == 0
    | .stride => f.sc == 0
    | .gather => f.esz == 2 || f.esz == 3) && (!store || !f.z)

/-- Word n of Gk. -/
def Thread.gword (t : Thread) (k n : Nat) : Nat := getF (sget (0 : BitVec 2048) t.vec.v (8 * k + n / 32)) (64 * (n % 32)) 64

/-- The 256 words of a G access (R166). -/
def gParts (t : Thread) (k : Nat) (base : Word) (store : Bool) : List Part :=
  (List.range 256).map fun n =>
    { va := base + BitVec.ofNat 64 (8 * n), len := 8, idx := n, data := if store then leBytes (t.gword k n) 8 else [] }

/-! ### Registers read by vector instructions (R143, R167, R168) -/

/-- A register that an instruction reads: all of it, or the word in bits [63:0]. -/
inductive VUse where
  | v (n : Nat)
  | f (n : Nat)
  | p (n : Nat)
  | ffr
deriving DecidableEq, Repr

/-- Number of a register in CORE_TVAL of VEC_ECC (R167). -/
def VUse.num : VUse → Nat
  | .v n => n
  | .f n => n
  | .p n => 32 + n
  | .ffr => 48

/-- The register holds an uncorrectable error in a word that is read. -/
def Thread.badUse (t : Thread) : VUse → Bool
  | .v n => t.vec.badV.any fun b => b.1 == n
  | .f n => t.vec.badV.contains (n, 0)
  | .p n => t.vec.badP.any fun b => b.1 == n
  | .ffr => !t.vec.badF.isEmpty

/-- The lowest-numbered failing register. -/
def Thread.badReg (t : Thread) (us : List VUse) : Option Nat :=
  match (us.filter t.badUse).map VUse.num with
  | [] => none
  | n :: ns => some (ns.foldl min n)

end Sys2Proof.Machine
end

