-- ==== Sys2Proof/Machine/Scalar.lean ====
section
/-!
DEFINITION. The base instructions (Table 2.6) but loads, stores and HALT.
-/

namespace Sys2Proof.Machine

/-! ### Shared shapes -/

/-- An instruction that writes one register from two. -/
def alu2 (th : ThreadId) (rd rs1 rs2 : Reg) (f : Word → Word → Word) (s : State) : Host.Outcome State Fault Refusal :=
  issueWith s th [rd, rs1, rs2] fun s => s.write1 th rd (f ((s.thr th).xr rs1) ((s.thr th).xr rs2))

/-- An instruction that writes one register from one. -/
def alu1 (th : ThreadId) (rd rs1 : Reg) (f : Word → Word) (s : State) : Host.Outcome State Fault Refusal :=
  issueWith s th [rd, rs1] fun s => s.write1 th rd (f ((s.thr th).xr rs1))

/-- A division: DIV_ZERO where the divisor is 0, rd unchanged (R50). -/
def divide (th : ThreadId) (rd rs1 rs2 : Reg) (f : Word → Word → Word) (s : State) : Host.Outcome State Fault Refusal :=
  issueWith s th [rd, rs1, rs2] fun s =>
    let x := (s.thr th).xr rs1
    let y := (s.thr th).xr rs2
    if y = 0 then s.raise th .divZero exeDivZero 0 else s.write1 th rd (f x y)

/-- A branch. -/
def branch (th : ThreadId) (rs1 rs2 : Reg) (off : BitVec 16) (p : Word → Word → Bool) (s : State) :
    Host.Outcome State Fault Refusal :=
  issueWith s th [rs1, rs2] fun s =>
    let t := s.thr th
    s.retireTo th (if p (t.xr rs1) (t.xr rs2) then branchTo t.pc off else t.pc + 4)

/-- 1 or 0. -/
def boolWord (b : Bool) : Word := if b then 1 else 0

/-- A system instruction: its fields are 0 and, where `sup`, the level is SUPERVISOR (R49, R52). -/
def systemInstr (th : ThreadId) (fn : Nat) (sup : Bool) (rd rs1 rs2 : Reg) (act : State → State) (s : State) :
    Host.Outcome State Fault Refusal :=
  issueWith s th [] fun s =>
    let w := encR 0x28 fn rd rs1 rs2
    if rd != 0 || rs1 != 0 || rs2 != 0 then s.illegal th w
    else if sup && !(s.thr th).super then s.privileged th w
    else act s

/-! ### Integer register–register -/

def execAdd (th : ThreadId) (rd rs1 rs2 : Reg) (s : State) := alu2 th rd rs1 rs2 (fun x y => x + y) s
def execSub (th : ThreadId) (rd rs1 rs2 : Reg) (s : State) := alu2 th rd rs1 rs2 (fun x y => x - y) s
def execAnd (th : ThreadId) (rd rs1 rs2 : Reg) (s : State) := alu2 th rd rs1 rs2 (fun x y => x &&& y) s
def execOr (th : ThreadId) (rd rs1 rs2 : Reg) (s : State) := alu2 th rd rs1 rs2 (fun x y => x ||| y) s
def execXor (th : ThreadId) (rd rs1 rs2 : Reg) (s : State) := alu2 th rd rs1 rs2 (fun x y => x ^^^ y) s
def execShl (th : ThreadId) (rd rs1 rs2 : Reg) (s : State) := alu2 th rd rs1 rs2 (fun x y => x <<< shCount y) s
def execShr (th : ThreadId) (rd rs1 rs2 : Reg) (s : State) := alu2 th rd rs1 rs2 (fun x y => x >>> shCount y) s
def execSra (th : ThreadId) (rd rs1 rs2 : Reg) (s : State) := alu2 th rd rs1 rs2 (fun x y => x.sshiftRight (shCount y)) s
def execSlt (th : ThreadId) (rd rs1 rs2 : Reg) (s : State) := alu2 th rd rs1 rs2 (fun x y => boolWord (x.slt y)) s
def execSltu (th : ThreadId) (rd rs1 rs2 : Reg) (s : State) := alu2 th rd rs1 rs2 (fun x y => boolWord (x.ult y)) s
def execMul (th : ThreadId) (rd rs1 rs2 : Reg) (s : State) := alu2 th rd rs1 rs2 (fun x y => x * y) s

/-- High 64 bits of the signed product. -/
def execMulh (th : ThreadId) (rd rs1 rs2 : Reg) (s : State) :=
  alu2 th rd rs1 rs2 (fun x y => ((x.signExtend 128 * y.signExtend 128) >>> 64).setWidth 64) s

/-- High 64 bits of the unsigned product. -/
def execMulhu (th : ThreadId) (rd rs1 rs2 : Reg) (s : State) :=
  alu2 th rd rs1 rs2 (fun x y => ((x.setWidth 128 * y.setWidth 128) >>> 64).setWidth 64) s

/-- Truncated toward zero; −2⁶³ by −1 gives −2⁶³. -/
def execDiv (th : ThreadId) (rd rs1 rs2 : Reg) (s : State) := divide th rd rs1 rs2 (fun x y => x.sdiv y) s
def execDivu (th : ThreadId) (rd rs1 rs2 : Reg) (s : State) := divide th rd rs1 rs2 (fun x y => x / y) s
def execRem (th : ThreadId) (rd rs1 rs2 : Reg) (s : State) := divide th rd rs1 rs2 (fun x y => x.srem y) s
def execRemu (th : ThreadId) (rd rs1 rs2 : Reg) (s : State) := divide th rd rs1 rs2 (fun x y => x % y) s

/-! ### Integer immediate -/

def execAddi (th : ThreadId) (rd rs1 : Reg) (imm : BitVec 16) (s : State) := alu1 th rd rs1 (fun x => x + immS imm) s
def execAndi (th : ThreadId) (rd rs1 : Reg) (imm : BitVec 16) (s : State) := alu1 th rd rs1 (fun x => x &&& immZ imm) s
def execOri (th : ThreadId) (rd rs1 : Reg) (imm : BitVec 16) (s : State) := alu1 th rd rs1 (fun x => x ||| immZ imm) s
def execXori (th : ThreadId) (rd rs1 : Reg) (imm : BitVec 16) (s : State) := alu1 th rd rs1 (fun x => x ^^^ immZ imm) s
def execSlti (th : ThreadId) (rd rs1 : Reg) (imm : BitVec 16) (s : State) :=
  alu1 th rd rs1 (fun x => boolWord (x.slt (immS imm))) s
def execSltiu (th : ThreadId) (rd rs1 : Reg) (imm : BitVec 16) (s : State) :=
  alu1 th rd rs1 (fun x => boolWord (x.ult (immS imm))) s

/-- SHIFTI: bits [15:14] choose the shift, [5:0] the count; 0b11 and nonzero [13:6] are illegal. -/
def execShifti (th : ThreadId) (rd rs1 : Reg) (imm : BitVec 16) (s : State) : Host.Outcome State Fault Refusal :=
  issueWith s th [rd, rs1] fun s =>
    let x := (s.thr th).xr rs1
    let n := getF imm 0 6
    let k := getF imm 14 2
    if k == 3 || getF imm 6 8 != 0 then s.illegal th (encI 0x0A rd rs1 imm)
    else s.write1 th rd (if k == 0 then x <<< n else if k == 1 then x >>> n else x.sshiftRight n)

def execLui (th : ThreadId) (rd : Reg) (imm : BitVec 21) (s : State) : Host.Outcome State Fault Refusal :=
  issueWith s th [rd] fun s => s.write1 th rd (off21 imm <<< 16)

def execAuipc (th : ThreadId) (rd : Reg) (imm : BitVec 21) (s : State) : Host.Outcome State Fault Refusal :=
  issueWith s th [rd] fun s => s.write1 th rd ((s.thr th).pc + off21 imm <<< 16)

/-! ### Branches and jumps -/

def execBeq (th : ThreadId) (rs1 rs2 : Reg) (off : BitVec 16) (s : State) := branch th rs1 rs2 off (fun x y => x == y) s
def execBne (th : ThreadId) (rs1 rs2 : Reg) (off : BitVec 16) (s : State) := branch th rs1 rs2 off (fun x y => x != y) s
def execBlt (th : ThreadId) (rs1 rs2 : Reg) (off : BitVec 16) (s : State) := branch th rs1 rs2 off (fun x y => x.slt y) s
def execBge (th : ThreadId) (rs1 rs2 : Reg) (off : BitVec 16) (s : State) :=
  branch th rs1 rs2 off (fun x y => !x.slt y) s
def execBltu (th : ThreadId) (rs1 rs2 : Reg) (off : BitVec 16) (s : State) :=
  branch th rs1 rs2 off (fun x y => x.ult y) s
def execBgeu (th : ThreadId) (rs1 rs2 : Reg) (off : BitVec 16) (s : State) :=
  branch th rs1 rs2 off (fun x y => !x.ult y) s

def execJal (th : ThreadId) (rd : Reg) (imm : BitVec 21) (s : State) : Host.Outcome State Fault Refusal :=
  issueWith s th [rd] fun s =>
    let pc := (s.thr th).pc
    (s.setX th rd (pc + 4)).retireTo th (jumpTo pc imm)

/-- The target is read before rd is written. -/
def execJalr (th : ThreadId) (rd rs1 : Reg) (imm : BitVec 16) (s : State) : Host.Outcome State Fault Refusal :=
  issueWith s th [rd, rs1] fun s =>
    let t := s.thr th
    (s.setX th rd (t.pc + 4)).retireTo th ((t.xr rs1 + immS imm) &&& ~~~3)

/-! ### System -/

/-- TRAP: CORE_TVAL is the code in the rs2 field. -/
def execTrap (th : ThreadId) (rd rs1 code : Reg) (s : State) : Host.Outcome State Fault Refusal :=
  issueWith s th [] fun s =>
    if rd != 0 || rs1 != 0 then s.illegal th (encR 0x28 0 rd rs1 code)
    else s.raise th .trap 0 (code.setWidth 64) (rec := false)

/-- eret() of R56. -/
def execEret (th : ThreadId) (rd rs1 rs2 : Reg) (s : State) : Host.Outcome State Fault Refusal :=
  systemInstr th 1 true rd rs1 rs2 (fun s =>
    let t := s.thr th
    (s.setThr th { t with csr := { t.csr with status := statusReturn t.csr.status } }).retireTo th t.csr.epc) s

/-- IFLUSH empties the core's instruction cache (R46). -/
def execIflush (th : ThreadId) (rd rs1 rs2 : Reg) (s : State) : Host.Outcome State Fault Refusal :=
  systemInstr th 3 true rd rs1 rs2 (fun s => (s.modCore (thCore th) fun c => { c with icache := [], userLines := [] }).retire th) s

/-- CSRs that a USER thread may read (R52). -/
def csrUser (n : Nat) : Bool := n == 0x00 || n == 0x09 || n == 0x80

/-- CSRR: the number is checked before the level (R53). -/
def execCsrr (th : ThreadId) (rd rs1 : Reg) (csr : BitVec 16) (s : State) : Host.Outcome State Fault Refusal :=
  issueWith s th [rd] fun s =>
    let w := encI 0x29 rd rs1 csr
    if rs1 != 0 || !csrAllocated csr.toNat then s.illegal th w
    else if !(s.thr th).super && !csrUser csr.toNat then s.privileged th w
    else if csrInFlight csr.toNat && (s.thr th).flying then s.stall th .retire
    else s.write1 th rd (s.csrRead th csr.toNat)

def execCsrw (th : ThreadId) (rd rs1 : Reg) (csr : BitVec 16) (s : State) : Host.Outcome State Fault Refusal :=
  issueWith s th [rs1] fun s =>
    let w := encI 0x2A rd rs1 csr
    if rd != 0 || !csrAllocated csr.toNat then s.illegal th w
    else if !(s.thr th).super then s.privileged th w
    else if csrInFlight csr.toNat && (s.thr th).flying then s.stall th .retire
    else (s.csrWrite th csr.toNat ((s.thr th).xr rs1)).retire th

/-- A word whose opcode or fn no table defines: ILLEGAL (R48). A word that is an instruction is that instruction's own row. -/
def execIllegalOpcode (th : ThreadId) (word : BitVec 32) (s : State) : Host.Outcome State Fault Refusal :=
  if (decodeInstr th word).isSome then .next s else issueWith s th [] fun s => s.illegal th word

end Sys2Proof.Machine
end

