-- ==== Sys2Proof/WellFormed.lean ====
section
/-!
DEFINITION. Conditions on the operands of a command beyond what their types say: an event names a word, a row, a bank,
a byte count that exists.
-/

namespace Sys2Proof

/-- Words of a register of the vector unit (R167). -/
def VRegName.words : VRegName → Nat
  | .v _ => 32
  | .p _ => 4
  | .ffr => 4

/-- Widths of a register access (R11). -/
def regWidthOk (bytes : Nat) : Bool := bytes == 4 || bytes == 8

/-- A location of memory, at the start of its protected unit (Machine/Ops, Table 7.11). -/
def scrubLocOk (l : Nat) : Bool :=
  if 0x100000000 ≤ l && l < 0x300000000 then l % 8 == 0
  else if 0x1000000000 ≤ l && l < 0x5000000000 then l % 64 == 0
  else decide (2 ^ 63 ≤ l) && l % 64 == 0

/-- A command's operands name things that exist. -/
def Instr.wellFormed : Instr → Bool
  | .tileScrub _ acc n _ _ => !acc || decide (n.toNat < 4)
  | .vecScrub _ r w _ => decide (w < r.words)
  | .memScrub l _ => scrubLocOk l
  | .granHotBank n _ _ reqs => decide (n.toNat < 12) && reqs.all fun r => decide (0 < r.2)
  | .registerWrite a _ n => regWidthOk n && a.toNat % n == 0
  | .dieResetDone d => decide (d ≤ 8)
  | .dieResetTimeout d => decide (d ≤ 8)
  | .comparatorTrip d => decide (d ≤ 9)
  | .packetReceive _ p => p.hdr.typ != 0 && p.wire.length % 8 == 0 && decide (p.wire.length ≤ 4160)
  | .flitReceive _ f => f.data.length == 248
  | .laneLockLoss _ lanes => lanes != 0
  | .feedData _ f => decide (f.bytes.length ≤ 8192)
  | _ => true

end Sys2Proof
end

