-- ==== Sys2Proof/Machine/MemoryUnit.lean ====
section
/-!
DEFINITION. FENCE and the translation-cache instructions (R219, R221), interrupts and pending store errors (R58 to
R61), line fills (R44, R45), the Granary controllers' and scrubs' events (R215, R216, R224).
-/

namespace Sys2Proof.Machine

/-! ### Opcode 0x2C (R221) -/

/-- FENCE retires when every earlier store has been acknowledged; meanwhile the thread is in WAIT_MEM (log 22). -/
def State.fenceCheck (s : State) (th : ThreadId) : State :=
  match (s.thr th).pend with
  | some .fence => if (s.thr th).posted.isEmpty then s.retire th else s
  | _ => s

def execFence (th : ThreadId) (rd rs1 rs2 : Reg) (s : State) : Host.Outcome State Fault Refusal :=
  issueWith s th [] fun s =>
    if rd != 0 || rs1 != 0 || rs2 != 0 then s.illegal th (encR 0x2C 0 rd rs1 rs2)
    else if (s.thr th).benchBusy then s.stall th .retire
    else (s.modThr th fun t => { t with st := .waitMem, pend := some .fence }).fenceCheck th

/-- A thread waits for its invalidation. -/
def State.startInval (s : State) (th : ThreadId) (a : Option Word) : State :=
  if (s.thr th).flying then s.stall th .retire
  else if s.slotFree th then (s.leaveSlots th).modThr th fun t => { t with st := .waitMem, pend := some (.pginv a) }
  else s.stall th .slot

/-- DETAIL of a PGINV's record: access kind 0x04 (R199). -/
def execPginv (th : ThreadId) (rd rs1 rs2 : Reg) (s : State) : Host.Outcome State Fault Refusal :=
  issueWith s th [rs1] fun s =>
    let w := encR 0x2C 1 rd rs1 rs2
    let a := (s.thr th).xr rs1
    if rd != 0 || rs2 != 0 then s.illegal th w
    else if !(s.thr th).super then s.privileged th w
    else
      match (s.thCtx th).bind fun c => s.window c a with
      | some (.granary _) => s.startInval th (some a)
      | _ => s.raise th .memory memWindow a true noObj (det 58 1 4)

def execPginva (th : ThreadId) (rd rs1 rs2 : Reg) (s : State) : Host.Outcome State Fault Refusal :=
  issueWith s th [] fun s =>
    let w := encR 0x2C 2 rd rs1 rs2
    if rd != 0 || rs1 != 0 || rs2 != 0 then s.illegal th w
    else if !(s.thr th).super then s.privileged th w
    else s.startInval th none

/-! ### Replies that come after their timeout (R222) -/

/-- A reply that nothing waits for: of a request whose instruction has ended, which frees its slot; or one that comes after
MEM_TIMEOUT or a purge, which is discarded and counted in MEM_CNT_LATE. -/
def State.lateReply (s : State) (th : ThreadId) : State :=
  let t := s.thr th
  if t.dropped != 0 then (s.setThr th { t with dropped := t.dropped - 1 }).pump (thCore th)
  else if t.late != 0 then
    let s := s.setThr th { t with late := t.late - 1 }
    match s.thCtx th with
    | some c => s.modCtxMem c fun m => { m with late := m.late + 1 }
    | none => s
  else s

/-! ### Interrupts and pending store errors -/

/-- An interrupt is taken at a boundary (R59, R60), behind a pending store error (R58); a thread in WAIT_SYNC first abandons
its wait (R263). -/
def execInterruptTake (th : ThreadId) (s : State) : Host.Outcome State Fault Refusal :=
  let t := s.thr th
  match t.interrupt, s.thCtx th with
  | some n, some c =>
    if !s.ctxRuns c || t.pauseReq || t.stopReq then .next s
    else if t.st == .waitSync then .next (s.abandonWait th)
    else if t.atBoundary && !t.asyncDue && t.exc.isNone then
      .next ((s.leaveArrays th).take th (if n == 0x21 then .timer else .soft) 0 0 true)
    else .next s
  | _, _ => .next s

/-- A pending store error is taken, one at each boundary (R58). -/
def execAsyncMem (th : ThreadId) (s : State) : Host.Outcome State Fault Refusal :=
  let t := s.thr th
  match t.asyncQ with
  | [] => .next s
  | (code, va) :: rest =>
    if !s.thServes th || t.inexc || !t.atBoundary then .next s
    else
      .next (((s.setThr th { t with asyncQ := rest }).leaveArrays th).take th .asyncMem code va false)

/-- CORE_TIMER steps to 0 (Table 2.7); it holds while the thread is PAUSED (R62). -/
def execCoreTimerExpiry (th : ThreadId) (s : State) : Host.Outcome State Fault Refusal :=
  let t := s.thr th
  if t.csr.timer == 0 || t.st == .paused then .next s
  else .next (s.setThr th { t with csr := { t.csr with timer := 0, ipend := t.csr.ipend ||| 2 } })

/-- A doorbell sets IPEND.SOFT (R59). -/
def execCoreDoorbell (th : ThreadId) (s : State) : Host.Outcome State Fault Refusal :=
  .next ((s.modThr th fun t => { t with csr := { t.csr with ipend := t.csr.ipend ||| 1 } }).ungate (thCore th))

/-! ### Fetch -/

/-- A line comes into the instruction cache, 256 sets of four ways; in a full set a free value chooses the line that leaves
(log 17). -/
def State.fillLine (s : State) (g : Nat) (line : Nat) (bytes : List Byte) : State :=
  let v := BitVec.ofNat 512 (leNat bytes)
  let l := (s.core g).icache
  let (old, s) := match fullSet 4 256 line ((sdel line l).map (·.1)) with
    | some mates => s.pickVictim mates
    | none => (none, s)
  s.modCore g fun c => { c with
    icache := sset line v (match old with | some k => sdel k c.icache | none => c.icache)
    userLines := c.userLines.filter fun k => k != line && some k != old }

/-- The thread waits for the line that the oldest of its fills brings. -/
def Thread.awaits (t : Thread) (pc : Word) : Bool :=
  t.st == .waitFetch && t.pend.isNone && t.pc.toNat / 64 == pc.toNat / 64

/-- A fill fails: MEMORY at the instruction not fetched, if the thread still waits for it. -/
def State.fillFails (s : State) (th : ThreadId) (pc : Word) (reason : Reason) (extra : BitVec 192) (rec : Bool) : State :=
  if (s.thr th).awaits pc then s.fetchExc th .memory reason extra rec else s

/-- The line of a fetch that has passed its checks arrives. -/
def State.fillFrom (s : State) (th : ThreadId) (c : CtxId) (pc : Word) (loc : Nat) : State :=
  let base := loc / 64 * 64
  if s.poisonIn base 64 then
    ((s.eccRecord base pc.toNat (uCore (thCore th)) (some c) (some th)).readVia base 64).fillFails th pc memEcc (fetchDetail 0) false
  else
    let s := ((s.readVia base 64).fillLine (thCore th) (pc.toNat / 64) (s.peek base 64)).markUser th pc
    if (s.thr th).awaits pc then s.fetchHere th else s

/-- The page that a line fill has still to walk. -/
def State.fillWalk (s : State) (th : ThreadId) (c : CtxId) (pc : Word) : Option Nat :=
  match s.checkPart th c .fetch 4 none { va := pc, len := 4, idx := 0 } with | .walk page => some page | _ => none

/-- A line fill whose walk would read an entry that an earlier store of its thread has still to write. -/
def State.fetchBehind (s : State) (th : ThreadId) (c : CtxId) (pc : Word) : Bool :=
  match s.fillWalk th c pc with | some page => s.walkBehind th c page | none => false

/-- The oldest line fill of a thread is answered: its page is walked first where no cache holds the translation (R44, R45,
R197, R210). The line comes in even where its thread no longer waits. -/
def execIcacheFill (th : ThreadId) (s : State) : Host.Outcome State Fault Refusal :=
  match s.thCtx th, (s.thr th).fills with
  | some c, pc :: rest =>
    if !s.thServes th || s.fetchBehind th c pc then .next s
    else
      let super := (s.thr th).super
      let s := s.modThr th fun t => { t with fills := rest }
      let s := match s.checkPart th c .fetch 4 none { va := pc, len := 4, idx := 0 } with
        | .ok loc _ => s.fillFrom th c pc loc
        | .bad reason level => (s.permDrop th c pc reason).fillFails th pc reason (fetchDetail level) true
        | .walk page =>
          let may (e : Pte) : Bool := permOk .fetch super e.r e.w e.x e.u
          let (r, s) := s.walkFor (thCore th) c page may
          match r with
          | .poisoned loc =>
            (s.eccRecord loc pc.toNat (uCore (thCore th)) (some c) (some th) 3).fillFails th pc memEcc (fetchDetail 0) false
          | .bad reason level => s.fillFails th pc reason (fetchDetail level) true
          | .entry e =>
            if may e then s.fillFrom th c pc (granLoc (e.ppn * 0x10000 + pc.toNat % 0x10000))
            else s.fillFails th pc memPerm (fetchDetail 0) true
      .next (s.pump (thCore th))
  | _, _ => .next (s.lateReply th)

/-! ### Memory units -/

/-- A write of MEM_MEMTO (Table 7.15). -/
def State.setMemto (s : State) (c : CtxId) (v : Word) : State :=
  s.modCtxMem c fun m => { m with memto := BitVec.ofNat 32 (max (getF v 0 32) 0x10000) }

def execMemMemtoWrite (c : CtxId) (v : Word) (s : State) : Host.Outcome State Fault Refusal := .next (s.setMemto c v)

/-- The context with the most requests; of several, the first in the queue's order (DESIGN CHOICE, log 140). -/
def mostRequests : List (CtxId × Nat) → Option (CtxId × Nat)
  | [] => none
  | x :: xs =>
    match mostRequests xs with
    | some y => if y.2 ≤ x.2 then some x else some y
    | none => some x

/-- Unit k, of 64 stripes, of a list of Granary regions; the first one's base where there are not so many. -/
def unitNth (l : List RegionEntry) (k : Nat) : Nat :=
  match l with
  | [] => 0
  | r :: rest => if k < r.limit - r.base then r.base + k else unitNth rest (k - (r.limit - r.base))

/-- A location at a channel and bank that a context's requests may have reached: a free value chooses the stripe among those of
its Granary regions, and the byte. -/
def State.hotLoc (s : State) (c : CtxId) (channel bank : Nat) : Nat × State :=
  let m := (s.ctx c).mem
  let rs := m.regions.filter fun r => r.win == 2
  let (a, s) := s.draw 64
  let (b, s) := s.draw 10
  let g := unitNth rs (a.toNat % (rs.map fun r => r.limit - r.base).foldl (· + ·) 0) * 64 + b.toNat / 256 * 16
  (placeInv channel bank m.gsalt.toNat g (b.toNat % 256), s)

/-- The queue of a Granary bank, as it has stood for GRAN_HOTTH uncore cycles (32 or more requests), or as it stands now
(fewer than 16): an episode begins, or ends (R224). Which of the queued requests ADDRESS and REQUESTER of the record name
the manual does not say: free values, the address one of the hot channel and bank in a Granary region of a context that has
requests there (log 140). -/
def execGranHotBank (n : BitVec 4) (ch : BitVec 4) (bank : BitVec 4) (reqs : List (CtxId × Nat)) (s : State) :
    Host.Outcome State Fault Refusal :=
  let g := s.gran n.toNat
  let total := (reqs.map (·.2)).foldl (· + ·) 0
  match g.episode.find? fun e => e.1 == ch.toNat && e.2.1 == bank.toNat with
  | some (_, _, c) =>
    if total < 16 then
      .next ((s.modGran n.toNat fun g => { g with
        episode := g.episode.filter fun e => !(e.1 == ch.toNat && e.2.1 == bank.toNat) }).modCtxMem c fun m =>
          { m with rehash := true })
    else .next s
  | none =>
    match mostRequests reqs with
    | some (c, _) =>
      if total < 32 then .next s
      else
        let (i, s) := s.draw 4
        let (pa, s) := s.hotLoc ((reqs[i.toNat % reqs.length]?).getD (c, 0)).1 (n.toNat * 16 + ch.toNat) bank.toNat
        let (r, s) := s.draw 16
        let s := s.record { unit := uGran n.toNat, clk := .uncore, code := 0x0411, sev := sevNotice, ctx := some c,
                            detail := det 40 8 (2 ^ 63 + pa) ||| det 48 1 4 ||| det 49 1 n.toNat |||
                              det 50 1 ch.toNat ||| det 51 1 bank.toNat ||| det 52 2 r.toNat }
        .next (s.modGran n.toNat fun g => { g with
          hotCh := ch, hotBank := bank, hotCtx := c, episodes := satAdd 16 g.episodes 1, hotValid := true,
          episode := g.episode ++ [(ch.toNat, bank.toNat, c)] })
    | none => .next s

/-- A scrub finds an error in a protected unit: it corrects it, or poisons the unit (R215, R216). -/
def execMemScrub (loc : Nat) (ue : Bool) (s : State) : Host.Outcome State Fault Refusal :=
  if !scrubLocOk loc || s.boot.phase == .resetEntry then .next s
  else
    let s := s.countEcc loc ue
    if ue then
      let (u, k) := s.memUnit loc
      .next ((s.record { unit := u, clk := k, code := 0x0412, sev := sevNotice,
                         detail := s.memDetail loc loc 0xFFFF }).setPoison loc)
    else .next s

end Sys2Proof.Machine
end

