-- ==== Sys2Proof/Machine/StreamOps.lean ====
section
/-!
DEFINITION. Operations of the stream engines (08_stream_engines.md): descriptors and their checks, bounding ranges,
translation, the pieces of a copy, faults, the way from repetition to repetition.
-/

namespace Sys2Proof.Machine

def strmDesc : Reason := 0x0440
def strmAlign : Reason := 0x0441
def strmWindow : Reason := 0x0442
def strmContext : Reason := 0x0443
def strmPerm : Reason := 0x0444
def strmPage : Reason := 0x0445
def strmPte : Reason := 0x0446
def strmEcc : Reason := 0x0447
def strmTimeout : Reason := 0x0448
def strmTallyId : Reason := 0x0449
def strmStart : Reason := 0x044A
def strmOverlap : Reason := 0x044B
def syncTimeoutCode : Reason := 0x0301

/-- A doorbell of the thread in bits [12:0] of a notify register (R246, R257). -/
def State.doorbell (s : State) (w : Nat) : State :=
  (s.modThr (BitVec.ofNat 13 w) fun t => { t with csr := { t.csr with ipend := t.csr.ipend ||| 1 } }).ungate (w % 8192 / 4)

/-- The clock domain of an engine's pair is ungated (R474). -/
def State.quadWake (s : State) (q : Nat) : State :=
  if s.pwr.quadOn.contains (q / 2) then s else s.modPwr fun p => { p with quadOn := q / 2 :: p.quadOn }

/-- The clock domain of hub h's engines is ungated. -/
def State.hubWake (s : State) (h : Nat) : State :=
  if s.pwr.hubOn.contains h then s else s.modPwr fun p => { p with hubOn := h :: p.hubOn }

/-! ### Descriptors (Table 8.2) -/

/-- Little-endian field of n bytes at an offset. -/
def byteField (bs : List Byte) (off n : Nat) : Nat := leNat ((bs.drop off).take n)

/-- A tensor entry from its 32 bytes (Table 6.3). -/
def tensorEntry (bs : List Byte) : TensorEntry :=
  let attr := byteField bs 3 1
  { id := BitVec.ofNat 16 (byteField bs 0 2), kind := BitVec.ofNat 8 (byteField bs 2 1), actFmt := BitVec.ofNat 4 (attr % 16)
    keep16 := attr / 16 % 2 == 1, reservedZero := attr / 32 == 0 && byteField bs 21 11 == 0
    name := BitVec.ofNat 32 (byteField bs 4 4), gbufBase := BitVec.ofNat 64 (byteField bs 8 8)
    gbufLen := BitVec.ofNat 32 (byteField bs 16 4), gbufFmt := BitVec.ofNat 8 (byteField bs 20 1) }

/-- SIZE of the image's tensor section, as the directory gives it. -/
def tensorBytes (img : CtxImage) : Nat :=
  match img.hdr.dir.find? fun d => d.typ == 0x0204 with | some d => d.size | none => 0

/-- The image's tensor table: entries of 32 bytes (R177). -/
def tensorTable (img : CtxImage) : List TensorEntry :=
  (List.range (tensorBytes img / 32)).map fun i => tensorEntry ((img.tensors.bytes.drop (32 * i)).take 32)

/-- A signed 32-bit field. -/
def signed32 (v : Nat) : Int := if v ≥ 2 ^ 31 then (v : Int) - 2 ^ 32 else v

def descOf (bs : List Byte) : Desc :=
  { op := byteField bs 0 1, flags := BitVec.ofNat 8 (byteField bs 1 1), esz := byteField bs 2 1,
    timeout := byteField bs 4 4, src := BitVec.ofNat 64 (byteField bs 8 8), dst := BitVec.ofNat 64 (byteField bs 16 8),
    cols := byteField bs 24 4, rows := byteField bs 28 4, ss := signed32 (byteField bs 32 4),
    ds := signed32 (byteField bs 36 4), waitTally := byteField bs 40 4, waitArg := BitVec.ofNat 32 (byteField bs 44 4),
    sigTally := byteField bs 48 4, rep := byteField bs 52 4, srs := signed32 (byteField bs 56 4),
    drs := signed32 (byteField bs 60 4) }

def opCopy1 : Nat := 1
def opCopy2 : Nat := 2
def opXpose : Nat := 3
def opFill : Nat := 4
def opNop : Nat := 5
def opEnd : Nat := 15

def Desc.waits (d : Desc) : Bool := d.flags.getLsbD 0
def Desc.signals (d : Desc) : Bool := d.flags.getLsbD 1

/-- The operation moves bytes. -/
def Desc.moves (d : Desc) : Bool := 1 ≤ d.op && d.op ≤ 4

/-- Element width of XPOSE in bits. -/
def Desc.ebits (d : Desc) : Nat := 4 * 2 ^ d.esz

/-- The first list of R231. -/
def descBad (bs : List Byte) (idx : Nat) : Bool :=
  let d := descOf bs
  let idle := d.op == opNop || d.op == opEnd
  !(d.moves || idle) || byteField bs 3 1 != 0 || getF d.flags 3 5 != 0 || byteField bs 54 2 != 0 ||
  (d.op != opXpose && d.esz != 0) || d.esz > 3 ||
  (idle && (d.src != 0 || d.dst != 0 || d.cols != 0 || d.rows != 0 || d.srs != 0 || d.drs != 0)) ||
  ((idle || d.op == opCopy1 || d.op == opFill) && d.ss != 0) || ((idle || d.op == opCopy1) && d.ds != 0) ||
  (d.op == opFill && d.srs != 0) || (!d.waits && (d.waitTally != 0 || d.waitArg != 0)) ||
  (!d.signals && d.sigTally != 0) || d.timeout == 0 || (d.moves && (d.rows == 0 || d.cols == 0)) ||
  (d.op == opCopy1 && d.rows != 1) || (d.op == opXpose && !(isBench d.dst.toNat || isLarder d.dst.toNat)) ||
  (idx == 65535 && d.op != opEnd)

/-- The second list of R231. -/
def descMisaligned (d : Desc) : Bool :=
  let m8 (x : Int) : Bool := x % 8 != 0
  let common := d.dst.toNat % 8 != 0 || m8 d.ss || m8 d.ds || m8 d.srs || m8 d.drs
  if d.op == opXpose then
    d.cols * d.ebits % 64 != 0 || d.rows * d.ebits % 64 != 0 || d.src.toNat % 8 != 0 || common
  else if d.op == opFill then common || d.cols % 8 != 0
  else if d.op == opCopy1 || d.op == opCopy2 then common || d.cols % 8 != 0 || d.src.toNat % 8 != 0
  else false

/-- Bytes of a row of the walk: a source row, or for FILL a destination row. -/
def Desc.rowBytes (d : Desc) : Nat := if d.op == opXpose then d.cols * d.ebits / 8 else d.cols

/-- Base address of a side in repetition n. -/
def repBase (a : Word) (stride : Int) (n : Nat) : Word := a + BitVec.ofInt 64 (stride * n)

/-! ### Faults and refusals (R246) -/

/-- DETAIL of an engine's record (Table 8.6). -/
def strmDetail (x : Chan) (ch : Nat) (addr : Word) (phase level : Nat) : BitVec 192 :=
  det 40 1 ch ||| det 41 1 (match x.desc with | some d => d.op | none => 0) ||| det 42 2 x.index ||| det 44 2 x.rep |||
    det 46 2 x.pass ||| det 48 8 addr.toNat ||| det 56 1 phase ||| det 57 1 level

/-- A record of stream engine q. -/
def State.strmRecord (s : State) (q ch : Nat) (code : Reason) (obj : Nat) (addr : Word) (phase level : Nat) : State :=
  let x := s.chan q ch
  s.record { unit := uQuad q, clk := .uncore, code := code, sev := sevError, ctx := s.quadCtx q,
             obj := BitVec.ofNat 32 obj, detail := strmDetail x ch addr phase level }

/-- What is outstanding is left to complete, its replies discarded. -/
def Chan.orphan (x : Chan) : Chan :=
  { x with reads := x.reads.map fun r => { r with live := false }
           writes := x.writes.map fun w => { w with live := false }
           dq := none, wq := [], want := none, again := false, inData := false, cut := none, bound := none, buf := [], xloc := []
           expired := false, resume := none }

/-- The channel faults; OBJECT is the tally for a tally's reason, else the channel. -/
def State.strmFault (s : State) (q ch : Nat) (code : Reason) (obj : Nat) (addr : Word) (phase level : Nat) : State :=
  let s := s.strmRecord q ch code obj addr phase level
  let s := s.modChan q ch fun x => { x.orphan with
    st := .faulted, fault := BitVec.ofNat 64 (code.toNat + phase * 2 ^ 16 + 2 ^ 63), faddr := addr }
  let n := (s.chan q ch).notify
  if n.getLsbD 30 && n.getLsbD 31 then s.doorbell (n.toNat % 8192) else s

/-! ### Messages to the sync units -/

/-- A message of a channel; its signals and waits arrive in the order they are sent (R250). -/
def State.strmSend (s : State) (q ch : Nat) (op : SyncOp) (obj : Nat) (arg : BitVec 32) (timeout : Nat) : State :=
  let x := s.chan q ch
  s.modSync fun y => { y with msgs := y.msgs ++ [{ op := op, obj := obj, src := .chan (BitVec.ofNat 9 q) (BitVec.ofNat 3 ch),
                                                    ctx := x.ctx, gen := x.gen, arg := arg,
                                                    timeout := BitVec.ofNat 32 timeout }] }

/-- Messages of a channel that have not been applied. -/
def State.strmMsgs (s : State) (q ch : Nat) : Bool :=
  s.sync.msgs.any fun m => m.src == .chan (BitVec.ofNat 9 q) (BitVec.ofNat 3 ch)

/-- The channel's wait stands in the queue of its tally. -/
def State.strmQueued (s : State) (q ch : Nat) : Bool :=
  s.sync.tallies.any fun e => e.2.q.any fun w => w.src == .chan (BitVec.ofNat 9 q) (BitVec.ofNat 3 ch)

/-- The channel may use a tally (R240). -/
def State.strmTallyOk (s : State) (c : CtxId) (id : Nat) : Bool :=
  decide (id < 32768) && (s.tally id).assigned && (s.tally id).ctx == c

/-- A wait is withdrawn, once (R263): unless the last message of the channel on its way to the tally withdraws it. -/
def State.strmWithdraw (s : State) (q ch : Nat) : State :=
  let obj := match (s.chan q ch).desc with | some d => d.waitTally | none => 0
  match (s.sync.msgs.filter fun m => m.src == .chan (BitVec.ofNat 9 q) (BitVec.ofNat 3 ch) && m.obj == obj).getLast? with
  | some m => if m.op == .withdraw then s else s.strmSend q ch .withdraw obj 0 0
  | none => s.strmSend q ch .withdraw obj 0 0

/-- A draining channel becomes IDLE when nothing of it is outstanding (Table 8.4). -/
def State.strmDrain (s : State) (q ch : Nat) : State :=
  let x := s.chan q ch
  if x.st == .draining && x.reads.isEmpty && x.writes.isEmpty && !s.strmMsgs q ch && !s.strmQueued q ch then
    s.modChan q ch fun x => { x with st := .idle, pauseReq := false, waited := false, desc := none, pre := none }
  else s

/-! ### Bounding ranges (R233) -/

/-- Lowest and highest byte of `rows` rows of n bytes. -/
def boundRange (base : Word) (rows n : Nat) (stride : Int) : Int × Int :=
  let far := stride * ((rows : Int) - 1)
  (base.toNat + min 0 far, base.toNat + max 0 far + n - 1)

/-- Bounding ranges of a repetition: source (none for FILL) and destination. -/
def Desc.ranges (d : Desc) (n : Nat) : Option (Int × Int) × (Int × Int) :=
  let src := repBase d.src d.srs n
  let dst := repBase d.dst d.drs n
  if d.op == opXpose then
    (some (boundRange src d.rows (d.cols * d.ebits / 8) d.ss), boundRange dst d.cols (d.rows * d.ebits / 8) d.ds)
  else if d.op == opFill then (none, boundRange dst d.rows d.cols d.ds)
  else (some (boundRange src d.rows d.cols d.ss), boundRange dst d.rows d.cols d.ds)

/-- The range lies wholly in one populated window that an engine may use. -/
def State.rangeWindow (s : State) (c : CtxId) (r : Int × Int) : Bool :=
  if r.1 < 0 || 2 ^ 64 ≤ r.2 then false
  else
    match s.window c (BitVec.ofInt 64 r.1), s.window c (BitVec.ofInt 64 r.2) with
    | some (.bench _ _), some (.bench _ _) => true
    | some (.larder _ _), some (.larder _ _) => true
    | some (.cellar d _), some (.cellar e _) => d == e
    | some (.granary _), some (.granary _) => true
    | _, _ => false

/-- Numbers lo/u to hi/u. -/
def unitsOf (lo hi u : Nat) : List Nat := (List.range (hi / u - lo / u + 1)).map (lo / u + ·)

/-- Benches, or region entries, that a range lies in: none for a Bench of the context. -/
def State.rangeEntries (s : State) (c : CtxId) (r : Int × Int) : List (Bool × Option RegionEntry) :=
  let lo := r.1.toNat
  let hi := r.2.toNat
  let m := (s.ctx c).mem
  if isBench lo then (unitsOf (lo - 0x100000000) (hi - 0x100000000) 0x100000).map fun g => (s.coreCtx g == some c, none)
  else if isLarder lo then
    (unitsOf (lo - 0x200000000) (hi - 0x200000000) 0x100000).map fun u =>
      let e := m.region 0 (u / 512) (u % 512)
      (e.isSome, e)
  else if isCellar lo then
    (unitsOf (lo - 0x1000000000) (hi - 0x1000000000) 0x4000000).map fun u =>
      let e := m.region 1 (u / 512) (u % 512)
      (e.isSome, e)
  else []

/-- The first check of R233 that fails: code, phase, address. ADDRESS is the lowest byte of the range that fails, and for
STRM_OVERLAP that of the destination, with PHASE 0x03 (DESIGN CHOICE, log 33). -/
def State.rangeCheck (s : State) (c : CtxId) (src : Option (Int × Int)) (dst : Int × Int) :
    Option (Reason × Nat × Word) :=
  let sides : List (Nat × (Int × Int)) := (match src with | some r => [(2, r)] | none => []) ++ [(3, dst)]
  let first (code : Reason) (bad : Nat × (Int × Int) → Bool) : Option (Reason × Nat × Word) :=
    (sides.find? bad).map fun x => (code, x.1, BitVec.ofInt 64 x.2.1)
  match first strmWindow fun x => !s.rangeWindow c x.2 with
  | some e => some e
  | none =>
    match first strmContext fun x => (s.rangeEntries c x.2).any fun e => !e.1 with
    | some e => some e
    | none =>
      match first strmPerm fun x => (s.rangeEntries c x.2).any fun e =>
          match e.2 with | some g => !(if x.1 == 2 then g.r else g.w) | none => false with
      | some e => some e
      | none =>
        match src with
        | some r => if r.1 ≤ dst.2 && dst.1 ≤ r.2 then some (strmOverlap, 3, BitVec.ofInt 64 dst.1) else none
        | none => none

/-! ### Translation (R228, R235) -/

inductive XRes where
  | ok (loc : Nat)
  | bad (reason : Reason) (level : Nat)
  | ecc (loc : Nat)
deriving DecidableEq, Repr

/-- The cached translation of a page has been used by an engine: 256 entries, 4-way. -/
def State.strmTlbTouch (s : State) (q page : Nat) : State :=
  s.modEngine q fun x => { x with tlbUsed := touchSet 4 64 page (x.tlb.map (·.1)) x.tlbUsed }

/-- Put a translation into an engine's cache; in a full set it replaces one not recently used (R211, R228). -/
def State.strmTlbPut (s : State) (q page : Nat) (e : Pte) : State :=
  let l := (s.engine q).tlb
  let (v, s) := match fullSet 4 64 page (l.map (·.1)) with
    | some mates => s.pickVictim (victims mates (s.engine q).tlbUsed)
    | none => (none, s)
  let old := match v with | some k => sdel k l | none => l
  (s.modEngine q fun x => { x with tlb := sset page e old, tlbUsed := x.tlbUsed.filter fun k => v != some k }).strmTlbTouch q page

/-- Location of an address for an engine. The halves of STRM_CNT_XLAT wrap (DESIGN CHOICE, log 129). -/
def State.strmXlat (s : State) (q : Nat) (c : CtxId) (store : Bool) (va : Word) : XRes × State :=
  match s.window c va with
  | some (.granary o) =>
    let page := o / 0x10000
    let ok (e : Pte) : Bool := if store then e.w else e.r
    let bad (s : State) (r : XRes) : XRes × State := (r, s.modEngine q fun x => { x with cntXfault := (x.cntXfault + 1) % 2 ^ 32 })
    match ((s.engine q).tlb.find? fun e => e.1 == page).map (·.2) with
    | some e =>
      if ok e then (.ok (granLoc (e.ppn * 0x10000 + o % 0x10000)), s.strmTlbTouch q page)
      else bad (s.modEngine q fun x => { x with tlb := sdel page x.tlb, tlbUsed := x.tlbUsed.filter (· != page) }) (.bad strmPerm 0)
    | none =>
      let s := s.modEngine q fun x => { x with cntMiss := (x.cntMiss + 1) % 2 ^ 32 }
      let r := s.walkPage c page
      let s := (s.countWalk c (match r with | .bad code _ => code == memPage | _ => false)).walkReads c page r
      match r with
      | .poisoned loc => (.ecc loc, s)
      | .bad code l => bad s (.bad (if code == memPage then strmPage else strmPte) l)
      | .entry e =>
        if ok e then (.ok (granLoc (e.ppn * 0x10000 + o % 0x10000)), s.strmTlbPut q page e)
        else bad s (.bad strmPerm 0)
  | _ => (.ok va.toNat, s)

/-! ### From descriptor to descriptor (R229, R232, R237 to R239) -/

/-- Place of descriptor idx; none where it is not in a region of the context that it may read (R229). -/
def State.descLoc (s : State) (q ch idx : Nat) : Option Nat :=
  let x := s.chan q ch
  let a := x.base + BitVec.ofNat 64 (64 * idx)
  match s.window x.ctx a with
  | some (.larder d off) =>
    match (s.ctx x.ctx).mem.region 0 d (off / 0x100000) with
    | some e => if e.r then some a.toNat else none
    | none => none
  | some (.cellar d off) =>
    match (s.ctx x.ctx).mem.region 1 d (off / 0x4000000) with
    | some e => if e.r then some a.toNat else none
    | none => none
  | _ => none

/-- Lines outstanding of an engine (R227). -/
def Engine.outstanding (e : Engine) : Nat :=
  (e.chans.map fun x => x.2.reads.length + x.2.writes.length).foldl (· + ·) 0

/-- What waits for room among the engine's 512 lines is issued as far as there is room: a channel's descriptor read, then
its writes in order. -/
def State.pumpChan (s : State) (q ch : Nat) : State :=
  let s := match (s.chan q ch).dq with
    | some idx =>
      if 512 ≤ (s.engine q).outstanding then s
      else
        match s.descLoc q ch idx with
        | some l => s.modChan q ch fun x =>
          let r : SRead := { loc := l, va := x.base + BitVec.ofNat 64 (64 * idx), len := 64, desc := some idx }
          { x with dq := none, reads := x.reads ++ [r] }
        | none => s.modChan q ch fun x => { x with dq := none, pre := some (idx, none) }
    | none => s
  let room := 512 - (s.engine q).outstanding
  s.modChan q ch fun x => { x with writes := x.writes ++ x.wq.take room, wq := x.wq.drop room }

/-- Room has come free: channel ch is served first. Which channel the engine takes first changes timing only. -/
def State.pumpEngine (s : State) (q ch : Nat) : State :=
  (List.range 8).foldl (fun s i => if i == ch then s else s.pumpChan q i) (s.pumpChan q ch)

/-- Issue the read of descriptor idx; a place that the context may not read gives a failed read. -/
def State.readDesc (s : State) (q ch idx : Nat) : State :=
  match s.descLoc q ch idx with
  | some _ => (s.modChan q ch fun x => { x with dq := some idx }).pumpChan q ch
  | none => s.modChan q ch fun x => { x with pre := some (idx, none) }

/-- The data phase of a repetition begins. -/
def State.startData (s : State) (q ch : Nat) : State :=
  let s := s.modChan q ch fun x => { x with st := .running, inData := true, row := 0, off := 0, cut := none, bound := none,
                                            buf := [], xloc := [], wrote := false, resume := none }
  let x := s.chan q ch
  match x.desc with
  | none => s
  | some d =>
    if !d.moves then s
    else
      let (r, w) := d.ranges x.rep
      match s.rangeCheck x.ctx r w with
      | some (code, phase, addr) => s.strmFault q ch code ch addr phase 0
      | none => s

/-- A repetition begins: its wait, or its data phase. -/
def State.beginRep (s : State) (q ch : Nat) : State :=
  let x := s.chan q ch
  match x.desc with
  | none => s
  | some d =>
    if d.waits && !x.waited then
      if s.strmTallyOk x.ctx d.waitTally then
        (s.modChan q ch fun x => { x with st := .waiting, resume := none }).strmSend q ch .wait d.waitTally d.waitArg
          d.timeout
      else s.strmFault q ch strmTallyId d.waitTally 0 1 0
    else s.startData q ch

/-- The bytes of descriptor idx are at hand: they are checked, the next one's read is issued, its first repetition
begins. Where they were read again for a repetition in hand and are bad, RETRY reads them for it once more (R242). -/
def State.takeDesc (s : State) (q ch idx : Nat) (data : Option (List Byte)) : State :=
  let again := (s.chan q ch).again
  let s := s.modChan q ch fun x => { x with want := none, again := false, pre := none, desc := none }
  let addr := (s.chan q ch).base + BitVec.ofNat 64 (64 * idx)
  let bad (s : State) (code : Reason) (d : Option Desc) : State :=
    ((s.modChan q ch fun x => { x with desc := d }).strmFault q ch code ch addr 0 0).modChan q ch fun x =>
      { x with badDesc := !again, desc := if again then none else d }
  match data with
  | none => bad s strmDesc none
  | some bs =>
    let d := descOf bs
    if descBad bs idx then bad s strmDesc (some d)
    else if descMisaligned d then bad s strmAlign (some d)
    else
      let s := s.modChan q ch fun x => { x with badDesc := false, desc := some d }
      let s := if d.op == opEnd then s else s.readDesc q ch (idx + 1)
      s.beginRep q ch

/-- The channel comes to descriptor idx: it takes what was read ahead, or waits for the read. -/
def State.beginDesc (s : State) (q ch idx : Nat) : State :=
  let s := s.modChan q ch fun x => { x with st := .running, index := idx, rep := 0, waited := false, inData := false,
                                            resume := none }
  let x := s.chan q ch
  match x.pre with
  | some (i, data) =>
    if i == idx then s.takeDesc q ch idx data
    else
      let s := (s.modChan q ch fun x => { x with pre := none, want := some idx }).readDesc q ch idx
      match (s.chan q ch).pre with
      | some (_, none) => s.takeDesc q ch idx none
      | _ => s
  | none =>
    if x.dq == some idx || x.reads.any fun r => r.live && r.desc == some idx then s.modChan q ch fun x => { x with want := some idx }
    else
      let s := (s.modChan q ch fun x => { x with want := some idx }).readDesc q ch idx
      match (s.chan q ch).pre with
      | some (_, none) => s.takeDesc q ch idx none
      | _ => s

/-- The descriptor of the repetition at hand is read again: of a channel that a RESTORE left without it. -/
def State.rereadDesc (s : State) (q ch : Nat) : State :=
  let idx := (s.chan q ch).index
  let s := (s.modChan q ch fun x => { x with st := .running, inData := false, resume := none, pre := none, want := some idx,
                                             again := true }).readDesc q ch idx
  match (s.chan q ch).pre with
  | some (_, none) => s.takeDesc q ch idx none
  | _ => s

/-- Go on as ChResume says, or pause there (R243). -/
def State.strmGoOn (s : State) (q ch : Nat) (r : ChResume) : State :=
  if (s.chan q ch).pauseReq then
    let s := s.modChan q ch fun x => { x with st := .paused, resume := some r, inData := false, want := none, again := false }
    match r with
    | .descriptor idx => s.modChan q ch fun x => { x with index := idx, rep := 0, waited := false }
    | _ => s
  else
    match r with
    | .descriptor idx => s.beginDesc q ch idx
    | .reread => s.rereadDesc q ch
    | .repetition => s.beginRep q ch
    | .data => s.startData q ch

/-- A repetition has completed: its signal, and what follows (R238, R239). END counts as one, once per pass (DESIGN CHOICE,
log 138). -/
def State.endRep (s : State) (q ch : Nat) : State :=
  let x := s.chan q ch
  match x.desc with
  | none => s
  | some d =>
    let s := s.modChan q ch fun x => { x with inData := false, buf := [], xloc := [] }
    if d.signals && !s.strmTallyOk x.ctx d.sigTally then s.strmFault q ch strmTallyId d.sigTally 0 4 0
    else
      let s := s.modEngine q fun e => { e with cntDesc := e.cntDesc + 1 }
      let s := if d.signals then s.strmSend q ch .signal d.sigTally 1 0 else s
      if d.op == opEnd then
        if x.pass < d.rep then
          (s.modChan q ch fun x => { x with pass := x.pass + 1, waited := false, pre := none }).strmGoOn q ch (.descriptor 0)
        else
          let s := s.modChan q ch fun x => { x with st := .idle, pauseReq := false, waited := false, desc := none,
                                                    pre := none }
          if x.notify.getLsbD 29 && x.notify.getLsbD 31 then s.doorbell (x.notify.toNat % 8192) else s
      else if x.rep < d.rep then
        (s.modChan q ch fun x => { x with rep := x.rep + 1, waited := false }).strmGoOn q ch .repetition
      else s.strmGoOn q ch (.descriptor (x.index + 1))

/-! ### Data (R234 to R236) -/

/-- Everything of the repetition has been issued. -/
def Chan.allIssued (x : Chan) : Bool :=
  match x.desc with
  | some d => !d.moves || x.cut.isSome || decide (x.row ≥ d.rows)
  | none => true

/-- Live reads of the copy. -/
def Chan.dataReads (x : Chan) : Bool := x.reads.any fun r => r.live && r.desc.isNone

/-- Cells of bytes from a location on, cut at lines: the writes of a run of bytes. -/
def lineWrites (va : Word) (loc : Nat) (bs : List Byte) (half : Bool) : List SWrite :=
  let n := bs.length
  (unitsOf loc (loc + n - 1) 64).map fun l =>
    let lo := max (64 * l) loc
    let hi := min (64 * l + 63) (loc + n - 1)
    { va := va + BitVec.ofNat 64 (lo - loc)
      cells := (List.range (hi - lo + 1)).map fun i => (lo + i, (bs[lo - loc + i]?).getD 0)
      half := if half && hi == loc + n - 1 then some hi else none }

/-- The writes of a run of bytes at an address, each page at its place. -/
def xposeRun (x : Chan) (va : Word) (bs : List Byte) (half : Bool) : List SWrite :=
  let n := bs.length
  let at_ (a : Word) : Nat := match x.xloc.find? fun e => e.1 == a.toNat / 0x10000 with
    | some e => e.2 + a.toNat % 0x10000
    | none => a.toNat
  (unitsOf va.toNat (va.toNat + n - 1) 0x10000).flatMap fun p =>
    let lo := max (p * 0x10000) va.toNat - va.toNat
    let hi := min (p * 0x10000 + 0xFFFF - va.toNat) (n - 1)
    let a := va + BitVec.ofNat 64 lo
    lineWrites a (at_ a) ((bs.drop lo).take (hi - lo + 1)) (half && hi == n - 1)

/-- Destination row c of an XPOSE whose first elements, before (row, element) (r0, c0) of the source, have arrived. -/
def xposeRow (x : Chan) (d : Desc) (r0 c0 c : Nat) : List SWrite :=
  let w := d.ebits
  let n := r0 + (if c < c0 then 1 else 0)
  if n == 0 then []
  else
    let v := (List.range n).foldl (fun acc r => acc + (sget 0 x.buf r >>> (w * c) % 2 ^ w) <<< (w * r)) 0
    let va := repBase d.dst d.drs x.rep + BitVec.ofInt 64 (d.ds * c)
    xposeRun x va (leBytes v ((n * w + 7) / 8)) (n * w % 8 != 0)

/-- The writes of an XPOSE start after its last read returns. -/
def State.xposeWrites (s : State) (q ch : Nat) : State :=
  let x := s.chan q ch
  match x.desc with
  | some d =>
    if d.op == opXpose && !x.wrote && x.allIssued && !x.dataReads then
      let (r0, c0) := x.bound.getD (x.row, x.off * 8 / d.ebits)
      let ws := (List.range d.cols).flatMap fun c => xposeRow x d r0 c0 c
      (s.modChan q ch fun x => { x with wq := x.wq ++ ws, wrote := true }).pumpChan q ch
    else s
  | none => s

/-- The repetition has completed, or has failed at its cut and every earlier byte is written (R235, R238). -/
def State.strmCheck (s : State) (q ch : Nat) : State :=
  let s := s.xposeWrites q ch
  let x := s.chan q ch
  if x.st == .running && x.inData && x.allIssued && !x.dataReads && x.wq.isEmpty && !(x.writes.any (·.live)) then
    match x.cut with
    | some (code, phase, addr, level) => s.strmFault q ch code ch addr phase level
    | none => s.endRep q ch
  else s

/-- Nothing further is issued: the translation of an address has failed. -/
def State.strmCut (s : State) (q ch : Nat) (va : Word) (phase : Nat) (r : XRes) : State :=
  match r with
  | .ok _ => s
  | .bad code level => s.modChan q ch fun x => { x with cut := some (code, phase, va, level) }
  | .ecc loc =>
    let c := (s.chan q ch).ctx
    (s.eccRecord loc va.toNat (uQuad q) (some c) none 3).strmFault q ch strmEcc ch va phase 0

/-- The cursor after a piece of n bytes. -/
def Chan.past (x : Chan) (d : Desc) (n : Nat) : Chan :=
  if x.off + n ≥ d.rowBytes then { x with row := x.row + 1, off := 0 } else { x with off := x.off + n }

def Chan.addRead (x : Chan) (r : SRead) : Chan := { x with reads := x.reads ++ [r] }

def Chan.addWrites (x : Chan) (ws : List SWrite) : Chan := { x with writes := x.writes ++ ws }

/-- Destination of a piece of a copy: one or two runs, by line, each translated; the first failure. -/
def State.destRuns (s : State) (q : Nat) (c : CtxId) (da : Word) (n : Nat) :
    List (Word × Nat × Nat) × Option (Word × XRes) × State :=
  let n1 := min n (64 - da.toNat % 64)
  match s.strmXlat q c true da with
  | (.ok l1, s) =>
    if n1 == n then ([(da, l1, n)], none, s)
    else
      let db := da + BitVec.ofNat 64 n1
      match s.strmXlat q c true db with
      | (.ok l2, s) => ([(da, l1, n1), (db, l2, n - n1)], none, s)
      | (r, s) => ([(da, l1, n1)], some (db, r), s)
  | (r, s) => ([], some (da, r), s)

/-- Destinations of the elements of an XPOSE's row, in order: those that lie in the Granary are translated and their pages
kept; the first element whose check fails (R235). -/
def State.xposeDests (s : State) (q ch : Nat) (c : CtxId) (va : Nat → Word) : List Nat → Option (Nat × Word × XRes) × State
  | [] => (none, s)
  | e :: es =>
    let a := va e
    let page := a.toNat / 0x10000
    if (s.chan q ch).xloc.any fun x => x.1 == page then s.xposeDests q ch c va es
    else
      match s.strmXlat q c true a with
      | (.ok l, s) =>
        let s := if l == a.toNat then s
          else s.modChan q ch fun x => { x with xloc := sset page (l - a.toNat % 0x10000) x.xloc }
        s.xposeDests q ch c va es
      | (r, s) => (some (e, a, r), s)

/-- Issue the next piece: a source line's bytes with the runs they go to, or a run of a FILL. -/
def State.issuePiece (s : State) (q ch : Nat) (d : Desc) : State :=
  let x := s.chan q ch
  let step (a : Word) (base : Int) : Word := a + BitVec.ofInt 64 base + BitVec.ofNat 64 x.off
  let sa := step (repBase d.src d.srs x.rep) (d.ss * x.row)
  let da := step (repBase d.dst d.drs x.rep) (d.ds * x.row)
  if d.op == opFill then
    let n := min (64 - da.toNat % 64) (d.rowBytes - x.off)
    match s.strmXlat q x.ctx true da with
    | (.ok l, s) =>
      let bs := (List.range n).map fun i => (leBytes d.src.toNat 8)[(x.off + i) % 8]?.getD 0
      s.modChan q ch fun x => (x.addWrites (lineWrites da l bs false)).past d n
    | (r, s) => s.strmCut q ch da 3 r
  else
    let n := min (64 - sa.toNat % 64) (d.rowBytes - x.off)
    match s.strmXlat q x.ctx false sa with
    | (.ok l, s) =>
      if d.op == opXpose then
        let w := d.ebits
        let e0 := x.off * 8 / w
        let va (e : Nat) : Word := repBase d.dst d.drs x.rep + BitVec.ofInt 64 (d.ds * e) + BitVec.ofNat 64 (x.row * w / 8)
        let piece (s : State) (n : Nat) : State := if n == 0 then s else
          s.modChan q ch fun x => (x.addRead { loc := l, va := sa, len := n, row := x.row, off := x.off }).past d n
        match s.xposeDests q ch x.ctx va (List.range' e0 (n * 8 / w)) with
        | (none, s) => piece s n
        | (some (e, a, r), s) =>
          ((piece s (((e - e0) * w + 7) / 8)).modChan q ch fun y => { y with bound := some (x.row, e) }).strmCut q ch a 3 r
      else
        match s.destRuns q x.ctx da n with
        | (runs, bad, s) =>
          let m := (runs.map fun r => r.2.2).foldl (· + ·) 0
          let s := if m == 0 then s else s.modChan q ch fun x =>
            (x.addRead { loc := l, va := sa, len := m, row := x.row, off := x.off, dests := runs }).past d m
          match bad with
          | some (va, r) => s.strmCut q ch va 3 r
          | none => s
    | (r, s) => s.strmCut q ch sa 2 r

/-! ### Waits of a channel (R243, R244, R263) -/

/-- The wait of a channel has completed. -/
def State.strmWaitDone (s : State) (q ch : Nat) : State :=
  let x := s.chan q ch
  if x.st == .waiting then
    (s.modChan q ch fun x => { x with waited := true, expired := false }).strmGoOn q ch .data
  else s.strmDrain q ch

/-- The wait of a channel has been withdrawn with nothing consumed. -/
def State.strmWithdrawn (s : State) (q ch : Nat) : State :=
  let x := s.chan q ch
  if x.st == .waiting then
    if x.expired then
      s.strmFault q ch syncTimeoutCode (match x.desc with | some d => d.waitTally | none => 0) 0 1 0
    else s.strmGoOn q ch .repetition
  else s.strmDrain q ch

/-- The sync unit refuses the wait of a channel. -/
def State.strmRefused (s : State) (q ch : Nat) (code : Reason) : State :=
  let x := s.chan q ch
  if x.st == .waiting then s.strmFault q ch code (match x.desc with | some d => d.waitTally | none => 0) 0 1 0
  else s.strmDrain q ch

/-! ### Orders to channels (R242, R243, R364, Table 8.7) -/

/-- ABORT: nothing further is sent or signalled, and the channel drains. -/
def State.strmAbortChan (s : State) (q ch : Nat) : State :=
  let x := s.chan q ch
  if x.st == .idle || x.st == .draining then s
  else
    let waiting := x.st == .waiting
    let s := s.modChan q ch fun x => { x.orphan with st := .draining, pauseReq := false }
    (if waiting then s.strmWithdraw q ch else s).strmDrain q ch

/-- An order to pause: at once in a wait or between repetitions, else at the end of the repetition. -/
def State.strmPauseChan (s : State) (q ch : Nat) : State :=
  let x := s.chan q ch
  if x.st == .waiting then (s.modChan q ch fun x => { x with pauseReq := true }).strmWithdraw q ch
  else if x.st == .running then
    let s := s.modChan q ch fun x => { x with pauseReq := true }
    match x.want with
    | some idx => s.strmGoOn q ch (if x.again then .reread else .descriptor idx)
    | none => s
  else s

/-- A paused channel goes on where it was paused. -/
def State.strmResumeChan (s : State) (q ch : Nat) : State :=
  let x := s.chan q ch
  let s := s.modChan q ch fun x => { x with pauseReq := false }
  if x.st == .paused then
    match x.resume with
    | some r => (s.modChan q ch fun x => { x with resume := none }).strmGoOn q ch r
    | none => s.modChan q ch fun x => { x with st := .running }
  else s

/-- Apply to every channel of a context's engines. -/
def State.eachChan (s : State) (c : CtxId) (f : State → Nat → Nat → State) : State :=
  (s.quadsOf c).foldl (fun s q => (List.range 8).foldl (fun s ch => f s q ch) s) s

/-- A context reset: channels at reset, outstanding replies counted as late, the cache empty (Table 8.7). -/
def State.strmResetQuad (s : State) (q : Nat) : State :=
  s.modEngine q fun e => { e with
    cntLate := e.cntLate + (e.chans.map fun x => x.2.reads.length + x.2.writes.length).foldl (· + ·) 0
    chans := [], tlb := [] }

end Sys2Proof.Machine
end

