-- ==== Sys2Proof/Machine/SyncOps.lean ====
section
/-!
DEFINITION. Operations of the sync units (09_tallies_and_bells.md): records, signals, waits, bell rounds and their
trees, what a completed wait does for its waiter, the round that a snapshot or a join holds (R385, R391, R397, R428).
-/

namespace Sys2Proof.Machine

def syncSaturate : Reason := 0x0302
def syncUnderflow : Reason := 0x0303
def syncArg : Reason := 0x0304
def bellOverrun : Reason := 0x0305
def tallyOverrun : Reason := 0x0306
def syncId : Reason := 0x0307
def syncOwner : Reason := 0x0308
def syncRemote : Reason := 0x0309
def syncToken : Reason := 0x030A

/-- OP of Table 9.10. -/
def SyncOp.num : SyncOp → Nat
  | .signal => 1
  | .decrement => 2
  | .set => 3
  | .read => 4
  | .wait => 5
  | .arrive => 6
  | .bellWait => 7
  | .bellRead => 4
  | .withdraw => 0

/-- Who an operation comes from and what it carries, for records. -/
structure SyncBy where
  op : Nat
  src : Src
  ctx : Option CtxId
  arg : Nat := 0
  timeout : Nat := 0
deriving DecidableEq, Repr

def SyncMsg.by (m : SyncMsg) : SyncBy := ⟨m.op.num, m.src, some m.ctx, m.arg.toNat, m.timeout.toNat⟩

/-- Die of an object. -/
def objDie (bell : Bool) (id : Nat) : Nat := if bell then id / 512 else id / 4096

/-- VALUE of a tally, or DONE of a bell. -/
def State.objValue (s : State) (bell : Bool) (id : Nat) : Nat :=
  if bell then (s.bell id).done.toNat else (s.tally id).value.toNat

/-- SOURCE and SOURCE_ID of Table 9.10; for a hub the manual gives none, and they are free. -/
def State.srcCodes (s : State) : Src → Nat × Nat × State
  | .thread _ => (0, 0xFFFF, s)
  | .chan q ch => (1, q.toNat * 8 + ch.toNat, s)
  | .fabric m => (2, m.toNat, s)
  | .child b => (3, b, s)
  | .hub _ _ =>
    let (a, s) := s.draw 8
    let (b, s) := s.draw 16
    (a.toNat, b.toNat, s)

/-- A record of a sync unit (R271). -/
def State.syncRecord (s : State) (bell : Bool) (id : Nat) (code : Reason) (by_ : SyncBy) : State :=
  let (k, kid, s) := s.srcCodes by_.src
  s.record { unit := uSync (objDie bell id), clk := .core (BitVec.ofNat 3 (objDie bell id)), code := code, sev := sevError,
             ctx := by_.ctx, obj := BitVec.ofNat 32 id,
             waiter := match by_.src with | .thread th => some th | _ => none,
             detail := det 40 1 by_.op ||| det 41 1 k ||| det 42 2 kid ||| det 44 4 (s.objValue bell id) |||
               det 48 4 by_.arg ||| det 52 4 by_.timeout }

/-- An error at an object that raises nothing (R257): its record, and the owner's doorbell. -/
def State.syncError (s : State) (bell : Bool) (id : Nat) (code : Reason) (by_ : SyncBy) : State :=
  let s := s.syncRecord bell id code by_
  let d := objDie bell id
  let c := if bell then (s.bell id).ctx else (s.tally id).ctx
  let n := sget 0 (sget {} s.sync.dies d).notify c.toNat
  if n.getLsbD 30 && n.getLsbD 31 then s.doorbell (n.toNat % 8192) else s

/-- Waiters queued at a sync unit (Table 9.12). -/
def Sync.waiters (y : Sync) (d : Nat) : Nat :=
  ((y.tallies.filter fun e => e.1 / 4096 == d).map fun e => e.2.q.length).foldl (· + ·) 0 +
    ((y.bells.filter fun e => e.1 / 512 == d).map fun e => e.2.q.length).foldl (· + ·) 0

/-- The most waiters queued at once. -/
def State.noteMost (s : State) (d : Nat) : State :=
  let n := s.sync.waiters d
  s.modSyncDie d fun x => { x with most := max x.most n }

/-! ### Completed waits -/

/-- A hub's reader waits for one signal of its tally (R264). -/
def State.hubWait (s : State) (c : CtxId) (k : HubQ) (id : Nat) : State :=
  s.modSync fun y => { y with
    msgs := y.msgs ++ [{ op := .wait, obj := id, src := .hub c k, ctx := c, gen := (s.ctx c).gen, arg := 1 }] }

/-- A slot of the feed ring is given back: DONE is the record of the oldest slot still held (R372, R375). -/
def Feed.free (f : Feed) : Feed :=
  let rest := f.slots.drop 1
  match rest with
  | (o, e) :: _ => { f with credits := f.credits + 1, slots := rest, doneOff := o, doneEpoch := e }
  | [] => { f with credits := f.credits + 1, slots := [], doneOff := f.fillOff, doneEpoch := f.fillEpoch }

/-- A wait completes: its thread retires the wait instruction, a channel or a hub's reader goes on. -/
def State.waitDone (s : State) (w : Waiter) : State :=
  match w.src with
  | .thread th => if (s.thr th).st == .waitSync then ((s.modThr th fun t => { t with wait := none }).retire th).pump (thCore th) else s
  | .chan q ch => s.strmWaitDone q.toNat ch.toNat
  | .hub c .reg => s.modRedCtx c fun r => { r with ready := r.ready + 1 }
  | .hub c .put => s.modCtx c fun x => { x with putReady := x.putReady + 1 }
  | .hub c .feed =>
    let s := s.modFeed c Feed.free
    match (s.ctx c).feed.cfg with
    | some g => s.hubWait c .feed g.free
    | none => s
  | _ => s

/-- serve() of R254. -/
def State.serveTally (s : State) (id : Nat) : Nat → State
  | 0 => s
  | fuel + 1 =>
    let t := s.tally id
    match t.q with
    | [] => s
    | w :: rest =>
      if t.value.toNat < w.n then s
      else
        let s := s.modTally id fun t => { t with
          q := rest, value := if w.peek then t.value else t.value - BitVec.ofNat 32 w.n }
        (s.waitDone w).serveTally id fuel

def State.serve_ (s : State) (id : Nat) : State := s.serveTally id ((s.tally id).q.length)

/-! ### Tallies (R254 to R257) -/

/-- signal() of R254. -/
def State.signalTally (s : State) (id n : Nat) (by_ : SyncBy) : State :=
  let d := id / 4096
  let t := s.tally id
  if t.latch then
    if t.value == 0 then (s.modTally id fun t => { t with value := 1 }).serve_ id
    else
      ((s.syncError false id tallyOverrun by_).modTally id fun t => { t with ovr := true }).modSyncDie d fun x =>
        { x with eTally := satAdd 16 x.eTally 1 }
  else if t.value.toNat + n > 0xFFFFFFFF then
    let s := s.syncError false id syncSaturate by_
    let s := s.modSyncDie d fun x => { x with eSat := satAdd 16 x.eSat 1 }
    (s.modTally id fun t => { t with value := 0xFFFFFFFF, sat := true }).serve_ id
  else (s.modTally id fun t => { t with value := t.value + BitVec.ofNat 32 n }).serve_ id

/-- decrement() of R254. -/
def State.decTally (s : State) (id n : Nat) (by_ : SyncBy) : State :=
  let t := s.tally id
  if n > t.value.toNat then
    let s := s.syncError false id syncUnderflow by_
    let s := s.modSyncDie (id / 4096) fun x => { x with eUnder := satAdd 16 x.eUnder 1 }
    s.modTally id fun t => { t with value := 0, under := true }
  else s.modTally id fun t => { t with value := t.value - BitVec.ofNat 32 n }

/-- set() of R254. -/
def State.setTally (s : State) (id : Nat) (v : BitVec 32) : State :=
  (s.modTally id fun t => { t with value := v, sat := false, under := false, ovr := false }).serve_ id

/-- A hub, Harvest or a feed signals a tally of its context by one; it takes effect in the step that ends the work. -/
def State.hubSignal (s : State) (c : CtxId) (id : Nat) : State :=
  let by_ : SyncBy := ⟨1, .hub c .reg, some c, 1, 0⟩
  let s := s.modSyncDie (id / 4096) fun x => { x with ops := x.ops + 1 }
  if (s.tally id).assigned && (s.tally id).ctx == c then s.signalTally id 1 by_ else s.syncRecord false id syncOwner by_

/-- SYNC_TALLY_i and TREAD (Table 9.14). -/
def Tally.word (t : Tally) : Word :=
  BitVec.ofNat 64 (t.value.toNat + b2n t.latch * 2 ^ 32 + b2n t.sat * 2 ^ 33 + b2n t.under * 2 ^ 34 + b2n t.ovr * 2 ^ 35 +
    b2n (!t.q.isEmpty) * 2 ^ 36 + b2n t.remote * 2 ^ 37 + t.ctx.toNat * 2 ^ 40 + b2n t.assigned * 2 ^ 44)

/-! ### Bells (R258 to R260) -/

/-- The round is complete: every slot has arrived or is absent (R425). -/
def Bell.full (b : Bell) : Bool := decide ((b.arr ++ b.absent.filter fun p => !b.arr.contains p).length = b.count)

/-- The token's round has been released (R259). -/
def tokenDone (done tok : BitVec 32) : Bool := let d := (done - tok).toNat; 1 ≤ d && d ≤ 2 ^ 31 - 1

/-- BREAD (R265). -/
def Bell.word (b : Bell) : Word :=
  BitVec.ofNat 64 (b.done.toNat + b.arr.length * 2 ^ 32 + b.early.length * 2 ^ 48 + b2n b.held * 2 ^ 61 +
    b2n b.ovr * 2 ^ 62)

/-- A module number that means this module (R252). -/
def State.isSelf (s : State) (m : ModuleNo) : Bool := m == 0xFFFF || m == s.fab.module

/-- Child bells on this module that fill slots of bell b: (slot, child). -/
def State.children (s : State) (b : Nat) : List (Nat × Nat) :=
  s.sync.bells.filterMap fun e =>
    match e.2.parent with
    | some (pb, p, m) => if pb == b && s.isSelf m then some (p, e.1) else none
    | none => none

/-- PHASE of SNAP_STATUS (Table 13.15): ARMED while a round is awaited. -/
def State.snapPhase (s : State) (c : CtxId) : Nat :=
  let x := (s.ctx c).snap
  let period := match (s.ctx c).img.bind (·.snap) with | some y => y.period | none => 0
  let armed : Nat := if x.req.isSome || (x.sched && period != 0) then 1 else 0
  match x.phase with
  | .idle => if x.ext.isSome then 6 else armed
  | .quiescing => 2
  | .state => 3
  | .data => 4
  | .committed => if x.ext.isSome then 6 else if armed == 1 then 1 else 5
  | .restore => 7

/-- A record of the Harvest of context c (R403). -/
def State.snapRecord (s : State) (c : CtxId) (code : Reason) (sev : Byte) (round : BitVec 32) (block : Nat := 0xFFFFFFFF)
    (source : Nat := 0) : State :=
  s.record { unit := BitVec.ofNat 16 (0x0A10 + c.toNat), clk := .reeve, code := code, sev := sev, ctx := some c, obj := round,
             detail := det 40 4 block ||| det 44 1 (s.snapPhase c) ||| det 45 1 source ||| det 46 2 s.harv.partner.toNat }

def snapPartner : Reason := 0x0804
def snapSkipped : Reason := 0x080B

/-- A snapshot is due at round r: scheduled, or asked for (R384, Table 13.5). -/
def Ctx.snapDue (x : Ctx) (r : BitVec 32) : Bool :=
  match x.img.bind (·.snap) with
  | none => false
  | some sec =>
    (x.snap.sched && sec.period != 0 && r.toNat % sec.period == sec.phase) ||
      (match x.snap.req with
        | some (none, _) => true
        | some (some n, _) => n == r
        | none => false)

/-- A snapshot stands between QUIESCING and COMMITTED. -/
def SnapSt.busy (x : SnapSt) : Bool := x.phase == .quiescing || x.phase == .state || x.phase == .data

/-- The partner can be reached and has not been refused (R384, R397). -/
def State.partnerUp (s : State) (c : CtxId) : Bool :=
  s.harv.partner != 0xFFFF && (s.ctx c).snap.paired && !(s.ctx c).snap.off &&
    (s.route s.harv.partner).any fun e => e.cands.any fun p => (s.port p.toNat).st == .up

/-- The snapshot of a due round begins: QUIESCING. -/
def State.snapBegin (s : State) (c : CtxId) (r : BitVec 32) (paused : Bool) : State :=
  let req := match (s.ctx c).snap.req with | some (none, e) => some (some r, e) | q => q
  let ext := match req with | some (some n, e) => e && n == r | _ => false
  let direct := !s.partnerUp c
  ((s.hubWake 0).hubWake 1).modSnap c fun x => { x with
    phase := .quiescing, round := r, req := req, external := ext, direct := direct, flagPaused := paused, set := [], toStage := [],
    toSend := [], staged := false, cells := [], digests := [], unacked := [], kept := [], tries := [], signing := none,
    manifest := none }

/-- The SNAP command of context c, if it executes, ends. -/
def State.endSnapCmd (s : State) (c : CtxId) (code : Reason) (body : Body := .none) : State :=
  match (s.ctx c).cmd with
  | some k => if k.op == .snap then s.endCmd c code body else s
  | none => s

/-- Round r, at which a snapshot is due, passes without one: one record; a SNAP command that asked for it ends. -/
def State.skipRound (s : State) (c : CtxId) (r : BitVec 32) (code : Reason) (sev : Byte) : State :=
  let x := (s.ctx c).snap
  let s := s.snapRecord c code sev r
  let mine := match x.req with
    | some (none, _) => true
    | some (some n, _) => n == r && !(x.busy && n == x.round)
    | none => false
  if mine then (s.modSnap c fun y => { y with req := none }).endSnapCmd c code else s

/-- Round r of bell b is complete: whether its release is held for a join or a snapshot (R385, R391, R397, R428). -/
def State.holdRound (s : State) (b : Nat) (r : BitVec 32) : Bool × State :=
  let bl := s.bell b
  let x := s.ctx bl.ctx
  let c := bl.ctx
  match x.img.bind (·.snap) with
  | none => (false, s)
  | some sec =>
    if !bl.assigned || sec.stepBell != b then (false, s)
    else if x.snap.join.isSome && !x.snap.busy && bl.parent.isNone then
      let s := if x.snapDue r then s.skipRound c r snapSkipped sevNotice else s
      (true, s.snapBegin c r false)
    else if !x.snapDue r then (false, s)
    else if x.snap.busy then (false, s.skipRound c r snapSkipped sevNotice)
    else if s.partnerUp c || sec.extEvery != 0 then (true, s.snapBegin c r false)
    else (false, s.skipRound c r snapPartner sevError)

/-- Round r of a step bell with a parent is complete: where a join is in hand its arrival is withheld, so that the root of its
tree holds the round's release (R428, log 56). -/
def State.holdArrival (s : State) (b : Nat) (r : BitVec 32) : Bool × State :=
  let bl := s.bell b
  let x := (s.ctx bl.ctx).snap
  match (s.ctx bl.ctx).img.bind (·.snap) with
  | some sec =>
    if bl.assigned && sec.stepBell == b && x.join.isSome && !x.busy then (true, s.snapBegin bl.ctx r false) else (false, s)
  | none => (false, s)

/-- What is still to be done at bells. -/
inductive BTask where
  /-- complete the round if every slot has arrived -/
  | check (b : Nat)
  /-- the round is released, unless Harvest holds it -/
  | release (b : Nat)
  /-- child ch fills slot p of b -/
  | arrive (b p ch : Nat)
deriving DecidableEq, Repr

/-- Slot p of bell b is filled for this round, or for the next; none where both are (R258). -/
def Bell.mark (b : Bell) (p : Nat) : Option (Bell × BitVec 32) :=
  if !b.arr.contains p then some ({ b with arr := b.arr ++ [p] }, b.done)
  else if !b.early.contains p then some ({ b with early := b.early ++ [p] }, b.done + 1)
  else none

/-- The flag and the counts of a refused arrival. -/
def State.bellRefuse (s : State) (b : Nat) : State :=
  (s.modBell b fun x => { x with ovr := true, overruns := satAdd 16 x.overruns 1 }).modSyncDie (b / 512) fun x =>
    { x with eBell := satAdd 16 x.eBell 1 }

/-- release() of R258: the next round opens, waiters complete, remote children are told; what follows. -/
def State.releaseRound (s : State) (b : Nat) : State × List BTask :=
  let x := s.bell b
  let done := x.done + 1
  let go := x.q.filter fun w => tokenDone done (BitVec.ofNat 32 w.n)
  let s := s.modBell b fun x => { x with
    done := done, held := false, snapHold := false, arr := x.early, early := [],
    q := x.q.filter fun w => !tokenDone done (BitVec.ofNat 32 w.n) }
  let s := go.foldl (fun s w => s.waitDone w) s
  let s := x.remote.foldl (fun s e =>
    s.sendPkt (s.mkPkt e.2.1 x.ctx x.ctx (BitVec.ofNat 16 b) (uSync (e.2.2 / 512))
      (BitVec.ofNat 64 (b + e.1 * 2 ^ 32)) (.bellRelease e.2.2))) s
  let kids := (s.children b).filter fun e => (s.bell e.2).held
  (s, kids.map (fun e => .release e.2) ++ [.check b])

/-- Work through the tasks. -/
def State.bellWork (s : State) : Nat → List BTask → State
  | 0, _ => s
  | _ + 1, [] => s
  | fuel + 1, .check b :: rest =>
    let x := s.bell b
    if x.full && !x.held && !x.snapHold && x.count != 0 then
      match x.parent with
      | none => s.bellWork fuel (.release b :: rest)
      | some (pb, p, m) =>
        match s.holdArrival b x.done with
        | (true, s) => (s.modBell b fun x => { x with snapHold := true }).bellWork fuel rest
        | (false, s) =>
          let s := s.modBell b fun x => { x with held := true }
          if s.isSelf m then s.bellWork fuel (.arrive pb p b :: rest)
          else
            (s.sendPkt (s.mkPkt m x.ctx x.ctx (BitVec.ofNat 16 b) (uSync (pb / 512))
              (BitVec.ofNat 64 (b + p * 2 ^ 32)) (.bellArrival b pb p))).bellWork fuel rest
    else s.bellWork fuel rest
  | fuel + 1, .release b :: rest =>
    match s.holdRound b (s.bell b).done with
    | (true, s) => (s.modBell b fun x => { x with snapHold := true }).bellWork fuel rest
    | (false, s) =>
      match s.releaseRound b with
      | (s, ts) => s.bellWork fuel (ts ++ rest)
  | fuel + 1, .arrive b p ch :: rest =>
    let s := s.modSyncDie (b / 512) fun x => { x with ops := x.ops + 1 }
    match (s.bell b).mark p with
    | some (x, _) => (s.modBell b fun _ => x).bellWork fuel (.check b :: rest)
    | none =>
      ((s.bellRefuse b).syncRecord true b bellOverrun ⟨9, .child ch, some (s.bell b).ctx, p, 0⟩).bellWork fuel rest

/-- Enough tasks for every bell of the module. -/
def bellFuel : Nat := 65536

/-- The round is released at bell b. -/
def State.letRound (s : State) (b : Nat) : State :=
  match s.releaseRound b with
  | (s, ts) => s.bellWork bellFuel ts

/-- Harvest lets a held round go on (R385, R386): it is released, or the arrival that was withheld goes to the parent. -/
def State.unholdRound (s : State) (b : Nat) : State :=
  let x := s.bell b
  if !x.snapHold then s
  else if x.held || x.parent.isNone then s.letRound b
  else (s.modBell b fun x => { x with snapHold := false }).bellWork bellFuel [.check b]

/-! ### Messages (R250, R266, R267) -/

/-- The k-th message of the network, where it is the next to be applied of its source and object and its thread's earlier
stores have been acknowledged (R219, R250). -/
def State.msgReady (s : State) (k : Nat) (ops : List SyncOp) : Option SyncMsg :=
  match s.sync.msgs[k]? with
  | none => none
  | some m =>
    let first := !(s.sync.msgs.take k).any fun e => e.src == m.src && e.bell == m.bell && e.obj == m.obj && e.dest == m.dest
    let stores := match m.src with
      | .thread th => (s.thr th).posted.all fun p => decide (p.id ≥ m.after)
      | _ => true
    if ops.contains m.op && m.dest.isNone && first && stores then some m else none

/-- A message leaves the network: a posted operation frees its slot, a draining channel may end. -/
def State.msgGone (s : State) (m : SyncMsg) : State :=
  match m.src with
  | .thread th => if m.op == .signal || m.op == .decrement then s.pump (thCore th) else s
  | .chan q ch => s.strmDrain q.toNat ch.toNat
  | _ => s

/-- Take the k-th message out; an operation of an old generation is dropped and counted. Every other one counts in
SYNC_CNT_OPS, also where the unit then refuses or discards it, and a withdrawal too (DESIGN CHOICE, log 136). -/
def State.takeMsg (s : State) (k : Nat) (ops : List SyncOp) (act : State → SyncMsg → State) :
    Host.Outcome State Fault Refusal :=
  match s.msgReady k ops with
  | none => .next s
  | some m =>
    let s := s.modSync fun y => { y with msgs := y.msgs.eraseIdx k }
    let d := objDie m.bell m.obj
    if m.gen != (s.ctx m.ctx).gen then .next ((s.modSyncDie d fun x => { x with late := x.late + 1 }).msgGone m)
    else .next ((act (s.modSyncDie d fun x => { x with ops := x.ops + 1 }) m).msgGone m)

/-- The object is granted to the issuing context (R267). -/
def State.objOk (s : State) (m : SyncMsg) : Bool :=
  if m.bell then (s.bell m.obj).assigned && (s.bell m.obj).ctx == m.ctx
  else (s.tally m.obj).assigned && (s.tally m.obj).ctx == m.ctx

/-- A reply instruction has its answer: a reason (0: none) and a value. -/
def State.answer (s : State) (m : SyncMsg) (code : Reason) (v : Word) : State :=
  match m.src with
  | .thread th =>
    match (s.thr th).pend with
    | some (.sync op obj rd none) => if m.lost then s else s.modThr th fun t => { t with pend := some (.sync op obj rd (some (code, v))) }
    | _ => s
  | _ => s

/-- A unit's check of a reply or wait operation fails: its record, and SYNC at the instruction; an engine writes its own
record (R244, R267). -/
def State.syncFail (s : State) (m : SyncMsg) (code : Reason) : State :=
  match m.src with
  | .chan q ch => s.strmRefused q.toNat ch.toNat code
  | .thread th =>
    let s := s.syncRecord m.bell m.obj code m.by
    if m.op == .wait || m.op == .bellWait then
      if (s.thr th).st == .waitSync then
        ((s.modThr th fun t => { t with wait := none }).raise th .sync code (BitVec.ofNat 64 m.obj) false).pump (thCore th)
      else s
    else s.answer m code 0
  | _ => s.syncRecord m.bell m.obj code m.by

/-- A thread's wait has ended with nothing consumed: a pause, an interrupt, or the wait again (R60, R62, R263). -/
def State.waitWithdrawn (s : State) (th : ThreadId) : State :=
  if (s.thr th).st == .waitSync then
    let s := s.modThr th fun t => { t with wait := none, st := .ready }
    let t := s.thr th
    let runs := match s.thCtx th with | some c => s.ctxRuns c | none => false
    let s := if t.stopReq || t.pauseReq || t.asyncDue || !runs then s.fetchHere th
      else
        match t.interrupt with
        | some n => s.take th (if n == 0x21 then .timer else .soft) 0 0 true
        | none => s.fetchHere th
    s.pump (thCore th)
  else s

/-- Posted signals to other modules whose thread's earlier stores are acknowledged leave over the fabric, in issue order
(R269). The packet's TAG names thread, tally and amount. Its slot is free when the packet leaves, since no acknowledgement of a
signal comes back (DESIGN CHOICE, log 168). -/
def State.flushRemote (s : State) (th : ThreadId) : Nat → State
  | 0 => s
  | fuel + 1 =>
    match s.sync.msgs.findIdx? fun m => m.src == .thread th && m.dest.isSome with
    | none => s
    | some k =>
      match s.sync.msgs[k]? with
      | none => s
      | some m =>
        if (s.thr th).posted.all fun p => decide (p.id ≥ m.after) then
          let s := s.modSync fun y => { y with msgs := y.msgs.eraseIdx k }
          let s := match m.dest with
            | some d => s.sendPkt (s.mkPkt d m.ctx m.ctx (BitVec.ofNat 16 (thCore th)) (uSync (m.obj / 4096))
                (BitVec.ofNat 64 (th.toNat + m.obj * 2 ^ 13 + m.arg.toNat * 2 ^ 28)) (.signal m.obj m.arg th))
            | none => s
          (s.pump (thCore th)).flushRemote th fuel
        else s

end Sys2Proof.Machine
end

