-- ==== Sys2Proof/Machine/Fabric.lean ====
section
/-!
DEFINITION. The link layer, training, lanes, lasers, and packets on their way (R311 to R340).
-/

namespace Sys2Proof.Machine

/-! ### Transmit lanes (R316, R323, R329 to R331) -/

/-- Bits of a lane map below 8. -/
def laneBit (m : Byte) (i : Nat) : Bool := m.getLsbD i

def goodLanes (m : Byte) : Nat := laneCount m.toNat

/-- Lanes on which port p may and can transmit, and which the neighbour receives well. -/
def State.txLanes (s : State) (p : Nat) : Byte :=
  let x := s.port p
  x.peerMap &&& x.allowed &&& BitVec.ofNat 8 (drivable (s.laserInputs p))

/-- The one lane in which two maps differ, 0xFF where it is not one. -/
def laneDiff (a b : Byte) : Nat :=
  let l := (List.range 8).filter fun i => laneBit a i != laneBit b i
  if l.length == 1 then l.headD 0xFF else 0xFF

/-- The lanes of one direction of an UP port are `new`: the width follows, with one record of a degrade or a restore; below
four lanes the port goes DOWN; where the Reeve's own order takes it there, cause 0x07 says so (log 139). -/
def State.setLanes (s : State) (p : Nat) (rx : Bool) (new : Byte) (cause : Nat) : State :=
  let x := s.port p
  let old := if rx then x.rxGood else x.txGood
  let before := if rx then x.rxWidth else x.txWidth
  let after := widthOf (goodLanes new)
  if x.st != .up || old == new then s
  else
    let s := s.modPort p fun x => if rx then { x with rxGood := new } else { x with txGood := new }
    if after == 0 then s.portDown p (if !rx && s.laserInputs p == 0 then 0x04 else if cause == 0x07 then 0x07 else 0x01)
    else
      let less := decide (goodLanes new < goodLanes old)
      let s := s.modPort p fun x => if rx then { x with rxWidth := after } else { x with txWidth := after, laneNext := 0 }
      s.fabRecord (uPort p) (if less then 0x0702 else 0x0703) (if less then sevNotice else sevInfo) p
        (linkDetail (laneDiff old new) (if less then cause else 0x0B) before after rx x.peer)

/-- A replay from flit seq; the sixteenth from one number takes the port DOWN. -/
def State.startReplay (s : State) (p : Nat) (seq : BitVec 12) : State :=
  let x := s.port p
  let n := if x.replayFrom == seq then x.replays + 1 else 1
  let s := (s.modPort p fun x => { x with
    replayFrom := seq, replays := n, replayEnd := x.replay.getLast?.map (·.seq), cntReplay := (x.cntReplay + 1) % 2 ^ 32
    }).send (.replay p seq)
  if n ≥ 16 then s.portDown p 0x02 else s

/-- The transmit lanes of a port are worked out again. Where an active lane goes while a replay is under way, until its last
flit is acknowledged, the replay starts again from the oldest flit at the width as it now is (Table 11.11). -/
def State.fitTx (s : State) (p : Nat) (cause : Nat) : State :=
  let x := s.port p
  let s := s.setLanes p false (s.txLanes p) cause
  let y := s.port p
  let lost := (activeLanes x.txGood x.txWidth).any fun i => !laneBit y.txGood i
  match y.replay with
  | f :: _ => if y.st == .up && x.replayEnd.isSome && lost then s.startReplay p f.seq else s
  | [] => s

/-- Receive lanes of an UP port are dropped (R330): one LANEMAP and, where one of them was active, a NAK of the first flit that
failed, also where one has been sent when it failed (Table 11.5; a spare lane carries no flit: DEDUCED, log 135). The Gate
cannot run on fewer than eight lanes (R348). -/
def State.dropRxLanes (s : State) (p : Nat) (lanes : Byte) (cause : Nat) : State :=
  let x := s.port p
  let new := x.rxGood &&& ~~~lanes
  if x.st != .up || new == x.rxGood then s
  else if p == 16 then s.portDown 16 0x01
  else
    let active := (activeLanes x.rxGood x.rxWidth).any fun i => laneBit lanes i
    let s := s.setLanes p true new cause
    if (s.port p).st != .up then s
    else
      let s := s.send (.lanemap p new)
      if active then
        (s.modPort p fun x => { x with discard := true, cntNak := (x.cntNak + 1) % 2 ^ 32 }).send (.nak p x.expected)
      else s

/-! ### Rows of lanes -/

/-- Lanes lose lock, all in one flit time (Table 11.11). -/
def execLaneLockLoss (p : Fin 17) (lanes : Byte) (s : State) : Host.Outcome State Fault Refusal :=
  if (s.port p).st == .disabled then .next s
  else
    .next ((s.modPort p fun x => { x with
      lanes := (lanesOf lanes).foldl (fun l i => smod {} i (fun l => { l with losses := satAdd 16 l.losses 1 }) l) x.lanes
      }).dropRxLanes p lanes 0x08)

/-- The neighbour names the lanes it still receives well, or receives well again. -/
def execLanemap (p : Fin 17) (map : Byte) (s : State) : Host.Outcome State Fault Refusal :=
  if (s.port p).st != .up || p.val == 16 then .next s
  else .next ((s.modPort p fun x => { x with peerMap := map }).fitTx p 0x00)

/-- The Reeve drops a receive lane, never below width 4 (Table 16.1), and none of the Gate. -/
def State.reeveDrop (s : State) (p : Nat) (lane : BitVec 3) : State :=
  let x := s.port p
  let new := x.rxGood &&& ~~~(BitVec.ofNat 8 (2 ^ lane.toNat))
  if p == 16 || widthOf (goodLanes new) == 0 then s else s.dropRxLanes p (BitVec.ofNat 8 (2 ^ lane.toNat)) 0x09

/-- The Reeve drops a lane whose error counts pass FAB_MARGIN. -/
def execReeveLaneDrop (p : Fin 17) (lane : BitVec 3) (s : State) : Host.Outcome State Fault Refusal :=
  .next (s.reeveDrop p lane)

/-- The Reeve has retrained one lane; it rejoins, or stays out (R331). -/
def execLaneRestore (p : Fin 17) (lane : BitVec 3) (ok : Bool) (s : State) : Host.Outcome State Fault Refusal :=
  let x := s.port p
  if x.st != .up || laneBit x.rxGood lane.toNat || !ok || p.val == 16 then .next s
  else
    let new := x.rxGood ||| BitVec.ofNat 8 (2 ^ lane.toNat)
    .next ((s.send (.lanemap p new)).setLanes p true new 0x0B)

/-- LANES_ALLOWED is written: a cleared bit drops the transmit lane. -/
def State.setAllowed (s : State) (p : Nat) (v : Byte) : State :=
  (s.modPort p fun x => { x with allowed := v }).fitTx p 0x07

def execFabLanesAllowed (p : PortId) (v : Byte) (s : State) : Host.Outcome State Fault Refusal := .next (s.setAllowed p.toNat v)

/-! ### Training (R322 to R324, R349) -/

/-- A training attempt fails. -/
def State.trainFail (s : State) (p : Nat) (code : Reason) (cause : Nat) : State :=
  let s := s.modPort p fun x => { x with st := .down, cause := BitVec.ofNat 4 cause, txWidth := 0, rxWidth := 0 }
  if p == 16 then s
  else s.fabRecord (uPort p) code sevError p (linkDetail 0xFF cause 0 0 true (s.port p).peer)

/-- The link-local address of a MAC address, by the modified EUI-64 rule (R351). -/
def linkLocalOf (mac : BitVec 48) : BitVec 128 :=
  let m := mac.toNat
  let iid := (m / 2 ^ 24 * 2 ^ 40 + 0xFFFE * 2 ^ 24 + m % 2 ^ 24) ^^^ 2 ^ 57
  BitVec.ofNat 128 (0xFE80 * 2 ^ 112 + iid)

/-- The Gate enters UP: duplicate address detection begins on its addresses (R351). -/
def State.gateUpNow (s : State) : State :=
  let s := s.record { unit := uGate, clk := .reeve, code := 0x0231, sev := sevInfo }
  let own := linkLocalOf s.fuses.mac :: if s.boot.mod.isSome then [s.gate.addr] else []
  own.foldl (fun s a => (s.modGate fun g => { g with tx := g.tx + 1 }).send (.solicit a))
    (s.modGate fun g => { g with dadOk := false, llOk := false, linkLocalOnly := s.boot.mod.isNone })

/-- A port comes UP: its link layer starts afresh; routes that name it change (R338). -/
def State.portUp (s : State) (p : Nat) (tx rx : Byte) : State :=
  let s := s.modPort p fun x => { x with
    st := .up, txGood := tx, rxGood := rx, txWidth := widthOf (goodLanes tx), rxWidth := widthOf (goodLanes rx),
    nextSeq := 0, expected := 0, discard := false, replay := [], replayFrom := 0, replays := 0, replayEnd := none
    laneNext := 0, used := [], rxHeld := 0, rxPart := [] }
  if p == 16 then s.gateUpNow else s.holdFor p

def execTrainingDone (p : Fin 17) (found : Training) (s : State) : Host.Outcome State Fault Refusal :=
  let p := p.val
  if (s.port p).st != .training then .next s
  else
    let s := s.modPort p fun x => { x with peerMap := found.txGood, rxGood := found.rxGood
                                           seenPeer := if p == 16 then 0 else found.peer }
    let x := s.port p
    let tx := s.txLanes p
    let s := if p == 16 then s else s.send (.identity p s.fab.module s.fab.fabricId p found.rxGood)
    if p == 16 then
      if tx == 0xFF && found.rxGood == 0xFF then .next (s.portUp 16 tx found.rxGood)
      else .next (s.trainFail 16 0 (if s.laserInputs 16 < 2 then 0x04 else 0x01))
    else if found.peer != x.peer || found.peerPort != x.peerPort || found.fabricId != s.fab.fabricId then
      .next (s.trainFail p 0x0705 0x05)
    else if widthOf (goodLanes tx) == 0 || widthOf (goodLanes found.rxGood) == 0 then
      .next ((s.modPort p fun x => { x with txGood := tx }).trainFail p 0x0704 (if s.laserInputs p == 0 then 0x04 else 0x01))
    else .next (s.portUp p tx found.rxGood)

def execTrainLimitExpiry (p : Fin 17) (s : State) : Host.Outcome State Fault Refusal :=
  if (s.port p).st == .training then
    .next (s.trainFail p 0x0704 (if p.val == 16 && s.laserInputs 16 < 2 then 0x04 else 0x06))
  else .next s

/-- The Reeve starts a new attempt FAB_RETRAIN cycles after the port went DOWN. -/
def execFabRetrainExpiry (p : Fin 17) (s : State) : Host.Outcome State Fault Refusal :=
  if (s.port p).st == .down then .next (s.modPort p fun x => { x with st := .training }) else .next s

/-! ### Flits (R325 to R327) -/

/-- What the FEC met is counted, for the port and for each lane (R328). -/
def Port.countFec (x : Port) (f : Flit) : Port :=
  let lanes := f.corr.foldl (fun l e => smod {} e.1.toNat (fun l => { l with corr := satAdd 32 l.corr e.2 }) l) x.lanes
  { x with
    lanes := f.unc.foldl (fun l i => smod {} i.toNat (fun l => { l with unc := satAdd 16 l.unc 1 }) l) lanes
    cntFec := (x.cntFec + f.unc.length) % 2 ^ 32 }

/-- A flit arrives: in order it is taken and acknowledged; otherwise it is discarded, and the first one lost is NAKed. The
Gate's link carries no flits: there the row is what its FEC decoded, codewords corrected and not (log 98). -/
def execFlitReceive (p : Fin 17) (flit : Flit) (s : State) : Host.Outcome State Fault Refusal :=
  let x := s.port p
  if x.st != .up then .next s
  else if p.val == 16 then
    .next (s.modGate fun g => { g with
      fecC := (g.fecC + flit.corr.length) % 2 ^ 32, fecU := (g.fecU + flit.unc.length) % 2 ^ 32 })
  else
    let s := s.modPort p fun x => { x.countFec flit with flitsRx := (x.flitsRx + 1) % 2 ^ 32 }
    let nak (s : State) : State :=
      if x.discard then s
      else (s.modPort p fun x => { x with discard := true, cntNak := (x.cntNak + 1) % 2 ^ 32 }).send (.nak p x.expected)
    if !flit.fecOk then .next (nak s)
    else if !flit.crcOk then .next (nak (s.modPort p fun x => { x with cntCrc := (x.cntCrc + 1) % 2 ^ 32 }))
    else if !flit.idle && flit.seq != x.expected then .next (nak s)
    else
      let s := s.modPort p fun x => { x with
        expected := if flit.idle then x.expected else x.expected + 1
        discard := if flit.idle then x.discard else false
        rxHeld := if flit.idle then x.rxHeld else x.rxHeld + 1
        used := flit.credits.foldl (fun u c => smod 0 (chanKey c.1.toNat c.2.1) (· - c.2.2) u) x.used }
      let s := if flit.idle then s
        else s.modPort p fun x =>
          let (whole, rest) := takeFlit x.rxPart (flit.data.drop 8)
          { x with rxPkts := x.rxPkts ++ whole.toList, rxPart := rest }
      let s := if flit.idle then s else s.send (.ack p flit.seq)
      .next (s.drainPort p ((s.port p).queue.length))

/-- Flits up to seq are acknowledged. -/
def execFlitAck (p : Fin 17) (seq : BitVec 12) (s : State) : Host.Outcome State Fault Refusal :=
  let x := s.port p
  match x.replay.findIdx? fun f => f.seq == seq with
  | none => .next s
  | some i =>
    if x.st != .up then .next s
    else
      let s := s.modPort p fun x =>
        let rest := x.replay.drop (i + 1)
        { x with replay := rest, replays := 0, replayEnd := x.replayEnd.filter fun e => rest.any fun f => f.seq == e }
      .next (s.drainPort p ((s.port p).queue.length))

def execNak (p : Fin 17) (seq : BitVec 12) (s : State) : Host.Outcome State Fault Refusal :=
  let x := s.port p
  if x.st == .up && x.replay.any fun f => f.seq == seq then .next (s.startReplay p seq) else .next s

/-- The oldest flit has gone FAB_ACKTO cycles without an acknowledgement. -/
def execFabAcktoExpiry (p : Fin 17) (s : State) : Host.Outcome State Fault Refusal :=
  let x := s.port p
  match x.replay with
  | [] => .next s
  | f :: _ => if x.st == .up then .next (s.startReplay p f.seq) else .next s

/-- No flit for 4,096 cycles. The Gate's link carries no flits. -/
def execPortSilence (p : Fin 17) (s : State) : Host.Outcome State Fault Refusal :=
  if p.val == 16 then .next s else .next (s.portDown p 0x03)

/-! ### Lasers (R315 to R317, R349) -/

/-- Engines whose inputs come from source module m. -/
def enginesOf (m : Nat) : List Nat := (List.range 17).filter fun e => e % 4 != m

/-- The Gate needs two healthy inputs: it goes DOWN at once without them. Where that took it DOWN (the model notes cause 0x04,
which no register of the Gate shows), it trains again at once with them. -/
def State.gateLight (s : State) : State :=
  if s.laserInputs 16 < 2 then s.portDown 16 0x04
  else if (s.port 16).st == .down && (s.port 16).cause == 4 then s.modPort 16 fun x => { x with st := .training }
  else s

/-- A change of source module m reaches the engines it feeds. -/
def State.laserChanged (s : State) (m : Nat) : State :=
  (enginesOf m).foldl (fun s e => if e == 16 then s.gateLight else s.fitTx e 0x00) s

/-- Change a source module; losing its health counts and is recorded. While the rails are away nothing of the module sees it
(R493). -/
def State.setLaser (s : State) (m : Nat) (f : Laser → Laser) : State :=
  if s.boot.phase == .resetEntry then s.modLaser m fun l => (f l).afterReset
  else
  let old := (s.laser m).healthy
  let s := s.modLaser m f
  let new := (s.laser m).healthy
  let s := if old && !new then
      (s.modLaser m fun l => { l with losses := satAdd 16 l.losses 1 }).fabRecord (uLaser m) 0x0706 sevNotice 0xFF
        (linkDetail 0xFF 0x00 0 0 false 0xFFFF)
    else s
  if old == new then s else s.laserChanged m

def execLaserLoss (m : BitVec 2) (why : LaserWhy) (s : State) : Host.Outcome State Fault Refusal :=
  .next (s.setLaser m.toNat fun l => let l := { l with seen := true }; match why with
    | .absent => { l with present := false }
    | .disabled => { l with enabled := false }
    | .fault => { l with fault := true }
    | .lowPower => { l with lowPower := true })

/-- The source module is present, with no fault and enough power; it is healthy unless its outputs are disabled. -/
def execLaserRestore (m : BitVec 2) (s : State) : Host.Outcome State Fault Refusal :=
  .next (s.setLaser m.toNat fun l => { l with
    seen := true, present := true, fault := false, lowPower := false
    insertions := if l.present then l.insertions else satAdd 16 l.insertions 1 })

/-- FAB_LASER_CTL is written: the Reeve enables or disables the module's outputs and reads its state. -/
def State.laserCtl (s : State) (m : Nat) (v : Word) : State :=
  s.setLaser m fun l => { l with seen := true, enabled := v.getLsbD 0 }

def execFabLaserCtl (m : BitVec 2) (v : Word) (s : State) : Host.Outcome State Fault Refusal := .next (s.laserCtl m.toNat v)

/-! ### Packets (R319, R332 to R339) -/

/-- A generation lies 1 to 127 behind the one kept of a (peer, context) pair. -/
def State.staleGen (s : State) (m : ModuleNo) (c : CtxId) (g : Byte) : Bool :=
  match s.fab.kept.find? fun e => e.1 == m.toNat * 16 + c.toNat with
  | some (_, k) => let d := (k - g).toNat; 1 ≤ d && d ≤ 127
  | none => false

/-- A bell's arrival or release for this module is lost here: the sync unit of its bell records it, as the sender's does when
the notice comes (R270). -/
def State.lostHere (s : State) (q : Packet) : State :=
  match q.body with
  | .bellArrival _ b slot => s.syncRecord true b syncRemote ⟨9, .fabric q.hdr.src, some q.hdr.dctx, slot, 0⟩
  | .bellRelease b => s.syncRecord true b syncRemote ⟨0xA, .fabric q.hdr.src, some q.hdr.dctx, getF q.hdr.tag 32 16, 0⟩
  | _ => s

/-- A newer generation replaces the kept one. -/
def State.keepGen (s : State) (m : ModuleNo) (c : CtxId) (g : Byte) : State :=
  if s.staleGen m c g then s else s.modFab fun b => { b with kept := sset (m.toNat * 16 + c.toNat) g b.kept }

/-- The packet is the next whole one of its channel and class in the receive buffer of a port (R313, R337). -/
def Port.holds (x : Port) (q : Packet) : Bool :=
  (x.rxPkts.find? fun b => b[4]? == q.bytes[4]?) == some q.bytes

/-- A packet has left the receive buffer of port p: the credits of its flits go back, where the port is UP (R327). -/
def State.creditBack (s : State) (p : Nat) (q : Packet) : State :=
  let n := pktFlits q
  let s := s.modPort p fun x => { x with rxHeld := x.rxHeld - n, rxPkts := x.rxPkts.erase q.bytes }
  if (s.port p).st == .up then s.send (.credits p q.hdr.vc q.hdr.cls n) else s

/-- A packet whose flits have all arrived on port p is taken up. -/
def execPacketReceive (p : PortId) (pkt : Packet) (s : State) : Host.Outcome State Fault Refusal :=
  let h := pkt.hdr
  let drop (s : State) : State := s.modFab fun b => { b with drop := b.drop + 1 }
  if !(s.port p.toNat).holds pkt then .next s
  else
    let s := s.creditBack p.toNat pkt
    if h.vc.toNat ≥ 6 || !s.peers.contains h.src then .next (drop s)
    else
      let here := h.dest == s.fab.module || h.dest == 0xFFFF
      if here && !pkt.crcOk then .next ((s.lose p.toNat fabE2eCrc pkt).lostHere pkt)
      else if s.staleGen h.src h.sctx h.sgen then .next (s.modFab fun b => { b with stale := b.stale + 1 })
      else
        let s := s.keepGen h.src h.sctx h.sgen
        if here then .next (s.deliver pkt)
        else if h.hops.toNat + 1 > s.fab.hopsMax.toNat then .next (s.lose p.toNat fabExpired pkt)
        else
          let q := pkt.withHdr { h with hops := h.hops + 1 }
          match s.routePkt q with
          | some s => .next (s.modFab fun b => { b with transit := b.transit + 1 })
          | none => .next (s.lose p.toNat fabNoRoute q)

/-- The k-th packet queued at port p has waited more than LIFE. -/
def execPacketExpiry (p : PortId) (k : Nat) (s : State) : Host.Outcome State Fault Refusal :=
  match (s.port p.toNat).queue[k]? with
  | none => .next s
  | some q => .next ((s.modPort p.toNat fun x => { x with queue := x.queue.eraseIdx k }).lose p.toNat fabExpired q)

def execRouteHoldExpiry (dest : ModuleNo) (s : State) : Host.Outcome State Fault Refusal :=
  if s.fab.holds.contains dest then .next (s.endHold dest) else .next s

/-- A peer's context has a new generation: packets of the old one that wait here are dropped. -/
def execGenerationNotice (k : Nat) (s : State) : Host.Outcome State Fault Refusal :=
  match s.inboxAt k [0x41] with
  | none => .next s
  | some p =>
    match p.body with
    | .genNotice c g =>
      let s := (s.dropInbox k).keepGen p.hdr.src c g
      let old (q : Packet) : Bool := q.hdr.src == p.hdr.src && q.hdr.sctx == c && s.staleGen q.hdr.src c q.hdr.sgen
      .next (s.modFab fun b => { b with inbox := b.inbox.filter fun q => !old q
                                        arriving := b.arriving.filter fun q => !old q
                                        stale := b.stale + (b.inbox.filter old).length })
    | _ => .next s

end Sys2Proof.Machine
end

