-- ==== Sys2Proof/Machine/Image.lean ====
section
/-!
DEFINITION. The verification of images and the consistency check (15_boot_and_security.md, R440 to R447; Tables 6.5, 7.3,
9.4, 10.1, 11.2, 13.7). Where a table gives no order among the codes of one section, they run in the order in which
Table 15.8 lists them (log 41).
-/

namespace Sys2Proof.Machine

/-- A refusal of the consistency check: code, OBJECT, DETAIL bytes [55:40], section TYPE. -/
structure CfgErr where
  code : Reason
  obj : BitVec 32 := 0
  detail : BitVec 192 := 0
  typ : Nat := 0
deriving DecidableEq, Repr

/-- The first refusal of a list of checks. -/
def firstErr : List (Option CfgErr) → Option CfgErr
  | [] => none
  | some e :: _ => some e
  | none :: l => firstErr l

def errIf (b : Bool) (e : CfgErr) : Option CfgErr := if b then some e else none

/-- The first entry with property p, refused with its index as OBJECT. -/
def errAt {α : Type} (code : Reason) (typ : Nat) (l : List α) (p : Nat → α → Bool) : Option CfgErr :=
  ((List.range l.length).find? fun i => match l[i]? with | some x => p i x | none => false).map fun i =>
    ⟨code, BitVec.ofNat 32 i, 0, typ⟩

def whole : BitVec 32 := 0xFFFFFFFF

/-! ### Format (R444) -/

/-- Types of a KIND, and those required (Table 15.5). -/
def sectionTypes (kind : Byte) : List Nat × List Nat :=
  if kind == 1 then ([0x0001, 0x0002, 0x0003, 0x0004], [0x0001, 0x0002, 0x0003, 0x0004])
  else if kind == 2 then ([0x0101, 0x0102, 0x0103, 0x0104, 0x0105, 0x0106], [0x0101, 0x0102])
  else ([0x0201, 0x0202, 0x0203, 0x0204, 0x0205, 0x0206, 0x0207, 0x0208, 0x0209, 0x020A], [0x0201, 0x0202])

/-- Bytes of an image's trailer (R440). -/
def trailerBytes : Nat := 7232

/-- The format checks, for the KIND that the path presents; `recv` bytes were received (none: read from the NVM). A section lies
after the directory and before the trailer (R440, R444; log 166). -/
def formatErr (h : ImgHdr) (kind : Byte) (recv : Option Nat) : Option CfgErr :=
  let (ok, req) := sectionTypes kind
  let ts := h.dir.map fun d => d.typ.toNat
  firstErr [
    errIf (h.magic != 0x4C5A3849 || h.format != 0x0001 || !h.reservedZero || h.dir.any (fun d => !d.reservedZero) ||
      h.length % 64 != 0 || h.dir.isEmpty || decide (h.dir.length > 64)) { code := 0x0101 },
    errIf (h.kind != kind) { code := 0x0102 },
    errIf (ts.any (fun t => !ok.contains t) || ts.length != ts.eraseDups.length || req.any (fun t => !ts.contains t) ||
      h.dir.any (fun d => d.offset % 64 != 0 || decide (d.offset < 256 + 16 * h.dir.length) ||
        decide (d.offset + d.size + trailerBytes > h.length)) ||
      (List.range h.dir.length).any (fun i => (List.range i).any fun j =>
        match h.dir[i]?, h.dir[j]? with
        | some a, some b => decide (a.offset < b.offset + b.size) && decide (b.offset < a.offset + a.size)
        | _, _ => false)) { code := 0x0103 },
    errIf (decide (h.length > 0x1000000) || (match recv with | some n => decide (h.length > n) | none => false))
      { code := 0x0104 }]

/-! ### Verification (R441, Table 15.6) -/

def secSig : Reason := 0x0901
def secKey : Reason := 0x0902
def secRollback : Reason := 0x0903
def secTransfer : Reason := 0x0905

/-- Fingerprints accepted for a KIND. -/
def State.signers (s : State) (kind : Byte) : List Digest :=
  if kind == 1 then [s.fuses.vendorFp]
  else if kind == 2 then [s.nvm.owner]
  else s.nvm.owner :: (match s.boot.mod.bind (·.keys) with | some k => k.keys | none => [])

/-- Why an image does not verify; `sigOk` is the verdict of ML-DSA-87 on its signature (log 12). -/
def State.verifyErr (s : State) (h : ImgHdr) (kind : Byte) (sigOk : Bool) : Option Reason :=
  if !(s.signers kind).contains h.signer then some secKey
  else if !sigOk then some secSig
  else if kind == 1 && (decide (h.svn < s.nvm.fwSvn) || decide (h.svn < s.fuses.svnFloor)) then some secRollback
  else if kind == 2 && decide (h.svn < s.nvm.cfgSvn) then some secRollback
  else none

/-! ### Memory section (R195, R205, R208) -/

/-- Bytes of a region unit (Table 7.2), and units per die or module. -/
def regionUnit (win : Byte) : Nat := if win == 0 then 0x100000 else if win == 1 then 0x4000000 else 0x300000

def regionUnits (win : Byte) : Nat := if win == 0 then 512 else if win == 1 then 384 else 393216

def sameDie (a b : RegionEntry) : Bool := a.win == b.win && (a.win == 2 || a.die == b.die)

def regionsMeet (a b : RegionEntry) : Bool := sameDie a b && decide (a.base < b.limit) && decide (b.base < a.limit)

/-- The hosted ranges: module-reserved Granary. -/
def State.reserved (s : State) : List (Nat × Nat) :=
  match s.boot.mod.bind (·.snap) with
  | some x => x.hosted.map fun h => (h.base, h.len)
  | none => []

/-- Contexts that are loaded, other than c. -/
def State.otherLoaded (s : State) (c : CtxId) : List CtxId := allCtx.filter fun d => d != c && (s.ctx d).st != .empty

/-- Every Cellar region lies below the explicit limit of a fraction. -/
def cellarFits (f : BitVec 3) (rs : List RegionEntry) : Bool :=
  rs.all fun r => r.win != 1 || decide (r.limit * 0x4000000 ≤ explicitLimit f)

/-- The fraction that would apply to an image of context c. -/
def State.cfracFor (s : State) (c : CtxId) (img : CtxImage) : BitVec 3 :=
  if !(s.otherLoaded c).isEmpty then s.cfrac
  else if img.header.cfrac == 7 then
    ([4, 3, 2, 1].find? fun f => cellarFits f img.memory.regions).getD 0
  else img.header.cfrac

/-- The memory section (Table 7.3). Where two entries of the image overlap, OBJECT is the index of the later one (DESIGN
CHOICE, log 142). -/
def State.memErr (s : State) (c : CtxId) (img : CtxImage) : Option CfgErr :=
  let m := img.memory
  let rs := m.regions
  let t := 0x0202
  let others := (s.otherLoaded c).flatMap (fun d => (s.ctx d).mem.regions) ++
    allCtx.flatMap fun d => (s.ctx d).rst.keepRegions.map (·.2)
  let f := s.cfracFor c img
  let owns (ppn : Nat) : Bool := rs.any fun r => r.win == 2 && decide (r.base * 48 ≤ ppn) && decide (ppn < r.limit * 48)
  firstErr [
    errIf (decide (rs.length > 32)) ⟨0x0144, whole, 0, t⟩,
    errAt 0x0144 t rs fun _ r => decide (r.win.toNat > 2) || (r.win != 2 && decide (r.die.toNat > 7)) || !r.reservedZero,
    errIf (decide (m.salt.toNat > 15) && m.salt != 0xFF) ⟨0x0144, whole, 0, t⟩,
    errAt 0x0141 t rs fun _ r => decide (r.base ≥ r.limit) || decide (r.limit > regionUnits r.win) || (r.w && !r.r),
    errAt 0x0140 t rs fun i r =>
      (rs.take i).any (regionsMeet r) || others.any (regionsMeet r) ||
        (r.win == 2 && s.reserved.any fun h =>
          decide (r.base * 0x300000 < h.1 + h.2) && decide (h.1 < r.limit * 0x300000)),
    errIf (!(s.otherLoaded c).isEmpty && img.header.cfrac != 7 && img.header.cfrac != s.cfrac) ⟨0x0142, whole, 0, t⟩,
    errAt 0x0142 t rs fun _ r => r.win == 1 && decide (r.limit * 0x4000000 > explicitLimit f),
    errIf (rs.any (fun r => r.win == 2) && (m.ptroot % 2 == 1 || !owns m.ptroot)) ⟨0x0143, whole, 0, t⟩]

/-! ### Context header (R63, R65, Table 15.8) -/

def State.headErr (s : State) (_c : CtxId) (img : CtxImage) : Option CfgErr :=
  let h := img.header
  let kept := allCtx.flatMap fun d => (s.ctx d).rst.keepQuads.map (·.2)
  let t := 0x0201
  firstErr [
    errIf (h.quads.length != h.quads.eraseDups.length ||
      h.quads.any fun q => (s.quadCtx q.toNat).isSome || kept.contains q.toNat) ⟨0x0110, 0, 0, t⟩,
    errIf h.quads.isEmpty ⟨0x0111, 0, 0, t⟩,
    errIf (h.threads.isEmpty || h.threads.any fun x => x.entry.toNat % 4 != 0 || x.tvec.toNat % 256 != 0) ⟨0x0112, 0, 0, t⟩,
    errIf (!h.reservedZero || h.cfrac == 5 || h.cfrac == 6) ⟨0x0113, 0, 0, t⟩]

/-- The region conditions of CFG_THREAD, after the memory section has passed. -/
def entryErr (img : CtxImage) : Option CfgErr :=
  let rs := img.memory.regions
  let inX (win die unit : Nat) : Bool := rs.any fun r =>
    r.x && r.win.toNat == win && r.die.toNat == die && decide (r.base ≤ unit) && decide (unit < r.limit)
  errIf (img.header.threads.any fun x =>
    let a := x.entry.toNat
    if isLarder a then !inX 0 ((a - 0x200000000) / 0x20000000) ((a - 0x200000000) % 0x20000000 / 0x100000)
    else if isCellar a then !inX 1 ((a - 0x1000000000) / 0x800000000) ((a - 0x1000000000) % 0x800000000 / 0x4000000)
    else if 0x100000000000 ≤ a && a < 0x200000000000 then !rs.any fun r => r.win == 2 && r.x
    else true) ⟨0x0112, 0, 0, 0x0201⟩

/-! ### Sync section (R252, R253) -/

def grantBell (g : Grant) : Bool := g.kind == 2

/-- Objects of a grant (Table 9.2). -/
def grantObjs (g : Grant) : Nat × Nat :=
  let per := if (grantBell g) then 512 else 4096
  (g.die.toNat * per + g.first, g.count)

def grantHolds (g : Grant) (bell : Bool) (id : Nat) : Bool :=
  (grantBell g) == bell && decide ((grantObjs g).1 ≤ id) && decide (id < (grantObjs g).1 + (grantObjs g).2)

def syncGranted (y : SyncSection) (bell : Bool) (id : Nat) : Bool := y.grants.any fun g => grantHolds g bell id

/-- A tally granted to the image in counting mode. -/
def syncCounting (y : SyncSection) (id : Nat) : Bool := y.grants.any fun g => grantHolds g false id && !g.latch

def syncEntry (y : SyncSection) (b : Nat) : Option BellEntry := y.bells.find? fun e => e.bell == b

/-- The parent of a bell on this module. -/
def syncParent (y : SyncSection) (self : ModuleNo) (b : Nat) : Option Nat :=
  match syncEntry y b with
  | some e => if e.pbell != 0xFFFF && (e.pmodule == 0xFFFF || e.pmodule == self) then some e.pbell.toNat else none
  | none => none

/-- The top of a bell's chain of parents on this module; none where the chain returns. -/
def syncTop (y : SyncSection) (self : ModuleNo) : Nat → Nat → Option Nat
  | 0, _ => none
  | fuel + 1, b => match syncParent y self b with | some p => syncTop y self fuel p | none => some b

/-- Thread participants of a bell itself, with its RLEAVES. -/
def syncLeaves (y : SyncSection) (self : ModuleNo) (b : Nat) : Nat :=
  let (n, r, l) := match syncEntry y b with | some e => (e.count, e.rchild, e.rleaves) | none => (1, 0, 0)
  n - r - (y.bells.filter fun e => syncParent y self e.bell == some b).length + l

/-- Thread participants of the tree under a root, which need not have an entry of its own (COUNT 1). -/
def syncSpan (y : SyncSection) (self : ModuleNo) (root : Nat) : Nat :=
  let below := (y.bells.map (·.bell)).filter fun b => syncTop y self (y.bells.length + 1) b == some root
  ((if below.contains root then below else root :: below).map (syncLeaves y self)).foldl (· + ·) 0

/-- The first failing row of Table 9.4 (R253). Of two entries that conflict OBJECT names the later one, and of an oversized tree
whose root has no entry, the child's entry (DESIGN CHOICE, log 142). -/
def State.syncErr (s : State) (img : CtxImage) : Option CfgErr :=
  let y := img.sync
  let self := s.fab.module
  let t := 0x0203
  let kept := allCtx.flatMap fun d => (s.ctx d).rst.keepObjs.map (·.2)
  firstErr [
    errIf (decide (y.grants.length > 32) || decide (y.bells.length > 4096)) ⟨0x0150, whole, 0, t⟩,
    errAt 0x0150 t y.grants fun _ g =>
      (g.kind != 1 && g.kind != 2) || decide (g.die.toNat > 7) || g.count == 0 ||
        decide (g.first + g.count > (if (grantBell g) then 512 else 4096)) || !g.reservedZero || ((grantBell g) && (g.latch || g.remote)),
    errAt 0x0151 t y.grants fun i g =>
      let (a, n) := (grantObjs g)
      ((y.grants.take i ++ kept).any fun h => (grantBell h) == (grantBell g) && decide (a < (grantObjs h).1 + (grantObjs h).2) && decide ((grantObjs h).1 < a + n)) ||
        (if (grantBell g) then s.sync.bells.any fun e => e.2.assigned && grantHolds g true e.1
         else s.sync.tallies.any fun e => e.2.assigned && grantHolds g false e.1),
    errAt 0x0152 t y.bells fun i e =>
      !syncGranted y true e.bell || (y.bells.take i).any (fun f => f.bell == e.bell) || e.count == 0 || decide (e.count > 4096) ||
        decide (e.rchild > e.count) || (e.rleaves != 0 && e.rchild == 0),
    errAt 0x0153 t y.bells fun i e =>
      match syncParent y self e.bell with
      | some p =>
        let (n, r) := match syncEntry y p with | some q => (q.count, q.rchild) | none => (1, 0)
        !syncGranted y true p || decide (e.pindex ≥ n - r) ||
          (y.bells.take i).any (fun f => syncParent y self f.bell == some p && f.pindex == e.pindex) ||
          (syncTop y self (y.bells.length + 1) e.bell).isNone ||
          ((syncEntry y p).isNone && decide (syncSpan y self p > 2 ^ 20))
      | none =>
        e.pbell == 0xFFFF && decide (syncSpan y self e.bell > 2 ^ 20)]

/-! ### Tensor table (R181) -/

/-- The state as it would stand with the image's regions, for the checks of places. -/
def State.asIf (s : State) (c : CtxId) (img : CtxImage) : State :=
  { s.modCtxMem c fun m => { m with regions := img.memory.regions } with cfrac := s.cfracFor c img }

/-- n bytes from a lie in the image's Larder or explicit Cellar regions. -/
def State.placed (s : State) (c : CtxId) (a n : Nat) (rw larderOnly : Bool) : Bool :=
  n != 0 && (isLarder a || (!larderOnly && isCellar a)) &&
    (isLarder a == isLarder (a + n - 1)) &&
    (if isLarder a then unitsOf (a - 0x200000000) (a - 0x200000000 + n - 1) 0x100000
     else unitsOf (a - 0x1000000000) (a - 0x1000000000 + n - 1) 0x4000000).all fun u =>
      match (s.ctx c).mem.region (if isLarder a then 0 else 1) (u / 512) (u % 512) with
      | some r => !rw || (r.r && r.w)
      | none => false

def tensorErrAt (s : State) (c : CtxId) (ts : List TensorEntry) (i : Nat) (e : TensorEntry) : Option CfgErr :=
  let mk (code : Reason) : CfgErr := ⟨code, BitVec.ofNat 32 e.id.toNat, det 40 2 i ||| det 42 2 0xFFFF, 0x0204⟩
  firstErr [
    errIf ((e.kind != 1 && e.kind != 2) || !e.reservedZero) (mk 0x0132),
    errIf (e.id == 0 || e.id == 0xFFFF || (ts.take i).any fun f => f.id == e.id || f.name == e.name) (mk 0x0131),
    errIf (decide (e.actFmt.toNat ≥ 0xB) || decide (e.gbufFmt.toNat > 1)) (mk 0x0133),
    errIf (if e.kind == 1 then e.gbufLen == 0 || e.gbufBase.toNat % 64 != 0 || e.gbufLen.toNat % 64 != 0 ||
        !s.placed c e.gbufBase.toNat e.gbufLen.toNat false false
      else e.gbufBase != 0 || e.gbufLen != 0 || e.gbufFmt != 0) (mk 0x0134)]

def State.tensorErr (s : State) (c : CtxId) (img : CtxImage) : Option CfgErr :=
  let ts := tensorTable img
  let s' := s.asIf c img
  let n := ts.length
  firstErr ([errIf (decide (n > 4096) || tensorBytes img % 32 != 0) ⟨0x0132, whole, det 40 2 0xFFFF ||| det 42 2 0xFFFF, 0x0204⟩] ++
    ((List.range n).map fun i => match ts[i]? with | some e => tensorErrAt s' c ts i e | none => none) ++
    ((List.range n).flatMap fun i => (List.range n).map fun j =>
      match ts[i]?, ts[j]? with
      | some a, some b =>
        errIf (decide (i < j) && a.kind == 1 && b.kind == 1 && decide (a.gbufBase.toNat < b.gbufBase.toNat + b.gbufLen.toNat) &&
          decide (b.gbufBase.toNat < a.gbufBase.toNat + a.gbufLen.toNat))
          ⟨0x0130, BitVec.ofNat 32 a.id.toNat, det 40 2 i ||| det 42 2 j, 0x0204⟩
      | _, _ => none))

/-! ### Reduction section and queues (R279, R341) -/

def isPow2 (n : Nat) : Bool := n != 0 && 2 ^ n.log2 == n

/-- The rules of Table 10.1 row 6. -/
def State.queueBad (s : State) (c : CtxId) (img : CtxImage) (q : QueueCfg) : Bool :=
  let s' := s.asIf c img
  q.base.toNat % 64 != 0 || !isPow2 q.slots || decide (q.slots < 16) || decide (q.slots > 4096) ||
    !s'.placed c q.base.toNat (q.slots * 64) true true || !syncCounting img.sync q.tally

/-- ceil(log2 n). -/
def clog2 (n : Nat) : Nat := if n ≤ 1 then 0 else (n - 1).log2 + 1

/-- n bytes from a physical Granary address lie in one Granary entry of the image. -/
def granInside (img : CtxImage) (a n : Nat) : Bool :=
  img.memory.regions.any fun r => r.win == 2 && decide (r.base * 0x300000 ≤ a) && decide (a + n ≤ r.limit * 0x300000)

def State.ringErr (s : State) (c : CtxId) (img : CtxImage) : Option CfgErr :=
  match img.red with
  | none => none
  | some x =>
    let rs := x.rings
    let t := 0x0205
    firstErr [
      errIf (decide (rs.length > 8) || !x.reservedZero) ⟨0x0160, whole, 0, t⟩,
      errAt 0x0160 t rs fun _ r => !r.reservedZero || !r.kindOk,
      errAt 0x0161 t rs fun _ r =>
        let d := r.members.length
        let ms := r.members.map (·.module)
        decide (d < 2) || decide (d > 1024) ||
          (r.twoD && (r.nrow * r.ncol != d || decide (r.nrow < 2) || decide (r.ncol < 2))) ||
          ms.length != ms.eraseDups.length || !ms.contains s.fab.module,
      errAt 0x0162 t rs fun _ r =>
        let ps := (r.members.filter fun m => !m.shadow).map (·.shard)
        let ss := (r.members.filter fun m => m.shadow).map (·.shard)
        ps.length != ps.eraseDups.length || ps.any (fun x => decide (x ≥ ps.length)) || ss.any (fun x => !ps.contains x) ||
          ss.length != ss.eraseDups.length,
      errAt 0x0163 t rs fun _ r => decide (r.h < clog2 r.members.length) || decide (r.h > 20),
      errAt 0x0164 t rs fun _ r =>
        r.deadline == 0 || decide (r.timeout ≤ r.deadline) || decide (r.pmargin > 7) || r.maxBuckets == 0 ||
          decide (r.maxBuckets > 4095),
      errIf (s.queueBad c img x.queue) ⟨0x0165, whole, 0, t⟩,
      errAt 0x0166 t rs fun _ r =>
        decide (r.digestLen < 64 * r.maxBuckets * 384) || !granInside img (r.digestFrame * 0x10000) r.digestLen]

def State.putqErr (s : State) (c : CtxId) (img : CtxImage) : Option CfgErr :=
  match img.putq with
  | some q => errIf (s.queueBad c img q) ⟨0x0174, whole, 0, 0x0206⟩
  | none => none

/-! ### Feed section (R371) -/

/-- The feed ring: physical base and bytes. -/
def feedRing (img : CtxImage) : Option (Nat × Nat) :=
  match img.feed with
  | some f =>
    match img.memory.regions[f.region]? with
    | some r => some (r.base * 0x300000, f.nslots * f.slot)
    | none => none
  | none => none

def State.feedErr (s : State) (img : CtxImage) : Option CfgErr :=
  match img.feed with
  | none => none
  | some f =>
    let t := 0x0207
    let ringBad := match img.memory.regions[f.region]? with
      | some r => r.win != 2 || decide ((r.limit - r.base) * 0x300000 < f.nslots * f.slot)
      | none => true
    let keyBad := match s.gate.keys[f.key]? with
      | some k => k.role != some .feed
      | none => true
    firstErr [
      errIf ringBad ⟨0x01A0, 0, 0, t⟩,
      errIf (!syncCounting img.sync f.ready || !syncCounting img.sync f.free) ⟨0x01A1, 0, 0, t⟩,
      errIf (!f.reservedZero || keyBad || !isPow2 f.nslots || decide (f.nslots < 16) || decide (f.nslots > 65536) ||
        f.slot == 0 || f.slot % 0x10000 != 0 || decide (f.slot > 0x4000000) || f.window == 0 || decide (f.window > 64))
        ⟨0x01A2, 0, 0, t⟩]

/-! ### Snapshot sections (Table 13.7) -/

/-- Location of an area's first byte. -/
def areaLoc (a : AreaCfg) : Nat :=
  if a.win == 0 then 0x200000000 + a.die.toNat * 0x20000000 + a.base
  else if a.win == 1 then 0x1000000000 + a.die.toNat * 0x800000000 + a.base
  else granLoc a.base

/-- n bytes from a place lie in regions of the image. -/
def inImage (img : CtxImage) (win die : Byte) (base n : Nat) : Bool :=
  n != 0 && (unitsOf base (base + n - 1) (regionUnit win)).all fun u =>
    img.memory.regions.any fun r => r.win == win && (win == 2 || r.die == die) && decide (r.base ≤ u) && decide (u < r.limit)

def rangesMeet (a b : Nat × Nat) : Bool := decide (a.1 < b.1 + b.2) && decide (b.1 < a.1 + a.2) && a.2 != 0 && b.2 != 0

def snapErr (img : CtxImage) : Option CfgErr :=
  match img.snap with
  | none => none
  | some x =>
    let t := 0x0208
    let stage := (granLoc x.stageBase, x.stageLen)
    let ring := match feedRing img with | some r => (granLoc r.1, r.2) | none => (0, 0)
    let total := (x.areas.map (·.len)).foldl (· + ·) 0
    firstErr [
      errIf (!x.reservedZero || decide (x.period > 65535) || (x.period != 0 && decide (x.phase ≥ x.period)) ||
        decide (x.extEvery > 255) || x.quiesce == 0 || decide (x.quiesce > 0xFFFFFFFF) || x.sendLimit == 0 ||
        decide (x.sendLimit > 3600000) || x.areas.isEmpty || decide (x.areas.length > 16) || decide (x.signers.length > 8) ||
        x.areas.any fun a => decide (a.win.toNat > 2)) ⟨0x0120, whole, 0, t⟩,
      errIf (!syncGranted img.sync true x.stepBell || !syncCounting img.sync x.captureTally || !syncCounting img.sync x.commitTally)
        ⟨0x0123, whole, 0, t⟩,
      errAt 0x0122 t x.areas fun i a =>
        a.base % 0x400000 != 0 || a.len % 0x400000 != 0 || !inImage img a.win a.die a.base a.len ||
          (x.areas.take i).any (fun b => rangesMeet ((areaLoc a), a.len) ((areaLoc b), b.len)) ||
          rangesMeet ((areaLoc a), a.len) stage || rangesMeet ((areaLoc a), a.len) ring,
      errIf (x.stageLen != 0 && (x.stageBase % 0x400000 != 0 || x.stageLen % 0x400000 != 0 || decide (x.stageLen < total) ||
        !inImage img 2 0 x.stageBase x.stageLen || rangesMeet stage ring)) ⟨0x0122, whole, 0, t⟩]

/-- Rows 3 and CFG_PAIR_DATA of the module snapshot section, which SCHED runs again. -/
def pairErr (own : Option (BitVec 32)) (x : ModSnapSection) : Option CfgErr :=
  let t := 0x0103
  match own with
  | none => errIf (x.partner != 0xFFFF || !x.hosted.isEmpty) ⟨0x0126, whole, 0, t⟩
  | some f => firstErr [
      errIf (x.partner != 0xFFFF && x.partnerFeed == f) ⟨0x0121, whole, 0, t⟩,
      errAt 0x0121 t x.hosted fun _ h => h.clientFeed == f]

/-- Table 13.7 rows 1 to 4 for a module image; `live` asks for the overlap with loaded contexts. -/
def State.modSnapErr (s : State) (m : ModImage) (live : Bool) : Option CfgErr :=
  match m.snap with
  | none => none
  | some x =>
    let t := 0x0103
    let peers := m.fabric.routes.map (·.dest)
    let self := m.fabric.module
    firstErr [
      errIf (!x.reservedZero || decide (x.hosted.length > 4)) ⟨0x0120, whole, 0, t⟩,
      errAt 0x0120 t x.hosted fun _ h => decide (h.len < 0x6400000) || h.keep == 0 || decide (h.keep > 8),
      errIf (x.partner != 0xFFFF && (x.partner == self || !peers.contains x.partner)) ⟨0x0125, whole, 0, t⟩,
      errAt 0x0125 t x.hosted fun i h => h.client == self || (x.hosted.take i).any fun g => g.client == h.client,
      pairErr s.boot.ownFeed x,
      errAt 0x0124 t x.hosted fun i h =>
        h.base % 0x400000 != 0 || h.len % 0x400000 != 0 || decide (h.base + h.len > 0x12000000000) ||
          (x.hosted.take i).any (fun g => rangesMeet (h.base, h.len) (g.base, g.len)) ||
          (live && allCtx.any fun c => (s.ctx c).st != .empty && (s.ctx c).mem.regions.any fun r =>
            r.win == 2 && rangesMeet (h.base, h.len) (r.base * 0x300000, (r.limit - r.base) * 0x300000))]

/-! ### Recovery section (R429) -/

def recoveryErr (img : CtxImage) : Option CfgErr :=
  match img.recovery with
  | none => none
  | some r =>
    let n := match img.red with | some x => x.rings.length | none => 0
    errIf (!r.reservedZero || r.joinHold == 0 || decide (r.joinHold > 0xFFFFFFFF) ||
      (List.range 8).any fun i => r.switch.getLsbD i && decide (i ≥ n)) ⟨0x0190, 0, 0, 0x0209⟩

/-! ### Fabric section (R320) -/

/-- Row 2 for a port. -/
def portBad (self : ModuleNo) (p : PortCfg) : Bool := p.peer == self || decide (p.peerPort.toNat > 15)

def State.fabErr (s : State) (f : FabSection) (live : Bool) : Option CfgErr :=
  let t := 0x0101
  let ds := f.routes.map (·.dest)
  firstErr [
    errIf (f.module == 0xFFFF || f.fabricId == 0 || !f.reservedZero) ⟨0x0170, whole, 0, t⟩,
    errAt 0x0171 t f.ports fun _ p => p.enable && portBad f.module p,
    errIf (decide (f.routes.length > 4096)) ⟨0x0172, whole, 0, t⟩,
    errAt 0x0172 t f.routes fun i r => r.dest == f.module || (ds.take i).contains r.dest || r.cands.isEmpty ||
      decide (r.cands.length > 4) || r.cands.any fun p => match f.ports[p.toNat]? with | some x => !x.enable | none => true,
    errIf (decide (f.life < 1024) || decide (f.life > 1048575) || decide (f.hopsMax < 1) || decide (f.hopsMax > 15) ||
      decide (f.hold < f.hopsMax * f.life) || f.weights.any (· == 0) || f.weights.any (fun w => decide (w > 15)) ||
      decide (f.snapcap > 50)) ⟨0x0173, whole, 0, t⟩,
    errAt 0x0171 t f.ports fun i p => live && p.enable && s.laserInputs i == 0]

/-! ### Gate section (R350) -/

/-- A global unicast address: not unspecified, loopback, link-local, unique local or multicast. -/
def globalUnicast (a : BitVec 128) : Bool :=
  a != 0 && a != 1 && getF a 120 8 != 0xFF && getF a 118 10 != 0x3FA && getF a 121 7 != 0x7E

def State.gateErr (s : State) (g : GateSection) (live : Bool) : Option CfgErr :=
  let t := 0x0102
  let macs := g.keys.map (·.mac)
  firstErr [
    errIf (!globalUnicast g.addr || decide (g.prefixLen < 1) || decide (g.prefixLen > 127)) ⟨0x0180, 0, 0, t⟩,
    errIf (g.keys.isEmpty || decide (g.keys.length > 16) || g.keys.any (fun k => k.role.isNone) ||
      macs.length != macs.eraseDups.length || !g.keys.any fun k => k.role == some .control) ⟨0x0181, 0, 0, t⟩,
    errIf (g.port == 0) ⟨0x0182, 0, 0, t⟩,
    errIf (live && decide (s.laserInputs 16 < 2)) ⟨0x0183, 0, 0, t⟩]

/-! ### Whole images -/

/-- Image keys, and the transfer section (0x01.04). -/
def keysErr (m : ModImage) : Option CfgErr :=
  firstErr [
    (match m.keys with
      | some k => errIf (!k.reservedZero || decide (k.keys.length > 8)) ⟨0x0104, 0, 0, 0x0104⟩
      | none => none),
    (match m.transfer with
      | some x => errIf (!x.reservedZero) ⟨0x0104, 0, 0, 0x0105⟩
      | none => none)]

/-- The sections of a module image, in type order; `live` asks for the conditions on the module's present state. -/
def State.modErr (s : State) (m : ModImage) (live : Bool) : Option CfgErr :=
  firstErr [s.fabErr m.fabric live, s.gateErr m.gate live, s.modSnapErr m live, keysErr m]

/-- The transfer section's key has the wrong length (Table 15.15). -/
def transferBad (m : ModImage) : Bool := match m.transfer with | some x => x.key.length != 2592 | none => false

/-- The sections of a context image, in type order. -/
def State.ctxErr (s : State) (c : CtxId) (img : CtxImage) : Option CfgErr :=
  firstErr [s.headErr c img, s.memErr c img, entryErr img, s.syncErr img, s.tensorErr c img, s.ringErr c img, s.putqErr c img,
    s.feedErr img, snapErr img, recoveryErr img]

/-! ### Records (R445, R464) -/

def uBoot : UnitId := 0x0D00
def uVault : UnitId := 0x0D10

/-- The record of a refusal with a CFG code. -/
def State.cfgRecord (s : State) (e : CfgErr) (trigger : Nat) (ctx : Option CtxId) : State :=
  s.record { unit := uBoot, clk := .reeve, code := e.code, sev := sevError, ctx := ctx, obj := e.obj,
             detail := e.detail ||| det 56 2 e.typ ||| det 58 1 trigger }

/-- The severity of a SEC code that refuses something (Table 15.15). -/
def secSev (code : Reason) : Byte := if code == 0x0908 || code == 0x0909 then sevModuleFatal else sevError

/-- A record with a SEC code: image KIND, slot, SVN, trigger. -/
def State.secRecord (s : State) (code : Reason) (sev : Byte) (ctx : Option CtxId) (kind : Option Nat) (slot svn trigger : Nat) :
    State :=
  s.record { unit := uVault, clk := .reeve, code := code, sev := sev, ctx := ctx,
             obj := match kind with | some k => BitVec.ofNat 32 k | none => noObj,
             detail := det 40 1 slot ||| det 41 4 svn ||| det 45 1 trigger }

end Sys2Proof.Machine
end

