-- ==== Sys2Proof/Machine/RedOps.lean ====
section
/-!
DEFINITION. Operations of the reduction engines (10_gradient_reduction.md): ring positions and those of dead members
(14_faults_and_recovery.md, Switchover), chunks, contributions, the way of a frame, the end of a pass and of a bucket.

A frame is addressed to a position of the ring; the packet's TAG names it, because a member that carries a dead position
receives for both (log 40).
-/

namespace Sys2Proof.Machine

def redRegFormat : Reason := 0x0601
def redBreach : Reason := 0x0602
def redRegRange : Reason := 0x0603
def redRegOverlap : Reason := 0x0604
def redRegStep : Reason := 0x0605
def redRegDup : Reason := 0x0606
def redNonfinite : Reason := 0x0607
def redLate : Reason := 0x0608
def redShadowTaken : Reason := 0x0609
def redShadowDiff : Reason := 0x060A
def redTimeoutCode : Reason := 0x060B
def redRepassFail : Reason := 0x060C
def redSrcEcc : Reason := 0x060D
def redFab : Reason := 0x060E
def redRegDefer : Reason := 0x060F
def cfgTiedTensor : Reason := 0x0130

/-! ### Rings (R275, R276, Switchover) -/

def State.ring (s : State) (c : CtxId) (r : Nat) : Option RingSt := (s.ctx c).rings[r]?

/-- Number of positions. -/
def RingSt.d (r : RingSt) : Nat := r.members.length

def RingSt.memberAt (r : RingSt) (p : Nat) : Member := (r.members[p]?).getD ⟨0, false, 0⟩

/-- Position of a module. -/
def RingSt.pos (r : RingSt) (m : ModuleNo) : Nat := (r.members.findIdx? fun x => x.module == m).getD 0

def RingSt.isDead (r : RingSt) (p : Nat) : Bool := r.dead.contains (r.memberAt p).module

/-- The live position that carries position p: itself, or its live successor. -/
def RingSt.host (r : RingSt) (p : Nat) : Nat :=
  (((List.range r.d).map fun i => (p + i) % r.d).find? fun q => !r.isDead q).getD p

/-- Positions that position p carries. -/
def RingSt.hosted (r : RingSt) (p : Nat) : List Nat := (List.range r.d).filter fun q => r.host q == p

/-- Shards of the ring. -/
def RingSt.shards (r : RingSt) : Nat := (r.cfg.members.filter fun m => !m.shadow).length

/-- A roll in which nothing is decided; a shard with no live member is DROPPED (R421). -/
def RingSt.baseRoll (r : RingSt) : List (BitVec 2) :=
  (List.range r.shards).map fun i => if r.dropped.contains i then 3 else 0

/-- Columns and rows of the grid; a one-dimensional ring is one row. -/
def RingSt.ncol (r : RingSt) : Nat := if r.cfg.twoD then max 1 r.cfg.ncol else r.d
def RingSt.nrow (r : RingSt) : Nat := if r.cfg.twoD then max 1 r.cfg.nrow else 1

/-- Neighbour along the row, and along the column. -/
def RingSt.rowNext (r : RingSt) (v : Nat) : Nat := v / r.ncol * r.ncol + (v % r.ncol + 1) % r.ncol
def RingSt.colNext (r : RingSt) (v : Nat) : Nat := (v / r.ncol + 1) % r.nrow * r.ncol + v % r.ncol

/-- (a - b) mod n. -/
def modDiff (a b n : Nat) : Nat := (a + (n - b % n)) % n

/-! ### Chunks (R290) -/

def ceilDiv (a b : Nat) : Nat := (a + b - 1) / b

/-- Elements [lo, hi) of row chunk x, or of chunk c of a one-dimensional ring. -/
def RingSt.chunkRange (r : RingSt) (l x : Nat) : Nat × Nat :=
  let q := ceilDiv l (64 * r.ncol) * 64
  (min l (x * q), min l ((x + 1) * q))

/-- Elements [lo, hi) of part y of row chunk x. -/
def RingSt.partRange (r : RingSt) (l x y : Nat) : Nat × Nat :=
  let qr := ceilDiv l (64 * r.ncol) * 64
  let qc := ceilDiv qr (64 * r.nrow) * 64
  let hi := (r.chunkRange l x).2
  (min hi (x * qr + y * qc), min hi (x * qr + (y + 1) * qc))

/-- Range of a frame's chunk or part. -/
def RingSt.rangeOf (r : RingSt) (l phase chunk : Nat) : Nat × Nat :=
  if phase == 5 || phase == 6 then r.partRange l (chunk / r.nrow) (chunk % r.nrow) else r.chunkRange l chunk

/-! ### Buckets -/

/-- The bucket's element count: of its registration, or of the shadow's copy, else as in the bucket's last step. A late member
that knows none of them has a free value: the manual lets it forward every chunk (R298) and says not from what it knows the
chunks' bounds (log 160). -/
def State.elemsOf (s : State) (b : Bucket) : Nat :=
  match b.reg, b.copy with
  | some r, _ => r.elems
  | none, some (x :: bytes, bf, _, _) => (x :: bytes).length / (if bf then 2 else 4)
  | none, _ =>
    match (s.ctx b.ctx).red.hist.find? fun h => h.ring == b.ring && h.id == b.id && h.elems != 0 with
    | some h => h.elems
    | none => (Config.lateElems b.ctx b.ring b.id b.step).toNat

def State.histOf (s : State) (c : CtxId) (ring : Nat) (id : BitVec 16) : Option Hist :=
  (s.ctx c).red.hist.find? fun h => h.ring == ring && h.id == id

/-- Change, or start, the history of a bucket. -/
def State.modHist (s : State) (c : CtxId) (ring : Nat) (id : BitVec 16) (f : Hist → Hist) : State :=
  s.modRedCtx c fun x =>
    if x.hist.any fun h => h.ring == ring && h.id == id then
      { x with hist := x.hist.map fun h => if h.ring == ring && h.id == id then f h else h }
    else { x with hist := x.hist ++ [f { ring := ring, id := id, step := 0 }] }

def State.bucket (s : State) (e k : Nat) : Option Bucket :=
  ((s.redEng e).slots.find? fun x => x.1 == k).map (·.2)

def State.setBucket (s : State) (e k : Nat) (b : Bucket) : State :=
  s.modRedEng e fun x => { x with slots := sset k b x.slots }

def State.freeBucket (s : State) (e k : Nat) : State := s.modRedEng e fun x => { x with slots := sdel k x.slots }

/-- The slot of a bucket, in any engine. -/
def State.findBucket (s : State) (c : CtxId) (ring : Nat) (id : BitVec 16) (step : BitVec 32) : Option (Nat × Nat) :=
  (List.range 8).findSome? fun e =>
    ((s.redEng e).slots.find? fun x => x.2.ctx == c && x.2.ring == ring && x.2.id == id && x.2.step == step).map
      fun x => (e, x.1)

/-- This member's role in force. -/
def State.myShadow (s : State) (r : RingSt) : Bool := (r.memberAt (r.pos s.fab.module)).shadow

def State.myShard (s : State) (r : RingSt) : Nat := (r.memberAt (r.pos s.fab.module)).shard

/-- Two's complement of a 16-bit field. -/
def int16 (v : Int) : Nat := (v % 2 ^ 16).toNat

/-- The phase a bucket stands in (Table 10.5): that of the last frame handled; before any, the one its pass begins with. -/
def Bucket.phaseNow (b : Bucket) : Nat := if b.phase != 0 then b.phase else if b.pre && b.e.isNone then 1 else 3

/-- The largest local exponent that this member has seen entered. -/
def Bucket.maxexpNow (b : Bucket) : Int :=
  (b.totals ++ b.rows.map (·.2)).foldl (fun m f => max m f.hdr.maxexp) (if b.pre then b.e.getD (-126) else -126)

/-- The chunk of the first total that p holds of. -/
def Bucket.chunkWhere (b : Bucket) (p : FrameHdr → Bool) : Nat :=
  match b.totals.find? fun f => p f.hdr with | some f => f.hdr.chunk | none => 0xFFFFFFFF

/-- A record of engine e (R309); PHASE 0x00 is that of a registration. -/
def State.redRecord (s : State) (e : Nat) (b : Bucket) (code : Reason) (sev : Byte) (phase : Nat := 0)
    (chunk : Nat := 0xFFFFFFFF) : State :=
  let r := s.ring b.ctx b.ring
  let pos := match r with | some r => r.pos s.fab.module | none => 0
  let m := match r with | some r => r.memberAt pos | none => ⟨0, true, 0⟩
  let h := match r with | some r => r.cfg.h | none => 0
  let s := s.record {
    unit := uRed e, clk := .uncore, code := code, sev := sev, ctx := some b.ctx,
    obj := BitVec.ofNat 32 (b.id.toNat + b.ring % 8 * 2 ^ 16),
    detail := det 40 4 b.step.toNat ||| det 44 1 b.pass.toNat ||| det 45 1 phase ||| det 46 2 pos |||
      det 48 2 (int16 (b.e.getD 0)) ||| det 50 2 (int16 b.maxexpNow) ||| det 52 1 h |||
      det 53 1 (match b.outcome with | some o => o.toNat | none => 0) |||
      det 54 2 (if m.shadow then 0xFFFF else m.shard) ||| det 56 4 chunk |||
      det 60 4 (match b.reg with | some g => g.k | none => 0xFFFFFFFF) }
  let n := (s.ctx b.ctx).red.notify
  if sev.toNat ≥ 2 && n.getLsbD 30 && n.getLsbD 31 then s.doorbell (n.toNat % 8192) else s

/-! ### Contributions (R284, R286, R292, R302) -/

/-- The slot holds a pending value. -/
def State.pendingDefer (s : State) (b : Bucket) : Bool :=
  match s.histOf b.ctx b.ring b.id with | some h => h.pendingDefer | none => false

/-- Steps of the bucket in flight that use a group. -/
def State.deferUsers (s : State) (b : Bucket) : List (BitVec 32) :=
  (List.range 8).flatMap fun e => ((s.redEng e).slots.filter fun x =>
    x.2.usesDefer && x.2.ctx == b.ctx && x.2.ring == b.ring && x.2.id == b.id).map (·.2.step)

/-- Step a is not after step b. -/
def stepLe (a b : BitVec 32) : Bool := decide ((b - a).toNat < 2 ^ 31)

/-- The group that a bucket uses: the groups of earlier steps stand before it. -/
def State.deferIndex (s : State) (b : Bucket) : Nat := ((s.deferUsers b).filter fun x => x != b.step && stepLe x b.step).length

/-- FP32 bytes of elements lo to lo + n - 1 of the group that a bucket uses. -/
def State.deferPart (s : State) (b : Bucket) (slot lo n : Nat) : List Byte :=
  match s.deferIndex b, s.histOf b.ctx b.ring b.id with
  | i + 1, some h => (((h.later[i]?).getD []).drop (4 * lo)).take (4 * n)
  | _, _ => s.peek (slot + 4 * lo) (4 * n)

def State.strictOf (s : State) (c : CtxId) : Bool := match (s.ctx c).img with | some i => i.header.strict | none => false

/-- n source elements from element lo. -/
def decodeElems (strict bf : Bool) (bs : List Byte) (n : Nat) : List FVal :=
  let w := if bf then 2 else 4
  (List.range n).map fun i => fread (if bf then bf16 else fp32) strict (leNat ((bs.drop (w * i)).take w))

/-- An FP32 value of the deferral slot plus a source value, by RNE under the mode (R302). -/
def deferAdd (strict : Bool) (a b : FVal) : Nat := (fround ⟨fp32, strict, false⟩ .rne (fadd a b).1).1

/-- The lowest poisoned unit of n bytes from a location. -/
def State.firstPoison (s : State) (l n : Nat) : Option Nat := (s.poison.filter fun u => decide (u < l + n) && s.poisonIn l n &&
  decide (l < u + unitBytes u)).min?

/-- The lowest unit with an uncorrectable error in what a bucket reads of its deferral slot. -/
def State.slotPoison (s : State) (b : Bucket) (slot lo n : Nat) : Option Nat :=
  if s.deferIndex b == 0 then s.firstPoison (slot + 4 * lo) (4 * n) else none

/-- Elements lo to lo + n - 1 of the contribution: the registered source, with the pending deferral where it is used, or
the shadow's copy; none where a read meets an uncorrectable error. -/
def State.contrib (s : State) (b : Bucket) (lo n : Nat) : Option (List FVal) :=
  let strict := s.strictOf b.ctx
  match b.outcome, b.copy, b.reg with
  | some 1, some (bytes, bf, _, _), _ =>
    let w := if bf then 2 else 4
    some (decodeElems strict bf ((bytes.drop (w * lo)).take (w * n)) n)
  | some 0, _, some r =>
    let w := if r.bf16 then 2 else 4
    if s.poisonIn (r.src + w * lo) (w * n) || (b.usesDefer && (s.slotPoison b r.defer lo n).isSome) then none
    else
      let g := decodeElems strict r.bf16 (s.peek (r.src + w * lo) (w * n)) n
      if b.usesDefer then
        let d := decodeElems strict false (s.deferPart b r.defer lo n) n
        some ((g.zip d).map fun x => fread fp32 strict (deferAdd strict x.2 x.1))
      else some g
  | _, _, _ => some (List.replicate n (.fin false 0 0))

/-- local_exponent of R284. -/
def localExp (g : List FVal) : Int :=
  match blockLog g with
  | none => -126
  | some l => min 128 (max (-126) (l + 1))

/-- The member adds values to its frames. -/
def Bucket.adds (b : Bucket) : Bool := b.outcome == some 0 || b.outcome == some 1

/-- The member's contribution is fixed and at hand. -/
def Bucket.ready (b : Bucket) (shadow : Bool) : Bool :=
  shadow || (match b.outcome with
    | some 0 => b.reg.isSome
    | some 1 => b.copy.isSome
    | some _ => true
    | none => false)

/-- The contribution's local exponent; none where a read meets an uncorrectable error. -/
def State.contribExp (s : State) (b : Bucket) : Option Int :=
  match b.outcome, b.copy, b.reg with
  | some 1, some (_, _, e, _), _ => some e
  | some 0, _, some r => (s.contrib b 0 r.elems).map localExp
  | _, _, _ => some (-126)

/-- One word of add() of R292: word, breach. -/
def addWord (w q : Int) : Int × Bool :=
  let lim : Int := 2 ^ 31 - 1
  let q' := max (-lim) (min lim q)
  let t := w + q'
  let t' := max (-lim) (min lim t)
  (t', decide (q' ≠ q) || decide (t' ≠ t))

/-- RNE of g × 2^(30 - h - e), not bounded; 0 for NaN and infinities. -/
def quantise (h : Nat) (e : Int) : FVal → Int
  | .fin neg m x =>
    let q : Int := roundTo .rne m (x + 30 - h - e) 0
    if neg then -q else q
  | _ => 0

/-- This member's roll entry in a roll. -/
def enterRoll (roll : List (BitVec 2)) (shard : Nat) (o : BitVec 2) : List (BitVec 2) := roll.set shard o

/-- add() of R292 on a frame at the member's own position, with its roll entry in a frame that carries the roll. -/
def State.addFrame (s : State) (r : RingSt) (b : Bucket) (l : Nat) (f : Frame) : Frame :=
  let shadow := s.myShadow r
  let f := if f.roll.isEmpty || shadow then f
    else { f with roll := enterRoll f.roll (s.myShard r) (b.outcome.getD 0) }
  if shadow then f
  else if b.srcfail then { f with hdr := { f.hdr with srcfail := true } }
  else if !b.adds then f
  else
    let lo := (r.rangeOf l f.hdr.phase.toNat f.hdr.chunk).1 + f.hdr.offset
    match s.contrib b lo f.words.length, s.contribExp b with
    | some g, some e =>
      let ws := (f.words.zip g).map fun x => addWord x.1 (quantise f.hdr.h f.hdr.e x.2)
      { f with words := ws.map (·.1)
               hdr := { f.hdr with breach := f.hdr.breach || ws.any (·.2)
                                   nonfinite := f.hdr.nonfinite || g.any fun v => !isFin v
                                   maxexp := max f.hdr.maxexp e } }
    | _, _ => { f with hdr := { f.hdr with srcfail := true } }

/-! ### Digests (R305) -/

def sentDigest (id : BitVec 16) (step : BitVec 32) (bf : Bool) (elems : Nat) (src : List Byte) : BitVec 256 :=
  shake256 (leBytes id.toNat 2 ++ leBytes step.toNat 4 ++ [if bf then 1 else 0] ++ leBytes elems 4 ++ src)

def recvDigest (id : BitVec 16) (step : BitVec 32) (pass : Byte) (e : Int) (h : Nat) (ws : List Int) : BitVec 256 :=
  shake256 (leBytes id.toNat 2 ++ leBytes step.toNat 4 ++ [pass] ++ leBytes (int16 e) 2 ++ [BitVec.ofNat 8 h] ++
    ws.flatMap fun w => leBytes (intBits 32 w) 4)

/-- An entry's 384 bytes: identity (BUCKET_ID, STEP, ring; the layout of its 32 bytes is the model's, log 144), SENT, RECV,
roll, 32 zeros. -/
def DigEntry.bytes (d : DigEntry) : List Byte :=
  leBytes d.id.toNat 2 ++ leBytes d.step.toNat 4 ++ leBytes d.ring 1 ++ leBytes 0 25 ++ leBytes d.sent.toNat 32 ++
    leBytes d.recv.toNat 32 ++ leBytes (packF 2 (d.roll.map (·.toNat))) 256 ++ leBytes 0 32

/-- Place of a bucket's entry in its ring's store (R306). -/
def State.digLoc (s : State) (c : CtxId) (ring : Nat) (id : BitVec 16) (step : BitVec 32) : Option Nat :=
  (s.ring c ring).map fun r =>
    granLoc (r.cfg.digestFrame * 0x10000 + (step.toNat % 64 * r.cfg.maxBuckets + id.toNat - 1) * 384)

/-- The entry that the store holds of a bucket's step. -/
def State.digEntry (s : State) (c : CtxId) (ring : Nat) (id : BitVec 16) (step : BitVec 32) : Option DigEntry :=
  match s.digLoc c ring id step, s.ring c ring with
  | some l, some r =>
    if id == 0 || decide (r.cfg.maxBuckets < id.toNat) || s.poisonIn l 384 then none
    else
      let bs := s.peek l 384
      if byteField bs 0 2 == id.toNat && byteField bs 2 4 == step.toNat && byteField bs 6 1 == ring then
        some { ring := ring, id := id, step := step, sent := BitVec.ofNat 256 (byteField bs 32 32)
               recv := BitVec.ofNat 256 (byteField bs 64 32)
               roll := (List.range r.shards).map fun i => BitVec.ofNat 2 (byteField bs (96 + i / 4) 1 >>> (2 * (i % 4))) }
      else none
  | _, _ => none

/-- The entry of a bucket is read, at its home cache (R206). -/
def State.digRead (s : State) (c : CtxId) (ring : Nat) (id : BitVec 16) (step : BitVec 32) : State :=
  match s.digLoc c ring id step with | some l => s.readVia l 384 | none => s

/-- Digests of a bucket go into the store, by physical address, in place of those of 64 steps before. -/
def State.putDigest (s : State) (c : CtxId) (ring : Nat) (id : BitVec 16) (step : BitVec 32) (f : DigEntry → DigEntry) :
    State :=
  match s.digLoc c ring id step with
  | some l => s.pokeVia l (f ((s.digEntry c ring id step).getD { ring := ring, id := id, step := step })).bytes
  | none => s

/-! ### Results (R287, R288, R293) -/

/-- Tensor entry of a registration. -/
def State.tensorOf (s : State) (c : CtxId) (id : BitVec 16) : Option TensorEntry :=
  (s.ctx c).img.bind fun i => (tensorTable i).find? fun t => t.id == id

/-- grad_fmt (Table 6.4). -/
def gradFmt (t : TensorEntry) : BitVec 4 := if t.keep16 then 0x1 else t.actFmt

/-- Bits of a result element: half a byte for MXFP4, else a whole number of bytes. -/
def resBits (f : BitVec 4) : Nat := elemBits f

/-- Result bytes and scale bytes of the totals. -/
def resultBytes (f : BitVec 4) (strict nonfinite : Bool) (h : Nat) (e : Int) (ws : List Int) : List Byte × List Byte :=
  let n := ws.length
  if isMx f then
    let blocks := (List.range (n / 32)).map fun i =>
      if nonfinite then (0xFF, List.replicate 32 0)
      else
        let vs := ((ws.drop (32 * i)).take 32).map fun w => ofScaled w (e + h - 30)
        let (x, els, _) := mxBlock f strict vs (List.replicate 32 .rne)
        (x, els)
    (leBytes (packF (resBits f) (blocks.flatMap (·.2))) (n * resBits f / 8), blocks.map fun b => BitVec.ofNat 8 b.1)
  else
    match fspec f with
    | some sp =>
      (leBytes (packF (resBits f) (ws.map fun w => if nonfinite then sp.nanBits else (wireBack sp strict h e w).1))
        (n * resBits f / 8), [])
    | none => ([], [])

/-- Location of a registration record. -/
def State.slotLoc (s : State) (c : CtxId) (k : Nat) : Option Nat :=
  ((s.ctx c).img.bind (·.red)).map fun r => r.queue.base.toNat + k % r.queue.slots * 64

/-- STATUS and INFO of a registration record (Tables 10.2, 10.4). -/
def State.writeStatus (s : State) (c : CtxId) (k : Nat) (status info : Nat) : State :=
  match s.slotLoc c k with
  | some l => s.poke (l + 56) (leBytes status 4 ++ leBytes info 4)
  | none => s

/-- STATUS bits of an ended bucket. SHADOW is the member's whose shard took the copy; at the shadow that gave it the bit stays
clear (DESIGN CHOICE, log 161). -/
def statusBits (b : Bucket) (reason : Reason) (nonfinite undef : Bool) : Nat :=
  reason.toNat + (if b.pass.getLsbD 0 then 2 ^ 16 else 0) + (if nonfinite then 2 ^ 17 else 0) +
    (if b.late then 2 ^ 18 else 0) + (if b.outcome == some 1 then 2 ^ 19 else 0) +
    (if b.outcome == some 2 then 2 ^ 20 else 0) + (if b.outcome == some 3 then 2 ^ 21 else 0) +
    (if b.diff then 2 ^ 22 else 0) + (if undef then 2 ^ 23 else 0) + 2 ^ 31

/-- INFO (Table 10.2). -/
def infoBits (e : Int) (h : Nat) : Nat := int16 e + h * 2 ^ 16

/-- Totals in element order. -/
def RingSt.words (r : RingSt) (l : Nat) (fs : List Frame) : List Int :=
  (List.range r.ncol).flatMap fun c =>
    let n := (r.chunkRange l c).2 - (r.chunkRange l c).1
    (List.range ((n + 1023) / 1024)).flatMap fun i =>
      match fs.find? fun f => f.hdr.chunk == c && f.hdr.offset == 1024 * i with
      | some f => f.words
      | none => []

/-! ### Deferral slots (R302, R303, R424)

Deferred values form groups: the first is in the slot, each further one is kept beside it, because a step in flight uses those
before it and what it reads may not change (R303). A value deferred joins the last group while no step uses that one. -/

/-- The groups of a bucket. -/
def State.deferGroups (s : State) (b : Bucket) (g : RegRec) : List (List Byte) :=
  match s.histOf b.ctx b.ring b.id with
  | some h => if h.pendingDefer then s.peek g.defer (4 * g.elems) :: h.later else []
  | none => []

/-- The groups become these; a slot with none is cleared. -/
def State.setDefer (s : State) (b : Bucket) (g : RegRec) (gs : List (List Byte)) : State :=
  let slot := (gs.head?).getD (List.replicate (4 * g.elems) 0)
  let s := if s.peek g.defer (4 * g.elems) == slot then s else s.poke g.defer slot
  s.modHist b.ctx b.ring b.id fun h => { h with pendingDefer := !gs.isEmpty, later := gs.drop 1 }

/-- The sum of two groups, elementwise by RNE under the mode. -/
def groupAdd (strict : Bool) (x y : List Byte) : List Byte :=
  let v (z : List Byte) := decodeElems strict false z (z.length / 4)
  ((v x).zip (v y)).flatMap fun e => leBytes (deferAdd strict e.1 e.2) 4

/-- A value joins the last group, or starts one where u steps use every group. -/
def groupFill (strict : Bool) (gs : List (List Byte)) (u : Nat) (x : List Byte) : List (List Byte) :=
  match gs.getLast? with
  | some y => if u < gs.length then gs.dropLast ++ [groupAdd strict y x] else gs ++ [x]
  | none => [x]

/-- A contribution is deferred (R302, R424). -/
def State.fillDefer (s : State) (b : Bucket) (r : RegRec) : State :=
  let strict := s.strictOf b.ctx
  let w := if r.bf16 then 2 else 4
  let g := decodeElems strict r.bf16 (s.peek r.src (w * r.elems)) r.elems
  s.setDefer b r (groupFill strict (s.deferGroups b r) (s.deferUsers b).length
    (g.flatMap fun v => leBytes (fround ⟨fp32, strict, false⟩ .rne v).1 4))

/-- A bucket that used a group ends: it is used up where the bucket completes, and stays pending where an error ends it. -/
def State.deferDone (s : State) (b : Bucket) (g : RegRec) (complete : Bool) : State :=
  if !b.usesDefer then s
  else
    let i := s.deferIndex b
    let gs := s.deferGroups b g
    let rest := gs.eraseIdx i
    s.setDefer b g (if complete then rest
      else groupFill (s.strictOf b.ctx) rest ((s.deferUsers b).length - 1) ((gs[i]?).getD []))

/-- The roll entry of this member's shard, where a roll has come. -/
def State.myEntry (s : State) (r : RingSt) (b : Bucket) : Option (BitVec 2) := b.roll[s.myShard r]?

/-- The next registered step of a bucket takes up a pending value that no step uses. -/
def State.passDefer (s : State) (b : Bucket) (g : RegRec) : State :=
  if (s.deferGroups b g).length ≤ (s.deferUsers b).length then s
  else
    match (List.range 64).findSome? fun i => (s.findBucket b.ctx b.ring b.id (b.step + 1 + BitVec.ofNat 32 i)).filter fun x =>
        match s.bucket x.1 x.2 with | some n => n.reg.isSome && !n.filled && !n.usesDefer | none => false with
    | some (e, k) => match s.bucket e k with | some n => s.setBucket e k { n with usesDefer := true } | none => s
    | none => s

/-- At a shadow under DEFER, the roll's entry says what becomes of its slot (R424). Where it is TAKEN the primary's contribution
held its pending value, and the shadow's own, marked to be used by that bucket, is used up as the bucket ends; otherwise the value
stays for the next step, and a DEFERRED entry adds the shadow's own copy to it. -/
def State.shadowDefer (s : State) (e k : Nat) (r : RingSt) : State :=
  match s.bucket e k with
  | none => s
  | some b =>
    match b.reg, s.myEntry r b with
    | some g, some o =>
      if !s.myShadow r || r.cfg.drop || b.filled || o == 0 then s
      else
        let n := g.elems * (if g.bf16 then 2 else 4)
        let strict := s.strictOf b.ctx
        let i := s.deferIndex b
        let gs := s.deferGroups b g
        let s := if b.usesDefer then
            match gs[i]?, gs[i + 1]? with
            | some x, some y => s.setDefer b g ((gs.eraseIdx i).set i (groupAdd strict x y))
            | _, _ => s
          else s
        let s := s.setBucket e k { b with filled := true, usesDefer := false }
        let s := if o != 2 then s
          else match s.firstPoison g.src n, if s.pendingDefer b then s.firstPoison g.defer (4 * g.elems) else none with
            | none, none => s.fillDefer b g
            | some l, _ => s.eccRecord l l (uRed e) (some b.ctx) none
            | none, some l => s.eccRecord l l (uRed e) (some b.ctx) none
        s.passDefer b g
    | _, _ => s

/-- A bucket ends by an error: STATUS with RES_UNDEFINED, the signal, the slot freed; without a registration it waits
for one. -/
def State.redBad (s : State) (e k : Nat) (b : Bucket) (code : Reason) (sev : Byte) : State :=
  let s := match s.ring b.ctx b.ring with | some r => (s.setBucket e k b).shadowDefer e k r | none => s
  let b := (s.bucket e k).getD b
  let s := s.redRecord e b code sev b.phaseNow (b.chunkWhere fun h => if code == redSrcEcc then h.srcfail else h.breach)
  let s := match b.reg with
    | some r => (((s.deferDone b r false).writeStatus b.ctx r.k (statusBits b code false true)
        (infoBits (b.e.getD 0) ((s.ring b.ctx b.ring).map (·.cfg.h) |>.getD 0))).hubSignal b.ctx r.doneTally).freeBucket e k
    | none => s.setBucket e k { b with ended := true, bad := some code, waiting := [], totals := [], rows := [] }
  if sev == sevCtxFatal then s.ctxFault b.ctx code else s

/-- BUCKET_COMPLETE: the results, STATUS, the history, the digests, the signal (R293, R295, R302, R305). -/
def State.redComplete (s : State) (e k : Nat) (b : Bucket) (r : RingSt) (g : RegRec) : State :=
  let nonfinite := b.totals.any (·.hdr.nonfinite)
  let ws := r.words g.elems b.totals
  let pe := b.e.getD 0
  let maxexp := b.totals.foldl (fun m f => max m f.hdr.maxexp) (-126)
  let s := match s.tensorOf b.ctx g.tensor with
    | some t =>
      let (rs, sc) := resultBytes (gradFmt t) (s.strictOf b.ctx) nonfinite r.cfg.h pe ws
      if sc.isEmpty then s.poke g.res rs else (s.poke g.res rs).poke g.scale sc
    | none => s
  let s := s.putDigest b.ctx b.ring b.id b.step fun d => { d with
    recv := recvDigest b.id b.step b.pass pe r.cfg.h ws, roll := b.roll }
  let s := (s.setBucket e k b).shadowDefer e k r
  let s := s.deferDone ((s.bucket e k).getD b) g true
  let s := s.modHist b.ctx b.ring b.id fun h => { h with done := some b.step, eHist := if nonfinite then h.eHist else some maxexp }
  let s := if nonfinite then
      (s.redRecord e b redNonfinite sevError 4 (b.chunkWhere (·.nonfinite))).modRedEng e fun x =>
        { x with errNonfinite := satAdd 16 x.errNonfinite 1 }
    else s
  let s := s.modRedEng e fun x => { x with cntBucket := (x.cntBucket + 1) % 2 ^ 32 }
  ((s.writeStatus b.ctx g.k (statusBits b 0 nonfinite false) (infoBits pe r.cfg.h)).freeBucket e k).hubSignal b.ctx
    g.doneTally

/-! ### The way of a frame (R289 to R294) -/

/-- Every frame of chunk c of a phase, with its words by `f` of the element's offset. -/
def framesOf (h : FrameHdr) (roll : List (BitVec 2)) (n : Nat) (f : Nat → Int) : List Frame :=
  if n == 0 then [⟨{ h with offset := 0 }, [], roll⟩]
  else (List.range ((n + 1023) / 1024)).map fun i =>
    ⟨{ h with offset := 1024 * i }, (List.range (min 1024 (n - 1024 * i))).map fun j => f (1024 * i + j),
      if i == 0 then roll else []⟩

/-- Header of a frame that this member starts. -/
def Bucket.hdr (b : Bucket) (r : RingSt) (phase : Byte) (chunk : Nat) : FrameHdr :=
  { bucket := b.id, ring := BitVec.ofNat 3 b.ring, step := b.step, pass := b.pass, phase := phase, breach := false,
    nonfinite := false, srcfail := false, h := r.cfg.h, e := b.e.getD 0, maxexp := -126, chunk := chunk, offset := 0 }

/-- TAG of a reduction packet: position, ring, BUCKET_ID, STEP (log 40). -/
def redTag (ring v : Nat) (id : BitVec 16) (step : BitVec 32) : Word :=
  BitVec.ofNat 64 (v % 1024 + ring % 8 * 2 ^ 10 + id.toNat * 2 ^ 16 + step.toNat * 2 ^ 32)

/-- Send a frame to a position. -/
def State.sendFrame (s : State) (e : Nat) (b : Bucket) (r : RingSt) (v : Nat) (f : Frame) : State :=
  let m := (r.memberAt (r.host v)).module
  let s := s.modRedEng e fun x => { x with cntBytes := x.cntBytes + 4 * f.words.length }
  s.sendPkt (s.mkPkt m b.ctx b.ctx (b.id ^^^ BitVec.ofNat 16 f.hdr.chunk) (uRed e) (redTag b.ring v b.id b.step)
    (.frame f.hdr f.words f.roll))

/-- The frames listed cover n elements. -/
def covers (fs : List Frame) (n : Nat) : Bool :=
  !fs.isEmpty && decide ((fs.map fun f => f.words.length).foldl (· + ·) 0 = n)

/-- Row total frames that position v holds of its row chunk. -/
def Bucket.rowTotal (b : Bucket) (v : Nat) : List Frame :=
  (b.rows.filter fun x => x.1 == v && x.2.hdr.phase == 3).map (·.2)

/-- Part total frames of a part that position v holds. -/
def Bucket.partTotal (b : Bucket) (v chunk : Nat) : List Frame :=
  (b.rows.filter fun x => x.1 == v && x.2.hdr.phase == 6 && x.2.hdr.chunk == chunk).map (·.2)

/-- The row's pre-round result at position v. -/
def Bucket.rowResult (b : Bucket) (v : Nat) : Option Frame :=
  (b.rows.find? fun x => x.1 == v && x.2.hdr.phase == 2).map (·.2)

/-- Words of frames by element offset. -/
def wordAt (fs : List Frame) (i : Nat) : Int :=
  match fs.find? fun f => decide (f.hdr.offset ≤ i) && decide (i < f.hdr.offset + f.words.length) with
  | some f => (f.words[i - f.hdr.offset]?).getD 0
  | none => 0

/-- OR and maximum of headers. -/
def mergeHdr (h : FrameHdr) (fs : List Frame) : FrameHdr :=
  { h with breach := h.breach || fs.any (·.hdr.breach), nonfinite := h.nonfinite || fs.any (·.hdr.nonfinite)
           srcfail := h.srcfail || fs.any (·.hdr.srcfail), maxexp := fs.foldl (fun m f => max m f.hdr.maxexp) h.maxexp }

/-- Rolls combined entry by entry. -/
def mergeRoll (a b : List (BitVec 2)) : List (BitVec 2) :=
  if a.isEmpty then b else if b.isEmpty then a else (a.zip b).map fun x => x.1 ||| x.2

/-- The roll that frames carry. -/
def rollOf (fs : List Frame) : List (BitVec 2) := fs.foldl (fun a f => mergeRoll a f.roll) []

/-- What one frame leads to: the bucket, frames sent on (position, frame). -/
abbrev Hop := Bucket × List (Nat × Frame)

/-- A final total is kept once. -/
def Bucket.total (b : Bucket) (f : Frame) : Bucket :=
  if b.totals.any fun x => x.hdr.chunk == f.hdr.chunk && x.hdr.offset == f.hdr.offset then b
  else { b with totals := b.totals ++ [f], roll := if f.roll.isEmpty then b.roll else f.roll }

/-- Position v holds every part of its row chunk: the assembled totals go round the row (R291, phase 4). -/
def assemble (r : RingSt) (l v : Nat) (b : Bucket) : Hop :=
  let x := (v % r.ncol + 1) % r.ncol
  let parts := (List.range r.nrow).map fun y => (y, b.partTotal v (x * r.nrow + y))
  if parts.all fun p => covers p.2 ((r.partRange l x p.1).2 - (r.partRange l x p.1).1) then
    let all := parts.flatMap (·.2)
    let lo := (r.chunkRange l x).1
    let word (i : Nat) : Int :=
      ((parts.find? fun p => decide ((r.partRange l x p.1).1 ≤ lo + i) && decide (lo + i < (r.partRange l x p.1).2)).map
        fun p => wordAt p.2 (lo + i - (r.partRange l x p.1).1)).getD 0
    let h := mergeHdr { (b.hdr r 4 x) with e := b.e.getD 0 } all
    let fs := framesOf h (rollOf all) ((r.chunkRange l x).2 - lo) word
    (fs.foldl (fun b f => b.total f) b, fs.map fun f => (r.rowNext v, f))
  else (b, [])

/-- A frame at position v, where `own` is this member's position: none where it must wait. -/
def State.hop (s : State) (r : RingSt) (own : Nat) (b : Bucket) (v : Nat) (f : Frame) : Option Hop :=
  let shadow := s.myShadow r
  let ph := f.hdr.phase.toNat
  let nc := r.ncol
  let nr := r.nrow
  let x := v % nc
  let y := v / nc
  let col := f.hdr.chunk == 1
  if ph == 1 then
    -- pre-round gather; CHUNK 1 marks a column's circuit
    if col then
      match b.rowResult v with
      | none => none
      | some res =>
        let f := { f with hdr := { f.hdr with maxexp := max f.hdr.maxexp res.hdr.maxexp }, roll := mergeRoll f.roll res.roll }
        if y == nr - 1 then
          let g := { f with hdr := { f.hdr with phase := 2 } }
          some (if v == own then { b with e := some f.hdr.maxexp, roll := f.roll } else b, [(r.colNext v, g)])
        else some (b, [(r.colNext v, f)])
    else if v == own && !b.ready shadow then none
    else
      let f := if v == own && !shadow then
          { f with hdr := { f.hdr with maxexp := max (b.keepE.getD (-126))
                                         (if b.adds then max f.hdr.maxexp ((s.contribExp b).getD (-126)) else f.hdr.maxexp)
                                       srcfail := f.hdr.srcfail || b.srcfail || (b.adds && (s.contribExp b).isNone) }
                   roll := enterRoll f.roll (s.myShard r) (b.outcome.getD 0) }
        else f
      if x == nc - 1 then
        let g := { f with hdr := { f.hdr with phase := 2 } }
        let b := if r.cfg.twoD then { b with rows := b.rows ++ [(v, g)] }
          else if v == own then { b with e := some f.hdr.maxexp, roll := f.roll } else b
        some (b, [(r.rowNext v, g)])
      else some (b, [(r.rowNext v, f)])
  else if ph == 2 then
    if col then
      let b := if v == own then { b with e := some f.hdr.maxexp, roll := f.roll } else b
      some (b, if y == (nr + nr - 2) % nr then [] else [(r.colNext v, f)])
    else
      let b := if r.cfg.twoD then { b with rows := b.rows ++ [(v, f)] }
        else if v == own then { b with e := some f.hdr.maxexp, roll := f.roll } else b
      some (b, if x == (nc + nc - 2) % nc then [] else [(r.rowNext v, f)])
  else
      let l := s.elemsOf b
      if ph == 3 then
        if v == own && !b.ready shadow then none
        else
          let f := if v == own then s.addFrame r b l f else f
          if modDiff x f.hdr.chunk nc == nc - 1 then
            if r.cfg.twoD then
              let b := { b with rows := b.rows ++ [(v, f)] }
              let n := (r.chunkRange l f.hdr.chunk).2 - (r.chunkRange l f.hdr.chunk).1
              -- the whole row total is here: this position starts its part of the column's pass
              if covers (b.rowTotal v) n then
                let ck := f.hdr.chunk * nr + y
                let (lo, hi) := r.partRange l f.hdr.chunk y
                some (b, (framesOf { (b.hdr r 5 ck) with e := f.hdr.e, h := f.hdr.h }
                  (r.baseRoll.map fun _ => 0) (hi - lo) fun _ => 0).map fun g => (v, g))
              else some (b, [])
            else some (b.total f, [(r.rowNext v, { f with hdr := { f.hdr with phase := 4 } })])
          else some (b, [(r.rowNext v, f)])
      else if ph == 4 then
        some (b.total f, if modDiff x f.hdr.chunk nc == (nc + nc - 2) % nc then [] else [(r.rowNext v, f)])
      else if ph == 5 then
        let xc := f.hdr.chunk / nr
        let p := f.hdr.chunk % nr
        let rt := b.rowTotal v
        let clo := (r.chunkRange l xc).1
        if !covers rt ((r.chunkRange l xc).2 - clo) then none
        else
          let lo := (r.partRange l xc p).1 + f.hdr.offset - clo
          let ws := (List.range f.words.length).map fun i => addWord ((f.words[i]?).getD 0) (wordAt rt (lo + i))
          let h := mergeHdr f.hdr rt
          let f := { f with words := ws.map (·.1), hdr := { h with breach := h.breach || ws.any (·.2) }
                            roll := if f.roll.isEmpty then [] else mergeRoll f.roll (rollOf rt) }
          if modDiff y p nr == nr - 1 then
            let g := { f with hdr := { f.hdr with phase := 6 } }
            let (b, out) := assemble r l v { b with rows := b.rows ++ [(v, g)] }
            some (b, (r.colNext v, g) :: out)
          else some (b, [(r.colNext v, f)])
      else
        let p := f.hdr.chunk % nr
        let (b, out) := assemble r l v { b with rows := b.rows ++ [(v, f)] }
        some (b, (if modDiff y p nr == (nr + nr - 2) % nr then [] else [(r.colNext v, f)]) ++ out)

/-- An uncorrectable error in a source read after the outcome is fixed: the memory unit's record, and SRCFAIL in every frame
of the member from now on (R304). -/
def State.sourceFail (s : State) (e k l : Nat) : State :=
  match s.bucket e k with
  | some b => (s.eccRecord l l (uRed e) (some b.ctx) none).setBucket e k { b with srcfail := true }
  | none => s

/-- What this member reads for a frame at its own position meets an uncorrectable error. -/
def State.sourceRead (s : State) (e k : Nat) (r : RingSt) (own v : Nat) (f : Frame) : State :=
  match s.bucket e k with
  | none => s
  | some b =>
    match b.reg with
    | none => s
    | some g =>
      let ph := f.hdr.phase.toNat
      if v != own || s.myShadow r || b.outcome != some 0 || b.srcfail || !(ph == 3 || (ph == 1 && f.hdr.chunk != 1)) then s
      else
        let (lo, n) := if ph == 1 then (0, g.elems) else ((r.rangeOf g.elems ph f.hdr.chunk).1 + f.hdr.offset, f.words.length)
        let w := if g.bf16 then 2 else 4
        match s.firstPoison (g.src + w * lo) (w * n), if b.usesDefer then s.slotPoison b g.defer lo n else none with
        | some l, _ => s.sourceFail e k l
        | none, some l => s.sourceFail e k l
        | none, none => s

/-- Work through frames at positions of this member; frames to other members are sent, frames that must wait are kept. -/
def State.redWork (s : State) (e k : Nat) (r : RingSt) (own : Nat) : Nat → List (Nat × Frame) → State
  | 0, _ => s
  | _ + 1, [] => s
  | fuel + 1, (v, f) :: rest =>
    match s.bucket e k with
    | none => s
    | some b =>
      if r.host v != own then (s.sendFrame e b r v f).redWork e k r own fuel rest
      else
        let s := s.sourceRead e k r own v f
        let b := (s.bucket e k).getD b
        match s.hop r own b v f with
        | none => (s.setBucket e k { b with waiting := b.waiting ++ [(v, f)] }).redWork e k r own fuel rest
        | some (b, out) => (s.setBucket e k b).redWork e k r own fuel (out ++ rest)

/-- Bound on the frames of one bucket at one member: 16 Mi elements in frames of 1,024 words, twice the ring, six phases. -/
def redFuel : Nat := 2 ^ 30

/-- The positions of this member that start a row's, or a column's, pre-round circuit. A shadow, which has no contribution to
enter, starts its row's when it has registered or its deadline has passed (R289). -/
def State.redOriginate (s : State) (e k : Nat) (r : RingSt) (own : Nat) : State :=
  match s.bucket e k with
  | none => s
  | some b =>
    if !b.pre || b.e.isSome || b.frozen then s
    else
      let mine := r.hosted own
      let s := if !b.origin && b.ready (s.myShadow r) && (!s.myShadow r || b.reg.isSome || b.due) then
          let os := mine.filter fun v => v % r.ncol == 0
          (s.setBucket e k { b with origin := true }).redWork e k r own redFuel
            (os.map fun v => (v, ⟨b.hdr r 1 0, [], r.baseRoll⟩))
        else s
      match s.bucket e k with
      | none => s
      | some b =>
        let os := mine.filter fun v => v / r.ncol == 0 && (b.rowResult v).isSome
        if r.cfg.twoD && !b.colOrigin && !os.isEmpty then
          (s.setBucket e k { b with colOrigin := true }).redWork e k r own redFuel
            (os.map fun v => (v, ⟨b.hdr r 1 1, [], r.baseRoll⟩))
        else s

/-- The chunks of this member's positions start, when the exponent and the contribution are fixed. -/
def State.redBegin (s : State) (e k : Nat) (r : RingSt) (own : Nat) : State :=
  match s.bucket e k with
  | none => s
  | some b =>
    let b := if b.e.isNone && !b.pre then
        { b with e := (s.histOf b.ctx b.ring b.id).bind fun h => h.eHist.map fun x => min 128 (x + r.cfg.pmargin) }
      else b
    match b.e with
    | some _ =>
      let l := s.elemsOf b
      if b.begun || b.frozen || !b.ready (s.myShadow r) then s
      else
        let roll := if b.roll.isEmpty then r.baseRoll else b.roll
        let start := (r.hosted own).flatMap fun v =>
          let c := v % r.ncol
          let (lo, hi) := r.chunkRange l c
          (framesOf (b.hdr r 3 c) roll (hi - lo) fun _ => 0).map fun f => (v, f)
        (s.setBucket e k { b with begun := true }).redWork e k r own redFuel start
    | none => s

/-- Frames that waited go on, until none of them can: a row total lets parts go on, those let others. -/
def State.redRetry (s : State) (e k : Nat) (r : RingSt) (own : Nat) : Nat → State
  | 0 => s
  | fuel + 1 =>
    match s.bucket e k with
    | none => s
    | some b =>
      let now := b.waiting.filter fun x => x.2.hdr.pass == b.pass
      if now.isEmpty then s
      else
        ((s.setBucket e k { b with waiting := b.waiting.filter fun x => x.2.hdr.pass != b.pass }).redWork e k r own redFuel
          now).redRetry e k r own fuel

/-- Every chunk's final total is here. -/
def Bucket.allTotals (b : Bucket) (r : RingSt) (l : Nat) : Bool :=
  (List.range r.ncol).all fun c =>
    covers (b.totals.filter fun f => f.hdr.chunk == c) ((r.chunkRange l c).2 - (r.chunkRange l c).1)

/-- The end of a pass: an error, a re-pass, or completion (R288, R293, R295, R296, R304). Answers true where a re-pass
starts. -/
def State.redEnd (s : State) (e k : Nat) (r : RingSt) : Bool × State :=
  match s.bucket e k with
  | none => (false, s)
  | some b =>
    if b.ended then (false, s)
    else if b.totals.any (·.hdr.srcfail) then
      (false, (s.modRedEng e fun x => { x with errSource := satAdd 16 x.errSource 1 }).redBad e k b redSrcEcc sevError)
    else if !b.allTotals r (s.elemsOf b) then (false, s)
    else
          let nonfinite := b.totals.any (·.hdr.nonfinite)
          let maxexp := b.totals.foldl (fun m f => max m f.hdr.maxexp) (-126)
          if b.totals.any (·.hdr.breach) && !nonfinite then
            if b.pass.getLsbD 0 then (false, s.redBad e k b redRepassFail sevCtxFatal)
            else
              let s := s.redRecord e b redBreach sevNotice 4 (b.chunkWhere (·.breach))
              let s := s.modRedEng e fun x => { x with cntRepass := (x.cntRepass + 1) % 2 ^ 32 }
              let s := s.modHist b.ctx b.ring b.id fun h => { h with eHist := some maxexp }
              (true, s.setBucket e k { b with
                pass := b.pass ||| 1, e := some maxexp, begun := false, totals := [],
                rows := b.rows.filter fun x => x.2.hdr.phase == 2 })
          else
            match b.reg with
            | some g => (false, s.redComplete e k b r g)
            | none => (false, s.setBucket e k { b with ended := true, waiting := [], rows := [] })

/-- Take a bucket as far as it goes. -/
def State.redProgress (s : State) (e k : Nat) : Nat → State
  | 0 => s
  | fuel + 1 =>
    match s.bucket e k with
    | none => s
    | some b =>
      match s.ring b.ctx b.ring with
      | none => s
      | some r =>
        if b.frozen || b.ended then s
        else
          let own := r.pos s.fab.module
          let s := s.shadowDefer e k r
          let s := (s.redOriginate e k r own).redRetry e k r own 4
          let s := (s.redOriginate e k r own).redBegin e k r own
          let s := s.redRetry e k r own 4
          match s.redEnd e k r with
          | (true, s) => s.redProgress e k fuel
          | (false, s) => s

/-! ### Outcomes (R297, R298, R300 to R302) -/

/-- A late contribution follows the policy: DEFERRED or DROPPED. -/
def State.redPolicy (s : State) (e k : Nat) (b : Bucket) (r : RingSt) : State :=
  let o : BitVec 2 := if r.cfg.drop then 3 else 2
  (s.modRedEng e fun x => if r.cfg.drop then { x with cntDrop := satAdd 16 x.cntDrop 1 }
    else { x with cntDefer := satAdd 16 x.cntDefer 1 }).setBucket e k { b with outcome := some o, asked := false }

/-- What a late registration reads for its decided outcome, its source and the pending value that it is added to, meets an
uncorrectable error: SRCFAIL (R304). -/
def State.lateRead (s : State) (e k : Nat) (b : Bucket) (g : RegRec) : State :=
  if !(b.outcome == some 1 || b.outcome == some 2) || b.srcfail then s
  else
    match s.firstPoison g.src (g.elems * (if g.bf16 then 2 else 4)),
      if b.outcome == some 2 && s.pendingDefer b then s.firstPoison g.defer (4 * g.elems) else none with
    | some l, _ => s.sourceFail e k l
    | none, some l => s.sourceFail e k l
    | none, none => s

/-- The outcome of a late registration is applied (R298): whether the copies differ. A source that cannot be read fills no
slot and is compared with nothing (log 143). -/
def State.redLateReg (s : State) (e : Nat) (b : Bucket) (g : RegRec) : Bool × State :=
  let w := if g.bf16 then 2 else 4
  if b.srcfail then (false, s)
  else if b.outcome == some 2 then (false, s.fillDefer b g)
  else if b.outcome == some 1 then
    match b.copy with
    | some (_, _, _, d) =>
      if sentDigest b.id b.step g.bf16 g.elems (s.peek g.src (w * g.elems)) == d then
        (false, s.redRecord e b redShadowTaken sevNotice)
      else
        (true, (s.redRecord e b redShadowDiff sevError).modRedEng e fun x => { x with errShadow := satAdd 16 x.errShadow 1 })
    | none => (false, s)
  else (false, s)

end Sys2Proof.Machine
end

