-- ==== Sys2Proof/Machine/HarvOps.lean ====
section
/-!
DEFINITION. What a snapshot holds (13_harvest_snapshots.md, R378 to R382): the blocks of a context and their places,
the capture of the state blocks and their loading, digests and the tree. Where Tables 13.2 and 13.3 give a record's
items and not their offsets, they follow one another in the order named, each in 8 bytes (log 42).
-/

namespace Sys2Proof.Machine

def blockBytes : Nat := 0x400000

/-! ### Blocks (R378) -/

def insNat (x : Nat) : List Nat → List Nat
  | [] => [x]
  | y :: ys => if x ≤ y then x :: y :: ys else y :: insNat x ys

/-- Quads of an image in rising order. -/
def imgQuads (img : CtxImage) : List Nat := (img.header.quads.map (·.toNat)).foldr insNat []

/-- Threads of an image's quads, ascending. -/
def imgThreads (img : CtxImage) : List ThreadId :=
  (imgQuads img).flatMap fun q => (List.range 16).map fun i => BitVec.ofNat 13 (16 * q + i)

/-- Blocks of thread records. -/
def threadBlocks (img : CtxImage) : Nat := ceilDiv (16 * img.header.quads.length) 128

/-- State blocks: thread records and the object area. -/
def stateBlocks (img : CtxImage) : Nat := threadBlocks img + 8

/-- Locations of the area blocks, in block order. -/
def areaBlocks (img : CtxImage) : List Nat :=
  match img.snap with
  | some x => x.areas.flatMap fun a => (List.range (a.len / blockBytes)).map fun i => areaLoc a + i * blockBytes
  | none => []

/-- N of R378. -/
def snapN (img : CtxImage) : Nat := stateBlocks img + (areaBlocks img).length

/-- Location of area block i; none for a state block. -/
def blockLoc (img : CtxImage) (i : Nat) : Option Nat :=
  if i < stateBlocks img then none else (areaBlocks img)[i - stateBlocks img]?

/-- The snapshot section as LAYOUT covers it: the fields of Table 13.5 in its order, each in 8 bytes, fingerprints in 64
(log 42). -/
def sectionBytes (x : SnapSection) : List Byte :=
  [x.stepBell, x.period, x.phase, x.extEvery, x.quiesce, x.sendLimit, x.captureTally, x.commitTally, x.stageBase,
    x.stageLen].flatMap (leBytes · 8) ++
  ((List.range 16).flatMap fun i => match x.areas[i]? with
    | some a => leBytes a.win.toNat 8 ++ leBytes a.die.toNat 8 ++ leBytes a.base 8 ++ leBytes a.len 8
    | none => leBytes 0 32) ++
  x.signers.flatMap fun d => leBytes d.toNat 64

/-- A grant entry (Table 9.2). -/
def grantBytes (g : Grant) : List Byte :=
  [g.kind, g.die, BitVec.ofNat 8 (b2n g.latch + 2 * b2n g.remote), 0] ++ leBytes g.first 2 ++ leBytes g.count 2 ++ leBytes 0 8

/-- LAYOUT: the snapshot section, the quad list, the sync grant entries (R381). -/
def layoutOf (img : CtxImage) : Digest :=
  match img.snap with
  | some x => sha3_512 (sectionBytes x ++ (img.header.quads.flatMap fun q => leBytes q.toNat 2) ++ img.sync.grants.flatMap grantBytes)
  | none => 0

/-! ### Granted objects in rising order (Table 13.3) -/

def insGrant (g : Grant) : List Grant → List Grant
  | [] => [g]
  | h :: hs => if (grantObjs g).1 ≤ (grantObjs h).1 then g :: h :: hs else h :: insGrant g hs

/-- Tallies, or bells, granted to an image. -/
def grantIds (img : CtxImage) (bell : Bool) : List Nat :=
  ((img.sync.grants.filter fun g => grantBell g == bell).foldr insGrant []).flatMap fun g =>
    (List.range (grantObjs g).2).map ((grantObjs g).1 + ·)

/-- Buckets of the rings of an image: (ring, BUCKET_ID). -/
def imgBuckets (img : CtxImage) : List (Nat × BitVec 16) :=
  match img.red with
  | some x => (List.range x.rings.length).flatMap fun r =>
      (List.range (match x.rings[r]? with | some g => g.maxBuckets | none => 0)).map fun i => (r, BitVec.ofNat 16 (i + 1))
  | none => []

/-! ### Words of registers that are captured -/

/-- STRM_CH_STATUS (Table 8.12). -/
def chStNum : ChSt → Nat
  | .idle => 0
  | .waiting => 1
  | .running => 2
  | .paused => 3
  | .faulted => 4
  | .draining => 5

def Chan.statusWord (x : Chan) : Word :=
  BitVec.ofNat 64 (chStNum x.st + b2n x.waited * 8 + x.index * 2 ^ 16 + x.rep * 2 ^ 32 + x.pass * 2 ^ 48)

/-- SYNC_BELL_j_A (Table 9.13). -/
def Bell.wordA (b : Bell) : Word :=
  BitVec.ofNat 64 (b.count + b.arr.length * 2 ^ 16 + b.early.length * 2 ^ 32 + (b.done.toNat % 2) * 2 ^ 48 +
    b2n b.held * 2 ^ 49 + b2n b.ovr * 2 ^ 50 + b.ctx.toNat * 2 ^ 52 + b2n b.assigned * 2 ^ 56)

def Bell.wordB (b : Bell) : Word := BitVec.ofNat 64 (b.done.toNat + b.overruns * 2 ^ 32)

/-- SYNC_BELL_j_C; of a bell without a parent every field is 0 (DESIGN CHOICE, log 169). -/
def Bell.wordC (b : Bell) : Word :=
  match b.parent with
  | some (pb, p, m) => BitVec.ofNat 64 (pb + p * 2 ^ 16 + m.toNat * 2 ^ 32 + 2 ^ 63)
  | none => 0

def Bell.wordD (b : Bell) : Word := BitVec.ofNat 64 b.leaves

/-- 4,096 slots as bits. -/
def slotBytes (l : List Nat) : List Byte := leBytes (l.foldl (fun a p => a ||| 2 ^ p) 0) 512

/-- Slots whose bits are set. -/
def slotsOf (v : Nat) : List Nat := (List.range 4096).filter fun i => v.testBit i

/-! ### Capture (R386, Tables 13.2, 13.3) -/

/-- The record of a thread: offsets and bytes. -/
def State.threadRecord (s : State) (th : ThreadId) : List (Nat × List Byte) :=
  let t := s.thr th
  [(0, leBytes t.pc.toNat 8)] ++
  ((List.range 31).map fun i => (8 + 8 * i, leBytes (t.xr (BitVec.ofNat 5 (i + 1))).toNat 8)) ++
  ((List.range 128).map fun n => (256 + 8 * n, leBytes (if csrPerThread n then s.csrRead th n else 0).toNat 8)) ++
  ((List.range 32).map fun i => (1280 + 256 * i, leBytes (sget (0 : BitVec 2048) t.vec.v i).toNat 256)) ++
  ((List.range 16).map fun i => (9472 + 32 * i, leBytes (sget (0 : BitVec 256) t.vec.p i).toNat 32)) ++
  [(9984, leBytes t.vec.ffr.toNat 32), (10016, [if t.st == .halted then 0 else 1])] ++
  ((List.range 8).map fun i => (10048 + 1024 * i, leBytes (t.treg i).data.toNat 1024)) ++
  ((List.range 8).map fun i => (18240 + 64 * i, leBytes (t.treg i).side.toNat 64)) ++
  [(18752, leBytes t.tile.ttag.toNat 8), (18760, leBytes t.tile.atag.toNat 4)] ++
  ((List.range 4).map fun i => (18816 + 1024 * i, leBytes (t.areg i).data.toNat 1024))

/-- Signals that the hub has taken from a queue's tally and not used are captured as its VALUE again. -/
def State.capturedTally (s : State) (c : CtxId) (img : CtxImage) (id : Nat) : Word :=
  let back (q : Option QueueCfg) (n : Nat) : Nat := match q with | some q => if q.tally == id then n else 0 | none => 0
  (s.tally id).word + BitVec.ofNat 64 (back (img.red.map (·.queue)) (s.ctx c).red.ready + back img.putq (s.ctx c).putReady)

/-- The object area: offsets from its first byte. `after` is the state after the release of the round. -/
def objectArea (s after : State) (c : CtxId) (img : CtxImage) : List (Nat × List Byte) :=
  let x := s.ctx c
  let at8 (base : Nat) (ws : List Word) : List (Nat × List Byte) :=
    (List.range ws.length).map fun i => (base + 8 * i, leBytes ((ws[i]?).getD 0).toNat 8)
  let each {α : Type} (l : List α) (f : Nat → α → List (Nat × List Byte)) : List (Nat × List Byte) :=
    (List.range l.length).flatMap fun i => match l[i]? with | some a => f i a | none => []
  [(0, leBytes (layoutOf img).toNat 64), (64, leBytes x.snap.round.toNat 4), (68, leBytes c.toNat 1)] ++
  each ((imgQuads img).flatMap fun q => [4 * q, 4 * q + 1, 4 * q + 2, 4 * q + 3]) (fun i g =>
    let k := s.core g
    at8 (0x10000 + 64 * i) [k.window.setWidth 64, BitVec.ofNat 64 (k.hold.toNat + 0x2000), k.pwrWord]) ++
  each ((imgQuads img).flatMap fun q => (List.range 8).map fun ch => (q, ch)) (fun i p =>
    let k := s.chan p.1 p.2
    let k := if k.st == .waiting then { k with st := .paused } else k
    at8 (0x100000 + 64 * i) [k.base, k.notify.setWidth 64, k.statusWord, k.fault, k.faddr]) ++
  each (grantIds img false) (fun i id => at8 (0x200000 + 8 * i) [s.capturedTally c img id]) ++
  each (grantIds img true) (fun i id =>
    let b := after.bell id
    at8 (0x400000 + 1088 * i) [b.wordA, b.wordB, b.wordC, b.wordD] ++
      [(0x400000 + 1088 * i + 32, slotBytes b.arr), (0x400000 + 1088 * i + 544, slotBytes b.early)]) ++
  each (imgBuckets img) (fun i p =>
    match x.red.hist.find? fun h => h.ring == p.1 && h.id == p.2 with
    | some h => [(0xC00000 + 16 * i, leBytes (int16 (h.eHist.getD 0)) 4 ++ leBytes h.step.toNat 4 ++
        [BitVec.ofNat 8 (b2n h.pendingDefer + 2 * b2n h.eHist.isSome + 4)])]
    | none => []) ++
  at8 0x1000000 ([BitVec.ofNat 64 x.red.k, BitVec.ofNat 64 x.putK, x.feed.doneOff, x.feed.doneEpoch.setWidth 64,
    x.mem.memto.setWidth 64] ++
    ((List.range 8).map fun d => sget (0 : Word) (sget ({} : SyncDie) s.sync.dies d).notify c.toNat) ++ [x.red.notify.setWidth 64])

/-- The records of threads, one after another. -/
def State.threadRecords (s : State) (i : Nat) : List ThreadId → List (Nat × List Byte)
  | [] => []
  | th :: l => ((s.threadRecord th).map fun x => (0x8000 * i + x.1, x.2)) ++ s.threadRecords (i + 1) l

/-- The state blocks' bytes. -/
def captured (s after : State) (c : CtxId) (img : CtxImage) : List Host.Cell :=
  let base := threadBlocks img * blockBytes
  let all := s.threadRecords 0 (imgThreads img) ++ (objectArea s after c img).map fun x => (base + x.1, x.2)
  all.foldl (fun m x => memWrite x.1 x.2 m) []

/-! ### Loading (R400) -/

/-- A little-endian field of captured bytes. -/
def capField (m : List Host.Cell) (off n : Nat) : Nat := leNat (memBytes m off n)

/-- The thread of a record at `b`. A thread that resumes is READY; a restored tile keeps its tag. The arithmetic mode is the
image's (R73); what the thread still waits for from before is dropped when it comes. -/
def loadThread (m : List Host.Cell) (b : Nat) (t : Thread) : Thread :=
  let strict := t.vec.strict
  let w (off : Nat) : Word := BitVec.ofNat 64 (capField m (b + off) 8)
  let csr (n : Nat) : Word := w (256 + 8 * n)
  let tt := w 18752
  let ta := capField m (b + 18760) 4
  let t : Thread := { enabled := t.enabled, pc := w 0, nextId := t.nextId, late := t.late, dropped := t.dropped,
                      st := if capField m (b + 10016) 1 == 1 then .ready else .halted }
  let t := { t with
    x := (List.range 31).foldl (fun x i => sset (i + 1) (w (8 + 8 * i)) x) []
    csr := { status := (csr 1).setWidth 6, tvec := csr 2, epc := csr 3, cause := csr 4, tval := csr 5,
             ien := (csr 6).setWidth 2, ipend := (csr 7).setWidth 2, timer := csr 8, instret := csr 9, scratch := csr 10 }
    vec := { v := (List.range 32).foldl (fun x i => sset i (BitVec.ofNat 2048 (capField m (b + 1280 + 256 * i) 256)) x) []
             p := (List.range 16).foldl (fun x i => sset i (BitVec.ofNat 256 (capField m (b + 9472 + 32 * i) 32)) x) []
             ffr := BitVec.ofNat 256 (capField m (b + 9984) 32), fault := csr 0x4B, flags := (csr 0x41).setWidth 6,
             strict := strict, step := csr 0x4A,
             key := (csr 0x43) ++ (csr 0x42), ctr := (csr 0x45) ++ (csr 0x44) }
    tile := { trm := (csr 0x62).setWidth 16, tbm := (csr 0x62 >>> 16).setWidth 16, tkm := (csr 0x62 >>> 32).setWidth 16,
              abort := csr 0x63, key := (csr 0x47) ++ (csr 0x46), ctr := (csr 0x49) ++ (csr 0x48)
              t := (List.range 8).foldl (fun x i => sset i
                { fmt := BitVec.ofNat 4 (getF tt (8 * i) 4), rows := getF tt (8 * i + 4) 4 + 1
                  data := BitVec.ofNat 8192 (capField m (b + 10048 + 1024 * i) 1024)
                  side := BitVec.ofNat 512 (capField m (b + 18240 + 64 * i) 64) } x) []
              a := (List.range 4).foldl (fun x i => sset i
                { fmt := BitVec.ofNat 4 (ta >>> (8 * i)), poison := ta.testBit (8 * i + 4)
                  data := BitVec.ofNat 8192 (capField m (b + 18816 + 1024 * i) 1024) } x) [] } }
  t

/-- Load the state blocks into a context whose units stand as LOAD leaves them; a hub that waits on a tally is served from
its restored value. Which child bell of another module had arrived the saved words do not hold: a restored parent sends no release
for such a slot (DESIGN CHOICE, log 169). -/
def State.loadState (s : State) (c : CtxId) (img : CtxImage) (m : List Host.Cell) : State :=
  let base := threadBlocks img * blockBytes
  let w (off : Nat) : Word := BitVec.ofNat 64 (capField m (base + off) 8)
  let each {α : Type} (l : List α) (s : State) (f : State → Nat → α → State) : State :=
    (l.foldl (fun (acc : State × Nat) a => (f acc.1 acc.2 a, acc.2 + 1)) (s, 0)).1
  let s := each (imgThreads img) s fun s i th => s.modThr th (loadThread m (0x8000 * i))
  let s := each ((imgQuads img).flatMap fun q => [4 * q, 4 * q + 1, 4 * q + 2, 4 * q + 3]) s fun s i g =>
    let a := 0x10000 + 64 * i
    s.modCore g fun k => { k with window := (w a).setWidth 8, hold := (w (a + 8)).setWidth 8, thresh := (w (a + 16)).setWidth 16 }
  let s := each ((imgQuads img).flatMap fun q => (List.range 8).map fun ch => (q, ch)) s fun s i p =>
    let a := 0x100000 + 64 * i
    let st := w (a + 16)
    s.modChan p.1 p.2 fun _ =>
      { base := w a, notify := (w (a + 8)).setWidth 32, fault := w (a + 24), faddr := w (a + 32), ctx := c, gen := (s.ctx c).gen
        st := if getF st 0 3 == 3 then .paused else if getF st 0 3 == 4 then .faulted else .idle
        waited := st.getLsbD 3, index := getF st 16 16, rep := getF st 32 16, pass := getF st 48 16 }
  let s := each (grantIds img false) s fun s i id =>
    let v := w (0x200000 + 8 * i)
    s.modTally id fun t => { t with value := v.setWidth 32, sat := v.getLsbD 33, under := v.getLsbD 34, ovr := v.getLsbD 35 }
  let s := each (grantIds img true) s fun s i id =>
    let a := 0x400000 + 1088 * i
    s.modBell id fun b => { b with
      done := (w (a + 8)).setWidth 32, overruns := getF (w (a + 8)) 32 16, held := (w a).getLsbD 49, ovr := (w a).getLsbD 50
      arr := slotsOf (capField m (base + a + 32) 512), early := slotsOf (capField m (base + a + 544) 512) }
  let hist := (List.range (imgBuckets img).length).filterMap fun i =>
    match (imgBuckets img)[i]? with
    | some (r, id) =>
      let a := base + 0xC00000 + 16 * i
      let f := capField m (a + 8) 1
      let e := capField m a 2
      if f.testBit 2 then
        some ({ ring := r, id := id, eng := id.toNat % 8, step := BitVec.ofNat 32 (capField m (a + 4) 4)
                eHist := if f.testBit 1 then some (if e ≥ 2 ^ 15 then (e : Int) - 2 ^ 16 else e) else none
                pendingDefer := f.testBit 0, fresh := true } : Hist)
      else none
    | none => none
  let a := 0x1000000
  let s := s.modCtx c fun x => { x with
    red := { x.red with k := (w a).toNat, hist := hist, notify := (w (a + 104)).setWidth 32 }
    putK := (w (a + 8)).toNat
    feed := { x.feed with doneOff := w (a + 16), doneEpoch := (w (a + 24)).setWidth 32, fillOff := w (a + 16),
                          fillEpoch := (w (a + 24)).setWidth 32, reqOff := w (a + 16), reqEpoch := (w (a + 24)).setWidth 32 }
    mem := { x.mem with memto := (w (a + 32)).setWidth 32 } }
  let s := (List.range 8).foldl (fun s d => s.modSyncDie d fun y => { y with
    notify := sset c.toNat (w (a + 40 + 8 * d)) y.notify }) s
  (grantIds img false).foldl (fun s id => s.serve_ id) s

/-! ### Digests and the tree (R381, R382) -/

def rootLevel : List Digest → List Digest
  | a :: b :: l =>
    sha3_512 ([1] ++ leBytes a.toNat 64 ++ leBytes b.toNat 64) :: rootLevel l
  | l => l

/-- Root of a list of digests; twenty levels hold every N. -/
def merkle : Nat → List Digest → Digest
  | 0, l => l.headD 0
  | fuel + 1, l => match l with | _ :: _ :: _ => merkle fuel (rootLevel l) | l => l.headD 0

def rootOf (l : List Digest) : Digest := merkle 40 l

/-- The manifest with the device's signature over SHA3-512 of its bytes, and the device's key (R382). -/
def signedManifest (m : Manifest) (sig : BitVec 37016) : Manifest :=
  { m with sig := sig, sigOk := true, key := Config.identityKey }

/-- Bytes of a block of the snapshot in hand: state blocks as captured, area blocks as they stand, or as staged. -/
def State.blockData (s : State) (c : CtxId) (img : CtxImage) (i : Nat) : List Byte :=
  match blockLoc img i with
  | none => memBytes (s.ctx c).snap.cells (i * blockBytes) blockBytes
  | some l => s.peek l blockBytes

/-- Bytes of block i that are kept until it is acknowledged. -/
def SnapSt.keptBlock (x : SnapSt) (i : Nat) : List Byte := memBytes x.kept (i * blockBytes) blockBytes

/-! ### Hosted ranges (R392, R393) -/

/-- Slots of a hosted range. -/
def Hosted.slots (h : Hosted) : Nat := (h.cfg.len - 0x6000000) / blockBytes

/-- Slots that a committed snapshot maps, or that an arriving one has taken. -/
def Hosted.used (h : Hosted) : List Nat :=
  ((h.snaps.flatMap fun x => x.map.map (·.2)) ++ h.incoming.flatMap fun x => x.slots.map (·.2)).eraseDups

def Hosted.freeSlot (h : Hosted) : Option Nat := (List.range h.slots).find? fun k => !h.used.contains k

/-- Location of a slot. -/
def Hosted.slotLoc (h : Hosted) (k : Nat) : Nat := granLoc (h.cfg.base + 0x6000000 + k * blockBytes)

/-- Compaction keeps the latest `keep` snapshots of each context: each one maps every block, so that the oldest one kept
is the base map (R393). -/
def Hosted.compacted (h : Hosted) : List HostedSnap :=
  h.snaps.zipIdx.filterMap fun x =>
    if ((h.snaps.drop (x.2 + 1)).filter fun y => y.ctx == x.1.ctx).length < h.cfg.keep then some x.1 else none

end Sys2Proof.Machine
end

