-- ==== Sys2Proof/Machine/Reduction.lean ====
section
/-!
DEFINITION. Events of the reduction engines (R274 to R310).
-/

namespace Sys2Proof.Machine

/-! ### Slots (R274, R294) -/

/-- A registration or frame of a step that does not follow the restored one: the exponent's history lapses (R285). -/
def Hist.skips (h : Hist) (step : BitVec 32) : Bool := h.fresh && h.step + 1 != step

/-- A bucket takes a free slot of engine e; none where all 64 are taken. -/
def State.newBucket (s : State) (e : Nat) (c : CtxId) (ring : Nat) (id : BitVec 16) (step : BitVec 32) (r : RingSt) :
    Option (Nat × State) :=
  ((List.range 64).find? fun k => (s.bucket e k).isNone).map fun k =>
    let noHist := match s.histOf c ring id with | some h => h.eHist.isNone || h.skips step | none => true
    (k, (s.hubWake (e / 4)).setBucket e k { ctx := c, gen := (s.ctx c).gen, ring := ring, id := id, step := step, pre := !r.cfg.predict || noHist })

/-! ### Registration (R280 to R282) -/

/-- Bytes of a registration record read as its fields. -/
structure RegBytes where
  id : BitVec 16
  ring : Nat
  engine : Nat
  step : BitVec 32
  src : Nat
  elems : Nat
  fmt : Nat
  tensor : BitVec 16
  done : Nat
  res : Nat
  scale : Nat
  defer : Nat
  rsv : Bool
deriving DecidableEq, Repr

def regBytes (bs : List Byte) : RegBytes :=
  { id := BitVec.ofNat 16 (byteField bs 0 2), ring := byteField bs 2 1, engine := byteField bs 3 1,
    step := BitVec.ofNat 32 (byteField bs 4 4), src := byteField bs 8 8, elems := byteField bs 16 4, fmt := byteField bs 20 1,
    tensor := BitVec.ofNat 16 (byteField bs 24 2), done := byteField bs 28 4, res := byteField bs 32 8,
    scale := byteField bs 40 8, defer := byteField bs 48 8, rsv := byteField bs 21 3 != 0 || byteField bs 26 2 != 0 }

/-- Bytes [a, a + n) meet [b, b + m). -/
def meet (a n b m : Nat) : Bool := decide (a < b + m) && decide (b < a + n) && n != 0 && m != 0

/-- n bytes from a lie in Larder or explicit Cellar regions of the context, with W where `w` asks for it (R281). -/
def State.inRegions (s : State) (c : CtxId) (a n : Nat) (w : Bool) : Bool :=
  let r : Int × Int := (a, (a : Int) + n - 1)
  n != 0 && (isLarder a || isCellar a) && s.rangeWindow c r &&
    (s.rangeEntries c r).all fun e => match e.2 with | some g => !w || g.w | none => false

/-- Bytes that a registration uses: source, result, scales, deferral. -/
def regRanges (f : BitVec 4) (src elems : Nat) (bf : Bool) (res scale defer : Nat) : List (Nat × Nat) :=
  [(src, elems * (if bf then 2 else 4)), (res, elems * resBits f / 8), (if isMx f then (scale, elems / 32) else (0, 0)),
    (if defer == 0 then (0, 0) else (defer, 4 * elems))]

/-- The ranges of a bucket in flight that another one may not write: source, result, deferral. -/
def State.bucketRanges (s : State) (b : Bucket) : List (Nat × Nat) :=
  match b.reg with
  | some g =>
    match s.tensorOf b.ctx g.tensor with
    | some t => (regRanges (gradFmt t) g.src g.elems g.bf16 g.res g.scale g.defer).eraseIdx 2
    | none => []
  | none => []

/-- The first check of Table 10.3 that fails. A bucket's own previous step, which may be in flight, is no other bucket
(Table 10.8). The first registration since a restore may be of any step but one already registered. A SRC that is not 64-byte
aligned is RED_REG_RANGE (DESIGN CHOICE, log 170). -/
def State.regCheck (s : State) (c : CtxId) (x : RegBytes) : Option Reason :=
  match s.ring c x.ring with
  | none => some redRegFormat
  | some r =>
    let w := if x.fmt == 1 then 2 else 4
    let size := x.elems * w
    let t := s.tally x.done
    if x.rsv || x.id == 0 || decide (x.id.toNat > r.cfg.maxBuckets) || (decide (x.engine > 7) && x.engine != 0xFF) ||
        x.elems % 64 != 0 || size < 0x100000 || size > 0x4000000 || x.fmt > 1 ||
        !(decide (x.done < 32768) && t.assigned && t.ctx == c && !t.latch) then some redRegFormat
    else
      let ts : List TensorEntry := match (s.ctx c).img with | some i => (tensorTable i).filter fun e => e.kind == 1 | none => []
      if ((ts.filter fun e => meet x.src size e.gbufBase.toNat e.gbufLen.toNat).length) ≥ 2 then some cfgTiedTensor
      else
        match ts.find? fun e => e.id == x.tensor with
        | none => some redRegRange
        | some e =>
          let f := gradFmt e
          let mx := isMx f
          let al (a : Nat) : Bool := a % 64 == 0
          if x.src % 64 != 0 || x.src < e.gbufBase.toNat || x.src + size > e.gbufBase.toNat + e.gbufLen.toNat ||
              BitVec.ofNat 8 x.fmt != e.gbufFmt || !al x.res || !s.inRegions c x.res (x.elems * resBits f / 8) true ||
              (mx != (x.scale != 0)) || (mx && (!al x.scale || !s.inRegions c x.scale (x.elems / 32) true)) ||
              (x.defer != 0 && (!al x.defer || !s.inRegions c x.defer (4 * x.elems) true)) then some redRegRange
          else
            let mine := regRanges f x.src x.elems (x.fmt == 1) x.res x.scale x.defer
            let outs := mine.drop 1
            let others := (List.range 8).flatMap fun e => (s.redEng e).slots.flatMap fun b =>
              if b.2.ctx == c && !(b.2.ring == x.ring && b.2.id == x.id) then s.bucketRanges b.2 else []
            if (outs.any fun o => meet o.1 o.2 x.src size) || (outs.any fun o => others.any fun p => meet o.1 o.2 p.1 p.2) then
              some redRegOverlap
            else
              match s.histOf c x.ring x.id with
              | some h =>
                if !h.fresh && h.step + 1 != x.step then some redRegStep
                else if h.step == x.step then some redRegDup
                else if r.cfg.drop != (x.defer == 0) then some redRegDefer
                else if h.defer != 0 && h.defer != x.defer then some redRegDefer
                else none
              | none => if r.cfg.drop != (x.defer == 0) then some redRegDefer else none

/-- Engine of a registration. -/
def RegBytes.eng (x : RegBytes) : Nat := if x.engine > 7 then x.id.toNat % 8 else x.engine

/-- The bucket of a registration that came last ends as it has been decided: by an error, or complete. -/
def State.redLast (s : State) (c : CtxId) (e k : Nat) (b : Bucket) (r : RingSt) (g : RegRec) : State :=
  match b.bad with
  | some code => ((((s.setBucket e k b).shadowDefer e k r).writeStatus c g.k (statusBits b code false true) (infoBits (b.e.getD 0) r.cfg.h)).hubSignal c
      g.doneTally).freeBucket e k
  | none => if b.srcfail then s.redBad e k b redSrcEcc sevError else s.redComplete e k b r g

/-- A registration of a PREROUND bucket announces it to the member that originates its row's circuits (R289); a frozen bucket
sends nothing (R420), and the re-run announces it again (DEDUCED, log 162). -/
def State.redAnnounce (s : State) (e : Nat) (b : Bucket) (r : RingSt) : State :=
  let own := r.pos s.fab.module
  let o := own / r.ncol * r.ncol
  if b.pre && !b.frozen && r.host o != own then s.sendFrame e b r o ⟨{ (b.hdr r 7 0) with e := 0 }, [], []⟩ else s

/-- What a promoted shadow contributes in its dead primary's stead (R421, R424): its registered source, with the pending value that
the primary's contribution held, as FP32; format, local exponent and the source digest beside it. -/
def State.ownCopy (s : State) (b : Bucket) : Option (List Byte × Bool × Int × BitVec 256) :=
  b.reg.map fun g =>
    let src := s.peek g.src (g.elems * (if g.bf16 then 2 else 4))
    let vs := (s.contrib { b with outcome := some 0 } 0 g.elems).getD []
    let bs := if b.usesDefer then vs.flatMap fun v => leBytes (fround ⟨fp32, s.strictOf b.ctx, false⟩ .rne v).1 4 else src
    (bs, g.bf16 && !b.usesDefer, localExp vs, sentDigest b.id b.step g.bf16 g.elems src)

/-- The registration is accepted: on time, late, or the last thing its bucket waits for. Its source is read for the SENT
digest; an uncorrectable error there gives no digest, and SRCFAIL (R304, log 143). -/
def State.redAccept (s : State) (c : CtxId) (x : RegBytes) (kq e k : Nat) (r : RingSt) : State :=
  let g : RegRec := { k := kq, id := x.id, ring := x.ring, step := x.step, src := x.src, elems := x.elems, bf16 := x.fmt == 1,
                      tensor := x.tensor, doneTally := x.done, res := x.res, scale := x.scale, defer := x.defer }
  let s := s.modHist c x.ring x.id fun h => { h with
    eng := e, step := x.step, defer := x.defer, elems := x.elems, eHist := if h.skips x.step then none else h.eHist, fresh := false }
  let size := x.elems * (if g.bf16 then 2 else 4)
  match s.bucket e k with
  | none => s
  | some b =>
    let onTime := !b.late && !s.myShadow r && b.outcome.isNone
    let b := { b with
      reg := some g, timing := false, outcome := if onTime then some 0 else b.outcome
      usesDefer := (onTime || s.myShadow r) && !r.cfg.drop && decide ((s.deferUsers b).length < (s.deferGroups b g).length) }
    let s := (s.setBucket e k b).redAnnounce e b r
    let s := match s.firstPoison x.src size with
      | some l => if s.myShadow r then s.eccRecord l l (uRed e) (some c) none else s.sourceFail e k l
      | none => s.putDigest c x.ring x.id x.step fun d => { d with
          sent := sentDigest x.id x.step g.bf16 x.elems (s.peek x.src size) }
    if b.late && b.outcome.isNone then s
    else
      let s := if onTime then s else s.lateRead e k b g
      let b := (s.bucket e k).getD b
      let own := b.outcome == some 1 && b.copy.isNone
      let b := if own then { b with copy := s.ownCopy b } else b
      let (diff, s) := if onTime || own then (b.diff, s) else s.redLateReg e b g
      let s := (s.setBucket e k { b with diff := diff }).shadowDefer e k r
      let b := (s.bucket e k).getD b
      if b.ended && !b.frozen then s.redLast c e k b r g else s.redProgress e k 2

/-- The hub reads the next registration, once its tally has been signalled for it; a registration for which its engine
has no slot waits. A refusal writes INFO 0, and where ENGINE is invalid the engine BUCKET_ID mod 8 refuses (DESIGN CHOICE,
log 170). -/
def execRegistrationRead (c : CtxId) (s : State) : Host.Outcome State Fault Refusal :=
  match (s.ctx c).img.bind (·.red) with
  | none => .next s
  | some sec =>
    let q := (s.ctx c).red
    if q.ready == 0 || !s.ctxServes c then .next s
    else
      let loc := sec.queue.base.toNat + q.k % sec.queue.slots * 64
      let x := regBytes (s.peek loc 64)
      let e := x.eng
      let bad := s.poisonIn loc 64
      let take (s : State) : State :=
        (s.modRedCtx c fun q => { q with k := (q.k + 1) % 2 ^ 32, ready := q.ready - 1 }).hubWait c .reg sec.queue.tally
      let refuse (s : State) (code : Reason) : State :=
        let b : Bucket := { ctx := c, gen := (s.ctx c).gen, ring := x.ring, id := x.id, step := x.step }
        let s := s.writeStatus c q.k (code.toNat + 2 ^ 31) 0
        (s.redRecord e { b with reg := some ⟨q.k, x.id, x.ring, x.step, 0, 0, false, 0, 0, 0, 0, 0⟩ } code sevError).hubSignal c
          x.done
      if bad then .next (refuse ((take s).eccRecord loc loc (uRed e) (some c) none) redSrcEcc)
      else
        match s.regCheck c x, s.ring c x.ring with
        | some code, _ => .next (refuse (take s) code)
        | none, none => .next s
        | none, some r =>
          match s.findBucket c x.ring x.id x.step with
          | some (e, k) => .next ((take s).redAccept c x q.k e k r)
          | none =>
            match s.newBucket e c x.ring x.id x.step r with
            | none => .next s
            | some (k, s) => .next ((take s).redAccept c x q.k e k r)

/-! ### Frames -/

/-- A frame that names no bucket in flight, or an older pass, is dropped and counted (R294). -/
def State.redStale (s : State) (e k : Nat) : State :=
  (s.dropInbox k).modRedEng e fun x => { x with cntStale := x.cntStale + 1 }

/-- A frame starts the deadline of an unregistered primary: its row's pre-round message, or a frame of the (row) reduce-scatter.
The one that originates its row's circuits waits for an ANNOUNCE instead, and a column's circuits decide nothing (R289, R297). -/
def State.startsDeadline (s : State) (r : RingSt) (own : Nat) (b : Bucket) (h : FrameHdr) : Bool :=
  b.reg.isNone && b.outcome.isNone && !s.myShadow r && !(b.pre && (r.hosted own).any fun v => v % r.ncol == 0) &&
    ((h.phase == 1 && h.chunk != 1) || h.phase == 3)

/-- The k-th packet of the inbox, a frame of one of the phases, reaches its bucket. -/
def redFrame (k : Nat) (phases : List Nat) (s : State) : Host.Outcome State Fault Refusal :=
  match s.inboxAt k [0x10, 0x11] with
  | none => .next s
  | some p =>
    match p.body with
    | .frame h ws roll =>
      if !phases.contains h.phase.toNat then .next s
      else
        let c := p.hdr.dctx
        let e := p.hdr.unit.toNat % 8
        let f : Frame := ⟨h, ws, roll⟩
        match s.ring c h.ring.toNat with
        | none => .next (s.redStale e k)
        | some r =>
          let own := r.pos s.fab.module
          let v := p.hdr.tag.toNat % 1024
          if !s.ctxServes c || r.host v != own then .next (s.redStale e k)
          else
            let go (s : State) (e j : Nat) : State :=
              match s.bucket e j with
              | none => s
              | some b =>
                let b := { b with timing := b.timing || s.startsDeadline r own b h, phase := h.phase.toNat }
                if h.pass.toNat > b.pass.toNat then s.setBucket e j { b with waiting := b.waiting ++ [(v, f)] }
                else ((s.setBucket e j b).redWork e j r own redFuel [(v, f)]).redProgress e j 2
            match s.findBucket c h.ring.toNat h.bucket h.step with
            | some (e, j) =>
              match s.bucket e j with
              | some b =>
                if b.frozen || b.ended || decide (h.pass.toNat < b.pass.toNat) then .next (s.redStale e k)
                else .next (go (s.dropInbox k) e j)
              | none => .next s
            | none =>
              if (match s.histOf c h.ring.toNat h.bucket with | some x => stepLe h.step x.step | none => false) then
                .next (s.redStale e k)
              else
                match s.newBucket e c h.ring.toNat h.bucket h.step r with
                | none => .next s
                | some (j, s) => .next (go (s.dropInbox k) e j)
    | _ => .next s

def execPreroundGather (k : Nat) (s : State) := redFrame k [1] s
def execPreroundSpread (k : Nat) (s : State) := redFrame k [2] s
def execReduceScatterFrame (k : Nat) (s : State) := redFrame k [3] s
def execAllGatherFrame (k : Nat) (s : State) := redFrame k [4] s
def execColumnReduceScatter (k : Nat) (s : State) := redFrame k [5] s
def execColumnAllGather (k : Nat) (s : State) := redFrame k [6] s

/-- An ANNOUNCE starts the deadline of a member that originates the pre-round, a shadow's too (R289, R297); one for a frozen
bucket is dropped (R420). -/
def execAnnounce (k : Nat) (s : State) : Host.Outcome State Fault Refusal :=
  match s.inboxAt k [0x10, 0x11] with
  | none => .next s
  | some p =>
    match p.body with
    | .frame h _ _ =>
      if h.phase != 7 then .next s
      else
        let c := p.hdr.dctx
        let e := p.hdr.unit.toNat % 8
        match s.ring c h.ring.toNat with
        | none => .next (s.redStale e k)
        | some r =>
          let start (s : State) (e j : Nat) : State :=
            match s.bucket e j with
            | some b =>
              if b.reg.isNone && b.outcome.isNone && !b.due && !b.origin then s.setBucket e j { b with timing := true }
              else s
            | none => s
          match s.findBucket c h.ring.toNat h.bucket h.step with
          | some (e, j) =>
            if (match s.bucket e j with | some b => b.frozen || b.ended || decide (h.pass.toNat < b.pass.toNat) | none => false) then
              .next (s.redStale e k)
            else .next (start (s.dropInbox k) e j)
          | none =>
            if !s.ctxServes c || (match s.histOf c h.ring.toNat h.bucket with | some x => stepLe h.step x.step | none => false) then
              .next (s.redStale e k)
            else
              match s.newBucket e c h.ring.toNat h.bucket h.step r with
              | none => .next s
              | some (j, s) => .next (start (s.dropInbox k) e j)
    | _ => .next s

/-! ### Deadlines and shadows -/

/-- The live shadow of a shard. -/
def RingSt.shadowOf (r : RingSt) (shard : Nat) : Option ModuleNo :=
  (r.live.find? fun m => m.shadow && m.shard == shard).map (·.module)

/-- DEADLINE passes: an unregistered primary's contribution is late (R297, R300); a shadow that originates the pre-round
waits no longer (R289). -/
def execRedDeadline (e : BitVec 3) (slot : Nat) (s : State) : Host.Outcome State Fault Refusal :=
  let e := e.toNat
  match s.bucket e slot with
  | none => .next s
  | some b =>
    match s.ring b.ctx b.ring with
    | none => .next s
    | some r =>
      if !b.timing || b.reg.isSome || b.outcome.isSome || b.asked || b.frozen then .next s
      else if s.myShadow r then .next ((s.setBucket e slot { b with timing := false, due := true }).redProgress e slot 2)
      else
        let b := { b with timing := false, late := true }
        let s := (s.redRecord e b redLate sevNotice b.phaseNow).modRedEng e fun x => { x with cntLate := satAdd 16 x.cntLate 1 }
        match r.shadowOf (s.myShard r) with
        | some m =>
          let s := s.setBucket e slot { b with asked := true }
          .next (s.sendPkt (s.mkPkt m b.ctx b.ctx b.id (uRed e) (redTag b.ring 0 b.id b.step) (.shadowRequest (BitVec.ofNat 3 b.ring) b.id b.step)))
        | none => .next ((s.redPolicy e slot b r).redProgress e slot 2)

/-- What a decided outcome does for a registration that came meanwhile, then the bucket goes on. -/
def State.redDecided (s : State) (e k : Nat) : State :=
  match s.bucket e k with
  | none => s
  | some b =>
    match b.reg with
    | some g =>
      let s := s.lateRead e k b g
      let b := (s.bucket e k).getD b
      let (diff, s) := s.redLateReg e b g
      (s.setBucket e k { b with diff := diff }).redProgress e k 2
    | none => s.redProgress e k 2

/-- The shadow is asked for its copy (R300, R304). -/
def execShadowRequest (k : Nat) (s : State) : Host.Outcome State Fault Refusal :=
  match s.inboxAt k [0x12] with
  | none => .next s
  | some p =>
    match p.body with
    | .shadowRequest ring id step =>
      let c := p.hdr.dctx
      let s := s.dropInbox k
      let answer (s : State) (copy : Option (List Byte × Bool × Int × BitVec 256)) (bad : Bool) : State :=
        s.sendPkt (s.mkPkt p.hdr.src c p.hdr.sctx id p.hdr.unit (redTag ring.toNat 0 id step) (.shadowCopy ring id step copy bad))
      match (s.findBucket c ring.toNat id step).bind fun x => s.bucket x.1 x.2 with
      | none => .next (answer s none false)
      | some b =>
        match b.reg with
        | none => .next (answer s none false)
        | some g =>
          let n := g.elems * (if g.bf16 then 2 else 4)
          if s.poisonIn g.src n then
            .next (answer (s.eccRecord g.src g.src p.hdr.unit (some c) none) none true)
          else
            let bs := s.peek g.src n
            .next (answer s (some (bs, g.bf16, localExp (decodeElems (s.strictOf c) g.bf16 bs g.elems),
              sentDigest id step g.bf16 g.elems bs)) false)
    | _ => .next s

/-- The shadow's answer reaches the primary's engine. -/
def execShadowCopy (k : Nat) (s : State) : Host.Outcome State Fault Refusal :=
  match s.inboxAt k [0x13] with
  | none => .next s
  | some p =>
    match p.body with
    | .shadowCopy ring id step copy bad =>
      let c := p.hdr.dctx
      let s := s.dropInbox k
      match s.findBucket c ring.toNat id step with
      | none => .next s
      | some (e, j) =>
        match s.bucket e j, s.ring c ring.toNat with
        | some b, some r =>
          if !b.asked || b.outcome.isSome then .next s
          else
            match copy, bad with
            | some x, _ =>
              let s := s.modRedEng e fun y => { y with cntShadow := satAdd 16 y.cntShadow 1 }
              .next ((s.setBucket e j { b with asked := false, outcome := some 1, copy := some x }).redDecided e j)
            | none, true =>
              .next ((s.setBucket e j { b with asked := false, outcome := some 1, copy := some ([], false, -126, 0),
                                               srcfail := true }).redDecided e j)
            | none, false => .next ((s.redPolicy e j b r).redDecided e j)
        | _, _ => .next s
    | _ => .next s

/-- No answer within DEADLINE counts as not registered. -/
def execShadowAnswerTimeout (e : BitVec 3) (slot : Nat) (s : State) : Host.Outcome State Fault Refusal :=
  let e := e.toNat
  match s.bucket e slot with
  | none => .next s
  | some b =>
    match s.ring b.ctx b.ring with
    | none => .next s
    | some r =>
      if !b.asked || b.outcome.isSome || b.frozen then .next s
      else .next ((s.redPolicy e slot b r).redDecided e slot)

/-- BUCKET_TIMEOUT passes after the registration was accepted (R296). -/
def execRedTimeout (e : BitVec 3) (slot : Nat) (s : State) : Host.Outcome State Fault Refusal :=
  let e := e.toNat
  match s.bucket e slot with
  | none => .next s
  | some b =>
    if b.reg.isNone then .next s
    else .next (((s.probe (uRed e)).modRedEng e fun x => { x with errTimeout := satAdd 16 x.errTimeout 1 }).redBad e slot b
      redTimeoutCode sevCtxFatal)

end Sys2Proof.Machine
end

