-- ==== Sys2Proof/Machine/Put.lean ====
section
/-!
DEFINITION. Puts (R341 to R344).
-/

namespace Sys2Proof.Machine

def fabPutFormat : Reason := 0x070B
def fabPutRefused : Reason := 0x070C
def fabPutTimeout : Reason := 0x070D

/-- Location of a page's byte for a hub's engine; none where the page does not translate with the right. -/
def State.hubXlat (s : State) (c : CtxId) (store : Bool) (va : Nat) : Option Nat :=
  if 0x100000000000 ≤ va && va < 0x200000000000 then
    let o := va - 0x100000000000
    match s.walkPage c (o / 0x10000) with
    | .entry e => if (if store then e.w else e.r) then some (granLoc (e.ppn * 0x10000 + o % 0x10000)) else none
    | _ => none
  else some va

/-- Walks of the pages of a Granary range are counted (Table 7.15), and read their entries at the home caches (R206). -/
def State.hubWalks (s : State) (c : CtxId) (a n : Nat) : State :=
  if 0x100000000000 ≤ a && n != 0 then
    (unitsOf (a - 0x100000000000) (a - 0x100000000000 + n - 1) 0x10000).foldl (fun s page =>
      let r := s.walkPage c page
      (s.countWalk c (match r with | .bad code _ => code == memPage | _ => false)).walkReads c page r) s
  else s

/-- n bytes from a may be read, or written, by the engine for context c: Larder, explicit Cellar or Granary. -/
def State.hubRange (s : State) (c : CtxId) (store : Bool) (a n : Nat) : Bool :=
  let r : Int × Int := (a, (a : Int) + n - 1)
  n != 0 && !isBench a && s.rangeWindow c r &&
    (if 0x100000000000 ≤ a then
      (unitsOf (a - 0x100000000000) (a - 0x100000000000 + n - 1) 0x10000).all fun p =>
        (s.hubXlat c store (0x100000000000 + p * 0x10000)).isSome
    else (s.rangeEntries c r).all fun e => match e.2 with | some g => if store then g.w else g.r | none => false)

/-- Runs of at most `n` bytes from a that stay in one page: address and length. -/
def pageRuns (a : Nat) : Nat → Nat → List (Nat × Nat)
  | 0, _ => []
  | _ + 1, 0 => []
  | fuel + 1, n =>
    let k := min n (0x10000 - a % 0x10000)
    (a, k) :: pageRuns (a + k) fuel (n - k)

/-- Bytes of a packet's source; none where a read meets an uncorrectable error, with the location. -/
def State.hubRead (s : State) (c : CtxId) (a n : Nat) : List Byte ⊕ Nat :=
  (pageRuns a 3 n).foldl (fun acc r =>
    match acc with
    | .inr l => .inr l
    | .inl bs =>
      match s.hubXlat c false r.1 with
      | some l => if s.poisonIn l r.2 then .inr l else .inl (bs ++ s.peek l r.2)
      | none => .inl bs) (.inl [])

/-- n bytes from a are read for context c (R206). -/
def State.hubReads (s : State) (c : CtxId) (a n : Nat) : State :=
  (pageRuns a 3 n).foldl (fun s r => match s.hubXlat c false r.1 with | some l => s.readVia l r.2 | none => s) s

/-- Bytes are written for context c. -/
def State.hubWrite (s : State) (c : CtxId) (a : Nat) (bs : List Byte) : State :=
  ((pageRuns a 3 bs.length).foldl (fun (acc : State × Nat) r =>
    match acc.1.hubXlat c true r.1 with
    | some l => (acc.1.pokeVia l ((bs.drop acc.2).take r.2), acc.2 + r.2)
    | none => (acc.1, acc.2 + r.2)) (s, 0)).1

/-! ### Records (Table 11.10) -/

structure PutRec where
  dest : ModuleNo
  dctx : Nat
  flags : Nat
  len : Nat
  src : Nat
  daddr : Nat
  tally : Nat
  done : Nat
  flow : BitVec 16
  timeout : Nat
  rsv : Bool
deriving DecidableEq, Repr

def putRec (bs : List Byte) : PutRec :=
  { dest := BitVec.ofNat 16 (byteField bs 0 2), dctx := byteField bs 2 1, flags := byteField bs 3 1, len := byteField bs 4 4,
    src := byteField bs 8 8, daddr := byteField bs 16 8, tally := byteField bs 24 4, done := byteField bs 28 4,
    flow := BitVec.ofNat 16 (byteField bs 32 2), timeout := byteField bs 36 4,
    rsv := byteField bs 34 2 != 0 || byteField bs 40 8 != 0 || byteField bs 56 8 != 0 }

/-- The record agrees with R341 and Table 11.10. -/
def State.putOk (s : State) (c : CtxId) (x : PutRec) : Bool :=
  let t := s.tally x.done
  s.peers.contains x.dest && decide (x.dctx < 16) && decide (x.flags < 4) && x.len % 64 == 0 && 64 ≤ x.len && x.len ≤ 0x4000000 &&
    x.src % 64 == 0 && s.hubRange c false x.src x.len && x.daddr % 64 == 0 &&
    (if x.flags ≥ 2 then decide (0x100000000000 ≤ x.daddr) && decide (x.daddr + x.len ≤ 0x200000000000)
     else isLarder x.daddr || isCellar x.daddr) &&
    (if x.flags % 2 == 1 then decide (x.tally < 32768) else x.tally == 0) &&
    decide (x.done < 32768) && t.assigned && t.ctx == c && !t.latch && x.timeout != 0 && !x.rsv

/-- A record of a put (R346). -/
def State.putRecord (s : State) (c : CtxId) (code : Reason) (dest : ModuleNo) (flow : BitVec 16) : State :=
  s.fabRecord uFab code sevError 0xFF
    (det 41 1 0xFF ||| det 45 2 0xFFFF ||| det 47 1 3 ||| det 48 2 dest.toNat ||| det 50 2 s.fab.module.toNat |||
      det 52 2 flow.toNat) (some c)

/-- A put ends: STATUS with DONE, DONE_TALLY. -/
def State.putEnd (s : State) (c : CtxId) (slot : Nat) (done : Nat) (reason : Reason) (part : Bool) : State :=
  let s := s.pokeVia (slot + 48) (leBytes (reason.toNat + b2n part * 2 ^ 16 + 2 ^ 63) 8)
  let s := s.modFab fun b =>
    if reason == 0 then { b with putDone := (b.putDone + 1) % 2 ^ 32 } else { b with putBad := (b.putBad + 1) % 2 ^ 32 }
  s.hubSignal c done

/-- The packets of a put from offset `off` on; an uncorrectable error in the source ends the sending. -/
def State.putSend (s : State) (c : CtxId) (x : PutRec) (id : Nat) : Nat → Nat → State
  | 0, _ => s
  | fuel + 1, off =>
    let n := min 4096 (x.len - off)
    if n == 0 then s
    else
      let s := s.hubReads c (x.src + off) n
      match s.hubRead c (x.src + off) n with
      | .inr l => s.eccRecord l (x.src + off) uFab (some c) none
      | .inl bs =>
        let last := decide (off + n = x.len)
        let body := Payload.putData id x.len off (BitVec.ofNat 64 (x.daddr + off)) (decide (x.flags ≥ 2))
          (if x.flags % 2 == 1 then some x.tally else none) last bs
        (s.sendPkt (s.mkPkt x.dest c (BitVec.ofNat 4 x.dctx) x.flow uFab (BitVec.ofNat 64 id) body)).putSend c x id fuel (off + n)

/-- The hub that serves a record: it owns the first candidate port of DEST_MODULE (R341). -/
def State.putHub (s : State) (dest : ModuleNo) : Nat :=
  match (s.route dest).bind (·.cands.head?) with | some p => p.toNat / 8 | none => 0

/-- The hub reads the next put record, once its tally has been signalled for it, and sends the block (R342). -/
def execPutRead (c : CtxId) (s : State) : Host.Outcome State Fault Refusal :=
  match (s.ctx c).img.bind (·.putq) with
  | none => .next s
  | some q =>
    let y := s.ctx c
    if y.putReady == 0 || !s.ctxServes c then .next s
    else
      let slot := q.base.toNat + y.putK % q.slots * 64
      let x := putRec (s.peek slot 64)
      let bad := s.poisonIn slot 64
      let s := (((s.readVia slot 64).hubWake (s.putHub x.dest)).modCtx c fun y => { y with putK := (y.putK + 1) % 2 ^ 32, putReady := y.putReady - 1 }).hubWait c .put q.tally
      let s := if bad then s.eccRecord slot slot uFab (some c) none else s
      if bad || !s.putOk c x then .next ((s.putRecord c fabPutFormat x.dest x.flow).putEnd c slot x.done fabPutFormat false)
      else
        let id := s.fab.nextPut
        let s := s.hubWalks c x.src x.len
        let s := s.modFab fun b => { b with
          nextPut := id + 1
          puts := b.puts ++ [{ ctx := c, gen := (s.ctx c).gen, id := id, slot := BitVec.ofNat 64 slot, dest := x.dest,
                               done := x.done, many := decide (x.len > 4096) }] }
        .next (s.putSend c x id 16385 0)

/-- A data packet of a put arrives (R343). -/
def execPutData (k : Nat) (s : State) : Host.Outcome State Fault Refusal :=
  match s.inboxAt k [0x20] with
  | none => .next s
  | some p =>
    match p.body with
    | .putData id _ _ daddr gran signal last data =>
      let c := p.hdr.dctx
      let src := p.hdr.src
      let s := (s.dropInbox k).hubWake (s.putHub src)
      let gen := (s.ctx c).gen
      let cur := (s.fab.putsIn.find? fun x => x.src == src && x.id == id).getD { src := src, id := id, gen := gen }
      let keep (s : State) (x : PutIn) : State := s.modFab fun b => { b with
        putsIn := (b.putsIn.filter fun y => !(y.src == src && y.id == id)) ++ (if last then [] else [x]) }
      if cur.refused then .next (keep s cur)
      else
        let a := daddr.toNat
        let n := data.length
        let st := (s.ctx c).st
        let kind := if gran then decide (0x100000000000 ≤ a) else isLarder a || isCellar a
        let reply (s : State) (code : Reason) (part : Bool) : State :=
          s.sendPkt (s.mkPkt src c p.hdr.sctx p.hdr.flow uFab (BitVec.ofNat 64 id) (.putReply id code part))
        if (st == .running || st == .paused) && s.ctxServes c && cur.gen == gen && kind && s.hubRange c true a n then
          let s := ((s.hubWalks c a n).hubWrite c a data)
          let s := keep s { cur with wrote := true }
          if !last then .next s
          else
            let s := match signal with
              | some t =>
                let y := s.tally t
                let by_ : SyncBy := ⟨8, .fabric src, if y.assigned then some y.ctx else none, 1, 0⟩
                let s := s.modSyncDie (t / 4096) fun x => { x with ops := x.ops + 1 }
                if y.assigned && y.remote then s.signalTally t 1 by_ else s.syncRecord false t syncRemote by_
              | none => s
            .next (reply s 0 false)
        else .next (reply (keep s { cur with refused := true }) fabPutRefused cur.wrote)
    | _ => .next s

/-- A put of this module with an id ends, as the destination or the fabric says. -/
def State.putAnswer (s : State) (id : Nat) (code : Reason) (part : Bool) (flow : BitVec 16) : State :=
  match s.fab.puts.find? fun x => x.id == id with
  | none => s
  | some x =>
    let s := s.modFab fun b => { b with puts := b.puts.filter fun y => y.id != id }
    if x.gen != (s.ctx x.ctx).gen then s
    else
      let s := if code == 0 then s else s.putRecord x.ctx code x.dest flow
      s.putEnd x.ctx x.slot.toNat x.done code part

/-- The acknowledgement or the refusal of a put. -/
def execPutReply (k : Nat) (s : State) : Host.Outcome State Fault Refusal :=
  match s.inboxAt k [0x21] with
  | none => .next s
  | some p =>
    match p.body with
    | .putReply id code part => .next ((s.dropInbox k).putAnswer id code part p.hdr.flow)
    | _ => .next s

/-- TIMEOUT of the i-th put in flight passes (R344). -/
def execPutTimeout (i : Nat) (s : State) : Host.Outcome State Fault Refusal :=
  match s.fab.puts[i]? with
  | none => .next s
  | some x =>
    let flow := BitVec.ofNat 16 (byteField (s.peek (x.slot.toNat + 32) 2) 0 2)
    .next (s.putAnswer x.id fabPutTimeout true flow)

end Sys2Proof.Machine
end

