-- ==== Sys2Proof/Machine/Stream.lean ====
section
/-!
DEFINITION. Events of the stream engines (R226 to R248).
-/

namespace Sys2Proof.Machine

/-- The channels of context c have been ordered to pause: a channel that starts now stops at its first boundary (R243). -/
def State.strmPausing (s : State) (c : CtxId) : Bool :=
  (s.ctx c).st == .paused || ((s.ctx c).snap.phase != .quiescing && match (s.ctx c).cmd with | some k => k.op == .pause | none => false)

/-- A command of a channel (R242). -/
def State.chanCmd (s : State) (q ch : Nat) (cmd : Nat) : State :=
  let x := s.chan q ch
  let refuse := s.strmRecord q ch strmStart ch 0 5 0
  if cmd == 1 then
    match s.quadCtx q with
    | none => refuse
    | some c =>
      let s' := s.modChan q ch fun x => { x with ctx := c, gen := (s.ctx c).gen }
      let badNotify := x.notify.getLsbD 31 && s.thCtx (BitVec.ofNat 13 (x.notify.toNat % 8192)) != some c
      if x.st != .idle || (s'.descLoc q ch 0).isNone || badNotify then refuse
      else
        let s := s'.modChan q ch fun x => { x.orphan with pass := 0, desc := none, pre := none, pauseReq := s.strmPausing c }
        (s.quadWake q).strmGoOn q ch (.descriptor 0)
  else if cmd == 2 then
    if x.st != .faulted then refuse
    else
      let s := s.modChan q ch fun y => { y with st := .running, pauseReq := s.strmPausing x.ctx }
      if x.badDesc then (s.modChan q ch fun x => { x with pre := none }).strmGoOn q ch (.descriptor x.index)
      else if x.desc.isNone then s.strmGoOn q ch .reread
      else s.strmGoOn q ch (if x.waited then .data else .repetition)
  else if cmd == 3 then
    if x.st == .idle || x.st == .draining then refuse else s.strmAbortChan q ch
  else s

/-- The writer may write the channel's command register (R248). -/
def State.strmWriter (s : State) (q : QuadId) (w : Writer) : Bool :=
  match w with
  | .reeve => true
  | .thread th => (s.thr th).super && (s.thCtx th).isSome && s.thCtx th == s.quadCtx q.toNat

def execStrmStart (q : QuadId) (ch : BitVec 3) (w : Writer) (s : State) : Host.Outcome State Fault Refusal :=
  .next (if s.strmWriter q w then s.chanCmd q.toNat ch.toNat 1 else s)

def execStrmRetry (q : QuadId) (ch : BitVec 3) (w : Writer) (s : State) : Host.Outcome State Fault Refusal :=
  .next (if s.strmWriter q w then s.chanCmd q.toNat ch.toNat 2 else s)

def execStrmAbort (q : QuadId) (ch : BitVec 3) (w : Writer) (s : State) : Host.Outcome State Fault Refusal :=
  .next (if s.strmWriter q w then s.chanCmd q.toNat ch.toNat 3 else s)

/-- The channel is of a generation of its context that a purge has ended: what it has outstanding is void (R408, Table 14.4). -/
def State.strmOld (s : State) (x : Chan) : Bool := x.gen != (s.ctx x.ctx).gen

/-- A late reply is discarded and counted. -/
def State.strmLate (s : State) (q : Nat) : State := s.modEngine q fun e => { e with cntLate := e.cntLate + 1 }

/-- The oldest descriptor read of the channel returns. -/
def execStrmDescReply (q : QuadId) (ch : BitVec 3) (s : State) : Host.Outcome State Fault Refusal :=
  let q := q.toNat
  let ch := ch.toNat
  let x := s.chan q ch
  match x.reads.findIdx? (·.desc.isSome) with
  | none => .next s
  | some i =>
    match x.reads[i]? with
    | none => .next s
    | some r =>
      let bad := s.poisonIn r.loc 64
      let old := s.strmOld x
      let s := (s.modChan q ch fun x => { x with reads := x.reads.eraseIdx i }).pumpEngine q ch
      let s := if bad then s.eccRecord r.loc r.va.toNat (uQuad q) (some x.ctx) none else s
      if !r.live || old then .next ((s.strmLate q).strmDrain q ch)
      else
        let data := if bad then none else some (s.peek r.loc 64)
        match r.desc with
        | none => .next s
        | some idx =>
          if x.want == some idx then .next (s.takeDesc q ch idx data)
          else .next (s.modChan q ch fun x => { x with pre := some (idx, data) })

/-- The oldest descriptor read has had no reply within the bound of R229. -/
def execStrmDescTimeout (q : QuadId) (ch : BitVec 3) (s : State) : Host.Outcome State Fault Refusal :=
  let q := q.toNat
  let ch := ch.toNat
  let x := s.chan q ch
  match x.reads.findIdx? fun r => r.live && r.desc.isSome with
  | none => .next s
  | some i =>
    let s := s.modChan q ch fun x => { x with reads := x.reads.modify i fun r => { r with live := false } }
    let s := match x.reads[i]? with | some r => s.probeVa x.ctx r.va | none => s
    match (x.reads[i]?).bind (·.desc) with
    | none => .next s
    | some idx =>
      if x.want == some idx then .next (s.takeDesc q ch idx none)
      else .next (s.modChan q ch fun x => { x with pre := some (idx, none) })

/-- The channel issues its next piece; with nothing left to issue, a phase that moves nothing ends. -/
def execStrmIssue (q : QuadId) (ch : BitVec 3) (s : State) : Host.Outcome State Fault Refusal :=
  let q := q.toNat
  let ch := ch.toNat
  let x := s.chan q ch
  if x.st != .running || !x.inData || !s.ctxServes x.ctx || s.strmOld x then .next s
  else if x.allIssued then .next (s.strmCheck q ch)
  else if 512 ≤ (s.engine q).outstanding then .next s
  else
    match x.desc with
    | some d => .next ((s.issuePiece q ch d).strmCheck q ch)
    | none => .next s

/-- The k-th read of the copy returns: its bytes are those the line holds now (R236). Poisoned ones are recorded by their
memory unit also when the reply comes late (R215, R245). -/
def execStrmReadReply (q : QuadId) (ch : BitVec 3) (k : Nat) (s : State) : Host.Outcome State Fault Refusal :=
  let q := q.toNat
  let ch := ch.toNat
  let x := s.chan q ch
  match (x.reads.zipIdx.filter fun r => r.1.desc.isNone)[k]? with
  | none => .next s
  | some (r, i) =>
    let bad := s.poisonIn r.loc r.len
    let bs := s.peek r.loc r.len
    let old := s.strmOld x
    let s := (s.modChan q ch fun x => { x with reads := x.reads.eraseIdx i }).benchServed r.loc
    let s := if bad then s.eccRecord r.loc r.va.toNat (uQuad q) (some x.ctx) none else s.readVia r.loc r.len
    if !r.live || old then .next ((s.pumpEngine q ch |>.strmLate q).strmDrain q ch)
    else if bad then .next ((s.strmFault q ch strmEcc ch r.va 2 0).pumpEngine q ch)
    else
      let s := if r.dests.isEmpty then
          s.modChan q ch fun x => { x with buf := smod 0 r.row (· + leNat bs <<< (8 * r.off)) x.buf }
        else s.modChan q ch fun x => { x with wq := x.wq ++ (r.dests.foldl (fun acc d =>
          (acc.1 + d.2.2, acc.2 ++ lineWrites d.1 d.2.1 ((bs.drop acc.1).take d.2.2) false)) (0, [])).2 }
      .next ((s.pumpEngine q ch).strmCheck q ch)

/-- Cells of a write, with the nibble that it keeps. -/
def State.writeCells (s : State) (w : SWrite) : List (Nat × Byte) :=
  w.cells.map fun c => if w.half == some c.1 then (c.1, (memGet s.mem c.1 &&& 0xF0) ||| (c.2 &&& 0x0F)) else c

/-- Two writes reach one line. -/
def sameLine (a b : SWrite) : Bool :=
  a.cells.any fun c => b.cells.any fun d => c.1 / 64 == d.1 / 64

/-- The k-th outstanding write takes effect and is acknowledged; writes to one line in the order issued (R217). One of a purged
generation may or may not have taken effect (Table 14.4). -/
def execStrmWriteAck (q : QuadId) (ch : BitVec 3) (k : Nat) (s : State) : Host.Outcome State Fault Refusal :=
  let q := q.toNat
  let ch := ch.toNat
  let x := s.chan q ch
  match x.writes[k]? with
  | none => .next s
  | some w =>
    if (x.writes.take k).any (sameLine w) then .next s
    else if s.strmOld x then
      let s := s.modChan q ch fun x => { x with writes := x.writes.eraseIdx k }
      let (b, s) := s.draw 1
      let s := if b == 1 then s.pokeCellsVia (s.writeCells w) else s
      .next (((s.pumpEngine q ch).strmLate q).strmDrain q ch)
    else
      let s := (s.modChan q ch fun x => { x with writes := x.writes.eraseIdx k }).benchServed
        ((w.cells.head?.map (·.1)).getD 0)
      let cells := s.writeCells w
      let bad := s.subPoison cells
      let s := s.pumpEngine q ch
      let s := if bad then s.eccRecord ((w.cells.head?.map (·.1)).getD 0) w.va.toNat (uQuad q) (some x.ctx) none
        else (s.pokeCellsVia cells).modEngine q fun e => { e with cntBytes := e.cntBytes + cells.length }
      if !w.live then .next ((s.strmLate q).strmDrain q ch)
      else if bad then .next (s.strmFault q ch strmEcc ch w.va 3 0)
      else .next (s.strmCheck q ch)

/-- Outstanding writes that will not be acknowledged: a free bit each says whether one took effect. -/
def State.strmGiveUp (s : State) (q ch : Nat) : State :=
  let x := s.chan q ch
  let s := s.modChan q ch fun x => { x with reads := [], writes := [] }
  x.writes.foldl (fun s w =>
    let (b, s) := s.draw 1
    if b == 1 then s.pokeCellsVia (s.writeCells w) else s) s

/-- The data timer expires (R244); in DRAINING, the outstanding requests time out (Table 8.4). PHASE is 0x02 while the
repetition has bytes to issue or reads out, 0x03 after (DESIGN CHOICE, log 33). -/
def execStrmTimeout (q : QuadId) (ch : BitVec 3) (s : State) : Host.Outcome State Fault Refusal :=
  let q := q.toNat
  let ch := ch.toNat
  let x := s.chan q ch
  if x.st == .draining then .next (((s.strmGiveUp q ch).pumpEngine q ch).strmDrain q ch)
  else if x.st == .running && x.inData then
    match x.cut with
    | some (code, phase, addr, level) => .next (s.strmFault q ch code ch addr phase level)
    | none =>
      let phase := if x.allIssued && !x.dataReads then 3 else 2
      let s := (x.reads.map (·.va) ++ x.writes.map (·.va)).foldl (fun s va => s.probeVa x.ctx va) s
      .next (s.strmFault q ch strmTimeout ch 0 phase 0)
  else .next s

/-- The timeout of a wait expires: the engine withdraws the waiter (R244, R262, R263). -/
def execStrmWaitTimeout (q : QuadId) (ch : BitVec 3) (s : State) : Host.Outcome State Fault Refusal :=
  let q := q.toNat
  let ch := ch.toNat
  if (s.chan q ch).st != .waiting then .next s
  else .next ((s.modChan q ch fun x => { x with expired := true }).strmWithdraw q ch)

end Sys2Proof.Machine
end

