-- ==== Sys2Proof/Machine/Registers.lean ====
section
/-!
DEFINITION. The register blocks of the units (R11 to R14; R54, R225, R248, R273, R310, R347, R377, R404, R433, R465,
R489): what a read returns, what a SUPERVISOR thread may reach, and what a write of a thread does. Every register is 64
bits wide. A block is named by its unit ID.
-/

namespace Sys2Proof.Machine

/-- Word of fields (offset, value). -/
def fields (l : List (Nat × Nat)) : Word := BitVec.ofNat 64 ((l.map fun x => x.2 <<< x.1).foldl (· + ·) 0)

/-- Index of an offset in an array of `n` registers `step` bytes apart from `base`. -/
def regIdx (off base step n : Nat) : Option Nat :=
  if base ≤ off && (off - base) % step == 0 && (off - base) / step < n then some ((off - base) / step) else none

/-- Two's complement of 16 bits. -/
def signed16 (v : Int) : Nat := (v % 2 ^ 16).toNat

/-! ### Memory (Tables 7.15 to 7.20) -/

def State.readCtxMem (s : State) (c : CtxId) (off : Nat) : Option Word :=
  let m := (s.ctx c).mem
  if off == 0x00 then some (fields [(0, s.cfrac.toNat), (4, m.gsalt.toNat), (8, b2n m.rehash)])
  else if off == 0x08 then some (fields [(16, m.ptroot)])
  else if off == 0x10 then some (m.memto.setWidth 64)
  else if off == 0x18 then some (fields [(0, m.walks), (32, m.pageFaults)])
  else if off == 0x20 then some (BitVec.ofNat 64 m.late)
  else
    match regIdx off 0x100 16 32, regIdx off 0x108 16 32 with
    | some i, _ =>
      some (match m.regions[i]? with
        | some r => fields [(0, r.win.toNat), (2, if r.win == 2 then 0 else r.die.toNat), (8, b2n r.r), (9, b2n r.w),
            (10, b2n r.x), (11, b2n r.u), (15, 1)]
        | none => 0)
    | none, some i => some (match m.regions[i]? with | some r => fields [(0, r.base), (32, r.limit)] | none => 0)
    | none, none => none

def State.readDieMem (s : State) (d off : Nat) : Option Word :=
  let x := s.die d
  if off == 0x00 then some (fields [(0, s.cfrac.toNat), (3, b2n x.flushing)])
  else if off == 0x08 then some (BitVec.ofNat 64 x.hit)
  else if off == 0x10 then some (BitVec.ofNat 64 x.miss)
  else if off == 0x18 then some (BitVec.ofNat 64 x.wb)
  else if off == 0x20 then some (fields [(0, x.benchC), (32, x.benchU)])
  else if off == 0x28 then some (fields [(0, x.lardC), (32, x.lardU)])
  else if off == 0x30 then some (fields [(0, x.cellC), (32, x.cellU)])
  else if off == 0x38 then some (x.scrub.setWidth 64)
  else none

def State.readGran (s : State) (n off : Nat) : Option Word :=
  let x := s.gran n
  if off == 0x00 then some (fields [(0, b2n x.trained)])
  else if off == 0x08 then some (BitVec.ofNat 64 x.req)
  else if off == 0x10 then some (fields [(0, x.eccC), (32, x.eccU)])
  else if off == 0x18 then
    some (fields [(0, x.hotCh.toNat), (4, x.hotBank.toNat), (8, x.hotCtx.toNat), (32, x.episodes), (63, b2n x.hotValid)])
  else if off == 0x20 then some (x.hotth.setWidth 64)
  else if off == 0x28 then some (x.scrub.setWidth 64)
  else none

/-! ### Sync units and reduction (Tables 9.12 to 9.14, 10.11 to 10.13) -/

/-- Bell or tally that an offset of a sync block belongs to. -/
def syncObj (d off : Nat) : Option (Bool × Nat) :=
  if 0x4000 ≤ off && off < 0x8000 && off % 8 == 0 then some (true, 512 * d + (off - 0x4000) / 32)
  else (regIdx off 0x8000 8 4096).map fun i => (false, 4096 * d + i)

def State.readSync (s : State) (d off : Nat) : Option Word :=
  let x := sget {} s.sync.dies d
  if off == 0x00 then some (BitVec.ofNat 64 d)
  else if off == 0x08 then some (BitVec.ofNat 64 x.ops)
  else if off == 0x10 then some (fields [(0, x.timeouts), (32, x.withdrawals)])
  else if off == 0x18 then some (BitVec.ofNat 64 x.late)
  else if off == 0x20 then some (fields [(0, x.eSat), (16, x.eUnder), (32, x.eTally), (48, x.eBell)])
  else if off == 0x28 then some (fields [(0, s.sync.waiters d), (16, x.most)])
  else
    match regIdx off 0x100 8 16, syncObj d off with
    | some c, _ => some (sget 0 x.notify c)
    | none, some (true, j) =>
      let b := s.bell j
      some (if off % 32 == 0 then b.wordA else if off % 32 == 8 then b.wordB else if off % 32 == 16 then b.wordC else b.wordD)
    | none, some (false, i) => some (s.tally i).word
    | none, none => none

def State.readRed (s : State) (e off : Nat) : Option Word :=
  let x := s.redEng e
  if off == 0x00 then some (fields [(0, e), (3, e / 4)])
  else if off == 0x08 then some (BitVec.ofNat 64 x.slots.length)
  else if off == 0x10 then some (BitVec.ofNat 64 x.cntBytes)
  else if off == 0x18 then some (fields [(0, x.cntBucket), (32, x.cntRepass)])
  else if off == 0x20 then some (fields [(0, x.cntLate), (16, x.cntShadow), (32, x.cntDefer), (48, x.cntDrop)])
  else if off == 0x28 then some (BitVec.ofNat 64 x.cntStale)
  else if off == 0x30 then some (fields [(0, x.errNonfinite), (16, x.errTimeout), (32, x.errShadow), (48, x.errSource)])
  else none

def State.readCtxRed (s : State) (c : CtxId) (off : Nat) : Option Word :=
  let x := s.ctx c
  let sec := x.img.bind (·.red)
  let sel := x.red.digSel
  let dig := s.digEntry c (getF sel 16 3) (sel.setWidth 16) (BitVec.ofNat 32 (getF sel 32 32))
  if off == 0x00 then some (fields [(0, x.red.k), (32, match sec with | some y => y.queue.slots | none => 0)])
  else if off == 0x08 then some (match sec with | some y => y.queue.base | none => 0)
  else if off == 0x10 then some (x.red.notify.setWidth 64)
  else if off == 0x18 then some x.red.digSel
  else
    match regIdx off 0x20 8 4, regIdx off 0x40 8 4, regIdx off 0x100 8 32 with
    | some i, _, _ => some (match dig with | some d => BitVec.ofNat 64 (getF d.sent (64 * i) 64) | none => 0)
    | none, some i, _ => some (match dig with | some d => BitVec.ofNat 64 (getF d.recv (64 * i) 64) | none => 0)
    | none, none, some i =>
      if i % 4 == 3 then none
      else
        some (match x.rings[i / 4]? with
          | none => 0
          | some r =>
            let g := r.cfg
            if i % 4 == 0 then
              let p := r.pos s.fab.module
              let m := r.memberAt p
              fields [(0, 1), (1, b2n g.twoD), (2, b2n g.predict), (3, b2n g.drop), (4, g.pmargin), (7, b2n m.shadow), (8, g.h),
                (16, r.d), (32, p), (48, m.shard)]
            else if i % 4 == 1 then fields [(0, g.deadline), (32, g.timeout)]
            else fields [(0, g.maxBuckets), (16, g.digestFrame)])
    | none, none, none => none

/-! ### Fabric (Tables 11.13 to 11.17) -/

def portNum : PortState → Nat
  | .disabled => 0
  | .training => 1
  | .up => 2
  | .down => 3

def State.readPort (s : State) (p off : Nat) : Option Word :=
  let x := s.port p
  if off == 0x00 then
    some (fields [(0, b2n x.enable), (1, b2n x.dateline), (4, x.peerPort.toNat), (8, x.allowed.toNat), (16, x.peer.toNat)])
  else if off == 0x08 then
    some (fields [(0, portNum x.st), (2, s.laserInputs p), (4, x.txWidth), (8, x.rxWidth), (12, x.cause.toNat),
      (16, x.txGood.toNat), (24, x.rxGood.toNat), (32, x.seenPeer.toNat)])
  else if off == 0x10 then some (fields [(0, x.flitsTx), (32, x.flitsRx)])
  else if off == 0x18 then some (fields [(0, x.cntReplay), (32, x.cntNak)])
  else if off == 0x20 then some (fields [(0, x.cntCrc), (32, x.cntFec)])
  else if off == 0x28 then some (x.margin.setWidth 64)
  else (regIdx off 0x40 8 8).map fun i =>
    let l := sget {} x.lanes i
    fields [(0, l.corr), (32, l.unc), (48, l.losses)]

/-- FAB_ROUTE_DATA. -/
def State.routeWord (s : State) : Word :=
  match s.route s.fab.routeSel with
  | some r => fields ([(0, 1), (1, r.cands.length - 1)] ++
      ((List.range (min 4 r.cands.length)).map fun i => (4 + 4 * i, ((r.cands[i]?).getD 0).toNat % 16)))
  | none => 0

def State.readFab (s : State) (off : Nat) : Option Word :=
  let b := s.fab
  if off == 0x00 then some (fields [(0, b.module.toNat), (16, b.fabricId.toNat)])
  else if off == 0x08 then some (fields [(0, b.life.toNat), (20, b.hopsMax.toNat), (24, b.hold.toNat)])
  else if off == 0x10 then
    some (fields (((List.range 4).map fun i => (4 * i, (b.weights[i]?).getD 0)) ++ [(16, b.snapcap.toNat)]))
  else if off == 0x18 then some (fields [(0, b.retrain.toNat), (32, b.ackto.toNat)])
  else if off == 0x20 then some (b.routeSel.setWidth 64)
  else if off == 0x28 then some s.routeWord
  else if off == 0x30 then some (BitVec.ofNat 64 b.transit)
  else if off == 0x38 then some (BitVec.ofNat 64 b.drop)
  else if off == 0x40 then some (BitVec.ofNat 64 b.stale)
  else if off == 0x48 then some (BitVec.ofNat 64 b.cntHold)
  else if off == 0x50 then some (fields [(0, b.putDone), (32, b.putBad)])
  else none

/-- The case temperature and the output power are measured: they are a free value, another at each read (log 43). -/
def State.readLaser (s : State) (m off : Nat) : Option Word :=
  let l := s.laser m
  if off == 0x00 then
    let v := if l.seen then (Config.free 24 s.freeCtr).toNat else 0
    some (fields ([(0, b2n (l.seen && l.present)), (1, b2n (l.seen && l.enabled)), (2, b2n (l.seen && l.fault)), (3, b2n l.healthy), (8, v)] ++
      ((List.range 17).map fun e => (32 + e, b2n (l.healthy && e % 4 != m)))))
  else if off == 0x08 then some (fields [(0, b2n l.enabled)])
  else if off == 0x10 then some (fields [(0, l.losses), (16, l.insertions)])
  else none

/-! ### Gate, sequencer, feeds (Tables 12.12 to 12.14) -/

def State.readGate (s : State) (off : Nat) : Option Word :=
  let g := s.gate
  if off == 0x00 then some (fields [(0, b2n g.enable)])
  else if off == 0x08 then
    some (fields [(0, portNum (s.port 16).st), (2, b2n g.dadOk), (3, s.laserInputs 16),
      (8, ((s.port 16).rxGood &&& (s.port 16).txGood).toNat)])
  else if off == 0x10 then some (s.fuses.mac.setWidth 64)
  else if off == 0x18 then some (g.addr.setWidth 64)
  else if off == 0x20 then some ((g.addr >>> 64).setWidth 64)
  else if off == 0x28 then some (fields [(0, g.port.toNat), (16, g.prefixLen)])
  else if off == 0x30 then some (BitVec.ofNat 64 g.rx)
  else if off == 0x38 then some (BitVec.ofNat 64 g.tx)
  else if off == 0x40 then some (fields [(0, g.dUnprot), (16, g.dIcv), (32, g.dHeader), (48, g.dReplay)])
  else if off == 0x48 then some (fields [(0, g.fecC), (32, g.fecU)])
  else none

/-- CMD_CTX_c. -/
def State.ctxWord (s : State) (c : CtxId) : Word :=
  let x := s.ctx c
  fields [(0, stNum x.st), (3, b2n x.load.isSome), (4, b2n x.restored), (8, x.gen.toNat)]

def State.readSeq (s : State) (off : Nat) : Option Word :=
  if off == 0x00 then some (fields [(0, s.gate.sessions.length)])
  else if off == 0x08 then some (BitVec.ofNat 64 s.log.next)
  else if off == 0x10 then some (fields [(0, s.seqr.executed), (32, s.seqr.refused)])
  else (regIdx off 0x100 8 16).map fun c => s.ctxWord (BitVec.ofNat 4 c)

def feedNum : FeedState → Nat
  | .idle => 0
  | .active => 1
  | .paused => 2
  | .stopped => 3

def State.readFeed (s : State) (c : CtxId) (off : Nat) : Option Word :=
  let f := (s.ctx c).feed
  if off == 0x00 then some (fields [(0, feedNum f.st), (8, f.flight.length), (16, f.stopReason.toNat)])
  else if off == 0x08 then
    some (match f.cfg with | some x => fields [(0, x.dataset.toNat), (32, x.shard.toNat)] | none => 0)
  else if off == 0x10 then some f.fillOff
  else if off == 0x18 then some (f.fillEpoch.setWidth 64)
  else if off == 0x20 then some f.doneOff
  else if off == 0x28 then some (f.doneEpoch.setWidth 64)
  else if off == 0x30 then some (fields [(0, f.delivered), (32, f.repeats)])
  else none

/-! ### Harvest (Tables 13.13 to 13.15) -/

def State.readHarv (s : State) (h off : Nat) : Option Word :=
  let x := sget {} s.harv.inst h
  if off == 0x00 then some (BitVec.ofNat 64 h)
  else if off == 0x08 then some (BitVec.ofNat 64 x.bytes)
  else if off == 0x10 then some (BitVec.ofNat 64 x.recv)
  else if off == 0x18 then some (fields [(0, x.mismatch), (16, x.again), (32, x.abandon)])
  else (regIdx off 0x100 8 4).map fun i =>
    match s.harv.hosted[i]? with
    | some y => fields [(0, y.cfg.client.toNat), (16, y.slots - y.used.length), (36, y.slots), (56, y.cfg.keep - 1), (63, 1)]
    | none => 0

def State.readSnap (s : State) (c : CtxId) (off : Nat) : Option Word :=
  let x := (s.ctx c).snap
  let n := match (s.ctx c).img with | some i => (if i.snap.isSome then snapN i else 0) | none => 0
  if off == 0x00 then some (fields [(0, b2n x.sched)])
  else if off == 0x08 then some (fields [(0, s.snapPhase c), (8, x.reason.toNat), (32, x.round.toNat)])
  else if off == 0x10 then
    some (match x.last with | some r => fields [(0, r.toNat), (32, 1), (33, b2n x.lastExt)] | none => 0)
  else if off == 0x18 then some (x.notify.setWidth 64)
  else if off == 0x20 then some (fields [(0, n), (32, x.set.length)])
  else (regIdx off 0x40 8 8).map fun i => BitVec.ofNat 64 (getF x.root (64 * i) 64)

/-! ### Recovery (Tables 14.7, 14.9 to 14.11) -/

/-- The 96 bytes of a fault-history entry. -/
def FhEntry.bytes (e : FhEntry) : List Byte :=
  leBytes e.resetCount.toNat 4 ++ leBytes 0 4 ++ leBytes e.index.toNat 8 ++ e.record.bytes ++ [e.level, e.escalations] ++
    leBytes 0 14

/-- Units fenced for any context. -/
def State.fencedUnits (s : State) : List UnitId := (allCtx.flatMap fun c => (s.ctx c).rst.fenced).eraseDups

def State.readRst (s : State) (off : Nat) : Option Word :=
  let r := s.rst
  if off == 0x00 then some (fields [(0, r.level.toNat), (8, min 255 s.fencedUnits.length)])
  else if off == 0x08 then some (r.quiesce.setWidth 64)
  else if off == 0x10 then some (r.engTo.setWidth 64)
  else if off == 0x18 then some (fields [(0, r.hbPeriod.toNat), (32, r.hbMiss.toNat)])
  else if off == 0x20 then some (r.genGap.setWidth 64)
  else if off == 0x28 then some (r.probeTo.setWidth 64)
  else if off == 0x30 then some (fields [(0, r.cntPurge), (16, r.cntEngine), (32, r.cntDie), (48, r.cntProbe)])
  else if off == 0x40 then some (r.fhSel.setWidth 64)
  else if off == 0x48 then some (fields [(0, r.fhNext), (14, b2n r.fhWrapped), (16, r.fhDropped)])
  else (regIdx off 0x80 8 12).map fun i =>
    match (r.history.find? fun e => e.1 == r.fhSel.toNat).map (·.2) with
    | some e => BitVec.ofNat 64 (leNat ((e.bytes.drop (8 * i)).take 8))
    | none => 0

def fillNum : Fill → Nat
  | .none => 0
  | .restoring => 1
  | .joinSent => 2
  | .held => 3
  | .done => 4
  | .abandoned => 5

def State.readCtxRst (s : State) (c : CtxId) (off : Nat) : Option Word :=
  let r := (s.ctx c).rst
  if off == 0x00 then some (fields [(0, r.fenced.length), (16, fillNum r.fill), (32, r.switches)])
  else if off == 0x08 then some (fields [(0, r.deadMod.toNat), (16, r.deadRing.toNat), (19, b2n r.deadValid)])
  else if off == 0x10 then some (fields [(0, r.lastReason.toNat), (16, r.lastLevel.toNat)])
  else if off == 0x18 then some (fields [(0, r.joinHold.toNat), (32, r.switchMask.toNat), (40, b2n r.join)])
  else none

/-! ### Boot and Vault (Tables 15.16 to 15.18) -/

def phaseNum : BootPhase → Nat
  | .resetEntry => 0
  | .fuse => 1
  | .fwVerify => 2
  | .cfg => 3
  | .train => 4
  | .released => 5
  | .recovery => 6

def State.readBoot (s : State) (off : Nat) : Option Word :=
  let b := s.boot
  let n := s.nvm
  if off == 0x00 then some (fields [(0, b2n b.enable)])
  else if off == 0x08 then
    some (fields [(0, phaseNum b.phase), (3, b2n n.slot.active), (4, b2n b.trial), (5, b2n b.fallback), (6, b2n (n.slot.staged && n.slot.staging == some (!n.slot.active))),
      (8, n.slot.tries % 4), (16, b.reason.toNat)])
  else if off == 0x10 then some (fields [(0, b.time)])
  else if off == 0x18 then some (fields [(0, n.fwSvn), (32, n.cfgSvn)])
  else if off == 0x20 then some (fields [(0, s.fuses.svnFloor), (8, s.fuses.lifecycle.toNat), (16, b2n s.fuses.jtagOff)])
  else if off == 0x28 then some (fields [(0, n.resets), (32, n.boots)])
  else if off == 0x30 then
    some (fields [(0, b2n n.half), (1, b2n n.frozen.isSome), (2, n.records), (32, n.compactions), (48, n.tagFail)])
  else if off == 0x38 then some (match b.ownFeed with | some f => fields [(0, f.toNat), (32, 1)] | none => 0)
  else none

def State.readVault (s : State) (off : Nat) : Option Word :=
  let v := s.vault
  if off == 0x00 then
    some (fields [(0, match v.st with | .selftest => 0 | .ready => 1 | .error => 2), (16, v.reason.toNat)])
  else if off == 0x08 then some (fields [(0, v.signs), (32, v.verifies)])
  else if off == 0x10 then some (fields [(0, v.generates), (32, v.reseeds)])
  else (regIdx off 0x40 8 8).map fun i => BitVec.ofNat 64 (getF vaultId (64 * i) 64)

/-! ### Reeve and clocks (Tables 16.11 to 16.14) -/

/-- Set-point of rail r (Table 16.6): core rails by their divider; none before the rails are up. -/
def State.setPointOf (s : State) (r : Nat) : Nat :=
  if s.boot.phase == .resetEntry then 0
  else Config.setPoint s.fuses.trim r (if r < 8 then (s.dieClk r).setDiv else 0)

def State.readReeve (s : State) (off : Nat) : Option Word :=
  let p := s.pwr
  let smp := p.last
  if off == 0x00 then
    some (fields [(0, b2n (s.boot.phase != .resetEntry)), (1, b2n (s.boot.phase == .released || s.boot.phase == .recovery)), (8, p.lp), (16, b2n p.capFloor),
      (17, b2n p.inputOut)])
  else if off == 0x08 then some (BitVec.ofNat 64 s.clk.reeve)
  else if off == 0x10 then
    some (fields [(0, p.policy.pcap), (12, p.policy.fastlim), (20, p.policy.hyst), (25, p.policy.dwell), (32, p.policy.uphold)])
  else if off == 0x18 then some (fields [(0, p.policy.tWarn), (8, p.policy.tThrot), (16, 110)])
  else if off == 0x20 then
    some (match smp with
      | some x => fields [(0, x.power), (16, if p.recent.isEmpty then 0 else (p.recent.foldl (· + ·) 0) / p.recent.length), (32, x.vin)]
      | none => 0)
  else if off == 0x28 then some (fields [(0, p.samples % 2 ^ 32)])
  else if off == 0x30 then some (fields [(0, p.fast), (16, p.floors), (32, p.failed), (48, p.clamps)])
  else if off == 0x250 then
    some (match smp with | some x => fields [(0, signed16 x.inlet), (16, signed16 x.outlet)] | none => 0)
  else
    match regIdx off 0x100 8 24, regIdx off 0x200 8 10 with
    | some r, _ =>
      let (a, v) := (smp.bind fun x => x.rails[r]?).getD (0, 0)
      some (fields [(0, a % 2 ^ 16), (16, v % 2 ^ 16), (32, s.setPointOf r % 2 ^ 16), (48, b2n (p.failR.contains r))])
    | none, some i =>
      let (t, k) := match smp with | some x => x.hot i | none => (0, 0)
      some (fields [(0, signed16 t), (16, k % 16), (20, b2n (p.failT.any fun f => f.1 == i))])
    | none, none => none

/-- Ports of hub h, the Gate's among HD0's. -/
def hubPorts (h : Nat) : List Nat := (List.range 8).map (8 * h + ·) ++ (if h == 0 then [16] else [])

/-- CLK_GATED: gated domains of Table 16.3. -/
def State.gatedWord (s : State) : Word :=
  if s.boot.phase == .resetEntry then 0
  else
    let cores := 2048 - (s.cores.filter fun c => !c.2.gated && (s.coreCtx c.1).isSome).length
    let mesh := if phaseNum s.boot.phase < 4 then 8 else (s.rst.dieResets.filter fun d => decide (d < 8)).length
    let out (n : Nat) : Bool := !(s.gran n).trained || s.rst.engines.contains (BitVec.ofNat 16 (0x0310 + n)) ||
      (decide (6 ≤ n) && s.rst.dieResets.contains 8)
    let gran := ([0, 1].filter fun h => (List.range 6).all fun i => out (6 * h + i)).length
    let optics := ([0, 1].filter fun h => (hubPorts h).all fun p => (s.port p).st == .disabled).length
    fields [(0, cores), (12, 256 - s.pwr.quadOn.length), (21, mesh + (2 - s.pwr.hubOn.length) + gran + optics)]

def State.readClk (s : State) (off : Nat) : Option Word :=
  if off == 0x00 then some (fields [(0, b2n s.pwr.locked), (8, s.pwr.lostLocks)])
  else if off == 0x08 then some s.gatedWord
  else none

def State.readDieClk (s : State) (d off : Nat) : Option Word :=
  let x := s.dieClk d
  if off == 0x00 then
    some (fields [(0, x.div), (4, x.pending), (8, x.idle), (12, x.level), (16, s.pwr.lp), (20, x.lt), (24, s.pwr.lf)])
  else if off == 0x08 then some (fields [(0, x.steps), (32, x.switches), (48, x.cancelled)])
  else if off == 0x10 then some (fields [(0, x.above), (32, x.at11)])
  else none

/-! ### Cores and stream engines (R54, Table 8.10) -/

def State.readCore (s : State) (g off : Nat) : Option Word :=
  let n := off % 0x1000 / 8
  if off % 8 != 0 then none
  else if off < 0x4000 then (if csrPerThread n then some (s.csrRead (mkTh g (off / 0x1000)) n) else none)
  else if off < 0x4400 then (if csrCoreWide (0x80 + n) then some (s.csrRead (mkTh g 0) (0x80 + n)) else none)
  else none

def State.readStrm (s : State) (q off : Nat) : Option Word :=
  let e := s.engine q
  if off == 0x00 then
    some (match s.quadCtx q with | some c => fields [(0, q), (16, c.toNat), (20, 1)] | none => fields [(0, q)])
  else if off == 0x08 then some (BitVec.ofNat 64 e.cntBytes)
  else if off == 0x10 then some (BitVec.ofNat 64 e.cntDesc)
  else if off == 0x18 then some (BitVec.ofNat 64 e.cntLate)
  else if off == 0x20 then some (fields [(0, e.cntMiss), (32, e.cntXfault)])
  else
    (regIdx off 0x100 8 64).bind fun i =>
      let x := s.chan q (i / 8)
      match i % 8 with
      | 0 => some x.base
      | 1 => some (x.notify.setWidth 64)
      | 2 => some 0
      | 3 => some x.statusWord
      | 4 => some x.fault
      | 5 => some x.faddr
      | _ => none

/-! ### All blocks -/

/-- The value of a register as read; none at an offset with no register. -/
def State.regRead (s : State) (b off : Nat) : Option Word :=
  let inR (lo hi : Nat) : Bool := decide (lo ≤ b) && decide (b ≤ hi)
  let c : CtxId := BitVec.ofNat 4 b
  if inR 0x200 0x20F then s.readCtxMem c off
  else if inR 0x300 0x307 then s.readDieMem (b - 0x300) off
  else if inR 0x310 0x31B then s.readGran (b - 0x310) off
  else if inR 0x400 0x407 then s.readSync (b - 0x400) off
  else if inR 0x600 0x607 then s.readRed (b - 0x600) off
  else if inR 0x610 0x61F then s.readCtxRed c off
  else if inR 0x700 0x70F then s.readPort (b - 0x700) off
  else if b == 0x710 then s.readFab off
  else if inR 0x720 0x723 then s.readLaser (b - 0x720) off
  else if b == 0x900 then s.readGate off
  else if b == 0x901 then s.readSeq off
  else if inR 0x910 0x91F then s.readFeed c off
  else if inR 0xA00 0xA01 then s.readHarv (b - 0xA00) off
  else if inR 0xA10 0xA1F then s.readSnap c off
  else if b == 0xB00 then s.readRst off
  else if inR 0xB10 0xB1F then s.readCtxRst c off
  else if b == 0xC00 then s.readReeve off
  else if b == 0xC01 then s.readClk off
  else if inR 0xC10 0xC17 then s.readDieClk (b - 0xC10) off
  else if b == 0xD00 then s.readBoot off
  else if b == 0xD10 then s.readVault off
  else if inR 0x1000 0x17FF then s.readCore (b - 0x1000) off
  else if inR 0x1800 0x19FF then s.readStrm (b - 0x1800) off
  else none

/-- What a read of a register does: that of a measured one uses up a free value, that of a digest reads the Granary. -/
def State.afterRead (s : State) (b off : Nat) : State :=
  if decide (0x720 ≤ b) && decide (b ≤ 0x723) && off == 0 then (s.draw 24).2
  else if decide (0x610 ≤ b) && decide (b ≤ 0x61F) && decide (0x20 ≤ off) then
    let c : CtxId := BitVec.ofNat 4 (b - 0x610)
    let sel := (s.ctx c).red.digSel
    s.digRead c (getF sel 16 3) (sel.setWidth 16) (BitVec.ofNat 32 (getF sel 32 32))
  else s

/-! ### What a SUPERVISOR thread of context c may reach -/

/-- The stream registers that a thread may write: BASE, NOTIFY, CMD, FAULT. -/
def strmThreadReg (off : Nat) : Bool :=
  match regIdx off 0x100 8 64 with | some i => i % 8 == 0 || i % 8 == 1 || i % 8 == 2 || i % 8 == 4 | none => false

def State.regMay (s : State) (c : CtxId) (b off : Nat) (write : Bool) : Bool :=
  let inR (lo hi : Nat) : Bool := decide (lo ≤ b) && decide (b ≤ hi)
  let mine (base : Nat) : Bool := b == base + c.toNat
  if inR 0x200 0x20F then mine 0x200 && (!write || off == 0x10)
  else if inR 0x300 0x31B then !write
  else if inR 0x400 0x407 then
    match syncObj (b - 0x400) off with
    | some (true, j) => (s.bell j).assigned && (s.bell j).ctx == c && (!write || off % 32 == 0)
    | some (false, i) => (s.tally i).assigned && (s.tally i).ctx == c
    | none => if write then off == 0x100 + 8 * c.toNat else decide (0x08 ≤ off) && decide (off ≤ 0x28)
  else if inR 0x600 0x607 then !write
  else if inR 0x610 0x61F then mine 0x610 && (!write || off == 0x10 || off == 0x18)
  else if inR 0x700 0x723 then !write
  else if b == 0x900 || b == 0x901 then !write
  else if inR 0x910 0x91F then mine 0x910 && !write
  else if inR 0xA00 0xA01 then !write
  else if inR 0xA10 0xA1F then mine 0xA10 && (!write || off == 0x18)
  else if b == 0xB00 then !write
  else if inR 0xB10 0xB1F then mine 0xB10 && !write
  else if inR 0xC00 0xD10 then !write
  else if inR 0x1000 0x17FF then s.coreCtx (b - 0x1000) == some c && (!write || (off % 0x1000 == 0x58 && decide (off < 0x4000)))
  else if inR 0x1800 0x19FF then s.quadCtx (b - 0x1800) == some c && (!write || strmThreadReg off)
  else false

/-- The register of an address, where a thread of context c may reach it at this width. -/
def State.threadReg (s : State) (th : ThreadId) (c : CtxId) (va : Word) (len : Nat) (write : Bool) : Option (Nat × Nat) :=
  let off := va.toNat - 0xF000000000
  let b := off / 0x10000
  let r := off % 0x10000
  if len == 8 && r % 8 == 0 && (s.thr th).super && (s.regRead b r).isSome && s.regMay c b r write then some (b, r) else none

/-! ### Writes of the registers that a thread may write (Table 0.2) -/

/-- A write at an engine's channel. -/
def State.strmStore (s : State) (q off : Nat) (v : Word) : State :=
  match regIdx off 0x100 8 64 with
  | none => s
  | some i =>
    let ch := i / 8
    let idle := (s.chan q ch).st == .idle
    match i % 8 with
    | 0 => if idle then s.modChan q ch fun x => { x with base := v &&& ~~~0x3F } else s
    | 1 => if idle then s.modChan q ch fun x => { x with notify := v.setWidth 32 &&& 0xE0001FFF } else s
    | 2 => s.chanCmd q ch (getF v 0 2)
    | 4 => if v.getLsbD 63 then s.modChan q ch fun x => { x with fault := putF x.fault 63 1 0 } else s
    | _ => s

/-- Apply a write that a thread may make; others do nothing here. -/
def State.threadStore (s : State) (b off : Nat) (v : Word) : State :=
  let inR (lo hi : Nat) : Bool := decide (lo ≤ b) && decide (b ≤ hi)
  let c : CtxId := BitVec.ofNat 4 b
  if inR 0x200 0x20F then (if off == 0x10 then s.setMemto c v else s)
  else if inR 0x400 0x407 then
    let d := b - 0x400
    match regIdx off 0x100 8 16, syncObj d off with
    | some k, _ => s.modSyncDie d fun y => { y with notify := sset k (v &&& 0xC0001FFF) y.notify }
    | none, some (true, j) =>
      if off % 32 == 0 && v.getLsbD 50 then s.modBell j fun b => { b with ovr := false } else s
    | none, some (false, i) => s.modTally i fun t => { t with
        sat := t.sat && !v.getLsbD 33, under := t.under && !v.getLsbD 34, ovr := t.ovr && !v.getLsbD 35 }
    | none, none => s
  else if inR 0x610 0x61F then
    if off == 0x10 then s.modRedCtx c fun x => { x with notify := v.setWidth 32 &&& 0xC0001FFF }
    else if off == 0x18 then s.modRedCtx c fun x => { x with digSel := v &&& 0xFFFFFFFF0007FFFF }
    else s
  else if inR 0xA10 0xA1F then
    if off == 0x18 then s.modSnap c fun x => { x with notify := v.setWidth 32 &&& 0xC0001FFF } else s
  else if inR 0x1000 0x17FF then
    if off % 0x1000 == 0x58 && off < 0x4000 then s.doorbell (4 * (b - 0x1000) + off / 0x1000) else s
  else if inR 0x1800 0x19FF then s.strmStore (b - 0x1800) off v
  else s

end Sys2Proof.Machine
end

