-- ==== Sys2Proof/Machine/Journal.lean ====
section
/-!
DEFINITION. The journal of the NVM (R453 to R457; Tables 15.3, 15.10, 15.11): the bytes of a record, what a change does to the
live state, checkpoints, replay, and what is left of records that were being written when the module was cut off.
-/

namespace Sys2Proof.Machine

def secJournal : Reason := 0x090A

/-- Bytes of a record. -/
def recordBytes : Nat := 128

/-- Bytes of a half of the journal (Table 15.3). -/
def halfBytes (half : Bool) : Nat := if half then 0x1FF0000 else 0x2000000

/-- Records at which compaction begins: three quarters of a half (R457). -/
def compactAt (half : Bool) : Nat := halfBytes half / recordBytes * 3 / 4

/-! ### Bytes of a record (R453) -/

def JChange.kind : JChange → Byte
  | .cpBegin _ => 0x01
  | .cpEnd _ _ => 0x02
  | .slot _ => 0x10
  | .counters _ _ _ _ => 0x11
  | .owner _ _ => 0x12
  | .fault _ => 0x20
  | .catalogue _ => 0x30
  | .pairing _ _ _ => 0x40

def JChange.part : JChange → Nat
  | .owner i _ => i
  | _ => 0

/-- The payload bytes used. -/
def JChange.payload : JChange → List Byte
  | .cpBegin s => leBytes s 8
  | .cpEnd s d => leBytes s 8 ++ leBytes d.toNat 64
  | .slot r =>
    [BitVec.ofNat 8 (b2n r.active), BitVec.ofNat 8 (b2n r.previous), BitVec.ofNat 8 (b2n r.trial), BitVec.ofNat 8 r.tries] ++
    (match r.staging with
      | none => [0xFF, 0]
      | some t => [BitVec.ofNat 8 (b2n t), if r.staged then 0x02 else 0x01]) ++ leBytes r.digest.toNat 64
  | .counters f c r b => leBytes f 4 ++ leBytes c 4 ++ leBytes r 4 ++ leBytes b 4
  | .owner _ b => leBytes b.toNat 96
  | .fault e => e.bytes
  | .catalogue e => leBytes e.ctx.toNat 1 ++ leBytes e.round.toNat 4 ++ leBytes e.partner.toNat 2 ++ leBytes e.root.toNat 64
  | .pairing o p f => leBytes o.toNat 4 ++ leBytes p.toNat 2 ++ leBytes f.toNat 4

/-- Bytes [111:0] of a record. -/
def JRec.body (r : JRec) : List Byte :=
  let p := r.item.payload
  [r.item.kind, BitVec.ofNat 8 r.item.part] ++ leBytes p.length 2 ++ leBytes 0 4 ++ leBytes r.seq 8 ++ p ++
    List.replicate (96 - p.length) 0

/-- A record with its TAG, which is programmed last: a torn record has none. -/
def JRec.bytes (r : JRec) : List Byte :=
  r.body ++ if r.good then leBytes (hmacSha3 Config.journalKey r.body).toNat 16 else List.replicate 16 0xFF

/-! ### What a change does to the live state -/

/-- A part of the owner's next key; with the last one the key takes effect (R442, R454). -/
def Nvm.ownerPart (n : Nvm) (i : Nat) (b : BitVec 768) : Nvm :=
  let got := n.ownerGot.take i ++ [b]
  if i == 26 then
    let key : BitVec 20736 := BitVec.ofNat 20736 (packF 768 (got.map BitVec.toNat))
    { n with ownerGot := [], ownerKey := key, owner := sha3_512 (leBytes key.toNat 2592) }
  else { n with ownerGot := got }

def State.keepChange (s : State) : JChange → State
  | .cpBegin _ | .cpEnd _ _ => s
  | .slot r => s.modNvm fun n => { n with slot := r }
  | .counters f c r b => s.modNvm fun n => { n with fwSvn := f, cfgSvn := c, resets := r, boots := b }
  | .owner i b => s.modNvm fun n => n.ownerPart i b
  | .fault e => s.modRst fun r => { r with
      history := sset r.fhNext e r.history, fhNext := (r.fhNext + 1) % 16384, fhWrapped := r.fhWrapped || r.fhNext == 16383 }
  | .catalogue e => s.modNvm fun n => { n with catalogue := n.catalogue ++ [e] }
  | .pairing own p f => s.modNvm fun n => { n with ownFeed := some own, partner := p, partnerFeed := f }

/-- A record is written at the end of the active half; its TAG reads back good or not. -/
def Nvm.write (n : Nvm) (j : JChange) (good : Bool) : Nvm :=
  let r : JRec := { seq := n.seq + 1, item := j, good := good }
  { n with
    seq := n.seq + 1
    records := n.records + 1
    half0 := if n.half then n.half0 else n.half0 ++ [r]
    half1 := if n.half then n.half1 ++ [r] else n.half1 }

/-! ### Checkpoints (R457) -/

/-- The last 64 catalogue records of each context. -/
def keptCatalogue (l : List CatEntry) : List CatEntry :=
  l.zipIdx.filterMap fun x => if ((l.drop (x.2 + 1)).filter fun y => y.ctx == x.1.ctx).length < 64 then some x.1 else none

/-- The fault history, oldest entry first. -/
def Rst.faults (r : Rst) : List FhEntry :=
  let at_ := if r.fhWrapped then r.fhNext else 0
  ((r.history.filter fun e => decide (at_ ≤ e.1)) ++ r.history.filter fun e => decide (e.1 < at_)).map (·.2)

/-- One record for each item of the live state. -/
def State.items (s : State) : List JChange :=
  let n := s.nvm
  [.slot n.slot, .counters n.fwSvn n.cfgSvn n.resets n.boots] ++ ownerParts n.ownerKey ++
    (match n.ownFeed with | some own => [.pairing own n.partner n.partnerFeed] | none => []) ++
    s.rst.faults.map JChange.fault ++ (keptCatalogue n.catalogue).map JChange.catalogue

/-- A checkpoint of the state at s, whose first record follows SEQ n: CHECKPOINT_END holds the digest of the records before it. -/
def checkpointOf (s n : Nat) (items : List JChange) : List JRec :=
  let body := (JChange.cpBegin s :: items).zipIdx.map fun x => ({ seq := n + 1 + x.2, item := x.1 } : JRec)
  body ++ [{ seq := n + 1 + body.length, item := .cpEnd s (sha3_512 (body.flatMap JRec.bytes)) }]

def JRec.begins (r : JRec) : Bool := match r.item with | .cpBegin _ => true | _ => false

def JRec.ends (r : JRec) : Bool := match r.item with | .cpEnd _ _ => r.good | _ => false

/-- Records of a half that belong to its checkpoint: those up to CHECKPOINT_END, or all where a checkpoint has begun and not
ended. -/
def cpLen (h : List JRec) : Nat :=
  match h.findIdx? JRec.ends with
  | some i => i + 1
  | none => if h.any JRec.begins then h.length else 0

/-- The checkpoint of a half, where its CHECKPOINT_END verifies: s and the items. -/
def checkpointIn (h : List JRec) : Option (Nat × List JChange) :=
  let cp := h.take (cpLen h)
  match cp.getLast? with
  | some r =>
    match r.item with
    | .cpEnd s d =>
      let body := cp.dropLast
      if body.all JRec.good && d == sha3_512 (body.flatMap JRec.bytes) then some (s, body.map (·.item)) else none
    | _ => none
  | none => none

/-! ### Replay (R456) -/

/-- The journal is replayed: the checkpoint with the larger s, then every good record above it in either half, in SEQ order, each
SEQ once. A record whose TAG fails is SEC_JOURNAL and is passed over (log 165). -/
def State.replayJournal (s : State) : State :=
  let n := s.nvm
  let c0 := checkpointIn n.half0
  let c1 := checkpointIn n.half1
  let half := match c0, c1 with
    | some a, some b => decide (a.1 < b.1)
    | none, some _ => true
    | _, none => false
  let (from_, items) := (if half then c1 else c0).getD (0, [])
  let both := n.half0 ++ n.half1
  let loose := (n.half0.drop (cpLen n.half0) ++ n.half1.drop (cpLen n.half1)).filter fun r => r.good && decide (from_ < r.seq)
  let later := loose.foldl (fun m r => sset r.seq r.item m) ([] : SMap JChange)
  let bad := (both.filter fun r => !r.good).length
  let s := (items ++ later.map (·.2)).foldl State.keepChange s
  let s := s.modNvm fun n => { n with
    half := half, records := (if half then n.half1 else n.half0).length, tagFail := satAdd 16 n.tagFail bad
    seq := (both.filter JRec.good).foldl (fun m r => max m r.seq) 0 }
  (List.range bad).foldl (fun s _ => s.secRecord secJournal sevNotice none none 0xFF 0 0) s

/-! ### The module is cut off (R454, R463) -/

/-- Of records that are being written, as many of the first as a free value says are whole, and the next one may be torn. -/
def State.drawCut (s : State) (n : Nat) : Nat × Bool × State :=
  let (k, s) := s.draw 32
  let (b, s) := s.draw 1
  (k.toNat % (n + 1), b == 1, s)

/-- The module is cut off while records are being written, to the active half and of a checkpoint to the other one (log 55). -/
def State.cutJournal (s : State) : State :=
  if s.vault.st == .selftest then s
  else
    let s :=
      if s.nvm.queue.isEmpty then s
      else
        let q := s.nvm.queue
        let (k, torn, s) := s.drawCut q.length
        s.modNvm fun n =>
          let n := (q.take k).foldl (fun n j => n.write j true) n
          match q[k]? with
          | some j => if torn then n.write j false else n
          | none => n
    match s.nvm.frozen with
    | none => s
    | some (at_, items) =>
      let cp := checkpointOf at_ s.nvm.seq items
      let (k, torn, s) := s.drawCut cp.length
      let part := cp.take k ++ (match cp[k]? with | some r => if torn then [{ r with good := false }] else [] | none => [])
      s.modNvm fun n => { n with half0 := if n.half then part else n.half0, half1 := if n.half then n.half1 else part }

end Sys2Proof.Machine
end

