-- ==== Sys2Proof/Machine/Sync.lean ====
section
/-!
DEFINITION. Sync instructions (R265 to R269) and the events of the sync units.
-/

namespace Sys2Proof.Machine

/-! ### Checks of the core (R267, R271) -/

/-- SYNC at the instruction with the core's own record (R271, Table 9.10). -/
def State.coreSync (s : State) (th : ThreadId) (code : Reason) (op id arg timeout : Nat) : State :=
  s.raiseExc th {
    cause := .sync, reason := code, tval := BitVec.ofNat 64 id, logs := false
    effects := [.syncRec code (BitVec.ofNat 32 id)
      (det 40 1 op ||| det 42 2 0xFFFF ||| det 48 4 arg ||| det 52 4 timeout)] }

/-- A message of a thread. -/
def State.thMsg (s : State) (th : ThreadId) (op : SyncOp) (bell : Bool) (id arg timeout : Nat) (ordered : Bool)
    (dest : Option ModuleNo := none) : State :=
  match s.thCtx th with
  | none => s
  | some c =>
    s.modSync fun y => { y with
      msgs := y.msgs ++ [{ op := op, bell := bell, obj := id, src := .thread th, ctx := c, gen := (s.ctx c).gen,
                           arg := BitVec.ofNat 32 arg, timeout := BitVec.ofNat 32 timeout,
                           after := if ordered then (s.thr th).nextId else 0, dest := dest }] }

/-- A posted operation: it needs a slot; the thread goes on (R266). -/
def State.postSync (s : State) (th : ThreadId) (op : SyncOp) (id arg : Nat) (dest : Option ModuleNo) : State :=
  if (s.thr th).benchBusy then s.stall th .retire
  else if !s.slotFree th then s.stall th .slot
  else ((s.thMsg th op false id arg 0 true dest).flushRemote th 1).retire th

/-- A reply instruction: the thread waits in WAIT_MEM (R266). -/
def State.askSync (s : State) (th : ThreadId) (op : SyncOp) (bell : Bool) (id arg : Nat) (rd : Reg) (ordered : Bool) :
    State :=
  if (s.thr th).flying then s.stall th .retire
  else if !s.slotFree th then s.stall th .slot
  else
    let s := s.leaveSlots th
    let s := if op == .read || op == .bellRead then s else s.thMsg th op bell id arg 0 ordered
    s.modThr th fun t => { t with st := .waitMem, pend := some (.sync op id rd none) }

/-- A wait instruction: the thread waits in WAIT_SYNC. -/
def State.waitSync (s : State) (th : ThreadId) (op : SyncOp) (bell : Bool) (id arg timeout : Nat) : State :=
  if (s.thr th).flying then s.stall th .retire
  else if !s.slotFree th then s.stall th .slot
  else ((s.leaveSlots th).thMsg th op bell id arg timeout false).modThr th fun t => { t with st := .waitSync, wait := some (bell, id) }

/-- Object number in bits [14:0] or [11:0] of a register, its other bits 0 (R249). -/
def objBits (bell : Bool) : Nat := if bell then 12 else 15

/-! ### Instructions (Table 9.8) -/

/-- TSIG and TDEC. -/
def postInstr (th : ThreadId) (fn : Nat) (op : SyncOp) (rd rs1 rs2 : Reg) (s : State) :
    Host.Outcome State Fault Refusal :=
  issueWith s th [rs1, rs2] fun s =>
    let x := (s.thr th).xr rs1
    let y := (s.thr th).xr rs2
    if rd != 0 then s.illegal th (encR 0x2D fn rd rs1 rs2)
    else if getF x 15 49 != 0 then s.coreSync th syncId op.num x.toNat (getF y 0 32) 0
    else if getF y 32 32 != 0 || getF y 0 32 == 0 then s.coreSync th syncArg op.num x.toNat (getF y 0 32) 0
    else s.postSync th op x.toNat (getF y 0 32) none

def execTsig (th : ThreadId) (rd rs1 rs2 : Reg) (s : State) := postInstr th 0 .signal rd rs1 rs2 s

def execTdec (th : ThreadId) (rd rs1 rs2 : Reg) (s : State) := postInstr th 1 .decrement rd rs1 rs2 s

def execTset (th : ThreadId) (rd rs1 rs2 : Reg) (s : State) : Host.Outcome State Fault Refusal :=
  issueWith s th [rs1, rs2] fun s =>
    let x := (s.thr th).xr rs1
    let y := (s.thr th).xr rs2
    if rd != 0 then s.illegal th (encR 0x2D 2 rd rs1 rs2)
    else if getF x 15 49 != 0 then s.coreSync th syncId 3 x.toNat (getF y 0 32) 0
    else if getF y 32 32 != 0 then s.coreSync th syncArg 3 x.toNat (getF y 0 32) 0
    else s.askSync th .set false x.toNat (getF y 0 32) 0 false

/-- TREAD and BREAD. -/
def readInstr (th : ThreadId) (opc fn : Nat) (op : SyncOp) (bell : Bool) (rd rs1 rs2 : Reg) (s : State) :
    Host.Outcome State Fault Refusal :=
  issueWith s th [rd, rs1] fun s =>
    let x := (s.thr th).xr rs1
    if rs2 != 0 then s.illegal th (encR opc fn rd rs1 rs2)
    else if getF x (objBits bell) (64 - objBits bell) != 0 then s.coreSync th syncId op.num x.toNat 0 0
    else s.askSync th op bell x.toNat 0 rd false

def execTread (th : ThreadId) (rd rs1 rs2 : Reg) (s : State) := readInstr th 0x2D 3 .read false rd rs1 rs2 s

def execBread (th : ThreadId) (rd rs1 rs2 : Reg) (s : State) := readInstr th 0x2E 2 .bellRead true rd rs1 rs2 s

/-- TWAIT: amount 0 and timeout 0 raise SYNC_ARG (R256, R261). -/
def execTwait (th : ThreadId) (rd rs1 rs2 : Reg) (s : State) : Host.Outcome State Fault Refusal :=
  issueWith s th [rs1, rs2] fun s =>
    let x := (s.thr th).xr rs1
    let y := (s.thr th).xr rs2
    if rd != 0 then s.illegal th (encR 0x2D 4 rd rs1 rs2)
    else if getF x 15 49 != 0 then s.coreSync th syncId 5 x.toNat (getF y 0 32) (getF y 32 32)
    else if getF y 0 31 == 0 || getF y 32 32 == 0 then s.coreSync th syncArg 5 x.toNat (getF y 0 32) (getF y 32 32)
    else s.waitSync th .wait false x.toNat (getF y 0 32) (getF y 32 32)

def execBarr (th : ThreadId) (rd rs1 rs2 : Reg) (s : State) : Host.Outcome State Fault Refusal :=
  issueWith s th [rd, rs1, rs2] fun s =>
    let x := (s.thr th).xr rs1
    let y := (s.thr th).xr rs2
    if getF x 12 52 != 0 then s.coreSync th syncId 6 x.toNat (getF y 0 32) 0
    else if getF y 12 52 != 0 then s.coreSync th syncArg 6 x.toNat (getF y 0 32) 0
    else s.askSync th .arrive true x.toNat y.toNat rd true

/-- BWAIT: timeout 0 raises SYNC_ARG (R261). -/
def execBwait (th : ThreadId) (rd rs1 rs2 : Reg) (s : State) : Host.Outcome State Fault Refusal :=
  issueWith s th [rs1, rs2] fun s =>
    let x := (s.thr th).xr rs1
    let y := (s.thr th).xr rs2
    if rd != 0 then s.illegal th (encR 0x2E 1 rd rs1 rs2)
    else if getF x 12 52 != 0 then s.coreSync th syncId 7 x.toNat (getF y 0 32) (getF y 32 32)
    else if getF y 32 32 == 0 then s.coreSync th syncArg 7 x.toNat (getF y 0 32) 0
    else s.waitSync th .bellWait true x.toNat (getF y 0 32) (getF y 32 32)

/-- TSIGR: to this module it acts as TSIG (R269). -/
def execTsigr (th : ThreadId) (rd rs1 rs2 : Reg) (s : State) : Host.Outcome State Fault Refusal :=
  issueWith s th [rs1, rs2] fun s =>
    let x := (s.thr th).xr rs1
    let y := (s.thr th).xr rs2
    let m := BitVec.ofNat 16 (getF x 32 16)
    let id := getF x 0 15
    if rd != 0 then s.illegal th (encR 0x2F 0 rd rs1 rs2)
    else if getF x 15 17 != 0 || getF x 48 16 != 0 then s.coreSync th syncId 8 (getF x 0 32) (getF y 0 32) 0
    else if getF y 32 32 != 0 || getF y 0 32 == 0 then s.coreSync th syncArg 8 id (getF y 0 32) 0
    else s.postSync th .signal id (getF y 0 32) (if s.isSelf m then none else some m)

/-! ### The units (R250 to R263) -/

/-- A tally operation arrives at its unit. A posted one that is discarded is recorded as R257 says; SYNC_NOTIFY's thread is not
rung for it (DESIGN CHOICE, log 168). -/
def execTallySignal (k : Nat) (s : State) : Host.Outcome State Fault Refusal :=
  s.takeMsg k [.signal] fun s m =>
    if s.objOk m then s.signalTally m.obj m.arg.toNat m.by else s.syncRecord false m.obj syncOwner m.by

def execTallyDecrement (k : Nat) (s : State) : Host.Outcome State Fault Refusal :=
  s.takeMsg k [.decrement] fun s m =>
    if s.objOk m then s.decTally m.obj m.arg.toNat m.by else s.syncRecord false m.obj syncOwner m.by

def execTallySet (k : Nat) (s : State) : Host.Outcome State Fault Refusal :=
  s.takeMsg k [.set] fun s m =>
    if !s.objOk m then s.syncFail m syncOwner
    else if (s.tally m.obj).latch && m.arg.toNat > 1 then s.syncFail m syncArg
    else (s.setTally m.obj m.arg).answer m 0 0

/-- wait() of R254; the amount is bits [30:0], PEEK bit 31 (R256). -/
def execTallyWait (k : Nat) (s : State) : Host.Outcome State Fault Refusal :=
  s.takeMsg k [.wait] fun s m =>
    let n := m.arg.toNat % 2 ^ 31
    if !s.objOk m then s.syncFail m syncOwner
    else if n == 0 || ((s.tally m.obj).latch && n != 1) then s.syncFail m syncArg
    else
      let w : Waiter := { src := m.src, ctx := m.ctx, n := n, peek := m.arg.getLsbD 31, timeout := m.timeout, arg := m.arg }
      ((s.modTally m.obj fun t => { t with q := t.q ++ [w] }).serve_ m.obj).noteMost (m.obj / 4096)

/-- BARR at its bell (R258, R260). -/
def execBellArrive (k : Nat) (s : State) : Host.Outcome State Fault Refusal :=
  s.takeMsg k [.arrive] fun s m =>
    let b := s.bell m.obj
    let p := m.arg.toNat
    if !s.objOk m then s.syncFail m syncOwner
    else if p ≥ b.count || decide (b.count - b.rchild ≤ p) || (s.children m.obj).any (fun e => e.1 == p) then
      s.syncFail m syncArg
    else
      match b.mark p with
      | none =>
        let s := (s.bellRefuse m.obj).syncRecord true m.obj bellOverrun m.by
        s.answer m bellOverrun 0
      | some (b', tok) =>
        ((s.modBell m.obj fun _ => b').answer m 0 (tok.setWidth 64)).bellWork bellFuel [.check m.obj]

/-- BWAIT at its bell (R259). -/
def execBellWait (k : Nat) (s : State) : Host.Outcome State Fault Refusal :=
  s.takeMsg k [.bellWait] fun s m =>
    let b := s.bell m.obj
    let w : Waiter := { src := m.src, ctx := m.ctx, n := m.arg.toNat, timeout := m.timeout, arg := m.arg }
    if !s.objOk m then s.syncFail m syncOwner
    else if tokenDone b.done m.arg then s.waitDone w
    else if m.arg == b.done || m.arg == b.done + 1 then
      (s.modBell m.obj fun x => { x with q := x.q ++ [w] }).noteMost (m.obj / 512)
    else s.syncFail m syncToken

/-- The wait of a thread expires at the unit (R262). -/
def execSyncTimeout (th : ThreadId) (s : State) : Host.Outcome State Fault Refusal :=
  let t := s.thr th
  match t.wait with
  | none => .next s
  | some (bell, id) =>
    let q := if bell then (s.bell id).q else (s.tally id).q
    match q.find? fun w => w.src == .thread th with
    | none => .next s
    | some w =>
      let keep (l : List Waiter) : List Waiter := l.filter fun w => w.src != .thread th
      let s := if bell then s.modBell id fun b => { b with q := keep b.q } else s.modTally id fun t => { t with q := keep t.q }
      let s := s.modSyncDie (objDie bell id) fun x => { x with timeouts := (x.timeouts + 1) % 2 ^ 32 }
      let s := s.syncRecord bell id syncTimeoutCode
        ⟨if bell then 7 else 5, .thread th, some w.ctx, w.arg.toNat, w.timeout.toNat⟩
      let s := (s.modThr th fun t => { t with wait := none }).raise th .sync syncTimeoutCode (BitVec.ofNat 64 id) false
      .next (if bell then s else s.serve_ id)

/-- A withdrawal reaches the unit; a completion that came first stands (R263). -/
def execSyncWithdraw (k : Nat) (s : State) : Host.Outcome State Fault Refusal :=
  s.takeMsg k [.withdraw] fun s m =>
    let q := if m.bell then (s.bell m.obj).q else (s.tally m.obj).q
    if q.any fun w => w.src == m.src then
      let keep (l : List Waiter) : List Waiter := l.filter fun w => w.src != m.src
      let s := if m.bell then s.modBell m.obj fun b => { b with q := keep b.q }
        else s.modTally m.obj fun t => { t with q := keep t.q }
      let s := s.modSyncDie (objDie m.bell m.obj) fun x => { x with withdrawals := (x.withdrawals + 1) % 2 ^ 32 }
      let s := match m.src with
        | .thread th => s.waitWithdrawn th
        | .chan q ch => s.strmWithdrawn q.toNat ch.toNat
        | _ => s
      if m.bell then s else s.serve_ m.obj
    else
      match m.src with
      | .thread th => if (s.thr th).st == .waitSync && (s.thr th).pauseReq then s.abandonWait th else s
      | .chan q ch =>
        let x := s.chan q.toNat ch.toNat
        if x.st == .waiting && (x.pauseReq || x.expired) then s.strmWithdraw q.toNat ch.toNat else s
      | _ => s

/-! ### From other modules (R269, R270) -/

/-- A signal from another module is applied only to a tally granted with REMOTE. -/
def execRemoteSignal (k : Nat) (s : State) : Host.Outcome State Fault Refusal :=
  match s.inboxAt k [0x01] with
  | none => .next s
  | some p =>
    match p.body with
    | .signal id n _ =>
      let s := (s.dropInbox k).modSyncDie (id / 4096) fun x => { x with ops := x.ops + 1 }
      let t := s.tally id
      let by_ : SyncBy := ⟨8, .fabric p.hdr.src, if t.assigned then some t.ctx else none, n.toNat, 0⟩
      if t.assigned && t.remote then .next (s.signalTally id n.toNat by_)
      else .next ((s.syncRecord false id syncRemote by_).refusePkt p syncRemote)
    | _ => .next s

/-- A child bell of another module arrives in a remote slot. -/
def execRemoteBellArrival (k : Nat) (s : State) : Host.Outcome State Fault Refusal :=
  match s.inboxAt k [0x02] with
  | none => .next s
  | some p =>
    match p.body with
    | .bellArrival child b slot =>
      let s := (s.dropInbox k).modSyncDie (b / 512) fun x => { x with ops := x.ops + 1 }
      let x := s.bell b
      let by_ : SyncBy := ⟨9, .fabric p.hdr.src, if x.assigned then some x.ctx else none, slot, 0⟩
      if x.assigned && decide (x.count - x.rchild ≤ slot) && decide (slot < x.count) then
        match x.mark slot with
        | some (x', _) =>
          let x' := { x' with remote := (x'.remote.filter fun e => e.1 != slot) ++ [(slot, p.hdr.src, child)] }
          .next ((s.modBell b fun _ => x').bellWork bellFuel [.check b])
        | none => .next (((s.bellRefuse b).syncRecord true b syncRemote by_).refusePkt p syncRemote)
      else .next ((s.syncRecord true b syncRemote by_).refusePkt p syncRemote)
    | _ => .next s

/-- The parent's release reaches a held bell; Harvest may hold it (R385). -/
def execRemoteBellRelease (k : Nat) (s : State) : Host.Outcome State Fault Refusal :=
  match s.inboxAt k [0x03] with
  | none => .next s
  | some p =>
    match p.body with
    | .bellRelease b =>
      let s := s.dropInbox k
      let x := s.bell b
      let fromParent := match x.parent with | some (_, _, m) => m == p.hdr.src | none => false
      if x.held && !x.snapHold && fromParent then .next (s.bellWork bellFuel [.release b])
      else .next s
    | _ => .next s

end Sys2Proof.Machine
end

