-- ==== Sys2Proof/Machine/Reply.lean ====
section
/-!
DEFINITION. Scalar loads and stores (R49, R51), and what comes back to threads: replies, acknowledgements, timeouts
(R41, R58, R212, R216, R218, R219, R222, R265, R266), outside requests to Benches (R201).
-/

namespace Sys2Proof.Machine

/-! ### Scalar loads and stores -/

/-- The address lies in the control window. -/
def inControl (va : Word) : Bool := 0xF000000000 ≤ va.toNat && va.toNat < 0xF100000000

/-- A load or store of a register of a unit: its checks, then its request (R196, R225). -/
def State.ctrlAccess (s : State) (th : ThreadId) (a : Access) (p : Part) (go : State → State) : State :=
  match s.thCtx th with
  | none => s
  | some c =>
    match s.checkPart th c a.kind p.len none p with
    | .bad reason _ =>
      if reason == memReg && (s.threadReg th c p.va p.len (a.kind == .store)).isSome then
        if s.slotFree th then go (s.leaveSlots th) else s.stall th .slot
      else s.accFault th a p reason 0 0 true
    | _ => s

/-- A scalar load. -/
def loadInstr (th : ThreadId) (len : Nat) (signed : Bool) (rd rs1 : Reg) (imm : BitVec 16) (s : State) :
    Host.Outcome State Fault Refusal :=
  issueWith s th [rd, rs1] fun s =>
    let va := (s.thr th).xr rs1 + immS imm
    let p : Part := { va := va, len := len, idx := 0 }
    let a : Access := { kind := .load, parts := [p], fin := .ld rd len signed }
    if inControl va then
      s.ctrlAccess th a p fun s => s.modThr th fun t => { t with st := .waitMem, pend := some (.reg rd va len signed) }
    else s.access th a

def execLdb (th : ThreadId) (rd rs1 : Reg) (imm : BitVec 16) (s : State) := loadInstr th 1 true rd rs1 imm s
def execLdbu (th : ThreadId) (rd rs1 : Reg) (imm : BitVec 16) (s : State) := loadInstr th 1 false rd rs1 imm s
def execLdh (th : ThreadId) (rd rs1 : Reg) (imm : BitVec 16) (s : State) := loadInstr th 2 true rd rs1 imm s
def execLdhu (th : ThreadId) (rd rs1 : Reg) (imm : BitVec 16) (s : State) := loadInstr th 2 false rd rs1 imm s
def execLdw (th : ThreadId) (rd rs1 : Reg) (imm : BitVec 16) (s : State) := loadInstr th 4 true rd rs1 imm s
def execLdwu (th : ThreadId) (rd rs1 : Reg) (imm : BitVec 16) (s : State) := loadInstr th 4 false rd rs1 imm s
def execLdd (th : ThreadId) (rd rs1 : Reg) (imm : BitVec 16) (s : State) := loadInstr th 8 false rd rs1 imm s

/-- A scalar store. -/
def storeInstr (th : ThreadId) (len : Nat) (rs2 rs1 : Reg) (imm : BitVec 16) (s : State) :
    Host.Outcome State Fault Refusal :=
  issueWith s th [rs2, rs1] fun s =>
    let va := (s.thr th).xr rs1 + immS imm
    let v := (s.thr th).xr rs2
    let p : Part := { va := va, len := len, idx := 0, data := leBytes v.toNat len }
    let a : Access := { kind := .store, parts := [p], fin := .st }
    if inControl va then
      s.ctrlAccess th a p fun s => (s.post th va (.reg va v len)).retire th
    else s.access th a

def execStb (th : ThreadId) (rs2 rs1 : Reg) (imm : BitVec 16) (s : State) := storeInstr th 1 rs2 rs1 imm s
def execSth (th : ThreadId) (rs2 rs1 : Reg) (imm : BitVec 16) (s : State) := storeInstr th 2 rs2 rs1 imm s
def execStw (th : ThreadId) (rs2 rs1 : Reg) (imm : BitVec 16) (s : State) := storeInstr th 4 rs2 rs1 imm s
def execStd (th : ThreadId) (rs2 rs1 : Reg) (imm : BitVec 16) (s : State) := storeInstr th 8 rs2 rs1 imm s

/-! ### Replies to loads and walks -/

/-- Bytes of each part, from the answered requests. -/
def gotBytes (n : Nat) (rs : List Req) : List (List Byte) :=
  (List.range n).map fun i =>
    match rs.find? fun r => r.parts.contains i with
    | some r => ((r.got.getD [])[(r.parts.findIdx? fun j => j == i).getD 0]?).getD []
    | none => []

/-- The lowest part whose request came back with an error, and the location. -/
def badPart (n : Nat) (rs : List Req) : Option Nat :=
  (List.range n).find? fun i => rs.any fun r => r.err.isSome && r.parts.contains i

/-- A load with all its replies: it writes and retires; a first-fault load is cut, another raises MEM_ECC. The memory
unit has written its record at the reply (R155, R216). -/
def State.loadDone (s : State) (th : ThreadId) (a : Access) (rs : List Req) : State :=
  let n := a.parts.length
  let finish (s : State) (a : Access) : State :=
    let s := s.modThr th fun t => { t with pend := none }
    let ws := finWrites (s.thr th) a.parts a.fin (gotBytes a.parts.length rs)
    ((s.applyWrs th ws).countRetired th a.fin.isVector false).retire th
  match badPart n rs with
  | none => finish s a
  | some i =>
    match a.cutAt i, a.parts[i]? with
    | some a', _ => finish s a'
    | none, some p => s.accFault th a p memEcc 0 (a.parts.filter fun q => q.len == 64).length false
    | none, none => s

/-- Location and bytes of part j of an access in the line at `base`. -/
def partAt (a : Access) (base j : Nat) : Nat × Nat :=
  match a.parts[j]? with
  | some p => (base + p.va.toNat % 64, p.len)
  | none => (base, 0)

/-- The bytes that a request reads: a line request the whole line, another its own part (R152). -/
def Req.span (r : Req) (a : Access) : Nat × Nat :=
  if a.fin.merges then (r.line * 64, 64) else partAt a (r.line * 64) (r.parts.headD 0)

/-- A request of a load is answered at its unit: with data, or with an error where the bytes it reads hold a poisoned unit,
which the unit records (R216). -/
def State.answerReq (s : State) (th : ThreadId) (c : CtxId) (a : Access) (r : Req) : Req × State :=
  let (l, n) := r.span a
  let s := s.benchServed (r.line * 64)
  if s.poisonIn l n then
    let va := ((a.parts[r.parts.headD 0]?).map fun (p : Part) => p.va.toNat).getD 0
    ({ r with err := some memEcc }, (s.eccRecord l va (uCore (thCore th)) (some c) (some th)).readVia l n)
  else
    let got := r.parts.map fun j => s.peek (partAt a (r.line * 64) j).1 (partAt a (r.line * 64) j).2
    ({ r with got := some got }, s.readVia l n)

/-- A tile load after a reply: an error aborts it at once (R107), the last reply ends it, else it issues on. -/
def State.tileReply (s : State) (th : ThreadId) (c : CtxId) (a : Access) (w : Option Nat) (rs : List Req) (r : Req) :
    State :=
  if r.err.isSome then
    match a.parts[r.parts.headD 0]? with
    | some p => (s.dropOpen th).accFault th a p memEcc 0 (rowsIssued a rs) false
    | none => s
  else if w.isSome then s
  else if rs.length == a.parts.length && rs.all fun r => r.got.isSome then s.loadDone th a rs
  else s.issueRows th c none (a.parts.length + 1)

/-- The k-th request of a load that awaits its reply is answered. -/
def State.loadReply (s : State) (th : ThreadId) (c : CtxId) (a : Access) (w : Option Nat) (rs : List Req) (k : Nat) :
    State :=
  let out := (List.range rs.length).filter fun i => (rs[i]?).any fun r => r.sent && r.got.isNone && r.err.isNone
  match out[k]?.bind fun i => (rs[i]?).map fun r => (i, r) with
  | none => s.lateReply th
  | some (i, r) =>
    if (s.thr th).storesTo r.line then s
    else
      let (r, s) := s.answerReq th c a r
      let rs := rs.set i r
      let s := s.modThr th fun t => { t with pend := some (.access a w rs) }
      let s := if a.fin.isTile then s.tileReply th c a w rs r
        else if rs.all fun r => r.got.isSome || r.err.isSome then s.loadDone th a rs
        else s.sendLoads th (rs.length + 1)
      s.pump (thCore th)

/-- The walk of a page is answered: the access is checked again with what it found, a tile load goes on with its next row
(R106, R210). -/
def State.walkReply (s : State) (th : ThreadId) (c : CtxId) (a : Access) (page : Nat) (rs : List Req) : State :=
  let super := (s.thr th).super
  let (r, s) := s.walkFor (thCore th) c page fun e => permOk a.kind super e.r e.w e.x e.u
  let rows := a.kind == .load && a.fin.isTile && !rs.isEmpty
  let again (s : State) (failed : Option (Nat × Reason × Nat)) : State :=
    if rows then (s.modThr th fun t => { t with pend := some (.access a none rs) }).issueRows th c failed (a.parts.length + 1)
    else (s.modThr th fun t => { t with pend := none }).access th a failed
  let s := match r with
    | .entry e =>
      if permOk a.kind super e.r e.w e.x e.u then again s none else again s (some (page, memPerm, 0))
    | .bad reason level => again s (some (page, reason, level))
    | .poisoned loc =>
      let n := if rows then rs.length else (s.checkParts th c a.kind (partAlign a.fin) none a.parts).1.length
      match a.parts[n]? with
      | some p =>
        let s := (s.eccRecord loc p.va.toNat (uCore (thCore th)) (some c) (some th) 3).modThr th fun t => { t with
          pend := some (.access a none rs) }
        match a.cutAt n with
        | some a' =>
          (s.modThr th fun t => { t with pend := none }).serve th c a'
            (cutPlaces th a (s.checkParts th c a.kind (partAlign a.fin) none a'.parts).1)
        | none => (s.dropOpen th).accFault th a p memEcc 0 p.idx false
      | none => s
  s.pump (thCore th)

/-- A reply instruction at a sync unit is answered: TREAD and BREAD read the object now, after every earlier message of
the thread; the others have their answer (R250, R265 to R267). -/
def State.syncReply (s : State) (th : ThreadId) (c : CtxId) (op : SyncOp) (id : Nat) (rd : Reg)
    (answer : Option (Reason × Word)) : State :=
  let done (s : State) (r : Reason × Word) : State :=
    let s := s.modThr th fun t => { t with pend := none }
    (if r.1 == 0 then (s.setX th rd r.2).retire th else s.raise th .sync r.1 (BitVec.ofNat 64 id) false).pump (thCore th)
  if op == .read || op == .bellRead then
    let bell := op == .bellRead
    if s.sync.msgs.any fun m => m.src == .thread th && m.bell == bell && m.obj == id && m.dest.isNone then s
    else
      let s := s.modSyncDie (objDie bell id) fun x => { x with ops := x.ops + 1 }
      let mine := if bell then (s.bell id).assigned && (s.bell id).ctx == c else (s.tally id).assigned && (s.tally id).ctx == c
      if mine then done s (0, if bell then (s.bell id).word else (s.tally id).word)
      else done (s.syncRecord bell id syncOwner ⟨4, .thread th, some c, 0, 0⟩) (syncOwner, 0)
  else match answer with
    | some r => done s r
    | none => s

/-- A reply reaches a thread: of the k-th request of its load that is outstanding, of its walk (k beyond those), of a register,
or of a sync unit; or of a request that nothing waits for any more (log 132). -/
def execMemReply (th : ThreadId) (k : Nat) (s : State) : Host.Outcome State Fault Refusal :=
  match s.thCtx th with
  | none => .next s
  | some c =>
    if !s.ctxServes c then .next s
    else
      match (s.thr th).pend with
      | some (.access a (some page) rs) =>
        .next (if k < (openReqs rs).length then s.loadReply th c a (some page) rs k
          else if s.walkBehind th c page then s else s.walkReply th c a page rs)
      | some (.access a none rs) => .next (if a.kind == .store then s.lateReply th else s.loadReply th c a none rs k)
      | some (.reg rd addr _ _) =>
        if (s.thr th).posted.any fun p => match p.what with | .reg u _ _ => u.toNat / 64 == addr.toNat / 64 | _ => false then
          .next s
        else
        let off := addr.toNat - 0xF000000000
        let v := (s.regRead (off / 0x10000) (off % 0x10000)).getD 0
        let s := (s.afterRead (off / 0x10000) (off % 0x10000)).modThr th fun t => { t with pend := none }
        .next (((s.setX th rd v).retire th).pump (thCore th))
      | some (.sync op id rd ans) => .next (s.syncReply th c op id rd ans)
      | _ => .next (s.lateReply th)

/-! ### Posted stores -/

/-- An instruction that waits for an earlier one of its thread may be tried again. -/
def State.retryHere (s : State) (th : ThreadId) : State :=
  let t := s.thr th
  if t.st == .waitUnit && t.why == .retire && t.exc.isNone && t.pend.isNone then s.fetchHere th else s

/-- What follows when a posted store is over: FENCE, an access of its line, signals ordered after it, threads waiting for a
slot. -/
def State.storeOver (s : State) (th : ThreadId) : State :=
  ((((s.fenceCheck th).retryHere th).flushRemote th s.sync.msgs.length)).pump (thCore th)

/-- A store takes effect; true where it meets a poisoned unit that it does not cover whole: that unit is not written, and
its memory unit records the error (R215, R216). -/
def State.storeApply (s : State) (th : ThreadId) (p : Posted) : Bool × State :=
  match p.what with
  | .reg addr v _ =>
    let off := addr.toNat - 0xF000000000
    (false, s.threadStore (off / 0x10000) (off % 0x10000) v)
  | .cells cs =>
    let l := (cs.head?.map (·.1)).getD 0
    let s := s.benchServed l
    let bad := cs.filter fun c => s.poison.contains (unitOf c.1) &&
      !((List.range (unitBytes (unitOf c.1))).all fun i => cs.any fun d => d.1 == unitOf c.1 + i)
    let good := cs.filter fun c => !bad.contains c
    match bad with
    | [] => (false, s.pokeCellsVia cs)
    | b :: _ =>
      (true, (s.eccRecord b.1 (p.va.toNat + (b.1 - l)) (uCore (thCore th)) (s.thCtx th) (some th)).pokeCellsVia good)

/-- A store whose effect is open: a free bit says whether it took place (R222, Table 14.4). -/
def State.storeOpen (s : State) (th : ThreadId) (p : Posted) : State :=
  let (b, s) := s.draw 1
  if b == 1 then (s.storeApply th p).2 else s

/-- Two stores reach one 64-byte line. -/
def Posted.sameLine (a b : Posted) : Bool :=
  match a.what, b.what with
  | .cells x, .cells y => x.any fun c => y.any fun d => c.1 / 64 == d.1 / 64
  | .reg u _ _, .reg v _ _ => u.toNat / 64 == v.toNat / 64
  | _, _ => false

/-- The k-th posted store of a thread takes effect and is acknowledged; stores to one line in program order (R217). -/
def execStoreAck (th : ThreadId) (k : Nat) (s : State) : Host.Outcome State Fault Refusal :=
  let t := s.thr th
  match t.posted[k]? with
  | none => .next (s.lateReply th)
  | some p =>
    if !s.thServes th || (t.posted.take k).any (fun q => q.sameLine p) then .next s
    else
      let s := s.modThr th fun t => { t with posted := t.posted.eraseIdx k }
      let s := match s.storeApply th p with
        | (true, s) => s.storeError th memEcc p.va
        | (false, s) => s
      .next (s.storeOver th)

/-! ### Timeouts (R222) -/

/-- n requests of the thread have timed out, or were dropped by a purge: their replies are discarded when they come. -/
def State.expectLate (s : State) (th : ThreadId) (n : Nat) : State := s.modThr th fun t => { t with late := t.late + n }

/-- The unit that holds an address of a thread is probed. -/
def State.probeTh (s : State) (th : ThreadId) (va : Word) : State :=
  match s.thCtx th with | some c => s.probeVa c va | none => s

/-- An access of a thread has had no reply in time: a walk (access kind 0x03), or the requests in flight, the lowest of which
is named; their slots are released. -/
def State.accTimeout (s : State) (th : ThreadId) (a : Access) (w : Option Nat) (rs : List Req) : State :=
  let out := openReqs rs
  let i := match w with
    | some _ =>
      if a.kind == .load && a.fin.isTile then rs.length
      else (s.checkParts th ((s.thCtx th).getD 0) a.kind (partAlign a.fin) none a.parts).1.length
    | none => match out.head? with
      | some r => r.parts.headD 0
      | none => 0
  match a.parts[i]? with
  | none => s
  | some p =>
    let s := if w.isSome then s.probeTh th p.va
      else out.foldl (fun s r => match a.parts[r.parts.headD 0]? with
        | some p => s.probeTh th p.va
        | none => s) s
    let s := (s.expectLate th (b2n w.isSome + out.length)).modThr th fun t => { t with pend := none }
    let rows := if w.isSome then rowsBefore a i else if a.fin.isTile then rowsIssued a rs else 0
    (s.raiseExc th (accExc a p memTimeout (if w.isSome then 3 else a.kind.num) 0 rows true)).pump (thCore th)

/-- MEM_TIMEOUT's record of a posted store: the address, and the PC of the store (R56, R199, Table 7.4). -/
def State.storeTimeout (s : State) (th : ThreadId) (p : Posted) : State :=
  let s := s.coreRecord th memTimeout sevError noObj (coreDetail p.va p.pc ||| det 58 1 1)
  (s.expectLate th 1).storeError th memTimeout p.va

/-- A request of a thread has had no reply within MEM_MEMTO. -/
def execMemTimeout (th : ThreadId) (what : TimeoutOf) (s : State) : Host.Outcome State Fault Refusal :=
  let t := s.thr th
  if !s.thServes th then .next s
  else
    match what with
    | .fetch =>
      match t.fills with
      | [] => .next s
      | pc :: rest =>
        let walks := (s.thCtx th).any fun c => (s.fillWalk th c pc).isSome
        let s := ((s.probeTh th pc).expectLate th 1).modThr th fun t => { t with fills := rest }
        .next ((s.fillFails th pc memTimeout (if walks then det 58 1 3 else fetchDetail 0) true).pump (thCore th))
    | .store k =>
      match t.posted[k]? with
      | none => .next s
      | some p =>
        let s := (s.probeTh th p.va).modThr th fun t => { t with posted := t.posted.eraseIdx k }
        .next (((s.storeOpen th p).storeTimeout th p).storeOver th)
    | .reply =>
      match t.pend with
      | some (.access a w rs) => if a.kind == .store && w.isNone then .next s else .next (s.accTimeout th a w rs)
      | some (.reg rd addr len _) =>
        let p : Part := { va := addr, len := len, idx := 0 }
        .next ((((s.probeTh th addr).expectLate th 1).accFault th ⟨.load, [p], .ld rd len false⟩ p memTimeout 0 0 true).pump (thCore th))
      | some (.sync op id _ _) =>
        let s := s.probe (uSync (objDie (op == .bellRead || op == .arrive) id))
        let s := s.modSync fun y => { y with msgs := y.msgs.map fun m =>
          if (m.src == Src.thread th) && m.op != .signal && m.op != .decrement then { m with lost := true } else m }
        .next (((s.expectLate th 1).raise th .memory memTimeout (BitVec.ofNat 64 id) true).pump (thCore th))
      | some (.pginv a) =>
        .next (((s.expectLate th 1).raise th .memory memTimeout (a.getD 0) true noObj (det 58 1 4)).pump (thCore th))
      | _ => .next s

/-! ### PGINV (R212) -/

/-- An address lies in the page that is invalidated, or in any page. -/
def inPage (pg : Option Nat) (va : Word) : Bool :=
  0x100000000000 ≤ va.toNat && va.toNat < 0x200000000000 &&
    (match pg with | some p => (va.toNat - 0x100000000000) / 0x10000 == p | none => true)

/-- An access of the context that uses the page is in flight. -/
def State.pageBusy (s : State) (c : CtxId) (pg : Option Nat) : Bool :=
  (s.threadsOf c).any (fun th =>
    let t := s.thr th
    (t.posted.any fun p => inPage pg p.va) ||
      (match t.pend with
        | some (.access a _ rs) => rs.any fun r => r.got.isNone && r.err.isNone &&
            r.parts.any fun i => (a.parts[i]?).any fun p => inPage pg p.va
        | _ => false)) ||
  (s.quadsOf c).any fun q => (s.engine q).chans.any fun x =>
    (x.2.reads.any fun r => inPage pg r.va || r.dests.any fun d => inPage pg d.1) ||
      ((x.2.writes ++ x.2.wq).any fun w => inPage pg w.va) ||
      x.2.xloc.any fun e => inPage pg (BitVec.ofNat 64 (e.1 * 0x10000))

/-- Every cache that serves the context has dropped the page, or all pages, and no access uses it: PGINV retires. -/
def execPginvComplete (th : ThreadId) (s : State) : Host.Outcome State Fault Refusal :=
  match s.thCtx th, (s.thr th).pend with
  | some c, some (.pginv a) =>
    let page := a.map fun v => (v.toNat - 0x100000000000) / 0x10000
    if !s.ctxServes c || s.pageBusy c page then .next s
    else
      let drop (l : SMap Pte) : SMap Pte := match page with | some p => sdel p l | none => []
      let s := (s.coresOf c).foldl (fun s g => s.modCore g fun k => { k with
        tlb := drop k.tlb, tlbUsed := k.tlbUsed.filter fun p => (drop k.tlb).any fun e => e.1 == p }) s
      let s := (s.quadsOf c).foldl (fun s q => s.modEngine q fun e => { e with
        tlb := drop e.tlb, tlbUsed := e.tlbUsed.filter fun p => (drop e.tlb).any fun x => x.1 == p }) s
      .next (((s.modThr th fun t => { t with pend := none }).retire th).pump (thCore th))
  | some _, some (.access _ _ _) => .next s
  | some _, none => .next (s.lateReply th)
  | _, _ => .next s

/-! ### Outside requests to a Bench (R201) -/

/-- Outstanding requests from outside to the Bench of core g. -/
def State.outside (s : State) (g : Nat) : Nat :=
  let here (l : Nat) : Bool := isBench l && (l - 0x100000000) / 0x100000 == g
  let ofThread (t : Thread) : Nat :=
    (match t.pend with
      | some (.access _ none rs) => (rs.filter fun r => r.sent && r.got.isNone && r.err.isNone && here (r.line * 64)).length
      | _ => 0) +
    (t.posted.filter fun p => match p.what with | .cells cs => cs.any fun c => here c.1 | .reg _ _ _ => false).length
  let ofChan (x : Chan) : Nat :=
    (x.reads.filter fun r => here r.loc).length + (x.writes.filter fun w => w.cells.any fun c => here c.1).length
  (s.threads.map fun x => ofThread x.2).foldl (· + ·) 0 +
    (s.strm.flatMap fun e => e.2.chans.map fun x => ofChan x.2).foldl (· + ·) 0

/-- An outside request has waited 16 core cycles: it is promised the next cycle, and the core's own Bench accesses wait
until it has been served. -/
def execBenchOutsidePromote (g : CoreId) (k : Nat) (s : State) : Host.Outcome State Fault Refusal :=
  if k < s.outside g.toNat then .next (s.modCore g.toNat fun c => { c with promised := true }) else .next s

end Sys2Proof.Machine
end

