-- ==== Sys2Proof/Machine/Life.lean ====
section
/-!
DEFINITION. The life of a context: placement (R194), LOAD's effect, the start of threads, channels and the feed
(R65, R365), a snapshot's abandonment (R391), what a purge does at each unit (Table 14.2), its end (R408 to R411), the
release (R409), and the resets of engines, dies and the module (R412 to R415).
-/

namespace Sys2Proof.Machine

/-! ### Placement (R194) -/

/-- First location and bytes of a region. -/
def regionLoc (r : RegionEntry) : Nat × Nat :=
  let n := r.limit - r.base
  if r.win == 0 then (0x200000000 + r.die.toNat * 0x20000000 + r.base * 0x100000, n * 0x100000)
  else if r.win == 1 then (0x1000000000 + r.die.toNat * 0x800000000 + r.base * 0x4000000, n * 0x4000000)
  else (granLoc (r.base * 0x300000), n * 0x300000)

/-- Ranges of locations that an image owns: Benches of its quads, its regions. -/
def imgRanges (img : CtxImage) : List (Nat × Nat) :=
  (img.header.quads.map fun q => (benchLoc (4 * q.toNat) 0, 0x400000)) ++ img.memory.regions.map regionLoc

/-- Every byte of a range becomes 0. -/
def State.wipe (s : State) (l n : Nat) : State :=
  { s with mem := memClear l n s.mem, poison := s.poison.filter fun u => !(decide (l ≤ u) && decide (u < l + n)) }

/-- The granule lies in a Granary region of the list. -/
def granuleIn (rs : List RegionEntry) (gi : Nat) : Bool :=
  rs.any fun r => r.win == 2 && decide (r.base * 0x300000 ≤ gi * 256) && decide (gi * 256 < r.limit * 0x300000)

/-- Placement of an image: zeros, then its contents where the image owns them; every block of its areas counts as
written. No line of its Granary regions stays in a cache part. -/
def State.place (s : State) (img : CtxImage) : State :=
  let rs := imgRanges img
  let s := s.dropLines (List.range 8) (granuleIn img.memory.regions)
  let s := rs.foldl (fun s r => s.wipe r.1 r.2) s
  let own (l : Nat) : Bool := rs.any fun r => decide (r.1 ≤ l) && decide (l < r.1 + r.2)
  let s := img.contents.foldl (fun s p =>
    s.pokeCells (((List.range p.bytes.length).map (p.addr + ·)).zip p.bytes |>.filter fun x => own x.1)) s
  { s with written := setWritten ((areaBlocks img).map (· / blockBytes)) s.written }

/-! ### Objects at LOAD (R252) -/

/-- Bell f lies at bell b or below it, on this module. -/
def syncBelow (y : SyncSection) (self : ModuleNo) (b : Nat) : Nat → Nat → Bool
  | 0, _ => false
  | fuel + 1, f => f == b || match syncParent y self f with | some p => syncBelow y self b fuel p | none => false

/-- A bell as LOAD leaves it. -/
def loadBell (c : CtxId) (y : SyncSection) (self : ModuleNo) (b : Nat) : Bell :=
  let e := syncEntry y b
  let below := (y.bells.map (·.bell)).filter fun f => f != b && syncBelow y self b (y.bells.length + 1) f
  { count := match e with | some e => e.count | none => 1
    rchild := match e with | some e => e.rchild | none => 0
    leaves := ((b :: below).map (syncLeaves y self)).foldl (· + ·) 0
    parent := match e with
      | some e => if e.pbell == 0xFFFF then none else some (e.pbell.toNat, e.pindex, e.pmodule)
      | none => none
    ctx := c, assigned := true }

/-- A tally as LOAD leaves it. -/
def loadTally (c : CtxId) (y : SyncSection) (id : Nat) : Tally :=
  match y.grants.find? fun g => grantHolds g false id with
  | some g => { latch := g.latch, remote := g.remote, ctx := c, assigned := true }
  | none => {}

/-- The granted objects of one die, or of all, return to their LOAD state; their waiters are gone. -/
def State.loadObjs (s : State) (c : CtxId) (img : CtxImage) (die : Option Nat) : State :=
  let here (bell : Bool) (id : Nat) : Bool := match die with | some d => objDie bell id == d | none => true
  let s := ((grantIds img false).filter (here false)).foldl (fun s id => s.modTally id fun _ => loadTally c img.sync id) s
  ((grantIds img true).filter (here true)).foldl
    (fun s b => s.modBell b fun _ => loadBell c img.sync s.fab.module b) s

/-! ### The feed's cursors (R371, R375) -/

/-- The feed as a context enters LOADED: its ring empty, both cursors at the start. -/
def feedLoaded (f : Feed) (g : Option FeedSection) : Feed :=
  match g with
  | none => {}
  | some x =>
    { cfg := g, fillOff := x.offset, fillEpoch := x.epoch, doneOff := x.offset, doneEpoch := x.epoch, reqOff := x.offset,
      reqEpoch := x.epoch, delivered := f.delivered, repeats := f.repeats, stopReason := f.stopReason, credits := x.nslots,
      baseOff := x.offset, baseEpoch := x.epoch }

/-- Records in flight are discarded and the ring state is cleared. -/
def Feed.clear (f : Feed) : Feed :=
  { f with
    flight := [], slots := [], nextSlot := 0, credits := match f.cfg with | some x => x.nslots | none => 0
    fillOff := f.doneOff, fillEpoch := f.doneEpoch, reqOff := f.doneOff, reqEpoch := f.doneEpoch }

/-! ### LOAD (R214, R252, R361) -/

/-- The salt of a context at LOAD (R214). -/
def loadSalt (c : CtxId) (m : CtxMem) (salt : Byte) : BitVec 4 :=
  if salt == 0xFF then (m.lastSalt.getD c) + (if m.rehash then 7 else 0) else salt.setWidth 4

/-- A record of the recovery unit (R432). -/
def State.rstRecord (s : State) (code : Reason) (sev : Byte) (ctx : Option CtxId) (obj : Nat) (failed started : Nat := 0)
    (ring shard : Nat := 0xFFFF) : State :=
  s.record { unit := match ctx with | some c => uCtxRst c | none => uRst
             clk := .reeve, code := code, sev := sev, ctx := ctx, obj := BitVec.ofNat 32 obj,
             detail := det 40 1 failed ||| det 41 1 started ||| det 42 2 ring ||| det 44 2 shard }

/-- The image has a recovery section that sets JOIN (R427). -/
def joinsImg (img : CtxImage) : Bool := match img.recovery with | some r => r.join | none => false

/-- What a context's units hold at LOAD and no snapshot saves (R379): empty caches of cores and engines, and objects as
granted, with the hubs waiting on the queues' tallies. -/
def State.freshUnits (s : State) (c : CtxId) (img : CtxImage) : State :=
  let s := s.modCtx c fun x => { x with putReady := 0, red := { x.red with ready := 0 } }
  let s := (s.coresOf c).foldl (fun s g => s.modCore g fun k => { k with
    icache := [], userLines := [], tlb := [], tlbUsed := [] }) s
  let s := (s.quadsOf c).foldl (fun s q => s.modEngine q fun e => { e with tlb := [], tlbUsed := [] }) s
  let s := s.loadObjs c img none
  let s := match img.red with | some r => s.hubWait c .reg r.queue.tally | none => s
  let s := match img.putq with | some q => s.hubWait c .put q.tally | none => s
  match img.feed with | some g => s.hubWait c .feed g.free | none => s

/-- The checked image of context c takes effect, up to the context's state. -/
def State.loadCtx (s : State) (c : CtxId) (img : CtxImage) : State :=
  let f := s.cfracFor c img
  let s := if f == s.cfrac then s else s.flushCells
  let old := s.ctx c
  let salt := loadSalt c old.mem img.memory.salt
  let s : State := { s with
    quadOwner := img.header.quads.foldl (fun (o : SMap CtxId) (q : QuadId) => sset q.toNat c o) s.quadOwner, cfrac := f }
  let s := s.modCtx c fun x => { x with
    img := some img, load := none, restored := false, putK := 0, putReady := 0
    mem := { x.mem with gsalt := salt, rehash := false, lastSalt := some salt, ptroot := if img.memory.regions.any (·.win == 2) then img.memory.ptroot else 0,
                        memto := if img.memory.memto.toNat < 0x10000 then 0x10000 else img.memory.memto,
                        regions := img.memory.regions }
    feed := feedLoaded x.feed img.feed
    rings := match img.red with
      | some r => r.rings.map fun g => { cfg := g, members := g.members, dead := if joinsImg img then [s.fab.module] else [] }
      | none => []
    red := {}, snap := {}
    rst := { x.rst with
      fill := .none, switches := 0, deadMod := 0, deadRing := 0, deadValid := false
      joinHold := match img.recovery with | some r => BitVec.ofNat 32 r.joinHold | none => 2125000000
      switchMask := match img.recovery with | some r => r.switch | none => 0
      join := joinsImg img } }
  let s := (s.threadsOf c).foldl (fun s th => s.modThr th fun t =>
    { nextId := t.nextId, vec := { strict := img.header.strict } }) s
  let s := (s.coresOf c).foldl (fun s g => s.modCore g fun k => { k with window := img.header.window }) s
  let s := ((s.place img).freshUnits c img).modHarv fun h => { h with feedSaid := false }
  if joinsImg img then s.rstRecord 0x0B0F sevInfo (some c) s.fab.module.toNat else s

/-- The saved state takes its place in a context whose memory is in place (R379, R400). -/
def State.loadSaved (s : State) (c : CtxId) (img : CtxImage) : State :=
  (s.freshUnits c img).loadState c img (s.ctx c).snap.cells

/-! ### START (R65, R91, R365) -/

/-- An enabled thread at its entry. -/
def startThread (h : CtxHeader) (x : ThreadInit) (t : Thread) : Thread :=
  { enabled := true, nextId := t.nextId, pc := x.entry, csr := { tvec := x.tvec },
    vec := { strict := h.strict, key := x.vkey, step := h.step }, tile := { key := x.tkey } }

/-- A channel restored as paused reads its descriptor again, and goes on at the repetition it stood before. -/
def State.chanRestart (s : State) (q ch : Nat) : State :=
  if (s.chan q ch).st == .paused then s.rereadDesc q ch else s

/-- Threads, channels and the feed of a context that has entered RUNNING begin: from the image, or from the restored
state. -/
def State.startWork (s : State) (c : CtxId) (img : CtxImage) (restored : Bool) : State :=
  let s := (s.coresOf c).foldl (fun s g => s.ungate g) s
  let s :=
    if restored then
      let s := (s.threadsOf c).foldl (fun s th => if (s.thr th).st == .ready then
        (s.modThr th fun t => { t with enabled := true }).arrive th (s.thr th).pc else s) s
      s.eachChan c fun s q ch => s.chanRestart q ch
    else
      img.header.threads.foldl (fun s x => (s.modThr x.th (startThread img.header x)).arrive x.th x.entry) s
  if img.feed.isSome then
    (s.hubWake 0).modFeed c fun f => if f.st == .stopped then f else { f with st := .active }
  else s

/-! ### Orders to a whole context (R62, R243, R364) -/

/-- A pause reaches threads, channels and the feed. -/
def State.pauseOrders (s : State) (c : CtxId) : State :=
  let s := (s.threadsOf c).foldl (fun s th => s.orderPause th) s
  let s := s.eachChan c fun s q ch => s.strmPauseChan q ch
  s.modFeed c fun f => if f.st == .active then { f with st := .paused } else f

/-- DRAINING begins: threads halt, channels abort, the feed stops. -/
def State.drainOrders (s : State) (c : CtxId) : State :=
  let s := (s.threadsOf c).foldl (fun s th => s.orderStop th) s
  let s := s.eachChan c fun s q ch => s.strmAbortChan q ch
  s.modFeed c fun f => { f.clear with st := if f.st == .stopped then .stopped else .idle }

/-- A PAUSE that came while a snapshot held the round applies now (Table 13.11). -/
def State.latePause (s : State) (c : CtxId) : State :=
  match (s.ctx c).cmd with
  | some k => if k.op == .pause && (s.ctx c).st == .running then s.pauseOrders c else s
  | none => s

/-! ### A snapshot's end (R391, R403) -/

def snapAbandonCode : Reason := 0x080D

/-- The thread that SNAP_NOTIFY names is rung, if ON_END is set. -/
def State.snapRing (s : State) (c : CtxId) : State :=
  let n := (s.ctx c).snap.notify
  if n.getLsbD 30 && n.getLsbD 31 then s.doorbell (n.toNat % 8192) else s

/-- A SNAP command that waits for the round in hand ends. -/
def State.snapCmdEnd (s : State) (c : CtxId) (code : Reason) (body : Body := .none) : State :=
  let x := (s.ctx c).snap
  match x.req with
  | some (some n, _) =>
    if n == x.round then (s.modSnap c fun y => { y with req := none }).endSnapCmd c code body else s
  | _ => s

/-- The snapshot of context c is abandoned with one record; its blocks keep WRITTEN; the round, where it is held, is
released. -/
def State.snapAbandon (s : State) (c : CtxId) (code : Reason) (sev : Byte) (block : Nat := 0xFFFFFFFF) : State :=
  let x := (s.ctx c).snap
  match (s.ctx c).img with
  | none => s
  | some img =>
    let s := s.snapRecord c code sev x.round block (if x.direct then 1 else 0)
    let s := { s with written := setWritten ((x.set.filterMap (blockLoc img)).map (· / blockBytes)) s.written }
    let s := s.modHarv fun h => { h with
      inst := smod {} (if block == 0xFFFFFFFF then 0 else block % 2) (fun i => { i with abandon := satAdd 16 i.abandon 1 }) h.inst }
    let s := s.snapCmdEnd c code
    let s := s.modSnap c fun y => { y with
      phase := .idle, reason := code, set := [], toStage := [], toSend := [], cells := [], unacked := [], kept := [],
      signing := none, manifest := none, join := none }
    let s := s.snapRing c
    match img.snap with
    | some sec => (s.unholdRound sec.stepBell).latePause c
    | none => s

/-! ### What a purge does at a unit (Table 14.2) -/

/-- A thread's state is discarded: a posted store may or may not have taken effect (Table 14.4), and replies to come will be
dropped, and counted as late when they come (R408). -/
def State.purgeThread (s : State) (th : ThreadId) : State :=
  let t := s.thr th
  let out := t.posted.length + t.fills.length + t.dropped + (match t.pend with
    | some (.access _ w rs) => b2n w.isSome + (openReqs rs).length
    | some (.reg _ _ _ _) => 1
    | some (.sync _ _ _ _) => 1
    | some (.pginv _) => 1
    | _ => 0)
  let s := t.posted.foldl (fun s p => s.storeOpen th p) s
  (s.modThr th fun t => { nextId := t.nextId, late := t.late + out, vec := { strict := t.vec.strict } }).modSync fun y =>
    { y with msgs := y.msgs.filter fun m => !(m.src == Src.thread th && m.dest.isSome) }

/-- What a reset of the context leaves of the vector unit: off, or off when the wake under way ends (R163, R164). -/
def VPow.afterReset : VPow → VPow
  | .waking _ => .waking true
  | _ => .off

/-- What the loss of a pass leaves of the arrays: the hold follows it (R126). -/
def Arr.afterLoss : Arr → Arr
  | .active => .hold
  | a => a

/-- A core of the context: its threads, its caches, the products that wait (R46, R61, R131, R211). -/
def State.purgeCore (s : State) (g : Nat) : State :=
  let s := ([0, 1, 2, 3].map (mkTh g)).foldl (fun s th => s.purgeThread th) s
  s.modCore g fun k => { k with
    icache := [], userLines := [], tlb := [], tlbUsed := [], slotQ := [], groups := [], ready := [], latch := none,
    promised := false, vpow := k.vpow.afterReset, arr := k.arr.afterLoss }

/-- A stream engine of the context: an outstanding write may or may not have taken effect. -/
def State.purgeQuad (s : State) (q : Nat) : State :=
  let chans := (s.engine q).chans
  (s.strmResetQuad q |> chans.foldl fun s x => x.2.writes.foldl (fun s w =>
    let (b, s) := s.draw 1
    if b == 1 then s.pokeCellsVia (s.writeCells w) else s) s)

/-- The buckets of a context end at engine e with no result. -/
def State.dropBuckets (s : State) (c : CtxId) (e : Nat) : State :=
  s.modRedEng e fun x => { x with slots := x.slots.filter fun b => b.2.ctx != c }

/-- A snapshot, or a restore, of context c stands. -/
def State.snapLive (s : State) (c : CtxId) : Bool := (s.ctx c).snap.busy || (s.ctx c).snap.phase == .restore

/-- RESET_CTX ends a snapshot that is ARMED, or whose external copy runs (Table 13.11). -/
def State.snapDisarm (s : State) (c : CtxId) : State :=
  let ph := s.snapPhase c
  if ph != 1 && ph != 6 then s
  else
    let x := (s.ctx c).snap
    let (round, src) := if ph == 6 then (match x.ext with | some (m, _) => (m.round, 1) | none => (x.round, 1)) else (x.round, 0)
    let s := s.snapRecord c snapAbandonCode sevNotice round 0xFFFFFFFF src
    (s.modSnap c fun y => { y with reason := snapAbandonCode, sched := false, req := none, external := false, ext := none, extQ := [] }).snapRing c

/-- Harvest's part of a purge: a snapshot past its capture goes on when the context is FAULTED (Table 13.11). -/
def State.purgeHarvest (s : State) (c : CtxId) : State :=
  let x := (s.ctx c).snap
  if x.phase == .quiescing || x.phase == .state || (x.phase == .data && (s.ctx c).st != .faulted) then
    s.snapAbandon c snapAbandonCode sevNotice
  else if x.phase == .restore then
    (s.snapRecord c snapAbandonCode sevNotice x.round).modSnap c fun y => { y with
      phase := .idle, reason := snapAbandonCode, restore := none, cells := [], buf := [] }
  else if (s.ctx c).st != .faulted then s.snapDisarm c
  else s

/-- One unit does its part of a purge of context c. -/
def State.quiesceUnit (s : State) (c : CtxId) (u : UnitId) : State :=
  match unitIn u 0x1000 2048, unitIn u 0x1800 512, unitIn u 0x0400 8, unitIn u 0x0600 8, unitIn u 0x0300 8 with
  | some g, _, _, _, _ => s.purgeCore g
  | _, some q, _, _, _ => s.purgeQuad q
  | _, _, some d, _, _ => match (s.ctx c).img with | some img => s.loadObjs c img (some d) | none => s
  | _, _, _, some e, _ => s.dropBuckets c e
  | _, _, _, _, some d => s.dropLines [d] (granuleIn (s.ctx c).mem.regions)
  | _, _, _, _, _ =>
    if u == uFab then s.modFab fun b => { b with puts := b.puts.filter fun p => p.ctx != c }
    else if u == uHarvest 0 then s.purgeHarvest c
    else if u == uFeed c then s.modFeed c fun f => { f.clear with st := if f.st == .stopped then .stopped else .idle }
    else s

/-- A unit that was fenced does its part late, when the context may have been released and loaded again: only what is of an
older generation goes (R408, R410). What the release itself has cleared is gone already. -/
def State.quiesceLate (s : State) (c : CtxId) (u : UnitId) : State :=
  let gen := (s.ctx c).gen
  match unitIn u 0x1000 2048, unitIn u 0x1800 512, unitIn u 0x0600 8, unitIn u 0x0300 8 with
  | some g, _, _, _ => s.purgeCore g
  | _, some q, _, _ => s.purgeQuad q
  | _, _, some e, _ => s.modRedEng e fun x => { x with slots := x.slots.filter fun b => !(b.2.ctx == c && b.2.gen != gen) }
  | _, _, _, some d =>
    s.dropLines [d] (granuleIn (((s.ctx c).rst.keepRegions.filter fun e => e.1 == u).map (·.2)))
  | _, _, _, _ =>
    if u == uFab then s.modFab fun b => { b with puts := b.puts.filter fun p => !(p.ctx == c && p.gen != gen) } else s

/-! ### Release (R409, R410) -/

/-- What fenced units hold for context c: quads, regions, grants. -/
def State.heldBy (s : State) (c : CtxId) (u : UnitId) :
    List (UnitId × Nat) × List (UnitId × RegionEntry) × List (UnitId × Grant) :=
  let rs := (s.ctx c).mem.regions
  match unitIn u 0x1000 2048, unitIn u 0x1800 512, unitIn u 0x0300 8, unitIn u 0x0400 8 with
  | some g, _, _, _ => ([(u, g / 4)], [], [])
  | _, some q, _, _ => ([(u, q)], [], [])
  | _, _, some d, _ => ([], (rs.filter fun r => (r.win == 2 && s.cfrac != 0) || (r.win != 2 && r.die.toNat == d)).map (u, ·), [])
  | _, _, _, some d => ([], [], match (s.ctx c).img with
      | some img => (img.sync.grants.filter fun g => g.die.toNat == d).map (u, ·)
      | none => [])
  | _, _, _, _ => ([], [], [])

/-- Context c gives back its quads, regions and grants and is EMPTY. -/
def State.release (s : State) (c : CtxId) (by_ : Option CmdExec) : State :=
  let s := if (s.ctx c).snap.busy then s.snapAbandon c snapAbandonCode sevNotice else s.snapDisarm c
  let x := s.ctx c
  let held := x.rst.fenced.map (s.heldBy c)
  let cores := s.coresOf c
  let quads := s.quadsOf c
  let s := cores.foldl (fun s g => s.modCore g fun k => { k with gated := true }) s
  let s := { s with quadOwner := s.quadOwner.filter fun e => e.2 != c }
  let s := s.modPwr fun p => { p with quadOn := p.quadOn.filter fun k =>
    !(quads.any fun q => q / 2 == k) || s.quadOwner.any fun e => e.1 / 2 == k }
  let s := s.modSync fun y => { y with
    tallies := y.tallies.filter fun e => !(e.2.assigned && e.2.ctx == c)
    bells := y.bells.filter fun e => !(e.2.assigned && e.2.ctx == c)
    dies := y.dies.map fun d => (d.1, { d.2 with notify := sdel c.toNat d.2.notify }) }
  let s := s.setCtxState c .empty by_
  s.modCtx c fun x => {
    st := .empty, gen := x.gen, cmd := x.cmd
    mem := { x.mem with regions := [] }
    feed := { delivered := x.feed.delivered, repeats := x.feed.repeats, stopReason := x.feed.stopReason }
    rst := { x.rst with
      fill := .none, joinHold := 0, switchMask := 0, join := false
      keepQuads := x.rst.keepQuads ++ held.flatMap (·.1)
      keepRegions := x.rst.keepRegions ++ held.flatMap (·.2.1)
      keepObjs := x.rst.keepObjs ++ held.flatMap (·.2.2) } }

/-! ### The end of a purge (R408, R409) -/

/-- RESET_CTX executes for the context. -/
def State.resetting (s : State) (c : CtxId) : Bool := match (s.ctx c).cmd with | some k => k.op == .resetCtx | none => false

/-- The purge of context c is complete: RST_CTX; RESET_CTX, if it waits, releases the context and is answered. -/
def State.purgeDone (s : State) (c : CtxId) : State :=
  let s := s.modCtxRst c fun r => { r with purge := none }
  let s := s.rstRecord 0x0B01 sevNotice (some c) (uCtxRst c).toNat
  if s.resetting c then (s.release c (s.ctx c).cmd).endCmd c 0 else s

/-- Unit u has acknowledged its quiesce order. -/
def State.quiesced (s : State) (c : CtxId) (u : UnitId) : State :=
  let s := s.quiesceUnit c u
  let s := s.modCtxRst c fun r => { r with
    purge := r.purge.map fun p => { p with units := p.units.filter fun x => x != u } }
  match (s.ctx c).rst.purge with
  | some p => if p.units.isEmpty then s.purgeDone c else s
  | none => s

/-- The fence of unit u for context c lifts. -/
def State.liftFence (s : State) (c : CtxId) (u : UnitId) : State :=
  s.modCtxRst c fun r => { r with
    fenced := r.fenced.filter fun x => x != u
    keepQuads := r.keepQuads.filter fun e => e.1 != u
    keepRegions := r.keepRegions.filter fun e => e.1 != u
    keepObjs := r.keepObjs.filter fun e => e.1 != u }

/-! ### Faults by a reset (R412, R413) -/

def rstCtxLost : Reason := 0x0B08

/-- A context is faulted by a unit's reset. FAULT notices go out before it, also where the purge that would send them has to wait
(R418). -/
def State.ctxLost (s : State) (c : CtxId) (obj : Nat) (level : Nat) : State :=
  let st := (s.ctx c).st
  if st == .empty || st == .faulted then s
  else
    let s := if (s.ctx c).rst.gap then s.faultNotices c false else s
    (((s.rstRecord rstCtxLost sevCtxFatal (some c) obj 0 level).ctxFault c rstCtxLost)).modCtxRst c fun r => { r with
      lastReason := rstCtxLost, lastLevel := BitVec.ofNat 3 level }

/-- Engine q has reads or writes of the context's channels outstanding at Granary controller n. -/
def State.strmWorkAt (s : State) (c : CtxId) (q n : Nat) : Bool :=
  let here (l : Nat) : Bool := isGran l && (granPlace (l - 2 ^ 63) (s.saltOf (l - 2 ^ 63))).1 / 16 == n
  (s.engine q).chans.any fun x => x.2.ctx == c &&
    ((x.2.reads.any fun r => here r.loc) || x.2.writes.any fun w => w.cells.any fun e => here e.1)

/-- A thread of the context has an access, a fetch or a page walk outstanding at Granary controller n. -/
def State.threadWorkAt (s : State) (c : CtxId) (th : ThreadId) (n : Nat) : Bool :=
  let at_ (l : Nat) : Bool := isGran l && (granPlace (l - 2 ^ 63) (s.saltOf (l - 2 ^ 63))).1 / 16 == n
  let walks (page : Nat) : Bool := (s.walkLines c page).any fun l => at_ (64 * l)
  let hits (va : Word) : Bool := match s.window c va with
    | some (.granary o) => walks (o / 0x10000) || (match s.walkPage c (o / 0x10000) with
      | .entry e => (granPlace (e.ppn * 0x10000 + o % 0x10000) (s.ctx c).mem.gsalt.toNat).1 / 16 == n
      | _ => false)
    | _ => false
  let t := s.thr th
  (t.posted.any fun p => hits p.va) || t.fills.any hits || (match t.pend with
    | some (.access a w rs) => (match w with | some page => walks page | none => false) || (openReqs rs).any fun _ =>
        a.parts.any fun p => hits p.va
    | _ => false)

/-- Harvest or the feed engine has blocks or records of the context in the Granary in hand: they lie over every controller. -/
def State.granWork (s : State) (c : CtxId) : Bool :=
  match (s.ctx c).img with
  | none => false
  | some img =>
    let x := (s.ctx c).snap
    (s.snapLive c && (x.set ++ x.toStage ++ x.toSend ++ (match x.restore with | some y => [y.next] | none => [])).any fun i =>
      match blockLoc img i with | some l => isGran l | none => false) ||
    (!(s.ctx c).feed.flight.isEmpty && match img.feed with
      | some g => (match img.memory.regions[g.region]? with | some r => r.win == 2 | none => false)
      | none => false)

/-- Context c has work at unit u (log 155). -/
def State.workAt (s : State) (c : CtxId) (u : UnitId) : Bool :=
  let runs := (s.ctx c).st == .running || (s.ctx c).st == .paused || (s.ctx c).st == .draining
  match unitIn u 0x1000 2048, unitIn u 0x1800 512, unitIn u 0x0400 8, unitIn u 0x0600 8, unitIn u 0x0910 16 with
  | some g, _, _, _, _ => s.coreCtx g == some c
  | _, some q, _, _, _ => s.quadCtx q == some c
  | _, _, some d, _, _ => s.sync.tallies.any (fun e => e.2.assigned && e.2.ctx == c && e.1 / 4096 == d) ||
      s.sync.bells.any fun e => e.2.assigned && e.2.ctx == c && e.1 / 512 == d
  | _, _, _, some e, _ => (s.redEng e).slots.any fun b => b.2.ctx == c
  | _, _, _, _, some f => runs && f == c.toNat && !(s.ctx c).feed.flight.isEmpty
  | _, _, _, _, _ =>
    match unitIn u 0x0310 12 with
    | some n => (runs && ((s.quadsOf c).any (fun q => s.strmWorkAt c q n) || (s.threadsOf c).any fun th => s.threadWorkAt c th n)) ||
        s.granWork c
    | none => if u == uHarvest 0 || u == uHarvest 1 then s.snapLive c else false

/-- Contexts with work at a unit that starts its reset are faulted and purged. -/
def State.loseWorkAt (s : State) (u : UnitId) : State :=
  (allCtx.filter fun c => s.workAt c u).foldl (fun s c => s.ctxLost c u.toNat 2) s

/-! ### Module reset (R414, R415, R431) -/

/-- What a module reset, or the loss of the rails, leaves: the fuses, what the NVM holds, the carrier, the free-value
counter, what has been sent, what the watchdog holds, and the wakes of vector units under way (R163); everything else is at
reset. -/
def State.wiped (s : State) : State :=
  let s := s.cutJournal
  { State.reset with
    pending := s.pending
    freeCtr := s.freeCtr
    out := s.out
    fuses := s.fuses
    nvm := { bundles := s.nvm.bundles, half0 := s.nvm.half0, half1 := s.nvm.half1 }
    car := s.car
    cores := s.cores.filterMap fun e => match e.2.vpow with
      | .waking _ => some (e.1, { vpow := .waking true })
      | _ => none
    fab := { lasers := s.fab.lasers.map fun e => (e.1, e.2.afterReset) }
    rst := { attempts := s.rst.attempts, modCause := s.rst.modCause, carried := s.rst.carried, episode := s.rst.episode,
             begun := s.rst.begun } }

/-- A module reset begins, with a cause that the watchdog holds. -/
def State.moduleReset (s : State) (code : Reason) (unit : BitVec 16) : State :=
  s.wiped.modRst fun r => { r with modCause := some (code, unit), begun := r.begun + 1 }

/-- FAULT notices of every context before a module reset (R418). -/
def State.allNotices (s : State) : State :=
  (allCtx.filter fun c => (s.ctx c).st != .empty).foldl (fun s c => s.faultNotices c false) s

/-- A Reeve that is hung, or has lost its clock, may or may not still send the notices, which are best effort (R418, log 113). -/
def State.perhapsNotices (s : State) : State :=
  let (b, s) := s.draw 1
  if b == 1 then s.allNotices else s

/-- A module reset that the fault history records first: it starts when its entry is read back, or at once where a Vault in ERROR
journals nothing. -/
def State.dueReset (s : State) (code : Reason) (unit : BitVec 16) : State :=
  if s.rst.due.isSome then s
  else
    let s := s.allNotices
    let s := s.modRst fun r => { r with due := some (code, unit), level := 4 }
    if s.nvm.queue.isEmpty || s.vault.st == .error then s.moduleReset code unit else s

/-- A bound of Table 14.1 has passed and a module reset follows (R415). -/
def State.escalateModule (s : State) (failed : Nat) (unit : UnitId) : State :=
  let s := s.rstRecord 0x0B04 sevNotice none unit.toNat failed 4
  let s := match s.log.held.getLast? with
    | some (_, e) => s.modRst fun r => { r with carried := r.carried ++ [e] }
    | none => s
  s.dueReset 0x0B04 unit

/-! ### Die reset (R413) -/

/-- Contexts that a reset of die d faults; 8 is HD1. -/
def State.dieContexts (s : State) (d : Nat) : List CtxId :=
  allCtx.filter fun c =>
    let rs := (s.ctx c).mem.regions
    let gran := rs.any fun r => r.win == 2
    if d == 8 then gran
    else (s.quadsOf c).any (fun q => q / 64 == d) || (rs.any fun r => r.win != 2 && r.die.toNat == d) || (s.cfrac != 0 && gran)

/-- Die reset of CDd, or of HD1 (8), starts: RST_DIE, the contexts, and what they lose. -/
def State.startDie (s : State) (d : Nat) : State :=
  if s.rst.dieResets.contains d then s
  else
    let s := s.newEpisode
    let obj := if d == 8 then 0x0A01 else 0x0300 + d
    let s := s.modRst fun r => { r with level := 3, cntDie := satAdd 16 r.cntDie 1, dieResets := r.dieResets ++ [d] }
    let s := s.rstRecord 0x0B03 sevDieFatal none obj 0 3
    (s.dieContexts d).foldl (fun s c => s.ctxLost c obj 3) s

/-! ### Engine reset (R412) -/

/-- Units of Table 14.3. -/
def resetsAlone (u : UnitId) : Bool :=
  let inR (lo n : Nat) : Bool := decide (lo ≤ u.toNat) && decide (u.toNat < lo + n)
  inR 0x1000 2048 || inR 0x1800 512 || inR 0x0400 8 || inR 0x0600 8 || inR 0x0A00 2 || inR 0x0910 16 || inR 0x0700 16 ||
    u == uGate || inR 0x0310 12

/-- A hung unit is reset: alone, or with its die, or with the module. -/
def State.startEngine (s : State) (u : UnitId) : State :=
  if resetsAlone u then
    let u := resetUnit u
    if s.underReset u then s
    else
      let s := s.newEpisode.modRst fun r => { r with level := 2, engines := r.engines ++ [u] }
      match unitIn u 0x1800 512 with
      | some q => ([uQuad q] ++ [0, 1, 2, 3].map (fun i => uCore (4 * q + i))).foldl (fun s u => s.loseWorkAt u) s
      | none =>
        if u == uFeed 0 then allCtx.foldl (fun s c => s.loseWorkAt (uFeed c)) s else s.loseWorkAt u
  else
    match dieAbove u with
    | some d => s.startDie d
    | none => s.escalateModule 0 u

/-- The level that the reset of a unit starts: its own, its die's or the module's. -/
def unitLevel (u : UnitId) : Nat := if resetsAlone u then 2 else if (dieAbove u).isSome then 3 else 4

/-- A bound of Table 14.1 that waits on a unit passes: the next level starts, with RST_ESCALATE (R415). A unit that is under reset
already is joined, and nothing starts (R406). -/
def State.escalateUnit (s : State) (failed : Nat) (u : UnitId) : State :=
  if s.underReset u then s
  else if unitLevel u == 4 then s.escalateModule failed u
  else (s.rstRecord 0x0B04 sevNotice none u.toNat failed (unitLevel u)).startEngine u

end Sys2Proof.Machine
end

