-- ==== Sys2Proof/Machine/Gate.lean ====
section
/-!
DEFINITION. The Gate: its port, IPv6 and ICMPv6, sessions, queries, telemetry, event messages, and the examination of
requests (12_gate_and_commands.md, R348 to R369).
-/

namespace Sys2Proof.Machine

def cmdState : Reason := 0x0201
def cmdFormat : Reason := 0x0202
def cmdOpcode : Reason := 0x0203
def cmdBusy : Reason := 0x0204
def cmdSeq : Reason := 0x0205
def cmdContext : Reason := 0x0206
def cmdRole : Reason := 0x0207
def cmdTimeout : Reason := 0x0208
def cmdChunk : Reason := 0x0209
def cmdSessionFull : Reason := 0x020B
def cmdAuth : Reason := 0x020C
def cmdLoadIdle : Reason := 0x020D

/-- Frames pass: the Gate is UP and the module has released. -/
def State.gateUp (s : State) : Bool :=
  (s.port 16).st == .up && (s.boot.phase == .released || s.boot.phase == .recovery)

/-- A frame arrives. -/
def State.frameIn (s : State) : State := s.modGate fun g => { g with rx := g.rx + 1 }

/-! ### Protection (R357)

GCM-AES-XPN-256: SCI, the SSCI of each end, and the packet numbers that the model keeps. The cipher's verdict on a frame is
the row's (log 12). -/

def ssciPeer : BitVec 32 := 0x00000002
def ssciModule : BitVec 32 := 0x00000001

/-- SCI of a station: its MAC address and port identifier 1 (IEEE 802.1AE; PRESUMED, log 148). -/
def sciOf (mac : BitVec 48) : BitVec 64 := mac ++ 0x0001#16

/-- The initialisation vector of a frame: salt ⊕ (SSCI ∥ packet number) (IEEE 802.1AEbw; PRESUMED, log 148). -/
def xpnIv (salt : BitVec 96) (ssci : BitVec 32) (pn : Word) : BitVec 96 := salt ^^^ (ssci ++ pn)

/-- The frame has come before, or lies below the replay window of 64. -/
def Session.replayed (x : Session) (pn : Word) : Bool :=
  pn == 0 || decide (pn.toNat + 64 ≤ x.rxTop.toNat) ||
    (decide (pn.toNat ≤ x.rxTop.toNat) && x.rxSeen.getLsbD (x.rxTop.toNat - pn.toNat))

/-- A frame's packet number enters the window. -/
def Session.received (x : Session) (pn : Word) : Session :=
  if x.rxTop.toNat < pn.toNat then { x with rxTop := pn, rxSeen := (x.rxSeen <<< (pn.toNat - x.rxTop.toNat)) ||| 1 }
  else { x with rxSeen := x.rxSeen ||| (1 <<< (x.rxTop.toNat - pn.toNat)) }

/-- A protected frame of a session arrives; `act` is what its message does. A frame of no open session fails its ICV. -/
def State.protectedIn (s : State) (x : Option Session) (pn : Word) (act : State → State) : State :=
  let s := s.frameIn
  match x with
  | none => s.modGate fun g => { g with dIcv := satAdd 16 g.dIcv 1 }
  | some x =>
    if x.replayed pn then s.modGate fun g => { g with dReplay := satAdd 16 g.dReplay 1 }
    else act (s.modSession x.num fun y => y.received pn)

def State.session (s : State) (n : BitVec 32) : Option Session := s.gate.sessions.find? fun x => x.num == n

/-! ### The port (R350) -/

/-- The Gate cannot run: its section fails, or its engine has no two healthy laser inputs. In recovery mode there is no section,
and the light alone is asked for (R349, R449). -/
def State.gateBad (s : State) : Option CfgErr :=
  match s.boot.mod with
  | some m => s.gateErr m.gate true
  | none => errIf (decide (s.laserInputs 16 < 2)) ⟨0x0183, 0, 0, 0⟩

/-- The Gate's port starts to train. -/
def State.trainGate (s : State) : State :=
  if (s.port 16).st == .disabled then s.modPort 16 fun x => { x with st := .training } else s

/-- GATE_CTL.ENABLE is set: the check of the Gate section, then training, which has begun in TRAIN where the check held
(R434). A Gate that is refused stays DISABLED. -/
def State.enableGate (s : State) : State :=
  if s.gate.enable || (s.boot.mod.isNone && s.boot.phase != .recovery) then s
  else
    match s.gateBad with
    | some e => (s.modPort 16 fun x => { x with st := .disabled, txWidth := 0, rxWidth := 0 }).cfgRecord e 0x04 none
    | none => (s.modGate fun g => { g with enable := true }).trainGate

def execGateEnable (s : State) : Host.Outcome State Fault Refusal := .next s.enableGate

/-! ### Addresses (R351) -/

/-- The Gate's addresses: link-local, and the static one where it has and may use it. -/
def State.ownAddrs (s : State) : List (BitVec 128) :=
  linkLocalOf s.fuses.mac :: if s.boot.mod.isSome && !s.gate.linkLocalOnly then [s.gate.addr] else []

/-- The address is one that the Gate uses: an own one whose duplicate address detection has ended with no conflict. -/
def State.ownAddr (s : State) (a : BitVec 128) : Bool :=
  (s.gate.llOk && a == linkLocalOf s.fuses.mac) ||
    (s.gate.dadOk && !s.gate.linkLocalOnly && s.boot.mod.isSome && a == s.gate.addr)

/-- All-nodes: its Ethernet and IPv6 addresses. -/
def allNodesMac : BitVec 48 := 0x333300000001
def allNodes : BitVec 128 := 0xFF020000000000000000000000000001

/-- The Ethernet address of an address's solicited-node multicast group: 33:33:FF and its low 24 bits. -/
def solicitedMac (a : BitVec 128) : BitVec 48 := 0x3333FF#24 ++ a.setWidth 24

/-- The Gate accepts a frame to this Ethernet address. -/
def State.accepts (s : State) (dst : BitVec 48) : Bool :=
  dst == s.fuses.mac || dst == allNodesMac || s.ownAddrs.any fun a => dst == solicitedMac a

/-- The verdict on one of the Gate's addresses, at any time while its link is UP. -/
def execGateDad (linkLocal dup : Bool) (s : State) : Host.Outcome State Fault Refusal :=
  if (s.port 16).st != .up then .next s
  else if linkLocal then .next (s.modGate fun g => { g with llOk := !dup })
  else
    let s := s.modGate fun g => { g with dadOk := !dup, linkLocalOnly := dup }
    .next (if dup then s.record { unit := uGate, clk := .reeve, code := 0x0232, sev := sevError } else s)

/-- Answered with an Advertisement where the hop limit is 255 and the target is an address in use. -/
def execNeighbourSolicitation (m : Solicitation) (s : State) : Host.Outcome State Fault Refusal :=
  if !s.gateUp || !s.accepts m.dst then .next s
  else
    let s := s.frameIn
    .next (if m.hopLimit == 255 && s.ownAddr m.target then s.gateOut (.advert m.target) else s)

/-- The address that a request to `target` is answered from: itself, or the link-local one for all-nodes. -/
def State.echoSource (s : State) (target : BitVec 128) : BitVec 128 :=
  if target == allNodes then linkLocalOf s.fuses.mac else target

/-- At most 1,000 requests are answered in a second. -/
def execEchoRequest (m : EchoReq) (s : State) : Host.Outcome State Fault Refusal :=
  if !s.gateUp || !s.accepts m.dst then .next s
  else
    let s := s.frameIn
    let sec := s.clk.reeve / 212500000
    let n := if s.gate.echoWindow == sec then s.gate.echoes else 0
    if s.ownAddr (s.echoSource m.target) && n < 1000 then
      .next ((s.modGate fun g => { g with echoWindow := sec, echoes := n + 1 }).gateOut (.echo (s.echoSource m.target)))
    else .next s

/-- A frame is dropped and counted, with no other effect. -/
def execGateFrameDrop (why : DropWhy) (s : State) : Host.Outcome State Fault Refusal :=
  if !s.gateUp then .next s
  else
    match why with
    | .unprotected => .next (s.frameIn.modGate fun g => { g with dUnprot := satAdd 16 g.dUnprot 1 })
    | .icv => .next (s.frameIn.modGate fun g => { g with dIcv := satAdd 16 g.dIcv 1 })
    | .headerRule => .next (s.frameIn.modGate fun g => { g with dHeader := satAdd 16 g.dHeader 1 })
    | .replay n pn => .next (s.protectedIn (s.session n) pn fun s => s)

/-! ### Sessions (R354 to R357) -/

/-- n generate requests of the DRBG. -/
def State.drbg (s : State) (n : Nat) : State :=
  s.modVault fun v => { v with generates := (v.generates + n) % 2 ^ 32 }

/-- The Vault signs a digest, hedged with a value of its DRBG: one signature, one generate request (R459). -/
def State.signed (s : State) (msg : Digest) : BitVec 37016 × State :=
  let (rnd, s) := s.draw 256
  (Config.sign msg rnd, (s.drbg 1).modVault fun v => { v with signs := (v.signs + 1) % 2 ^ 32 })

/-- Sessions that may be open at once (R354, R449). -/
def State.sessionLimit (s : State) : Nat := if s.boot.phase == .recovery then 1 else 8

/-- A further session of this peer finds room: there is one free, or it replaces its own. -/
def State.sessionRoom (s : State) (mac : BitVec 48) : Bool :=
  s.gate.sessions.any (fun x => x.mac == mac) || decide (s.gate.sessions.length < s.sessionLimit)

/-- A record of the handshake: the session number, where one is given yet. -/
def State.handRecord (s : State) (code : Reason) (n : Option (BitVec 32)) : State :=
  s.record { unit := uSeq, clk := .reeve, code := code, sev := sevError, obj := n.getD noObj,
             detail := match n with | some n => det 41 4 n.toNat | none => 0 }

/-- The role of a key index for a peer at a MAC address. In recovery mode the owner key gives one CONTROL session. -/
def State.authKey (s : State) (key : Nat) (mac : BitVec 48) : Option Role :=
  if s.boot.phase == .recovery then (if key == 0 then some .control else none)
  else
    match s.gate.keys[key]? with
    | some k => if k.mac == mac then k.role else none
    | none => none

/-- The HELLO body: 1,604 bytes. -/
def helloBytes (h : Hello) : List Byte :=
  leBytes h.key.toNat 2 ++ leBytes h.rsv.toNat 2 ++ leBytes h.nonce.toNat 32 ++ leBytes h.ek.toNat 1568

/-- Bytes [1,603:0] of the ACCEPT body. -/
def acceptBytes (n : BitVec 32) (nonce : BitVec 256) (ct : BitVec 12544) : List Byte :=
  leBytes n.toNat 4 ++ leBytes nonce.toNat 32 ++ leBytes ct.toNat 1568

/-- HELLO: encapsulation to the peer's key, the nonce, and the device's signature over both bodies. -/
def execHello (h : Hello) (s : State) : Host.Outcome State Fault Refusal :=
  if !s.gateUp then .next s
  else
    let s := s.frameIn
    if (s.authKey h.key.toNat h.mac).isNone || h.rsv != 0 || !h.bodyOk || !headerOk h.hdr 0x10 1604 ||
        headerSession h.hdr != 0 then .next (s.handRecord cmdAuth none)
    else if !s.sessionRoom h.mac then .next (s.handRecord cmdSessionFull none)
    else if s.vault.st != .ready then .next s
    else
      let (nonce, s) := s.draw 256
      let (seed, s) := s.draw 256
      let n := s.gate.nextNum
      let kem := Config.encaps h.ek seed
      let a := acceptBytes n nonce kem.2
      let (sig, s) := (s.drbg 1).signed (sha3_512 (helloBytes h ++ a))
      let s := s.modGate fun g => { g with
        nextNum := n + 1
        hands := g.hands ++ [{ num := n, key := h.key.toNat, mac := h.mac, shared := kem.1
                               transcript := sha3_512 (helloBytes h ++ a ++ leBytes sig.toNat 4627) }] }
      .next (s.gateOut (.accept n nonce kem.2 sig))

/-- A session ends. -/
def State.endSession (s : State) (n : BitVec 32) : State :=
  s.modGate fun g => { g with sessions := g.sessions.filter fun x => x.num != n }

/-- The 88 bytes that both ends compute, first byte lowest. -/
def Handshake.keyBytes (h : Handshake) : Nat := shake256Nat 88 (leBytes h.shared.toNat 32 ++ leBytes h.transcript.toNat 64)

/-- The session of a finished handshake: keys of the peer's and of the module's association, then their salts. -/
def Handshake.session (h : Handshake) (role : Role) : Session :=
  let k := h.keyBytes
  { num := h.num, key := h.key, role := role, mac := h.mac,
    rxKey := BitVec.ofNat 256 k, txKey := BitVec.ofNat 256 (k >>> 256),
    rxSalt := BitVec.ofNat 96 (k >>> 512), txSalt := BitVec.ofNat 96 (k >>> 608) }

/-- FINISH, by its message header: `sigOk` is the Vault's verdict on its signature over the transcript by the authorised key
(log 12). -/
def execFinish (hdr : BitVec 256) (sigOk : Bool) (s : State) : Host.Outcome State Fault Refusal :=
  if !s.gateUp then .next s
  else
    let s := s.frameIn
    let session := headerSession hdr
    match s.gate.hands.find? fun h => h.num == session with
    | none => .next s
    | some h =>
      if s.vault.st != .ready then .next s
      else
        let s := s.modVault fun v => { v with verifies := (v.verifies + 1) % 2 ^ 32 }
        match s.authKey h.key h.mac with
        | none => .next (s.handRecord cmdAuth (some session))
        | some role =>
          if !sigOk || !headerOk hdr 0x12 4627 then .next (s.handRecord cmdAuth (some session))
          else if !s.sessionRoom h.mac then .next (s.handRecord cmdSessionFull (some session))
          else
            let s := s.modGate fun g => { g with
              hands := g.hands.filter fun x => x.num != session
              sessions := (g.sessions.filter fun x => x.mac != h.mac) ++ [h.session role] }
            .next (s.gateOutOn session (.reply { session := session, seq := 0, op := none, context := 0xFF, reason := 0 }))

/-- CLOSE; a message whose header is not one's has no effect (log 158). -/
def execClose (m : CloseMsg) (s : State) : Host.Outcome State Fault Refusal :=
  if !s.gateUp then .next s
  else .next (s.protectedIn (s.session m.session) m.pn fun s =>
    if headerOk m.hdr 0x13 0 && headerSession m.hdr == m.session then s.endSession m.session else s)

def execHandshakeTimeout (session : BitVec 32) (s : State) : Host.Outcome State Fault Refusal :=
  .next (s.modGate fun g => { g with hands := g.hands.filter fun h => h.num != session })

/-! ### Requests (R359, R360) -/

/-- What a command is aimed at. -/
inductive Aim where
  | context
  | module
  /-- a context, or the module with 0xFF -/
  | either
deriving DecidableEq, Repr

/-- A request is refused: one record, the reply, the count. `own`: another unit has written the record. -/
def State.turnAway (s : State) (k : CmdExec) (ctx : Option CtxId) (code : Reason) (own : Bool := false) : State :=
  let s := if own then s else s.seqRecord code sevError ctx (some k)
  ({ s with seqr := { s.seqr with refused := (s.seqr.refused + 1) % 2 ^ 32 } }).reply (k.answer code)

/-- The command of a session is still executing. -/
def State.executing (s : State) (n : BitVec 32) : Option CmdExec :=
  let mine (k : Option CmdExec) : Option CmdExec := match k with
    | some x => if x.session == n then some x else none
    | none => none
  match mine s.seqr.modCmd with
  | some k => some k
  | none => allCtx.findSome? fun c => mine (s.ctx c).cmd

/-- A role allows a command. -/
def roleAllows (r : Role) (op : CmdOp) : Bool :=
  match r with
  | .control => true
  | .monitor => op == .query || op == .telem || op == .attest
  | _ => false

/-- Commands that recovery mode executes (R449). -/
def recoveryAllows (op : CmdOp) : Bool :=
  op == .query || op == .telem || op == .attest || op == .fwStage || op == .fwCommit

/-- A request that has passed rows 1 to 7 is counted and begins. -/
def State.begin_ (s : State) : State :=
  { s with seqr := { s.seqr with executed := (s.seqr.executed + 1) % 2 ^ 32 } }

/-- The command that a request's OPCODE names: the row's, or one outside Table 12.4. -/
def opOf (r : ReqHdr) (op : CmdOp) : CmdOp := if r.opcode.toNat == opNum op then op else .other r.opcode

/-- A request of this row may name its command, or one outside Table 12.4; with another command's OPCODE it would be another
row's (log 20). -/
def ofRow (r : ReqHdr) (op : CmdOp) : Bool :=
  r.opcode.toNat == opNum op || r.opcode == 0 || decide (0x0D < r.opcode.toNat)

/-- Row 5: CONTEXT does not suit the command. -/
def aimBad (aim : Aim) (context : Byte) : Bool :=
  match aim with
  | .context => !decide (context.toNat < 16)
  | .module => context != 0xFF
  | .either => !decide (context.toNat < 16) && context != 0xFF

/-- Row 6: a command executes for the module, for context c, or for the session. RESET_CTX overtakes context c's. -/
def State.busyFor (s : State) (session : BitVec 32) (op : CmdOp) (c : Option CtxId) : Bool :=
  let other := c.bind fun c => (s.ctx c).cmd
  let own := s.executing session
  let overtakes := op == .resetCtx && other.isSome
  s.seqr.modCmd.isSome || (other.isSome && !overtakes) || (own.isSome && !(overtakes && own == other))

/-- A request that repeats the session's last: IN_PROGRESS while it executes, else the stored reply (R360). -/
def State.again (s : State) (x : Session) (r : ReqHdr) : State :=
  let stored (s : State) : State := match x.stored with
    | some y => s.gateOutOn x.num (.reply y)
    | none => s
  match s.executing x.num with
  | some e =>
    if e.seq == r.seq then
      s.gateOutOn x.num (.reply { session := x.num, seq := r.seq, op := some e.op, context := e.context, reason := 0,
                                  inProgress := true })
    else stored s
  | none => stored s

/-- Examine a request in the order of R359. `bodyOk` is the rest of row 1, `legal` row 7; `act` runs the command, its own
checks (row 8) among it. -/
def State.examine (s : State) (x : Session) (r : ReqHdr) (op : CmdOp) (aim : Aim) (bodyOk : Bool)
    (legal : State → CtxId → Bool) (act : State → CmdExec → Option CtxId → State) : State :=
  let op := opOf r op
  let k : CmdExec := ⟨r.session, r.seq, op, r.context⟩
  let c : Option CtxId := if r.context.toNat < 16 && aim != .module then some (BitVec.ofNat 4 r.context.toNat) else none
  let seen (s : State) : State := s.modSession r.session fun y => { y with begun := true, last := r.seq, stored := none }
  if !r.formatOk || (!bodyOk && op != .other r.opcode) then (seen s).turnAway k c cmdFormat
  else if op == .other r.opcode then (seen s).turnAway k c cmdOpcode
  else if x.begun && r.seq == x.last then s.again x r
  else if r.seq != (if x.begun then x.last + 1 else 1) then s.turnAway k c cmdSeq
  else
    let s := seen s
    if !roleAllows x.role op then s.turnAway k c cmdRole
    else if aimBad aim r.context then s.turnAway k c cmdContext
    else if s.busyFor r.session op c then s.turnAway k c cmdBusy
    else if (s.boot.phase == .recovery && !recoveryAllows op) || !legal s (c.getD 0) then s.turnAway k c cmdState
    else act s k c

/-- A request arrives. -/
def State.request (s : State) (r : ReqHdr) (op : CmdOp) (aim : Aim) (bodyOk : Bool) (legal : State → CtxId → Bool)
    (act : State → CmdExec → Option CtxId → State) : Host.Outcome State Fault Refusal :=
  if !s.gateUp || !ofRow r op then .next s
  else .next (s.protectedIn (s.session r.session) r.pn fun s =>
    match s.session r.session with
    | some x => s.examine x r op aim bodyOk legal act
    | none => s)

/-- A command that completes at once. -/
def State.answered (s : State) (k : CmdExec) (body : Body := .none) : State := s.begin_.reply (k.answer 0 body)

/-! ### QUERY (Table 12.6) -/

def always (_ : State) (_ : CtxId) : Bool := true

def execQueryContext (r : ReqHdr) (s : State) : Host.Outcome State Fault Refusal :=
  s.request r .query .context true always fun s k c =>
    let c := c.getD 0
    let x := s.ctx c
    s.answered k (.context (s.ctxWord c) ((s.quadsOf c).map (BitVec.ofNat 9)) x.gen x.restored)

/-- Up to n held records from an index on, and the index of the first. -/
def State.heldFrom (s : State) (first n : Nat) : Nat × List EventRec :=
  let l := (s.log.held.filter fun e => decide (first ≤ e.1)).take n
  ((match l with | e :: _ => e.1 | [] => s.log.next), l.map (·.2))

def execQueryEvents (r : ReqHdr) (first : Word) (count : Nat) (s : State) : Host.Outcome State Fault Refusal :=
  s.request r .query .either (decide (1 ≤ count) && decide (count ≤ 128)) always fun s k _ =>
    let (i, l) := s.heldFrom first.toNat count
    s.answered k (.events i l)

/-- The Reeve reads a register; an address with no register is refused with MEM_REG. -/
def execQueryRegister (r : ReqHdr) (addr : Word) (s : State) : Host.Outcome State Fault Refusal :=
  s.request r .query .either true always fun s k c =>
    let off := addr.toNat - 0xF000000000
    let b := off / 0x10000
    let o := off % 0x10000
    match (if 0xF000000000 ≤ addr.toNat && addr.toNat < 0xF100000000 && o % 8 == 0 then s.regRead b o else none) with
    | some v => (s.afterRead b o).answered k (.words [v])
    | none => s.turnAway k c memReg

def execQueryDigest (r : ReqHdr) (ring : Byte) (bucket : BitVec 16) (step : BitVec 32) (s : State) :
    Host.Outcome State Fault Refusal :=
  s.request r .query .context true always fun s k c =>
    let found := s.digEntry (c.getD 0) ring.toNat bucket step
    let s := s.digRead (c.getD 0) ring.toNat bucket step
    match found with
    | some d => s.answered k (.digest d.sent d.recv d.roll)
    | none => s.answered k (.digest 0 0 [])

def execQueryFeed (r : ReqHdr) (s : State) : Host.Outcome State Fault Refusal :=
  s.request r .query .context true always fun s k c =>
    s.answered k (.words ((List.range 7).map fun i => (s.readFeed (c.getD 0) (8 * i)).getD 0))

def execQueryRing (r : ReqHdr) (ring : Byte) (s : State) : Host.Outcome State Fault Refusal :=
  s.request r .query .context true always fun s k c =>
    match (s.ctx (c.getD 0)).rings[ring.toNat]? with
    | some g => s.answered k (.ring g.cfg.nrow g.cfg.ncol g.cfg.members)
    | none => s.answered k (.ring 0 0 [])

/-! ### TELEM and event messages (Table 12.7, R369, R487) -/

/-- The telemetry set (Table 16.9). -/
def State.telemetry (s : State) : List Byte :=
  let p := s.pwr
  let rd (off : Nat) : Word := (s.readReeve off).getD 0
  let rail (r off : Nat) : List Byte := leBytes (getF (rd (0x100 + 8 * r)) off 16) 2
  let temp (i : Nat) : List Byte := leBytes (getF (rd (0x200 + 8 * i)) 0 16) 2
  leBytes p.stamp 8 ++ leBytes (p.samples % 2 ^ 32) 4 ++ leBytes (getF (rd 0x20) 0 32) 4 ++ leBytes p.policy.pcap 2 ++
  leBytes (getF (rd 0x20) 32 16) 2 ++
  [BitVec.ofNat 8 p.lp, BitVec.ofNat 8 (b2n p.capFloor + 2 * b2n p.inputOut + 4 * b2n (!p.failT.isEmpty || !p.failR.isEmpty)), 0, 0] ++
  ((List.range 8).map fun d => BitVec.ofNat 8 (s.dieClk d).level) ++ ((List.range 10).flatMap temp) ++
  leBytes (getF (rd 0x250) 0 32) 4 ++ leBytes 0 8 ++ ((List.range 24).flatMap fun r => rail r 0) ++
  ((List.range 24).flatMap fun r => rail r 16) ++
  ((List.range 16).map fun q => BitVec.ofNat 8 ((s.port q).txWidth + 16 * (s.port q).rxWidth)) ++
  leBytes (getF s.gatedWord 0 12) 2 ++ leBytes (getF s.gatedWord 12 9) 2 ++ leBytes 0 12

def execTelemSet (r : ReqHdr) (s : State) : Host.Outcome State Fault Refusal :=
  s.request r .telem .module true always fun s k _ => s.answered k (.bytes s.telemetry)

def execTelemPeriodic (r : ReqHdr) (periodUs : Nat) (s : State) : Host.Outcome State Fault Refusal :=
  s.request r .telem .module (decide (1000 ≤ periodUs) && decide (periodUs < 2 ^ 32)) always fun s k _ =>
    (s.modSession k.session fun x => { x with period := some periodUs }).answered k

def execTelemSubscribe (r : ReqHdr) (minSeverity : Byte) (s : State) : Host.Outcome State Fault Refusal :=
  s.request r .telem .module (decide (minSeverity.toNat ≤ 5)) always fun s k _ =>
    (s.modSession k.session fun x => { x with minSev := some minSeverity }).answered k

def execTelemCancel (r : ReqHdr) (what : Byte) (s : State) : Host.Outcome State Fault Refusal :=
  s.request r .telem .module (what == 2 || what == 3) always fun s k _ =>
    (s.modSession k.session fun x =>
      if what == 2 then { x with period := none } else { x with minSev := none, waiting := [] }).answered k

def execTelemPeriodExpiry (session : BitVec 32) (s : State) : Host.Outcome State Fault Refusal :=
  match s.gate.sessions.find? fun x => x.num == session && x.period.isSome with
  | none => .next s
  | some _ =>
    let r : Reply := { session := session, seq := 0, op := some .telem, context := 0xFF, reason := 0, body := .bytes s.telemetry }
    .next (s.gateOutOn session (.reply r))

/-- 128 records wait, or 1 ms has passed since the oldest: an event message. -/
def execEventFlush (session : BitVec 32) (s : State) : Host.Outcome State Fault Refusal :=
  match s.gate.sessions.find? fun x => x.num == session && !x.waiting.isEmpty with
  | none => .next s
  | some x =>
    let now := x.waiting.take 128
    let recs := now.filterMap fun i => (s.log.held.find? fun e => e.1 == i).map (·.2)
    let s := s.modSession session fun y => { y with waiting := y.waiting.drop 128 }
    .next (s.gateOutOn session (.events session (now.headD 0) recs))

/-! ### Headers of what the module sends (R358) -/

/-- Bytes of a reply's body, where the manual lays it out. -/
def Body.size : Body → Option Nat
  | .none => Option.some 0
  | .bytes b => some b.length
  | .words w => some (8 * w.length)
  | .events _ l => some (16 + 64 * l.length)
  | .context _ _ _ _ | .digest _ _ _ | .ring _ _ _ => Option.none

/-- The 32 bytes of a message that leaves by the Gate; none for what is no message of Table 12.3, or has a body with no
layout. -/
def Out.header : Out → Option (BitVec 256)
  | .reply r => r.body.size.map fun n =>
      headerOf 0x02 (match r.op with | some op => BitVec.ofNat 8 (opNum op) | none => 0) r.context r.session r.seq r.reason
        (BitVec.ofNat 8 (2 * b2n r.inProgress)) 0 (BitVec.ofNat 32 n)
  | .events n _ l => some (headerOf 0x03 0 0xFF n 0 0 0 0 (BitVec.ofNat 32 (16 + 64 * l.length)))
  | .accept n _ _ _ => some (headerOf 0x11 0 0xFF n 0 0 0 0 6231)
  | .feedReq c n _ _ _ _ _ => some (headerOf 0x20 0 (c.setWidth 8) n 0 0 0 0 22)
  | _ => none

end Sys2Proof.Machine
end

