-- ==== Sys2Proof/Machine/Commands.lean ====
section
/-!
DEFINITION. Commands to contexts, their completion, and HALT (12_gate_and_commands.md, R361 to R367; R65, R407).
-/

namespace Sys2Proof.Machine

/-- The context is in one of some states. -/
def inState (l : List CtxState) (s : State) (c : CtxId) : Bool := l.contains (s.ctx c).st

/-- A command for a context is counted and executes. -/
def State.take_ (s : State) (c : CtxId) (k : CmdExec) : State := s.begin_.modCtx c fun x => { x with cmd := some k }

/-! ### LOAD (R361, R362) -/

/-- The Vault is in ERROR, or an image does not verify (R441, R461). -/
def State.secErr (s : State) (h : ImgHdr) (kind : Byte) (sigOk : Bool) : Option Reason :=
  if s.vault.st == .error then some s.vault.reason else s.verifyErr h kind sigOk

/-- The Vault has made a verification. -/
def State.verified (s : State) : State := s.modVault fun v => { v with verifies := (v.verifies + 1) % 2 ^ 32 }

/-- A chunk continues a pending transfer: contiguous from offset 0, from one session. -/
def chunkOk (p : Option (BitVec 32 × Nat)) (session : BitVec 32) (offset : Nat) : Bool :=
  match p with
  | none => offset == 0
  | some (n, got) => n == session && offset == got

def execLoad (r : ReqHdr) (offset length : Nat) (image : CtxImage) (s : State) : Host.Outcome State Fault Refusal :=
  s.request r .load .context (decide (length ≤ 9078)) (inState [.empty]) fun s k c =>
    let c := c.getD 0
    if !chunkOk (s.ctx c).load k.session offset then s.turnAway k (some c) cmdChunk
    else if !r.final then (s.modCtx c fun x => { x with load := some (k.session, offset + length) }).answered k
    else
      let drop (s : State) : State := s.modCtx c fun x => { x with load := none }
      match s.secErr image.hdr 3 image.hdr.sigOk with
      | some code =>
        let s := if s.vault.st == .error then s else s.verified
        ((drop s).secRecord code (secSev code) (some c) (some 3) 0xFF image.hdr.svn 0x02).turnAway k (some c) code true
      | none =>
        let s := s.verified
        match (match formatErr image.hdr 3 (some (offset + length)) with | some e => some e | none => s.ctxErr c image) with
        | some e => ((drop s).cfgRecord e 0x02 (some c)).turnAway k (some c) e.code true
        | none => (((s.take_ c k).loadCtx c image).setCtxState c .loaded (some k)).endCmd c 0

/-! ### START (R65, R365, R427) -/

/-- SNAP_CTL.SCHED is set: rows 3 and 5 of Table 13.7 (R383). -/
def State.schedEnable (s : State) (c : CtxId) : State :=
  if (s.ctx c).snap.sched then s
  else
    match (s.ctx c).img with
    | none => s
    | some img =>
      match img.snap with
      | none => s
      | some x =>
        let t := 0x0208
        let bell := errIf (!syncGranted img.sync true x.stepBell || !syncCounting img.sync x.captureTally ||
          !syncCounting img.sync x.commitTally) ⟨0x0123, whole, 0, t⟩
        match firstErr [(s.boot.mod.bind (·.snap)).bind (pairErr s.boot.ownFeed), bell] with
        | some e => s.cfgRecord e 0x05 (some c)
        | none => s.modSnap c fun y => { y with sched := true }

def execSnapSchedEnable (c : CtxId) (s : State) : Host.Outcome State Fault Refusal := .next (s.schedEnable c)

/-- JOIN to the live members of this module's shards (R427). -/
def State.sendJoins (s : State) (c : CtxId) (img : CtxImage) : State :=
  let me := s.fab.module
  let rs := (s.ctx c).rings.zipIdx
  let s := rs.foldl (fun s e =>
    match (e.1.members.find? fun m => m.module == me) with
    | none => s
    | some x =>
      s.sendAll ((e.1.members.filter fun m => m.shard == x.shard && m.module != me).map (·.module)) fun s m =>
        s.mkPkt m c c 0 uRst 0 (.join (BitVec.ofNat 3 e.2) x.shard (layoutOf img) (s.ctx c).snap.leaves)) s
  s.modCtxRst c fun r => { r with fill := .joinSent }

def execStart (r : ReqHdr) (s : State) : Host.Outcome State Fault Refusal :=
  s.request r .start .context true (inState [.loaded]) fun s k c =>
    let c := c.getD 0
    match (s.ctx c).img with
    | none => s.turnAway k (some c) cmdState
    | some img =>
      let restored := (s.ctx c).restored
      let s := ((s.take_ c k).setCtxState c .running (some k)).endCmd c 0
      let period := match img.snap with | some x => x.period | none => 0
      let s := if period == 0 then s else s.schedEnable c
      if joinsImg img then
        -- every thread is HALTED until the join ends (R427)
        ((s.threadsOf c).foldl (fun s th => s.modThr th fun t => { t with st := .halted, why := .none }) s).sendJoins c img
      else s.startWork c img restored

/-! ### PAUSE, RESUME (R62, R243, R363) -/

def execPause (r : ReqHdr) (s : State) : Host.Outcome State Fault Refusal :=
  s.request r .pause .context true (inState [.running]) fun s k c =>
    let c := c.getD 0
    let s := s.take_ c k
    if (s.ctx c).snap.phase == .quiescing then s else s.pauseOrders c

/-- Every thread is PAUSED or HALTED, and no channel of the context runs or waits. -/
def State.allPaused (s : State) (c : CtxId) : Bool :=
  ((s.threadsOf c).all fun th => (s.thr th).st == .paused || (s.thr th).st == .halted) &&
    (s.quadsOf c).all fun q => (s.engine q).chans.all fun x => x.2.st != .running && x.2.st != .waiting

def execPauseDone (c : CtxId) (s : State) : Host.Outcome State Fault Refusal :=
  match (s.ctx c).cmd with
  | some k =>
    if k.op == .pause && (s.ctx c).st == .running && (s.ctx c).snap.phase != .quiescing && s.allPaused c then
      .next ((s.setCtxState c .paused (some k)).endCmd c 0)
    else .next s
  | none => .next s

def execResume (r : ReqHdr) (s : State) : Host.Outcome State Fault Refusal :=
  s.request r .resume .context true (inState [.paused]) fun s k c =>
    let c := c.getD 0
    let s := ((s.take_ c k).setCtxState c .running (some k)).endCmd c 0
    let s := (s.coresOf c).foldl (fun s g => s.ungate g) s
    let s := (s.threadsOf c).foldl (fun s th =>
      if (s.thr th).st == .paused then (s.modThr th fun t => { t with st := .ready, pauseReq := false }).fetchHere th else s) s
    let s := s.eachChan c fun s q ch => s.strmResumeChan q ch
    (s.modFeed c fun f => if f.st == .paused then { f with st := .active } else f)

/-! ### STOP, the last HALT, DRAINING (R364) -/

def execStop (r : ReqHdr) (s : State) : Host.Outcome State Fault Refusal :=
  s.request r .stop .context true (inState [.running, .paused]) fun s k c =>
    let c := c.getD 0
    ((s.take_ c k).setCtxState c .draining (some k)).drainOrders c

/-- Nothing of the context is at work. -/
def State.drained (s : State) (c : CtxId) : Bool :=
  ((s.threadsOf c).all fun th => (s.thr th).st == .halted && !(s.thr th).flying && (s.thr th).posted.isEmpty) &&
    ((s.quadsOf c).all fun q => (s.engine q).chans.all fun x => x.2.st == .idle || x.2.st == .faulted) &&
    ((List.range 8).all fun e => (s.redEng e).slots.all fun b => b.2.ctx != c) &&
    (s.fab.puts.all fun p => p.ctx != c) && !(s.ctx c).snap.busy

def execDrainDone (c : CtxId) (s : State) : Host.Outcome State Fault Refusal :=
  match (s.ctx c).img with
  | none => .next s
  | some img =>
    if (s.ctx c).st != .draining || (s.ctx c).rst.purge.isSome || !s.drained c then .next s
    else
      let k := (s.ctx c).cmd
      let s := (s.place img).modFeed c fun f => feedLoaded f img.feed
      if (s.ctx c).rst.purgeWaits then
        -- RESET_CTX still waits for RST_GEN_GAP: it is overtaken (Table 12.8)
        .next (((s.modCtxRst c fun r => { r with purgeWaits := false }).supersede c (some .loaded)).setCtxState c .loaded none)
      else .next ((s.setCtxState c .loaded k).endCmd c 0)

/-- HALT: the thread stays HALTED. When it is the context's last, the context drains (R65, R363), which a RESET_CTX that waits
for RST_GEN_GAP does not outlast (Table 12.8); an earlier store's error
that it still holds faults the context (R58). -/
def State.haltThread (s : State) (th : ThreadId) : State :=
  let s := (s.modThr th fun t => { t with
    pc := t.pc + 4, csr := { t.csr with instret := t.csr.instret + 1 } }).enterHalted th
  match s.thCtx th with
  | none => s
  | some c =>
    if (s.ctx c).st == .running && (s.threadsOf c).all fun x => (s.thr x).st == .halted then
      (((s.modCtxRst c fun r => { r with purgeWaits := false }).supersede c (some .draining)).setCtxState c .draining none).drainOrders c
    else s

def execHalt (th : ThreadId) (rd rs1 rs2 : Reg) (s : State) : Host.Outcome State Fault Refusal :=
  systemInstr th 2 false rd rs1 rs2 (fun s => if (s.thr th).flying then s.stall th .retire else s.haltThread th) s

/-! ### RESET_CTX (R409, R411) -/

def execResetCtx (r : ReqHdr) (s : State) : Host.Outcome State Fault Refusal :=
  s.request r .resetCtx .context true (fun s c => (s.ctx c).st != .empty || (s.ctx c).load.isSome) fun s k c =>
    let c := c.getD 0
    let s := (s.supersede c).take_ c k
    let x := s.ctx c
    if x.st == .empty then (s.modCtx c fun y => { y with load := none }).endCmd c 0
    else if x.rst.purge.isSome || x.rst.purgeWaits then s
    else if x.st == .faulted then (s.release c (some k)).endCmd c 0
    else s.purge c true

/-! ### Timeouts of commands and transfers (R362, R366, R407) -/

/-- The unit that a command of context c still waits on. -/
def State.waitsOn (s : State) (c : CtxId) (op : CmdOp) : Option UnitId :=
  let thread := (s.threadsOf c).find? fun th => (s.thr th).st != .paused && (s.thr th).st != .halted
  let quad := (s.quadsOf c).find? fun q => (s.engine q).chans.any fun x =>
    x.2.st == .running || x.2.st == .waiting || x.2.st == .draining
  match op with
  | .pause => match thread, quad with
    | some th, _ => some (uCore (thCore th))
    | none, some q => some (uQuad q)
    | none, none => none
  | .stop =>
    match thread, quad, (List.range 8).find? (fun e => (s.redEng e).slots.any fun b => b.2.ctx == c) with
    | some th, _, _ => some (uCore (thCore th))
    | none, some q, _ => some (uQuad q)
    | none, none, some e => some (uRed e)
    | none, none, none => if s.fab.puts.any (fun p => p.ctx == c) then some uFab else some (uHarvest 0)
  | .resetCtx => (s.ctx c).rst.purge.bind fun p => p.units.head?
  | .snap => some (uHarvest 0)
  | .restore => some (uHarvest 0)
  | _ => none

def rstCmdHang : Reason := 0x0B09

def execCmdTimeout (target : Option CtxId) (s : State) : Host.Outcome State Fault Refusal :=
  match target with
  | none =>
    match s.seqr.modCmd with
    | none => .next s
    | some k =>
      -- FW_COMMIT, which waits on the boot unit's journal (log 150)
      let s := s.seqRecord cmdTimeout sevError none (some k)
      .next (({ s with seqr := { s.seqr with modCmd := none } }.reply (k.answer cmdTimeout)).probe uBoot)
  | some c =>
    match (s.ctx c).cmd with
    | none => .next s
    | some k =>
      let u := s.waitsOn c k.op
      let s := (s.seqRecord cmdTimeout sevError (some c) (some k)).endCmd c cmdTimeout
      let s := s.rstRecord rstCmdHang sevCtxFatal (some c) (match u with | some u => u.toNat | none => (uCtxRst c).toNat)
      let s := s.ctxFault c rstCmdHang
      .next (match u with | some u => s.probe u | none => s)

/-- 10 s without a chunk: a pending load or stage is discarded. -/
def execCmdLoadIdle (target : Option CtxId) (s : State) : Host.Outcome State Fault Refusal :=
  match target with
  | some c =>
    match (s.ctx c).load with
    | none => .next s
    | some (n, _) =>
      .next ((s.modCtx c fun x => { x with load := none }).seqRecord cmdLoadIdle sevNotice (some c) (some ⟨n, 0, .load, c.setWidth 8⟩))
  | none =>
    match s.boot.stage with
    | none => .next s
    | some (n, _) =>
      .next ((s.modBoot fun b => { b with stage := none }).seqRecord cmdLoadIdle sevNotice none (some ⟨n, 0, .fwStage, 0xFF⟩))

end Sys2Proof.Machine
end

