-- ==== Sys2Proof/Machine/Harvest.lean ====
section
/-!
DEFINITION. Harvest (13_harvest_snapshots.md): taking a snapshot, hosting the partner's copies, external copies,
restores, pairing, and the blocks of a join (R384 to R400, R428).
-/

namespace Sys2Proof.Machine

def snapQuiesceCode : Reason := 0x0801
def snapRace : Reason := 0x0802
def snapSpace : Reason := 0x0803
def snapDigestCode : Reason := 0x0805
def snapNoCopy : Reason := 0x0806
def snapSignature : Reason := 0x0807
def snapTimeoutCode : Reason := 0x0808
def snapMismatch : Reason := 0x0809
def snapCommitCode : Reason := 0x080A
def snapExternal : Reason := 0x080C
def snapEcc : Reason := 0x080E
def snapPairCode : Reason := 0x080F

/-- No block. -/
def noBlock : BitVec 32 := 0xFFFFFFFF

def kData : Byte := 0x01
def kDigest : Byte := 0x02
def kManifest : Byte := 0x03
def kAck : Byte := 0x04
def kAgain : Byte := 0x05
def kFetch : Byte := 0x06
def kCatalogue : Byte := 0x07

/-! ### Packets (R390, Table 13.8) -/

/-- A snapshot packet about block i, from instance i mod 2, with flow label i mod 4. -/
def State.snapSend (s : State) (dest : ModuleNo) (kind : Byte) (c : CtxId) (client : ModuleNo) (round block : BitVec 32)
    (off : Nat := 0) (data : List Byte := []) : State :=
  let i := block.toNat
  s.sendPkt (s.mkPkt dest c c (BitVec.ofNat 16 (i % 4)) (uHarvest (i % 2)) 0 (.snap ⟨kind, c, client, round, block, off⟩ data))

/-- A block: 1,024 data packets, then its digest. -/
def State.snapBlock (s : State) (dest : ModuleNo) (c : CtxId) (client : ModuleNo) (round : BitVec 32) (i : Nat)
    (data : List Byte) : State :=
  let b := BitVec.ofNat 32 i
  let s := (List.range 1024).foldl (fun s j =>
    s.snapSend dest kData c client round b (4096 * j) ((data.drop (4096 * j)).take 4096)) s
  let s := s.modHarv fun h => { h with inst := smod {} (i % 2) (fun x => { x with bytes := x.bytes + blockBytes }) h.inst }
  s.snapSend dest kDigest c client round b 0 (leBytes (sha3_512 data).toNat 64)

/-- The STORE session. -/
def State.storeSession (s : State) : Option Session := s.gate.sessions.find? fun x => x.role == .store

/-- A message to the STORE session, if one is open. -/
def State.storeOut (s : State) (o : Out) : State :=
  match s.storeSession with
  | some x => s.gateOutOn x.num o
  | none => s

/-! ### Taking a snapshot -/

/-- The snapshot section of a context. -/
def State.snapSec (s : State) (c : CtxId) : Option (CtxImage × SnapSection) :=
  (s.ctx c).img.bind fun img => img.snap.map fun x => (img, x)

/-- SNAP (R384): it joins the round in hand, waits for its round, or is taken at once. -/
def execSnap (r : ReqHdr) (round : BitVec 32) (external : Bool) (s : State) : Host.Outcome State Fault Refusal :=
  s.request r .snap .context true (inState [.running, .paused]) fun s k c =>
    let c := c.getD 0
    match s.snapSec c with
    | none => s.turnAway k (some c) cmdState
    | some (_, sec) =>
      let x := (s.ctx c).snap
      let s := s.take_ c k
      let next := round == 0xFFFFFFFF
      if (s.ctx c).st == .paused && next then
        let now := (s.bell sec.stepBell).done
        if x.busy then (s.snapRecord c snapSkipped sevNotice now).endCmd c snapSkipped
        else if s.partnerUp c || sec.extEvery != 0 then
          (s.modSnap c fun y => { y with req := some (none, external) }).snapBegin c now true
        else (s.snapRecord c snapPartner sevError now).endCmd c snapPartner
      else
        s.modSnap c fun y => { y with
          req := some (if next then none else some round, external)
          external := y.external || (external && y.busy && y.round == round) }

/-- What R385 waits for. A PAUSED context's threads and channels stand where the pause left them; a FAULTED channel is never
saved (R243). -/
def State.snapQuiet (s : State) (c : CtxId) (sec : SnapSection) : Bool :=
  let x := (s.ctx c).snap
  let waits (th : ThreadId) : Bool :=
    (s.thr th).st == .waitSync && (s.bell sec.stepBell).q.any fun w => w.src == Src.thread th && w.n == x.round.toNat
  ((s.threadsOf c).all fun th =>
    ((s.thr th).st == .halted || (x.flagPaused && (s.thr th).st == .paused) || waits th) && (s.thr th).posted.isEmpty) &&
  ((s.quadsOf c).all fun q => (s.engine q).chans.all fun h =>
    h.2.st == .idle || h.2.st == .waiting || (x.flagPaused && h.2.st == .paused)) &&
  ((List.range 8).all fun e => (s.redEng e).slots.all fun b => b.2.ctx != c) && s.fab.puts.all fun p => p.ctx != c

/-- Blocks of the changed set (R387). -/
def State.changedSet (s : State) (c : CtxId) (img : CtxImage) : List Nat :=
  let x := (s.ctx c).snap
  (List.range (snapN img)).filter fun i =>
    match blockLoc img i with
    | none => true
    | some l => x.direct || x.parent.isNone || decide (x.leaves.length ≤ i) || s.written.contains (l / blockBytes)

/-- Blocks that a join sends (R428): the state, and each area block whose digest is not the one restored. -/
def State.joinSet (s : State) (c : CtxId) (img : CtxImage) : List Nat :=
  let x := (s.ctx c).snap
  (List.range (snapN img)).filter fun i =>
    match blockLoc img i with
    | none => true
    | some l => x.joinLeaves[i]? != some (sha3_512 (s.peek l blockBytes))

/-- Capture (R386, R387): the state, the changed set, the release of the round. A join keeps the round held. How many slots
of the partner's range are free is not known here: a free value, of the slots that the partner has reported at most (R394,
log 72). -/
def execSnapQuiesceDone (c : CtxId) (s : State) : Host.Outcome State Fault Refusal :=
  match s.snapSec c with
  | none => .next s
  | some (img, sec) =>
    let x := (s.ctx c).snap
    if x.phase != .quiescing || !s.snapQuiet c sec then .next s
    else if x.join.isSome then
      let set := s.joinSet c img
      let cells := captured s (s.letRound sec.stepBell) c img
      .next (s.modSnap c fun y => { y with phase := .data, set := set, toSend := set, cells := cells })
    else
      let set := s.changedSet c img
      let s := s.modSnap c fun y => { y with phase := .state, set := set }
      let (space, s) := if x.direct then (BitVec.ofNat 20 0, s) else s.draw 20
      if !x.direct && decide (min space.toNat x.hostSlots < set.length) then .next (s.snapAbandon c snapSpace sevError)
      else
        let after := s.unholdRound sec.stepBell
        let cells := captured s after c img
        let area := set.filter fun i => decide (stateBlocks img ≤ i)
        let bits := (area.filterMap (blockLoc img)).map (· / blockBytes)
        let after := after.modSnap c fun y => { y with
          phase := .data, cells := cells, toSend := set, maxSet := if y.parent.isSome then max y.maxSet set.length else y.maxSet
          toStage := if sec.stageLen == 0 then [] else area }
        .next ({ after with written := after.written.filter fun b => !bits.contains b }.latePause c)

/-- QUIESCE cycles have passed. -/
def execSnapQuiesce (c : CtxId) (s : State) : Host.Outcome State Fault Refusal :=
  if (s.ctx c).snap.phase == .quiescing then .next (s.snapAbandon c snapQuiesceCode sevError) else .next s

/-- Where block i of the changed set is read from once staged: the stage holds the changed area blocks one after
another (R389). -/
def stageLoc (img : CtxImage) (sec : SnapSection) (set : List Nat) (i : Nat) : Nat :=
  granLoc (sec.stageBase + (set.filter fun j => decide (stateBlocks img ≤ j) && decide (j < i)).length * blockBytes)

/-- A block is read, from its area or the stage; one that is written meanwhile, or that has an uncorrectable error,
abandons the snapshot (R388, Table 13.11). A join reads while the round is held. -/
def State.readBlock (s : State) (c : CtxId) (img : CtxImage) (sec : SnapSection) (staged : Bool) (i : Nat) :
    Sum (List Byte) State :=
  let x := (s.ctx c).snap
  match blockLoc img i with
  | none => .inl (s.blockData c img i)
  | some a =>
    let l := if staged then stageLoc img sec x.set i else a
    if x.join.isNone && s.written.contains (l / blockBytes) then .inr (s.snapAbandon c snapRace sevError i)
    else if s.poisonIn l blockBytes then
      .inr ((s.eccRecord l l (uHarvest (i % 2)) (some c) none).snapAbandon c snapEcc sevError i)
    else .inl (s.peek l blockBytes)

/-- What reading block i does at the units that hold it: an area block is read through its homes (R387). -/
def State.blockVia (s : State) (c : CtxId) (img : CtxImage) (sec : SnapSection) (staged : Bool) (i : Nat) : State :=
  match blockLoc img i with
  | none => s
  | some a => s.readVia (if staged then stageLoc img sec (s.ctx c).snap.set i else a) blockBytes

/-- Where the blocks of the snapshot in hand go: to the module that a join fills, or to the partner. -/
def State.snapDest (s : State) (c : CtxId) : ModuleNo := ((s.ctx c).snap.join).getD s.harv.partner

/-- The module whose copy they are. -/
def State.snapClient (s : State) (c : CtxId) : ModuleNo := ((s.ctx c).snap.join).getD s.fab.module

/-- Read block i and send it, to the partner or to the store. What the partner has not acknowledged is kept: once a block
has been read its area may be written (R388). -/
def State.sendBlock (s : State) (c : CtxId) (img : CtxImage) (sec : SnapSection) (i : Nat) : State :=
  let x := (s.ctx c).snap
  let staged := x.join.isNone && sec.stageLen != 0
  match s.readBlock c img sec staged i with
  | .inr s => s
  | .inl data =>
    let toStore := x.direct && x.join.isNone
    let s := (s.blockVia c img sec staged i).modSnap c fun y => { y with
      digests := sset i (sha3_512 data) y.digests, toSend := y.toSend.filter fun j => j != i
      unacked := if toStore then y.unacked else (y.unacked.filter fun j => j != i) ++ [i]
      kept := if toStore then y.kept else memWrite (i * blockBytes) data y.kept }
    if toStore then s.storeOut (.storeBlock c x.round i data)
    else s.snapBlock (s.snapDest c) c (s.snapClient c) x.round i data

/-- Block i, which is kept, is sent again (R390, Table 13.11). -/
def State.resendBlock (s : State) (c : CtxId) (i : Nat) : State :=
  let x := (s.ctx c).snap
  s.snapBlock (s.snapDest c) c (s.snapClient c) x.round i (x.keptBlock i)

/-- Every changed block is acknowledged: the tree, the manifest, and the Vault's order to sign it (R382, R390). -/
def State.buildManifest (s : State) (c : CtxId) (img : CtxImage) : State :=
  let x := (s.ctx c).snap
  if x.phase != .data || x.join.isSome || !x.toStage.isEmpty || !x.toSend.isEmpty || !x.unacked.isEmpty ||
      x.signing.isSome || x.manifest.isSome then s
  else if s.vault.st == .error then s.snapAbandon c snapAbandonCode sevNotice
  else
    let n := snapN img
    let leaves := (List.range n).map fun i => ((x.digests.find? fun e => e.1 == i).map (·.2)).getD ((x.leaves[i]?).getD 0)
    let m : Manifest :=
      { layout := layoutOf img, root := rootOf leaves, signer := vaultId, module := s.fab.module, context := c,
        round := x.round, parent := if x.set.length == n then none else x.parent, paused := x.flagPaused, sig := 0,
        sigOk := false, key := 0, leaves := leaves }
    s.modSnap c fun y => { y with signing := some m }

/-- Harvest reads the next changed block: into the stage, or to its destination (R387, R389, R390). -/
def execSnapBlockRead (c : CtxId) (s : State) : Host.Outcome State Fault Refusal :=
  match s.snapSec c with
  | none => .next s
  | some (img, sec) =>
    let x := (s.ctx c).snap
    if x.phase != .data then .next s
    else
      match x.toStage with
      | i :: rest =>
        match s.readBlock c img sec false i with
        | .inr s => .next s
        | .inl data =>
          let l := stageLoc img sec x.set i
          let s := ((s.blockVia c img sec false i).pokeVia l data).modSnap c fun y => { y with toStage := rest }
          .next { s with written := s.written.filter fun b => b != l / blockBytes }
      | [] =>
        match x.toSend with
        | [] => .next s
        | i :: rest =>
          if sec.stageLen != 0 && x.join.isNone && !x.staged then .next s
          else
            let s := s.sendBlock c img sec i
            if (s.ctx c).snap.phase != .data then .next s
            else
              let s := if rest.isEmpty && x.join.isNone && sec.stageLen == 0 then s.hubSignal c sec.captureTally else s
              .next (s.buildManifest c img)

/-- Every changed area block is in the stage: CAPTURE_TALLY. -/
def execSnapStageDone (c : CtxId) (s : State) : Host.Outcome State Fault Refusal :=
  match s.snapSec c with
  | none => .next s
  | some (_, sec) =>
    let x := (s.ctx c).snap
    if x.phase != .data || x.join.isSome || sec.stageLen == 0 || !x.toStage.isEmpty || x.staged then .next s
    else .next ((s.modSnap c fun y => { y with staged := true }).hubSignal c sec.captureTally)

/-- The Vault has signed SHA3-512 of the manifest: it goes, with the signature and the key, to the partner or to the store. -/
def execVaultSignDone (c : CtxId) (s : State) : Host.Outcome State Fault Refusal :=
  let x := (s.ctx c).snap
  match x.signing with
  | none => .next s
  | some m =>
    if s.vault.st == .error then .next (s.snapAbandon c snapAbandonCode sevNotice)
    else
      let (sig, s) := s.signed (sha3_512 (manifestBytes m))
      let m := signedManifest m sig
      let s := s.modSnap c fun y => { y with signing := none, manifest := some m }
      if x.direct then .next (s.storeOut (.storeManifest c m))
      else
        .next (s.sendPkt (s.mkPkt s.harv.partner c c 3 (uHarvest 1) 0
          (.snapManifest ⟨kManifest, c, s.fab.module, m.round, noBlock, 0⟩ m)))

/-- The copy that has waited longest is due, when none runs (R396). -/
def State.nextCopy (s : State) (c : CtxId) : State :=
  s.modSnap c fun y => match y.ext, y.extQ with
    | none, m :: rest => { y with ext := some (m, 0), extQ := rest }
    | _, _ => y

/-- The manifest has been acknowledged: the snapshot is committed, and its catalogue entry is journalled (R390). An external copy
that runs goes on; one that is due waits for it. -/
def State.snapCommitted (s : State) (c : CtxId) : State :=
  let x := (s.ctx c).snap
  match x.manifest, s.snapSec c with
  | some m, some (_, sec) =>
    if x.phase != .data then s
    else
      let n := x.commits + 1
      let due := x.external || (sec.extEvery != 0 && n % sec.extEvery == 0)
      let s := s.snapRecord c snapCommitCode sevInfo m.round 0xFFFFFFFF (b2n x.direct)
      let s := s.snapCmdEnd c 0 (.bytes (leBytes m.round.toNat 4 ++ leBytes m.root.toNat 64))
      let s := s.modSnap c fun y => { y with
        phase := .committed, last := some m.round, lastExt := x.direct, root := m.root, manifest := none, set := [], cells := []
        commits := n, leaves := if x.direct then [] else m.leaves, parent := if x.direct then none else some m.round
        external := false, extQ := if due && !x.direct then y.extQ ++ [m] else y.extQ }
      ((s.nextCopy c).snapRing c).journal (.catalogue ⟨c, m.round, if x.direct then 0xFFFF else s.harv.partner, m.root⟩)
  | _, _ => s

/-- The catalogue entry of a commit has been read back: COMMIT_TALLY, while the context is still loaded (R390, R454). -/
def State.snapTally (s : State) (e : CatEntry) : State :=
  match s.snapSec e.ctx with
  | some (_, sec) => if (s.ctx e.ctx).snap.last.isSome then s.hubSignal e.ctx sec.commitTally else s
  | none => s

/-- Blocks that are not acknowledged, or the manifest, are sent again (Table 13.11). -/
def State.snapResend (s : State) (c : CtxId) : State :=
  let x := (s.ctx c).snap
  if x.phase != .data then s
  else
      match x.manifest with
      | some m => if x.direct then s else
          s.sendPkt (s.mkPkt s.harv.partner c c 3 (uHarvest 1) 0
            (.snapManifest ⟨kManifest, c, s.fab.module, m.round, noBlock, 0⟩ m))
      | none => x.unacked.foldl (fun s i => s.resendBlock c i) s

/-! ### External copies (R396) -/

/-- The external copy of context c ends with SNAP_EXTERNAL. -/
def State.extFail (s : State) (c : CtxId) (block : Nat) : State :=
  match (s.ctx c).snap.ext with
  | none => s
  | some (m, _) =>
    ((s.snapRecord c snapExternal sevError m.round block 1).modSnap c fun y => { y with
      ext := none, reason := snapExternal }).nextCopy c

/-- The copy begins: the manifest goes to the store, the first block is fetched. -/
def execSnapExternalCopy (c : CtxId) (s : State) : Host.Outcome State Fault Refusal :=
  match (s.ctx c).snap.ext with
  | some (m, 0) =>
    .next ((s.storeOut (.storeManifest c m)).snapSend s.harv.partner kFetch c s.fab.module m.round 0)
  | _ => .next s

/-- A block of the copy has come back from the partner. -/
def State.extBlock (s : State) (c : CtxId) (m : Manifest) (i : Nat) (data : List Byte) : State :=
  if m.leaves[i]? != some (sha3_512 data) then s.extFail c i
  else
    let s := (s.storeOut (.storeBlock c m.round i data)).modSnap c fun y => { y with ext := some (m, i + 1) }
    if i + 1 < m.leaves.length then
      s.snapSend s.harv.partner kFetch c s.fab.module m.round (BitVec.ofNat 32 (i + 1))
    else s

/-- The store acknowledges the manifest of a round, last: of a copy that has sent every block, or of a snapshot that went straight
to it (R396, R397). -/
def State.extAck (s : State) (c : CtxId) (round : BitVec 32) : State :=
  let x := (s.ctx c).snap
  let copy := match x.ext with | some (m, i) => m.round == round && i == m.leaves.length | none => false
  let direct := x.direct && (match x.manifest with | some m => m.round == round | none => false)
  if copy then (s.modSnap c fun y => { y with ext := none, lastExt := y.lastExt || y.last == some round }).nextCopy c
  else if direct then s.snapCommitted c
  else s

/-- A frame of the store arrives. -/
def State.storeFrame (s : State) (pn : Word) (act : State → State) : State :=
  if !s.gateUp then s else s.protectedIn s.storeSession pn act

def execExternalStoreAck (a : StoreAck) (s : State) : Host.Outcome State Fault Refusal :=
  .next (s.storeFrame a.pn fun s => s.extAck a.ctx a.round)

/-! ### Restore (R398 to R400, R427) -/

/-- The partner can be asked for blocks. -/
def State.partnerReach (s : State) : Bool :=
  s.harv.partner != 0xFFFF && (s.route s.harv.partner).any fun e => e.cands.any fun p => (s.port p.toNat).st == .up

/-- A STORE session is open. -/
def State.storeUp (s : State) : Bool := s.gateUp && s.storeSession.isSome

/-- The restore fails (R400). -/
def State.restoreFail (s : State) (c : CtxId) (code : Reason) (block : Nat := 0xFFFFFFFF) : State :=
  let x := (s.ctx c).snap
  match x.restore, (s.ctx c).img with
  | some r, some img =>
    let s := s.snapRecord c code sevError r.round block (b2n r.external)
    let s := s.modSnap c fun y => { y with phase := .idle, reason := code, restore := none, cells := [], buf := [] }
    let s := s.modCtxRst c fun y => { y with fill := if y.fill == .restoring then .none else y.fill }
    (s.place img).endCmd c code
  | _, _ => s

/-- Ask one source for a block. -/
def State.askBlock (s : State) (c : CtxId) (r : Restoring) (external : Bool) : State :=
  if external then s.storeOut (.storeFetch c r.round (some r.next))
  else s.snapSend s.harv.partner kFetch c s.fab.module r.round (BitVec.ofNat 32 r.next)

/-- Every block is in place: the state is loaded (R400). -/
def State.restoreDone (s : State) (c : CtxId) (img : CtxImage) (r : Restoring) (m : Manifest) : State :=
  let s := s.loadSaved c img
  let bits := (areaBlocks img).map (· / blockBytes)
  let s : State := { s with written := s.written.filter fun b => !bits.contains b }
  let s := s.modSnap c fun y => { y with
    phase := .idle, restore := none, cells := [], buf := [], leaves := m.leaves
    parent := if !r.external && r.latest then some r.round else none }
  let s := s.modCtx c fun x => { x with
    restored := true, feed := { x.feed with baseOff := x.feed.doneOff, baseEpoch := x.feed.doneEpoch } }
  s.endCmd c 0

/-- The next block, or the end. -/
def State.restoreNext (s : State) (c : CtxId) : State :=
  match (s.ctx c).snap.restore, (s.ctx c).img with
  | some r, some img =>
    match r.manifest with
    | none => s
    | some m => if r.next < m.leaves.length then s.askBlock c r r.external else s.restoreDone c img r m
  | _, _ => s

/-- The manifest has come, or there is none. -/
def State.restoreManifest (s : State) (c : CtxId) (mo : Option Manifest) : State :=
  match (s.ctx c).snap.restore, s.snapSec c, mo with
  | some r, some (img, sec), some m =>
    let s := if s.vault.st == .error then s else s.verified
    if m.round != r.round then s.restoreFail c snapNoCopy
    else if s.vault.st == .error || !m.sigOk || !(sec.signers.contains m.signer || m.signer == vaultId) then
      s.restoreFail c snapSignature
    else if m.layout != layoutOf img then s.restoreFail c snapMismatch
    else if m.leaves.length != snapN img || rootOf m.leaves != m.root then s.restoreFail c snapSignature
    else (s.modSnap c fun y => { y with restore := some { r with manifest := some m } }).restoreNext c
  | _, _, _ => s.restoreFail c snapNoCopy

/-- RESTORE; `rsv` are bits [7:1] of byte [5] of its body, which are reserved (log 20). -/
def execRestore (r : ReqHdr) (round : BitVec 32) (source : Byte) (noFallback : Bool) (rsv : BitVec 7) (s : State) :
    Host.Outcome State Fault Refusal :=
  s.request r .restore .context (decide (source.toNat ≤ 1) && rsv == 0) (inState [.loaded]) fun s k c =>
    let c := c.getD 0
    match s.snapSec c with
    | none => s.turnAway k (some c) cmdState
    | some (img, _) =>
      let external := source == 1
      let s := (s.take_ c k).modSnap c fun y => { y with
        phase := .restore, round := round, cells := []
        restore := some { round := round, external := external, noFallback := noFallback } }
      let s := if joinsImg img then s.modCtxRst c fun y => { y with fill := .restoring } else s
      if external then
        if s.storeUp then s.storeOut (.storeFetch c round none) else s.restoreManifest c none
      else if s.partnerReach then s.snapSend s.harv.partner kFetch c s.fab.module round noBlock
      else s.restoreManifest c none

/-- A block of a restore has come; `data` is none where its source cannot give it. A bad one is asked of the other source
once (R399). -/
def State.restoreBlock (s : State) (c : CtxId) (data : Option (List Byte)) : State :=
  match (s.ctx c).snap.restore, (s.ctx c).img with
  | some r, some img =>
    match r.manifest with
    | none => s
    | some m =>
      let i := r.next
      let bs := data.getD []
      if data.isSome && m.leaves[i]? == some (sha3_512 bs) then
        let s := match blockLoc img i with
          | none => s.modSnap c fun y => { y with cells := memWrite (i * blockBytes) bs y.cells }
          | some l => s.pokeVia l bs
        (s.modSnap c fun y => { y with restore := some { r with next := i + 1, retried := false } }).restoreNext c
      else
        let from_ := if r.retried then !r.external else r.external
        let s := s.snapRecord c snapDigestCode sevNotice r.round i (b2n from_)
        let s := s.modHarv fun h => { h with
          inst := smod {} (i % 2) (fun x => { x with mismatch := satAdd 16 x.mismatch 1 }) h.inst }
        if r.retried || r.noFallback || !(if r.external then s.partnerReach else s.storeUp) then s.restoreFail c snapNoCopy i
        else
          let r : Restoring := { r with retried := true }
          (s.modSnap c fun y => { y with restore := some r }).askBlock c r (!r.external)
  | _, _ => s

/-- The store delivers the manifest, or the block at hand. -/
def State.fromStore (s : State) (c : CtxId) (x : FromStore) : State :=
  match (s.ctx c).snap.restore, x with
  | some r, .manifest round m =>
    if r.external && r.manifest.isNone && round == r.round then s.restoreManifest c m else s
  | some r, .block round i data =>
    if r.manifest.isSome && (if r.retried then !r.external else r.external) && round == r.round && i == r.next then
      s.restoreBlock c (some data)
    else s
  | none, _ => s

def execRestoreBlock (c : CtxId) (f : StoreFrame) (s : State) : Host.Outcome State Fault Refusal :=
  .next (s.storeFrame f.pn fun s => s.fromStore c f.x)

/-! ### Blocks that come back to their module -/

/-- A block fetched, or sent by a join, has come whole. -/
def State.gotBlock (s : State) (p : Packet) (hdr : SnapHdr) (digest : List Byte) : State :=
  let c := hdr.context
  let x := (s.ctx c).snap
  let i := hdr.block.toNat
  let data := memBytes x.buf (i * blockBytes) blockBytes
  let s := s.modSnap c fun y => { y with buf := memClear (i * blockBytes) blockBytes y.buf }
  let fill := (s.ctx c).rst.fill
  if fill == .joinSent || fill == .held then
    match (s.ctx c).img with
    | none => s
    | some img =>
      if leBytes (sha3_512 data).toNat 64 == digest then
        let s := match blockLoc img i with
          | none => s.modSnap c fun y => { y with cells := memWrite (i * blockBytes) data y.cells }
          | some l => s.pokeVia l data
        (s.modCtxRst c fun y => { y with fill := .held }).snapSend p.hdr.src kAck c hdr.client hdr.round hdr.block
      else
        (s.modHarv fun h => { h with
          inst := smod {} (i % 2) (fun x => { x with mismatch := satAdd 16 x.mismatch 1 }) h.inst }).snapSend
            p.hdr.src kAgain c hdr.client hdr.round hdr.block
  else
    let mine := match x.restore with
      | some r => r.manifest.isSome && r.round == hdr.round && r.next == i && !(if r.retried then !r.external else r.external)
      | none => false
    if mine then s.restoreBlock c (some data)
    else
      match x.ext with
      | some (m, j) => if m.round == hdr.round && i == j then s.extBlock c m i data else s
      | none => s

/-- A block, or a manifest, that the host cannot give. -/
def State.noCopyHere (s : State) (hdr : SnapHdr) : State :=
  let c := hdr.context
  let x := (s.ctx c).snap
  match x.restore with
  | some r =>
    if r.manifest.isNone && !r.external then s.restoreManifest c none
    else if hdr.block.toNat == r.next && r.round == hdr.round then s.restoreBlock c none
    else s
  | none =>
    match x.ext with
    | some (m, j) => if m.round == hdr.round && hdr.block.toNat == j then s.extFail c j else s
    | none => s

/-! ### The host's side (R390, R392, R393) -/

/-- The hosted range of a client: its index. -/
def State.hostedFor (s : State) (m : ModuleNo) : Option Nat := s.harv.hosted.findIdx? fun h => h.cfg.client == m

def State.modHosted (s : State) (i : Nat) (f : Hosted → Hosted) : State :=
  s.modHarv fun h => { h with hosted := h.hosted.modify i f }

/-- The snapshot of a context that arrives; another round of that context, which has been abandoned, gives its slots back. -/
def Hosted.arriving (h : Hosted) (c : CtxId) (round : BitVec 32) : Incoming :=
  (h.incoming.find? fun x => x.ctx == c && x.round == round).getD { ctx := c, round := round }

def Hosted.putArriving (h : Hosted) (x : Incoming) : Hosted :=
  { h with incoming := (h.incoming.filter fun y => y.ctx != x.ctx) ++ [x] }

/-- The hosted snapshots without those of context c that are listed after round `parent` of it. -/
def Hosted.snapsTo (h : Hosted) (c : CtxId) (parent : Option (BitVec 32)) : List HostedSnap :=
  let at_ := parent.bind fun r => h.snaps.findIdx? fun x => x.ctx == c && x.manifest.round == r
  match at_ with
  | some k => h.snaps.take (k + 1) ++ (h.snaps.drop (k + 1)).filter fun x => x.ctx != c
  | none => h.snaps

/-- A data packet of a block: into a free slot at the host, or into the buffer of the module whose copy it is. -/
def execSnapPktData (k : Nat) (s : State) : Host.Outcome State Fault Refusal :=
  match s.inboxAt k [0x30] with
  | none => .next s
  | some p =>
    match p.body with
    | .snap hdr data =>
      if hdr.kind != kData then .next s
      else
        let s := s.dropInbox k
        let i := hdr.block.toNat
        if hdr.client == s.fab.module then
          .next (s.modSnap hdr.context fun y => { y with buf := memWrite (i * blockBytes + hdr.offset) data y.buf })
        else
          let s := s.hubWake (i % 2)
          match s.hostedFor hdr.client with
          | none => .next s
          | some j =>
            match s.harv.hosted[j]? with
            | none => .next s
            | some h =>
              let x := h.arriving hdr.context hdr.round
              let slot := match x.slots.find? fun e => e.1 == i with | some e => some e.2 | none => (h.putArriving x).freeSlot
              match slot with
              | none => .next s
              | some n =>
                let s := s.modHosted j fun h => h.putArriving { x with slots := sset i n x.slots }
                let s := s.modHarv fun v => { v with
                  inst := smod {} (i % 2) (fun y => { y with recv := y.recv + data.length }) v.inst }
                .next (s.pokeVia (h.slotLoc n + hdr.offset) data)
    | _ => .next s

/-- The digest of a block: the host compares and answers; the module whose copy it is takes the block. -/
def execSnapPktDigest (k : Nat) (s : State) : Host.Outcome State Fault Refusal :=
  match s.inboxAt k [0x30] with
  | none => .next s
  | some p =>
    match p.body with
    | .snap hdr digest =>
      if hdr.kind != kDigest then .next s
      else
        let s := s.dropInbox k
        let i := hdr.block.toNat
        if hdr.client == s.fab.module then .next (s.gotBlock p hdr digest)
        else
          let s := s.hubWake (i % 2)
          let slot := (s.hostedFor hdr.client).bind fun j => (s.harv.hosted[j]?).bind fun h =>
            ((h.arriving hdr.context hdr.round).slots.find? fun e => e.1 == i).map fun e => h.slotLoc e.2
          let good := match slot with
            | some l => leBytes (sha3_512 (s.peek l blockBytes)).toNat 64 == digest && !s.poisonIn l blockBytes
            | none => false
          let s := match slot with | some l => s.readVia l blockBytes | none => s
          if good then .next (s.snapSend p.hdr.src kAck hdr.context hdr.client hdr.round hdr.block)
          else
            let s := s.modHarv fun h => { h with
              inst := smod {} (i % 2) (fun x => { x with mismatch := satAdd 16 x.mismatch 1 }) h.inst }
            .next (s.snapSend p.hdr.src kAgain hdr.context hdr.client hdr.round hdr.block)
    | _ => .next s

/-- The header names the snapshot in hand of its context here. -/
def State.snapMine (s : State) (hdr : SnapHdr) : Bool :=
  let x := (s.ctx hdr.context).snap
  x.phase == .data && x.round == hdr.round && hdr.client == s.snapClient hdr.context

/-- A block is acknowledged, or the manifest. The last one leads to the manifest; of a join, to GO (Recovery). -/
def State.snapAcked (s : State) (hdr : SnapHdr) : State :=
  let c := hdr.context
  if !s.snapMine hdr then s
  else if hdr.block == noBlock then s.snapCommitted c
  else
    let i := hdr.block.toNat
    let s := s.modSnap c fun y => { y with
      unacked := y.unacked.filter fun j => j != i, kept := memClear (i * blockBytes) blockBytes y.kept }
    match (s.ctx c).img with
    | some img => s.buildManifest c img
    | none => s

/-- The host asks for a block again, up to three times. -/
def execSnapPktAskAgain (k : Nat) (s : State) : Host.Outcome State Fault Refusal :=
  match s.inboxAt k [0x30] with
  | none => .next s
  | some p =>
    match p.body with
    | .snap hdr _ =>
      if hdr.kind != kAgain then .next s
      else
        let s := s.dropInbox k
        let c := hdr.context
        let i := hdr.block.toNat
        if !s.snapMine hdr || !(s.ctx c).snap.unacked.contains i then .next s
        else
          let n := sget 0 (s.ctx c).snap.tries i + 1
          let s := s.modHarv fun h => { h with
            inst := smod {} (i % 2) (fun x => { x with again := satAdd 16 x.again 1 }) h.inst }
          if n > 3 then .next (s.snapAbandon c snapPartner sevError i)
          else .next ((s.modSnap c fun y => { y with tries := sset i n y.tries }).resendBlock c i)
    | _ => .next s

/-- The manifest: the host records it and acknowledges; a module that restores checks it. What the host lists after the snapshot
that is its PARENT was never acknowledged to the client, which abandoned it: it leaves the catalogue (R391, log 145). -/
def execSnapPktManifest (k : Nat) (s : State) : Host.Outcome State Fault Refusal :=
  match s.inboxAt k [0x30] with
  | none => .next s
  | some p =>
    match p.body with
    | .snapManifest hdr m =>
      let s := s.dropInbox k
      let c := hdr.context
      if hdr.client == s.fab.module then
        match (s.ctx c).snap.restore with
        | some r => if r.manifest.isNone && !r.external && r.round == hdr.round then .next (s.restoreManifest c (some m)) else .next s
        | none => .next s
      else
        let s := s.hubWake 1
        match s.hostedFor hdr.client with
        | none => .next s
        | some j =>
          let s := s.modHosted j fun h =>
            if h.snaps.any fun x => x.ctx == c && x.manifest.round == m.round then h
            else
              let base := match m.parent with
                | some r => match h.snaps.find? fun x => x.ctx == c && x.manifest.round == r with | some x => x.map | none => []
                | none => []
              let map := (h.arriving c m.round).slots.foldl (fun t e => sset e.1 e.2 t) base
              { h with snaps := h.snapsTo c m.parent ++ [⟨c, m, map⟩], incoming := h.incoming.filter fun x => x.ctx != c }
          .next (s.snapSend p.hdr.src kAck c hdr.client hdr.round noBlock)
    | _ => .next s

/-- The host's answer to a fetch: a block with its digest, or a manifest, and then the catalogue's latest round of that
context. What it does not hold, or cannot read, it answers with the catalogue alone. -/
def State.answerFetch (s : State) (j : Nat) (p : Packet) : State :=
  match p.body, s.harv.hosted[j]? with
  | .snap hdr _, some h =>
    let c := hdr.context
    let mine := h.snaps.filter fun x => x.ctx == c
    let latest : BitVec 32 := match mine.getLast? with | some x => x.manifest.round | none => noBlock
    match mine.find? fun x => x.manifest.round == hdr.round with
    | none => s.snapSend p.hdr.src kCatalogue c hdr.client latest hdr.block
    | some x =>
      if hdr.block == noBlock then
        (s.sendPkt (s.mkPkt p.hdr.src c c 3 (uHarvest 1) 0
          (.snapManifest ⟨kManifest, c, hdr.client, hdr.round, noBlock, 0⟩ x.manifest))).snapSend
            p.hdr.src kCatalogue c hdr.client latest noBlock
      else
        match x.map.find? fun e => e.1 == hdr.block.toNat with
        | none => s.snapSend p.hdr.src kCatalogue c hdr.client hdr.round hdr.block
        | some e =>
          let l := h.slotLoc e.2
          if s.poisonIn l blockBytes then
            (s.eccRecord l l (uHarvest (e.1 % 2)) none none).snapSend p.hdr.src kCatalogue c hdr.client hdr.round hdr.block
          else (s.readVia l blockBytes).snapBlock p.hdr.src c hdr.client hdr.round e.1 (s.peek l blockBytes)
  | _, _ => s

/-- A fetch waits while its range compacts (R393). -/
def execSnapPktFetch (k : Nat) (s : State) : Host.Outcome State Fault Refusal :=
  match s.inboxAt k [0x30] with
  | none => .next s
  | some p =>
    match p.body with
    | .snap hdr _ =>
      if hdr.kind != kFetch then .next s
      else
        let s := (s.dropInbox k).hubWake (hdr.block.toNat % 2)
        match s.hostedFor hdr.client with
        | none => .next (s.snapSend p.hdr.src kCatalogue hdr.context hdr.client noBlock hdr.block)
        | some j =>
          match s.harv.hosted[j]? with
          | some h =>
            if h.compacting then .next (s.modHosted j fun h => { h with waiting := h.waiting ++ [p] })
            else .next (s.answerFetch j p)
          | none => .next s
    | _ => .next s

/-- Compaction of a hosted range begins after a commit (R393). -/
def execHostedCompaction (i : BitVec 2) (s : State) : Host.Outcome State Fault Refusal :=
  .next (((s.hubWake 0).hubWake 1).modHosted i.toNat fun h => { h with compacting := true })

/-- Compaction ends: maps are rewritten, slots freed, and the fetches that waited are answered. -/
def execHostedCompactionEnd (i : BitVec 2) (s : State) : Host.Outcome State Fault Refusal :=
  match s.harv.hosted[i.toNat]? with
  | none => .next s
  | some h =>
    if !h.compacting then .next s
    else
      let s := s.modHosted i.toNat fun h => { h with compacting := false, snaps := h.compacted, waiting := [] }
      .next (h.waiting.foldl (fun s p => s.answerFetch i.toNat p) s)

/-! ### Pairing (R384) -/

/-- The hosted length, KEEP, the layout and the emptiness of what this module holds for a client's context. -/
def State.hostedView (s : State) (m : ModuleNo) (c : CtxId) : Nat × Nat × Option Digest × Bool :=
  match (s.hostedFor m).bind fun j => s.harv.hosted[j]? with
  | none => (0, 0, none, true)
  | some h =>
    let mine := h.snaps.filter fun x => x.ctx == c
    (h.cfg.len, h.cfg.keep, (mine.getLast?).map fun x => x.manifest.layout, mine.isEmpty)

/-- The partner's port comes UP for the first time since a LOAD here, or a module reset of either module: the exchange of
every context with a snapshot section. Until the partner has answered it counts as not paired. -/
def execSnapPairing (s : State) : Host.Outcome State Fault Refusal :=
  if !s.partnerReach then .next s
  else
    .next ((allCtx.filter fun c => (s.snapSec c).isSome).foldl (fun s c =>
      match (s.ctx c).img with
      | some img =>
        let (n, keep, _, empty) := s.hostedView s.harv.partner c
        let s := s.modSnap c fun y => { y with paired := false }
        s.sendPkt (s.mkPkt s.harv.partner c c 0 (uHarvest 0) 0
          (.pairing c (s.boot.ownFeed.getD 0) (layoutOf img) n keep empty))
      | none => s) s)

/-- What the partner reports is judged (R384); a feed that it reports newly goes to the journal (Table 15.11). C of R394 is the largest changed set of a snapshot with a PARENT since LOAD,
and at least the state blocks, which are in every changed set (log 137). -/
def State.pairJudge (s : State) (c : CtxId) (img : CtxImage) (feed : BitVec 32) (layout : Digest) (len keep : Nat)
    (empty : Bool) : State :=
  let slots := (len - 0x6000000) / blockBytes
  let s := s.modSnap c fun y => { y with paired := true, hostSlots := slots }
  let s := match s.boot.ownFeed with
    | some own => if s.nvm.partner == s.harv.partner && s.nvm.partnerFeed == feed then s
        else s.journal (.pairing own s.harv.partner feed)
    | none => s
  let pair (s : State) : State := s.snapRecord c snapPairCode sevError (s.ctx c).snap.round
  let full (s : State) : State := s.modSnap c fun y => { y with parent := none }
  if s.boot.ownFeed == some feed then
    let s := s.modSnap c fun y => { y with off := true }
    if s.harv.feedSaid then s
    else (s.cfgRecord ⟨0x0121, whole, 0, 0x0103⟩ 0x05 (some c)).modHarv fun h => { h with feedSaid := true }
  else if slots < snapN img + keep * max (s.ctx c).snap.maxSet (stateBlocks img) then
    (pair s).modSnap c fun y => { y with off := true }
  else if !empty && layout != layoutOf img then full (pair s)
  else if empty then full s
  else s

/-- The exchange of R384, TAG 0 from the client and TAG 1 from the host, and the catalogue packets of the host. A client that
begins the exchange has no snapshot on its way: slots of an abandoned one are free. -/
def execSnapPktCatalogue (k : Nat) (s : State) : Host.Outcome State Fault Refusal :=
  match s.inboxAt k [0x30, 0x50] with
  | none => .next s
  | some p =>
    match p.body with
    | .snap hdr _ =>
      if hdr.kind != kCatalogue then .next s
      else
        let s := s.dropInbox k
        if hdr.client != s.fab.module then .next s
        else
          match (s.ctx hdr.context).snap.restore with
          | some r =>
            if hdr.block == noBlock && r.manifest.isSome then
              .next (s.modSnap hdr.context fun y => { y with restore := some { r with latest := r.round == hdr.round } })
            else .next (s.noCopyHere hdr)
          | none => .next (s.noCopyHere hdr)
    | .pairing c feed layout len keep empty =>
      let s := s.dropInbox k
      if p.hdr.tag == 0 then
        let (n, kp, held, none_) := s.hostedView p.hdr.src c
        let other := match held with | some l => l != layout | none => false
        let s := match s.hostedFor p.hdr.src with
          | some j => s.modHosted j fun h => { h with
              snaps := h.snaps.filter fun x => !other || x.ctx != c, incoming := h.incoming.filter fun x => x.ctx != c }
          | none => s
        .next (s.sendPkt (s.mkPkt p.hdr.src c c 0 (uHarvest 0) 1
          (.pairing c (s.boot.ownFeed.getD 0) (held.getD layout) n kp none_)))
      else
        match (s.ctx c).img with
        | some img =>
          if p.hdr.src == s.harv.partner && img.snap.isSome then .next (s.pairJudge c img feed layout len keep empty) else .next s
        | none => .next s
    | _ => .next s

/-! ### SEND_LIMIT (R396, R403, Table 14.1) -/

/-- SEND_LIMIT has passed: of the snapshot in hand, whose sending instance is probed, or of an external copy (`copy`). -/
def execSnapTimeout (b : SnapBound) (s : State) : Host.Outcome State Fault Refusal :=
  let c := b.ctx
  let x := (s.ctx c).snap
  if b.copy then
    match x.ext with
    | some (_, i) => .next (s.extFail c i)
    | none => .next s
  else if x.busy && x.join.isNone then
    let i := (x.unacked ++ x.toSend).headD 0xFFFFFFFF
    .next ((s.snapAbandon c snapTimeoutCode sevError i).probe (uHarvest (if i == 0xFFFFFFFF then 0 else i % 2)))
  else .next s

end Sys2Proof.Machine
end

