-- ==== Sys2Proof/Machine/Recovery.lean ====
section
/-!
DEFINITION. Probes, purges, resets of engines and dies, heartbeats, switchover and joins
(14_faults_and_recovery.md, R405 to R433).
-/

namespace Sys2Proof.Machine

/-! ### Probes (R406) -/

def execProbeAnswer (u : UnitId) (s : State) : Host.Outcome State Fault Refusal :=
  .next (s.modRst fun r => { r with probes := r.probes.filter fun x => x != u })

def execProbeTimeout (u : UnitId) (s : State) : Host.Outcome State Fault Refusal :=
  if !s.rst.probes.contains u then .next s
  else
    let s := s.modRst fun r => { r with cntProbe := satAdd 16 r.cntProbe 1 }
    let s := (s.rstRecord 0x0B06 sevError none u.toNat 0 (unitLevel u)).escalateUnit 0 u
    .next (s.modRst fun r => { r with probes := r.probes.filter fun x => x != u })

/-! ### Purges (R408 to R411) -/

/-- A unit acknowledges its quiesce order; a fenced one does so late, and its fence lifts. -/
def execQuiesceAck (c : CtxId) (u : UnitId) (s : State) : Host.Outcome State Fault Refusal :=
  let r := (s.ctx c).rst
  let waits := match r.purge with | some p => p.units.contains u | none => false
  if waits then .next (s.quiesced c u)
  else if r.fenced.contains u then
    .next ((if (s.ctx c).st == .faulted then s.quiesceUnit c u else s.quiesceLate c u).liftFence c u)
  else .next s

/-- 40 µs have passed: what has not acknowledged is fenced, and the purge completes. -/
def execPurgeBoundExpiry (c : CtxId) (s : State) : Host.Outcome State Fault Refusal :=
  match (s.ctx c).rst.purge with
  | none => .next s
  | some p =>
    let s := p.units.foldl (fun s u => (s.modCtxRst c fun r => { r with fenced := r.fenced ++ [u] }).rstRecord 0x0B07 sevNotice
      (some c) u.toNat) s
    .next (s.purgeDone c)

/-- RST_QUIESCE cycles have passed since the purge began: a fenced unit is reset. -/
def execFenceTimeout (c : CtxId) (u : UnitId) (s : State) : Host.Outcome State Fault Refusal :=
  if !(s.ctx c).rst.fenced.contains u then .next s
  else .next (s.escalateUnit 1 u)

def execGenGapExpiry (c : CtxId) (s : State) : Host.Outcome State Fault Refusal :=
  let r := (s.ctx c).rst
  let s := s.modCtxRst c fun r => { r with gap := false }
  if r.purgeWaits then .next (s.startPurge c (s.resetting c)) else .next s

def State.setQuiesce (s : State) (v : Word) : State :=
  s.modRst fun r => { r with quiesce := BitVec.ofNat 32 (max 8500 (getF v 0 32)) }

def State.setGenGap (s : State) (v : Word) : State :=
  s.modRst fun r => { r with genGap := BitVec.ofNat 32 (max 108800 (getF v 0 32)) }

def execRstQuiesceWrite (v : Word) (s : State) : Host.Outcome State Fault Refusal := .next (s.setQuiesce v)

def execRstGenGapWrite (v : Word) (s : State) : Host.Outcome State Fault Refusal := .next (s.setGenGap v)

/-! ### Engine reset (R412, Table 14.3, Table 14.4) -/

/-- SEQUENCE and STAMP of a unit start again (R18, R19). -/
def State.restartUnit (s : State) (u : UnitId) (k : Clk) : State :=
  { s with log := { s.log with seqs := sdel u.toNat s.log.seqs }, stampBase := sset u.toNat (s.count k) s.stampBase }

/-- A quad at its reset state; its Benches are 0. Replies to its threads are dropped when they come; a wake of a vector unit
runs to its end (R164). -/
def State.resetQuad (s : State) (q : Nat) : State :=
  let s := { s with strm := sdel q s.strm }
  let s := [0, 1, 2, 3].foldl (fun s i =>
    let g := 4 * q + i
    let s := [0, 1, 2, 3].foldl (fun s t =>
      (s.purgeThread (mkTh g t)).modThr (mkTh g t) fun x => { nextId := x.nextId, late := x.late }) s
    s.modCore g fun k => { vpow := k.vpow.afterReset }) s
  s.wipe (benchLoc (4 * q) 0) 0x400000

/-- A sync unit at its reset state: every object of the die as LOAD left it, what was on its way to it is gone. -/
def State.resetSync (s : State) (d : Nat) : State :=
  let s := allCtx.foldl (fun s c => match (s.ctx c).img with | some img => s.loadObjs c img (some d) | none => s) s
  s.modSync fun y => { y with dies := sdel d y.dies, msgs := y.msgs.filter fun m => objDie m.bell m.obj != d }

/-- A reduction engine at its reset state. -/
def State.resetRed (s : State) (e : Nat) : State :=
  let s := { s with red := sdel e s.red }
  allCtx.foldl (fun s c => if (s.ctx c).red.hist.isEmpty then s
    else s.modRedCtx c fun x => { x with hist := x.hist.filter fun h => h.eng != e }) s

/-- A Harvest instance at its reset state: snapshots and restores in progress end. -/
def State.resetHarvest (s : State) (h : Nat) : State :=
  let s := s.modHarv fun v => { v with inst := sdel h v.inst }
  (allCtx.filter fun c => s.snapLive c).foldl (fun s c =>
    if (s.ctx c).snap.busy then s.snapAbandon c snapAbandonCode sevNotice else s.restoreFail c snapAbandonCode) s

/-- The data-feed engine at its reset state; a STOPPED feed stays stopped until its context next enters LOADED (R374). -/
def State.resetFeeds (s : State) : State :=
  (allCtx.filter fun c => (s.ctx c).feed.cfg.isSome).foldl (fun s c =>
    let was := (s.ctx c).feed
    let st : FeedState := if was.st == .stopped then .stopped
      else match (s.ctx c).st with | .running => .active | .paused => .paused | _ => .idle
    s.modFeed c fun f => { ({ f with doneOff := f.baseOff, doneEpoch := f.baseEpoch } : Feed).clear with
      st := st, delivered := 0, repeats := 0, stopReason := if was.st == .stopped then was.stopReason else 0 }) s

/-- A port enters TRAINING. -/
def State.retrainPort (s : State) (p : Nat) : State :=
  let s := if (s.port p).st == .up then s.portDown p 0 else s
  let s := s.modPort p fun x => { x with
    st := if x.enable then .training else .disabled, flitsTx := 0, flitsRx := 0, cntReplay := 0, cntNak := 0, cntCrc := 0,
    cntFec := 0, lanes := [] }
  s

/-- The Gate at its reset state: its sessions have ended, its port trains. -/
def State.resetGate (s : State) : State :=
  let on := s.gate.enable
  let s := if (s.port 16).st == .up then s.portDown 16 0 else s
  let s := s.modGate fun g => { g with
    enable := false, sessions := [], hands := [], rx := 0, tx := 0, dUnprot := 0, dIcv := 0, dHeader := 0, dReplay := 0,
    dadOk := false, llOk := false, linkLocalOnly := false }
  let s := s.modPort 16 fun x => { x with st := .disabled }
  if on then s.enableGate else s

/-- What the reset of a unit of Table 14.3 does. -/
def State.resetUnitState (s : State) (u : UnitId) : State :=
  match unitIn u 0x1800 512, unitIn u 0x0400 8, unitIn u 0x0600 8, unitIn u 0x0A00 2 with
  | some q, _, _, _ => s.resetQuad q
  | _, some d, _, _ => s.resetSync d
  | _, _, some e, _ => s.resetRed e
  | _, _, _, some h => s.resetHarvest h
  | _, _, _, _ =>
    match unitIn u 0x0700 16, unitIn u 0x0310 12 with
    | some p, _ => s.retrainPort p
    | _, some n => s.modGran n fun _ => { trained := true }
    | _, _ => if u == uFeed 0 then s.resetFeeds else if u == uGate then s.resetGate else s

/-- Units whose records a reset of u restarts, with their clocks. -/
def restarted (u : UnitId) : List (UnitId × Clk) :=
  match unitIn u 0x1800 512 with
  | some q => (uQuad q, .uncore) :: [0, 1, 2, 3].map fun i => (uCore (4 * q + i), clkOf (4 * q + i))
  | none =>
    match unitIn u 0x0400 8 with
    | some d => [(u, .core (BitVec.ofNat 3 d))]
    | none => if u == uFeed 0 then allCtx.map fun c => (uFeed c, .reeve)
        else [(u, if u == uGate || (unitIn u 0x0A00 2).isSome then .reeve else .uncore)]

/-- An engine reset is complete. -/
def execEngineResetDone (u : UnitId) (s : State) : Host.Outcome State Fault Refusal :=
  let u := resetUnit u
  if !s.rst.engines.contains u then .next s
  else
    let s := s.modRst fun r => { r with engines := r.engines.filter fun x => x != u, cntEngine := satAdd 16 r.cntEngine 1 }
    let s := s.resetUnitState u
    let us := restarted u
    let s := us.foldl (fun s x => s.restartUnit x.1 x.2) s
    let s := allCtx.foldl (fun s c => if (s.ctx c).rst.fenced.isEmpty then s
      else us.foldl (fun s x => s.liftFence c x.1) s) s
    .next (s.rstRecord 0x0B02 sevNotice none u.toNat 0 2)

/-- RST_ENG_TO has passed: the die above, or on HD0 the module, is reset (R415). -/
def execEngineResetTimeout (u : UnitId) (s : State) : Host.Outcome State Fault Refusal :=
  let u := resetUnit u
  if !s.rst.engines.contains u then .next s
  else
    let s := match dieAbove u with
      | some d => if s.rst.dieResets.contains d then s else (s.rstRecord 0x0B04 sevNotice none u.toNat 2 3).startDie d
      | none => s.escalateModule 2 u
    .next (s.modRst fun r => { r with engines := r.engines.filter fun x => x != u })

/-! ### Die reset (R413) -/

/-- Units of a die (8: HD1), with the clocks of their records. -/
def dieUnits (d : Nat) : List (UnitId × Clk) :=
  if d == 8 then
    ((List.range 4).map fun e => (uRed (4 + e), Clk.uncore)) ++ ((List.range 8).map fun p => (uPort (8 + p), Clk.uncore)) ++
      ((List.range 6).map fun n => (uGran (6 + n), Clk.uncore)) ++ [(uHarvest 1, .reeve)]
  else
    ((List.range 256).map fun i => (uCore (256 * d + i), Clk.core (BitVec.ofNat 3 d))) ++
      ((List.range 64).map fun i => (uQuad (64 * d + i), Clk.uncore)) ++
      [(uSync d, .core (BitVec.ofNat 3 d)), (uDieMem d, .uncore)]

/-- SEQUENCE and STAMP of every unit of a die start again, and its fences lift. -/
def State.restartDie (s : State) (d : Nat) : State :=
  let s := (dieUnits d).foldl (fun s u => s.restartUnit u.1 u.2) s
  allCtx.foldl (fun s c => ((s.ctx c).rst.fenced.filter fun u => dieAbove u == some d).foldl (fun s u => s.liftFence c u) s) s

/-- The lines of a die's cache part are lost: the Granary's own data is in force again, and the granule of each dirty line is
poisoned. -/
def State.loseLines (s : State) (d : Nat) : State :=
  let dirty := ((s.die d).lines.filter fun e => !e.2.dirty.isEmpty).map (·.1)
  let s := s.dropLines [d] fun _ => true
  dirty.foldl (fun s gi => (List.range 4).foldl (fun s k => s.setPoison (granLoc (gi * 256 + 64 * k))) s) s

/-- A compute die at its reset state: its quads, sync unit and memories. A wake of a vector unit runs to its end (R164). -/
def State.resetDie (s : State) (d : Nat) : State :=
  let s := s.loseLines d
  let here (k w : Nat) : Bool := k / w == d
  let s := (s.threads.filter fun e => here e.1 1024).foldl (fun s e =>
    (s.purgeThread (BitVec.ofNat 13 e.1)).modThr (BitVec.ofNat 13 e.1) fun x => { nextId := x.nextId, late := x.late }) s
  let s := s.wipe (benchLoc (256 * d) 0) 0x10000000
  let s := s.wipe (0x200000000 + d * 0x20000000) 0x20000000
  let s := s.wipe (0x1000000000 + d * 0x800000000) 0x800000000
  let s : State := { s with
    cores := s.cores.filterMap fun e =>
      if here e.1 256 then (if e.2.vpow.afterReset == .off then none else some (e.1, { vpow := e.2.vpow.afterReset })) else some e
    strm := s.strm.filter fun e => !here e.1 64
    dies := sdel d s.dies }
  (s.resetSync d).restartDie d

/-- HD1 at its reset state: ports 8 to 15 train, the contents of Granary devices 6 to 11 and every hosted copy are lost. -/
def State.resetHd1 (s : State) : State :=
  let gone (l : Nat) : Bool := isGran l && decide (96 ≤ (granPlace (l - 2 ^ 63) (s.saltOf (l - 2 ^ 63))).1)
  let s := s.dropLines (List.range 8) fun gi => gone (granLoc (gi * 256))
  let s := { s with mem := s.mem.filter fun c => !gone c.1, poison := s.poison.filter fun l => !gone l }
  let s := (List.range 8).foldl (fun s i => s.retrainPort (8 + i)) s
  let s := (List.range 6).foldl (fun s i => s.modGran (6 + i) fun _ => { trained := true }) s
  let s := ((List.range 4).foldl (fun s i => s.resetRed (4 + i)) s).resetHarvest 1
  let s := s.modHarv fun h => { h with hosted := h.hosted.map fun x => { cfg := x.cfg } }
  s.restartDie 8

def execDieResetDone (d : Nat) (s : State) : Host.Outcome State Fault Refusal :=
  if !s.rst.dieResets.contains d then .next s
  else
    let s := s.modRst fun r => { r with
      dieResets := r.dieResets.filter fun x => x != d
      engines := r.engines.filter fun u => dieAbove u != some d, probes := r.probes.filter fun u => dieAbove u != some d }
    .next (if d == 8 then s.resetHd1 else s.resetDie d)

def execDieResetTimeout (d : Nat) (s : State) : Host.Outcome State Fault Refusal :=
  if !s.rst.dieResets.contains d then .next s
  else .next (s.escalateModule 3 (if d == 8 then uHarvest 1 else uDieMem d))

/-! ### Rings, heartbeats, deaths (R417 to R419) -/

def State.modRing (s : State) (c : CtxId) (r : Nat) (f : RingSt → RingSt) : State :=
  s.modCtx c fun x => { x with rings := x.rings.modify r f }

/-- Each period: heartbeats to the watch sets; a period more since each watched member was heard. -/
def execHeartbeatSend (s : State) : Host.Outcome State Fault Refusal :=
  let me := s.fab.module
  let cs := allCtx.filter fun c => (s.ctx c).st != .empty
  let dests := (cs.flatMap fun c => s.watchSet c).eraseDups
  let s := s.sendAll dests fun s m => s.mkPkt m 0 0 0 uRst 0 .heartbeat
  .next (cs.foldl (fun s c => s.modCtx c fun x => { x with
    rings := x.rings.map fun r => { r with missed := (r.watch me).map fun m =>
      (m, 1 + (match r.missed.find? fun e => e.1 == m with | some e => e.2 | none => 0)) } }) s)

def execHeartbeat (k : Nat) (s : State) : Host.Outcome State Fault Refusal :=
  match s.inboxAt k [0x50] with
  | none => .next s
  | some p =>
    match p.body with
    | .heartbeat =>
      let s := s.dropInbox k
      .next (allCtx.foldl (fun s c => if (s.ctx c).rings.isEmpty then s
        else s.modCtx c fun x => { x with
          rings := x.rings.map fun r => { r with missed := r.missed.map fun e => if e.1 == p.hdr.src then (e.1, 0) else e } }) s)
    | _ => .next s

def rstSwitchFail : Reason := 0x0B0C
def rstShardLost : Reason := 0x0B0E

/-- The ring cannot go on: the context faults. -/
def State.ringFail (s : State) (c : CtxId) (r : Nat) (code : Reason) (dead : ModuleNo) (shard : Nat) : State :=
  let st := (s.ctx c).st
  if st == .empty || st == .faulted then s
  else
    ((s.modRing c r fun x => { x with switch := none, queued := [], lastSwitch := none }).rstRecord code sevCtxFatal (some c) dead.toNat 0 0 r
      shard).ctxFault c code

/-- The member of a module. -/
def RingSt.member? (r : RingSt) (m : ModuleNo) : Option Member := r.members.find? fun x => x.module == m

/-- Members that live without module m. -/
def RingSt.liveBut (r : RingSt) (m : ModuleNo) : List Member := r.live.filter fun x => x.module != m

/-- The live shadow that follows a dead primary. -/
def RingSt.heir (r : RingSt) (m : ModuleNo) : Option ModuleNo :=
  match r.member? m with
  | some x => if x.shadow then none else ((r.liveBut m).find? fun y => y.shadow && y.shard == x.shard).map (·.module)
  | none => none

/-- The coordinator of the switchover (R419). -/
def RingSt.coordinator (r : RingSt) (m : ModuleNo) : Option ModuleNo :=
  match r.heir m with
  | some h => some h
  | none =>
    let n := r.members.length
    let p := r.pos m
    (((List.range n).map fun i => r.memberAt ((p + 1 + i) % n)).find? fun x => (r.liveBut m).contains x).map (·.module)

/-- The death of m leaves a shard of two members with no live one. -/
def RingSt.lastOf (r : RingSt) (m : ModuleNo) : Bool :=
  match r.member? m with
  | some x => decide (2 ≤ (r.cfg.members.filter fun y => y.shard == x.shard).length) &&
      !(r.liveBut m).any fun y => y.shard == x.shard
  | none => false

/-- Two modules are of one shard. -/
def RingSt.sameShard (r : RingSt) (a b : ModuleNo) : Bool :=
  match r.member? a, r.member? b with
  | some x, some y => x.shard == y.shard
  | _, _ => false

/-- A parent of the context's step bell, or of a bell above it, lies on module m (R425). -/
def State.parentOn (s : State) (m : ModuleNo) : Nat → Nat → Bool
  | 0, _ => false
  | fuel + 1, b =>
    match (s.bell b).parent with
    | some (pb, _, pm) => if s.isSelf pm then s.parentOn m fuel pb else pm == m
    | none => false

/-- What this member holds of a ring's buckets (R420): those in flight, which have not completed here, and the last step of each
bucket that has. -/
def State.ringBuckets (s : State) (c : CtxId) (r : Nat) : List AckEntry :=
  let live := (List.range 8).flatMap fun e => ((s.redEng e).slots.filter fun x => x.2.ctx == c && x.2.ring == r).map fun x =>
    (⟨BitVec.ofNat 3 r, x.2.id, x.2.step, false⟩ : AckEntry)
  let done := (s.ctx c).red.hist.filterMap fun h => match h.done with
    | some st => if h.ring == r then some (⟨BitVec.ofNat 3 r, h.id, st, true⟩ : AckEntry) else none
    | none => none
  live ++ done

/-- Freeze the ring's buckets in flight. -/
def State.freezeRing (s : State) (c : CtxId) (r : Nat) (on : Bool) : State :=
  (List.range 8).foldl (fun s e => if (s.redEng e).slots.isEmpty then s
    else s.modRedEng e fun x => { x with
      slots := x.slots.map fun b => if b.2.ctx == c && b.2.ring == r then (b.1, { b.2 with frozen := on }) else b }) s

/-- What the coordinator says of the listed buckets (R420). -/
def goEntries (r : RingSt) (ring : Nat) (dead : ModuleNo) (acks : List (ModuleNo × List AckEntry)) : List GoEntry :=
  let keys := ((acks.flatMap (·.2)).map fun a => (a.bucket, a.step)).eraseDups
  let has (m : ModuleNo) (k : BitVec 16 × BitVec 32) : Option Bool :=
    (acks.find? fun e => e.1 == m).bind fun e => (e.2.find? fun a => a.bucket == k.1 && a.step == k.2).map (·.completed)
  let n := r.members.length
  let up (m : ModuleNo) (k : BitVec 16 × BitVec 32) : Option ModuleNo :=
    let p := r.pos m
    (((List.range n).map fun i => (r.memberAt ((p + n - 1 - i) % n)).module).find? fun x => has x k == some true)
  keys.flatMap fun k =>
    if (acks.any fun e => has e.1 k == some true) then
      (((r.liveBut dead).map (·.module)).filter fun m => has m k == some false).filterMap fun m =>
        (up m k).map fun src => (⟨BitVec.ofNat 3 ring, k.1, k.2, true, m, src⟩ : GoEntry)
    else [⟨BitVec.ofNat 3 ring, k.1, k.2, false, 0, 0⟩]

/-! ### GO (R421 to R425) -/

/-- Slots of this context's bells whose child lies on module m. -/
def State.absentMarks (s : State) (c : CtxId) (m : ModuleNo) (on : Bool) : State :=
  let bs := (s.sync.bells.filter fun e => e.2.assigned && e.2.ctx == c && e.2.remote.any fun x => x.2.1 == m).map (·.1)
  let s := bs.foldl (fun s b => s.modBell b fun x =>
    let ps := (x.remote.filter fun e => e.2.1 == m).map (·.1)
    { x with absent := if on then x.absent ++ ps.filter fun p => !x.absent.contains p else x.absent.filter fun p => !ps.contains p }) s
  if on then bs.foldl (fun s b => s.bellWork bellFuel [.check b]) s else s

/-- The registration record of a bucket that has ended, in the queue. -/
def State.oldRecord (s : State) (c : CtxId) (ring : Nat) (id : BitVec 16) (step : BitVec 32) : Option Nat :=
  match (s.ctx c).img.bind (·.red) with
  | none => none
  | some sec => ((List.range sec.queue.slots).map fun i => sec.queue.base.toNat + 64 * i).find? fun l =>
      let x := regBytes (s.peek l 64)
      x.ring == ring && x.id == id && x.step == step

/-- The copy of a completed bucket, to a member that has not completed it (R422). -/
def State.sendCopy (s : State) (c : CtxId) (g : GoEntry) : State :=
  match s.oldRecord c g.ring.toNat g.bucket g.step with
  | none => s
  | some l =>
    let x := regBytes (s.peek l 64)
    let f := match s.tensorOf c x.tensor with | some t => gradFmt t | none => 0x1
    let res := s.peek x.res (x.elems * resBits f / 8)
    let sc := if isMx f then s.peek x.scale (x.elems / 32) else []
    let info := BitVec.ofNat 32 (leNat (s.peek (l + 60) 4))
    let recv := match s.digEntry c g.ring.toNat g.bucket g.step with
      | some d => d.recv
      | none => 0
    s.sendPkt (s.mkPkt g.target c c 0 uRst 0 (.bucketCopy g.ring g.bucket g.step res sc info recv))

/-- A bucket marked RERUN starts its pass again, with the outcome given, pre-round included; an exponent that was fixed is kept
(R422). -/
def Bucket.rerun (b : Bucket) (out : Option (BitVec 2)) : Bucket :=
  let again := b.pre && !b.pass.getLsbD 0
  { b with
    pass := b.pass + 2, roll := [], begun := false, origin := false, colOrigin := false, waiting := [], rows := [], totals := []
    frozen := false, ended := false, outcome := out, late := b.late && out.isSome, asked := false, phase := 0
    e := if again then none else b.e, keepE := if again then b.e <|> b.keepE else b.keepE }

/-- The outcome of a bucket in its re-run (R421, R422). One that is decided stays. A promoted shadow enters SHADOW where its dead
primary was TAKEN; where no roll has reached it, what the primary had decided is free (log 75). One that is not decided is decided
afresh: a member that has registered is on time. -/
def State.rerunOutcome (s : State) (g : RingSt) (promoted : Bool) (b : Bucket) : Option (BitVec 2) × State :=
  let fresh : Option (BitVec 2) := if b.reg.isSome && !s.myShadow g then some 0 else none
  if !promoted then (b.outcome <|> fresh, s)
  else
    match s.myEntry g b with
    | some o => (some (if o == 0 then 1 else o), s)
    | none =>
      let (v, s) := s.draw 2
      (match v.toNat with
        | 0 => fresh
        | 1 => some 1
        | _ => some (if g.cfg.drop then 3 else 2), s)

/-- A bucket marked RERUN at this member. A promoted shadow that contributes its own copy holds the bytes from now on; its
registration is announced again (log 162). -/
def State.rerunBucket (s : State) (c : CtxId) (g : RingSt) (promoted : Bool) (e k : Nat) (b : Bucket) : State :=
  let was := s.myEntry g b
  let (out, s) := s.rerunOutcome g promoted b
  let passed := promoted && out != some 0 && (was.isSome && was != some 0)
  let b' := { b.rerun out with usesDefer := b.usesDefer && !passed }
  let s := s.setBucket e k b'
  let s := match b'.reg with
    | some x =>
      let s := if promoted && (out == some 1 || (out == some 2 && !b.filled)) then s.lateRead e k b' x else s
      let b' := (s.bucket e k).getD b'
      let s := if promoted && out == some 1 then s.setBucket e k { b' with copy := s.ownCopy b' }
        else if promoted && out == some 2 && !b.filled && !b'.srcfail then
          (s.setBucket e k { b' with filled := true }).fillDefer b' x
        else s
      (if passed then s.passDefer b' x else s).redAnnounce e b' g
    | none => s
  s.redProgress e k 2

/-- Apply GO to the frozen buckets: one that an error has ended only waits on for its registration, one marked COPY for the copy,
the others run again. -/
def State.goBuckets (s : State) (c : CtxId) (r : Nat) (promoted : Bool) (go : List GoEntry) : State :=
  match s.ring c r with
  | none => s
  | some g =>
    let me := s.fab.module
    let slots := (List.range 8).flatMap fun e => ((s.redEng e).slots.filter fun x => x.2.ctx == c && x.2.ring == r).map fun x => (e, x.1)
    slots.foldl (fun s p =>
      match s.bucket p.1 p.2 with
      | none => s
      | some b =>
        if b.bad.isSome then
          let b := { b with frozen := false }
          match b.reg with
          | some x => (s.setBucket p.1 p.2 b).redLast c p.1 p.2 b g x
          | none => s.setBucket p.1 p.2 b
        else if go.any fun x => x.copy && x.target == me && x.bucket == b.id && x.step == b.step then s
        else s.rerunBucket c g promoted p.1 p.2 b) s

/-- GO after a death: roles, the dead position, absent slots, buckets, RST_SWITCH. -/
def State.applyGo (s : State) (c : CtxId) (r : Nat) (m : ModuleNo) (go : List GoEntry) : State :=
  match s.ring c r with
  | none => s
  | some g =>
    let x := (g.member? m).getD ⟨m, true, 0⟩
    let heir := g.heir m
    -- the other member died before: RST_SHARD_LOST while its replacement is being filled, else DROPPED (log 75)
    let (b, s) := if g.lastOf m then s.draw 1 else (0, s)
    let lost := b == 1
    let drops := !x.shadow && heir.isNone && !lost
    let stepBell := match s.snapSec c with | some (_, sec) => some sec.stepBell | none => none
    let noParent := match stepBell with | some b => s.parentOn m 512 b | none => false
    if lost then s.ringFail c r rstShardLost m x.shard
    else if noParent then s.ringFail c r rstSwitchFail m x.shard
    else
      let s := s.modRing c r fun g => { g with
        members := g.members.map fun y =>
          if y.module == m then { y with shadow := true } else if some y.module == heir then { y with shadow := false } else y
        dead := g.dead ++ [m], dropped := if drops then g.dropped ++ [x.shard] else g.dropped
        switch := none, missed := g.missed.filter fun e => e.1 != m, lastSwitch := some m }
      let s := if drops then s.rstRecord 0x0B0D sevNotice (some c) m.toNat 0 0 r x.shard else s
      let s := s.modCtxRst c fun y => { y with switches := satAdd 16 y.switches 1 }
      let s := s.rstRecord 0x0B0B sevNotice (some c) m.toNat 0 0 r x.shard
      let s := s.absentMarks c m true
      let s := (go.filter fun e => e.copy && e.source == s.fab.module).foldl (fun s e => s.sendCopy c e) s
      s.goBuckets c r (heir == some s.fab.module) go

/-! ### SWITCH (R420) -/

/-- The acknowledgements are complete: GO. -/
def State.tryGo (s : State) (c : CtxId) (r : Nat) : State :=
  match s.ring c r with
  | none => s
  | some g =>
    match g.switch with
    | none => s
    | some w =>
      let need := (g.liveBut w.dead).map (·.module)
      if w.coordinator && need.all fun m => w.acks.any fun e => e.1 == m then
        let go := goEntries g r w.dead w.acks
        let s := s.sendAll (need.filter fun m => m != s.fab.module) fun s m =>
          s.mkPkt m c c 0 uRst 0 (.go (BitVec.ofNat 3 r) w.dead go false)
        s.applyGo c r w.dead go
      else s

/-- A switchover begins for a dead member; this module coordinates it or waits for SWITCH. -/
def State.beginSwitch (s : State) (c : CtxId) (r : Nat) (m : ModuleNo) : State :=
  match s.ring c r with
  | none => s
  | some g =>
    let me := s.fab.module
    let coord := g.coordinator m == some me
    let x := (g.member? m).getD ⟨m, true, 0⟩
    let noParent := match s.snapSec c with | some (_, sec) => s.parentOn m 512 sec.stepBell | none => false
    if noParent then s.ringFail c r rstSwitchFail m x.shard
    else if coord then
      let s := s.modRing c r fun g => { g with switch := some { dead := m, coordinator := true, frozen := true } }
      let s := s.sendAll (((g.liveBut m).map (·.module)).filter fun y => y != me) fun s y =>
        s.mkPkt y c c 0 uRst 0 (.switch (BitVec.ofNat 3 r) m)
      let s := s.freezeRing c r true
      let mine := s.ringBuckets c r
      (s.modRing c r fun g => { g with switch := g.switch.map fun w => { w with acks := [(me, mine)] } }).tryGo c r
    else s.modRing c r fun g => { g with switch := some { dead := m, coordinator := false } }

/-- A fill of this module's context is under way (R427). -/
def CtxRst.filling (r : CtxRst) : Bool := r.fill == .restoring || r.fill == .joinSent || r.fill == .held

/-- The fill of a context ends without a join. -/
def State.fillAbandon (s : State) (c : CtxId) : State :=
  let s := s.modCtxRst c fun y => { y with fill := .abandoned }
  (s.rstRecord 0x0B11 sevError (some c) s.fab.module.toNat).ctxFault c 0x0B11

/-- A member of a ring is known to be dead. To a replacement that is being filled, the death of its shard's live member ends the
fill (Table 14.6). -/
def State.noteDead (s : State) (c : CtxId) (r : Nat) (m : ModuleNo) : State :=
  match s.ring c r with
  | none => s
  | some g =>
    let known := g.dead.contains m || g.queued.contains m || (match g.switch with | some w => w.dead == m | none => false)
    if known || (g.member? m).isNone || m == s.fab.module then s
    else
      let x := (g.member? m).getD ⟨m, true, 0⟩
      let s := s.modCtxRst c fun y => { y with deadMod := m, deadRing := BitVec.ofNat 3 r, deadValid := true }
      if !(s.ctx c).rst.switchMask.getLsbD r then s.ringFail c r rstSwitchFail m x.shard
      else if (s.ctx c).rst.filling && g.sameShard m s.fab.module then s.fillAbandon c
      else
        match g.switch with
        | some w =>
          if g.sameShard w.dead m || g.queued.any fun d => g.sameShard d m then s.ringFail c r rstShardLost m x.shard
          else s.modRing c r fun g => { g with queued := g.queued ++ [m] }
        | none => s.beginSwitch c r m

/-- A queued death is taken up after GO. -/
def State.nextSwitch (s : State) (c : CtxId) (r : Nat) : State :=
  match s.ring c r with
  | none => s
  | some g =>
    match g.switch, g.queued with
    | none, m :: rest => (s.modRing c r fun g => { g with queued := rest }).beginSwitch c r m
    | _, _ => s

/-- A watcher declares a member dead (R419). -/
def State.declareDead (s : State) (c : CtxId) (r : Nat) (m : ModuleNo) : State :=
  match s.ring c r with
  | none => s
  | some g =>
    let known := g.dead.contains m || g.queued.contains m || (match g.switch with | some w => w.dead == m | none => false)
    let st := (s.ctx c).st
    if known || st == .empty || st == .faulted then s
    else
      match g.member? m with
      | none => s
      | some x =>
        let s := s.rstRecord 0x0B0A sevNotice (some c) m.toNat 0 0 r x.shard
        let s := s.sendAll (((g.liveBut m).map (·.module)).filter fun y => y != s.fab.module) fun s y =>
          s.mkPkt y c c 0 uRst 0 (.deadNotice (BitVec.ofNat 3 r) m)
        s.noteDead c r m

/-! ### A replacement fails (Table 14.6) -/

/-- The JOIN that has waited longest is taken up. -/
def State.nextJoin (s : State) (c : CtxId) : State :=
  match (s.ctx c).snap.join, (s.ctx c).snap.joinQueue with
  | none, (m, ls) :: rest => s.modSnap c fun y => { y with join := some m, joinLeaves := ls, joinQueue := rest }
  | _, _ => s

/-- The hold of a join ends: the round is released. -/
def State.endHoldJoin (s : State) (c : CtxId) : State :=
  match s.snapSec c with
  | none => s
  | some (_, sec) =>
    let s := s.modSnap c fun y => { y with
      phase := .idle, join := none, joinLeaves := [], set := [], toSend := [], unacked := [], kept := [], cells := [] }
    ((s.unholdRound sec.stepBell).latePause c).nextJoin c

/-- A replacement that this member fills, or that waits for it, has failed: its fill is abandoned (Table 14.6). -/
def State.joinLost (s : State) (c : CtxId) (m : ModuleNo) : State :=
  let x := (s.ctx c).snap
  let s := s.modSnap c fun y => { y with joinQueue := y.joinQueue.filter fun e => e.1 != m }
  if x.join == some m then
    let s := s.rstRecord 0x0B11 sevError (some c) m.toNat
    if x.busy then s.endHoldJoin c else (s.modSnap c fun y => { y with join := none, joinLeaves := [] }).nextJoin c
  else s

/-- MISS periods have passed since the last heartbeat of a watched member. -/
def execPeerDead (c : CtxId) (ring : BitVec 3) (m : ModuleNo) (s : State) : Host.Outcome State Fault Refusal :=
  match s.ring c ring.toNat with
  | none => .next s
  | some g =>
    if (g.watch s.fab.module).contains m && g.missed.any fun e => e.1 == m && decide (s.rst.hbMiss.toNat ≤ e.2) then
      .next (s.declareDead c ring.toNat m)
    else .next s

/-- A Reeve message of the inbox, where it is one of some kind. -/
def State.reeveMsg (s : State) (k : Nat) (act : State → Packet → Option State) : Host.Outcome State Fault Refusal :=
  match s.inboxAt k [0x50] with
  | none => .next s
  | some p => .next ((act (s.dropInbox k) p).getD s)

def execFaultNotice (k : Nat) (s : State) : Host.Outcome State Fault Refusal :=
  s.reeveMsg k fun s p =>
    match p.body with
    | .faultNotice c _ =>
      some ((List.range (s.ctx c).rings.length).foldl (fun s r => s.declareDead c r p.hdr.src) (s.joinLost c p.hdr.src))
    | _ => none

def execDeadNotice (k : Nat) (s : State) : Host.Outcome State Fault Refusal :=
  s.reeveMsg k fun s p =>
    match p.body with
    | .deadNotice ring m =>
      let st := (s.ctx p.hdr.dctx).st
      some (if st == .empty || st == .faulted then s else s.noteDead p.hdr.dctx ring.toNat m)
    | _ => none

/-- SWITCH: the ring's buckets freeze; the acknowledgement lists them. A member whose step bell has its parent on the dead module
cannot go on, and gives none, so that the coordinator's bound passes (R425, log 163). -/
def execSwitch (k : Nat) (s : State) : Host.Outcome State Fault Refusal :=
  s.reeveMsg k fun s p =>
    match p.body with
    | .switch ring m =>
      let c := p.hdr.dctx
      let r := ring.toNat
      match s.ring c r with
      | none => some s
      | some g =>
        let noParent := match s.snapSec c with | some (_, sec) => s.parentOn m 512 sec.stepBell | none => false
        if g.dead.contains m || (s.ctx c).st == .faulted then some s
        else if noParent then some (s.ringFail c r rstSwitchFail m (match g.member? m with | some x => x.shard | none => 0xFFFF))
        else
          let s := s.modRing c r fun g => { g with
            switch := some { dead := m, coordinator := false, frozen := true }, queued := g.queued.filter fun x => x != m }
          let s := s.freezeRing c r true
          some (s.sendPkt (s.mkPkt p.hdr.src c c 0 uRst 0 (.switchAck ring (s.ringBuckets c r))))
    | _ => none

def execSwitchAck (k : Nat) (s : State) : Host.Outcome State Fault Refusal :=
  s.reeveMsg k fun s p =>
    match p.body with
    | .switchAck ring bs =>
      let c := p.hdr.dctx
      let r := ring.toNat
      let s := s.modRing c r fun g => { g with switch := g.switch.map fun w =>
        if w.coordinator then { w with acks := (w.acks.filter fun e => e.1 != p.hdr.src) ++ [(p.hdr.src, bs)] } else w }
      some ((s.tryGo c r).nextSwitch c r)
    | _ => none

/-! ### The copy of a completed bucket (R422) -/

/-- It waits where this member's registration has not been accepted yet. -/
def execBucketCopy (k : Nat) (s : State) : Host.Outcome State Fault Refusal :=
  s.reeveMsg k fun s p =>
    match p.body with
    | .bucketCopy ring id step res scale info recv =>
      let c := p.hdr.dctx
      match s.findBucket c ring.toNat id step with
      | none => some s
      | some (e, j) =>
        match s.bucket e j with
        | none => some s
        | some b =>
          if !b.frozen || b.bad.isSome then some s
          else
            match b.reg with
            | none => none
            | some g =>
              let s := s.poke g.res res
              let s := if scale.isEmpty then s else s.poke g.scale scale
              let s := s.putDigest c ring.toNat id step fun d => { d with recv := recv, roll := b.roll }
              let s := s.deferDone b g (match s.ring c ring.toNat with
                | some r => !s.myShadow r || s.myEntry r b == some 0
                | none => true)
              let s := s.modHist c ring.toNat id fun h => { h with done := some step }
              let s := s.modRedEng e fun x => { x with cntBucket := (x.cntBucket + 1) % 2 ^ 32 }
              some (((s.writeStatus c g.k (statusBits b 0 false false) info.toNat).freeBucket e j).hubSignal c g.doneTally)
    | _ => none

/-! ### Joins (R427, R428) -/

/-- GO of a join: the position returns to the replacement as SHADOW, beside the shard's live member as its primary; there, its
threads start. -/
def State.applyJoin (s : State) (c : CtxId) (r : Nat) (m : ModuleNo) : State :=
  let s := s.modRing c r fun g =>
    let shard := (g.member? m).map (·.shard)
    { g with
    members := g.members.map fun y => if some y.shard == shard then { y with shadow := y.module == m } else y
    dropped := g.dropped.filter fun k => some k != shard
    dead := g.dead.filter fun x => x != m, missed := g.missed.filter fun e => e.1 != m }
  let s := s.absentMarks c m false
  let fill := (s.ctx c).rst.fill
  if m == s.fab.module && (fill == .joinSent || fill == .held) then
    match (s.ctx c).img with
    | none => s
    | some img =>
      let s := (s.loadSaved c img).modSnap c fun y => { y with cells := [], buf := [] }
      let s := s.modCtxRst c fun y => { y with fill := .done }
      (s.rstRecord 0x0B10 sevInfo (some c) m.toNat).startWork c img true
  else s

/-- The replacement has every block: GO to every live member and to it, in each ring that it was dead in. -/
def State.finishJoin (s : State) (c : CtxId) (m : ModuleNo) : State :=
  let me := s.fab.module
  let rs := (List.range (s.ctx c).rings.length).filter fun r => match s.ring c r with | some g => g.dead.contains m | none => false
  let s := rs.foldl (fun s r =>
    match s.ring c r with
    | none => s
    | some g =>
      let dests := ((g.live.map (·.module)).filter fun y => y != me) ++ [m]
      (s.sendAll dests fun s y => s.mkPkt y c c 0 uRst 0 (.go (BitVec.ofNat 3 r) m [] true)).applyJoin c r m) s
  s.endHoldJoin c

/-- GO: of a switchover, or of a join. -/
def execGo (k : Nat) (s : State) : Host.Outcome State Fault Refusal :=
  s.reeveMsg k fun s p =>
    match p.body with
    | .go ring m go join =>
      let c := p.hdr.dctx
      let r := ring.toNat
      if (s.ctx c).st == .faulted || (s.ctx c).st == .empty then some s
      else if join then some (s.applyJoin c r m)
      else if (match s.ring c r with | some g => g.dead.contains m | none => true) then some s
      else some ((s.applyGo c r m go).nextSwitch c r)
    | _ => none

/-- An acknowledgement of a snapshot packet (R390, R428). -/
def execSnapPktAck (k : Nat) (s : State) : Host.Outcome State Fault Refusal :=
  match s.inboxAt k [0x30] with
  | none => .next s
  | some p =>
    match p.body with
    | .snap hdr _ =>
      if hdr.kind != kAck then .next s
      else
        let s := (s.dropInbox k).snapAcked hdr
        let x := (s.ctx hdr.context).snap
        match x.join with
        | some m =>
          if s.snapMine hdr && x.toSend.isEmpty && x.unacked.isEmpty then .next (s.finishJoin hdr.context m) else .next s
        | none => .next s
    | _ => .next s

/-- JOIN reaches the shard's live member, or its refusal the replacement. -/
def execJoin (k : Nat) (s : State) : Host.Outcome State Fault Refusal :=
  s.reeveMsg k fun s p =>
    let c := p.hdr.dctx
    let m := p.hdr.src
    match p.body with
    | .join ring shard layout leaves =>
      match s.ring c ring.toNat, s.snapSec c with
      | some g, some (img, _) =>
        let x := (s.ctx c).snap
        if !g.dead.contains m || s.myShard g != shard then some s
        else if layout != layoutOf img then
          let s := s.rstRecord 0x0B14 sevError (some c) m.toNat 0 0 ring.toNat shard
          some (s.sendPkt (s.mkPkt m c c 0 uRst 0 (.joinRefused ring shard)))
        else if x.join == some m || x.joinQueue.any fun e => e.1 == m then some s
        else if x.join.isSome then
          some ((s.modSnap c fun y => { y with joinQueue := y.joinQueue ++ [(m, leaves)] }).rstRecord 0x0B12 sevNotice (some c)
            m.toNat 0 0 ring.toNat shard)
        else some (s.modSnap c fun y => { y with join := some m, joinLeaves := leaves })
      | some _, none =>
        let s := s.rstRecord 0x0B14 sevError (some c) m.toNat 0 0 ring.toNat shard
        some (s.sendPkt (s.mkPkt m c c 0 uRst 0 (.joinRefused ring shard)))
      | none, _ => some s
    | .joinRefused _ _ =>
      let fill := (s.ctx c).rst.fill
      some (if fill == .joinSent || fill == .held then s.fillAbandon c else s)
    | _ => none

/-- JOIN_HOLD has passed: at the live member the round is released, at the replacement the context faults. -/
def execJoinHoldExpiry (c : CtxId) (s : State) : Host.Outcome State Fault Refusal :=
  let fill := (s.ctx c).rst.fill
  if fill == .joinSent || fill == .held then .next (s.fillAbandon c)
  else
    match (s.ctx c).snap.join with
    | some m =>
      if (s.ctx c).snap.busy then .next ((s.rstRecord 0x0B11 sevError (some c) m.toNat).endHoldJoin c) else .next s
    | none => .next s

/-- GO has not been applied everywhere within the bound: every live member fails, one that has applied it too (R426). -/
def execSwitchoverBoundExpiry (c : CtxId) (ring : BitVec 3) (s : State) : Host.Outcome State Fault Refusal :=
  match s.ring c ring.toNat with
  | none => .next s
  | some g =>
    match (g.switch.map (·.dead)) <|> g.lastSwitch with
    | none => .next s
    | some m => .next (s.ringFail c ring.toNat rstSwitchFail m (match g.member? m with | some x => x.shard | none => 0xFFFF))

end Sys2Proof.Machine
end

