-- ==== Sys2Proof/Machine/Boot.lean ====
section
/-!
DEFINITION. From power to release, the journal, the Vault, attestation, staging and commit
(15_boot_and_security.md, R434 to R465; R320).
-/

namespace Sys2Proof.Machine

def secFuse : Reason := 0x0904
def secFallback : Reason := 0x0906
def secNoImage : Reason := 0x0907
def secEntropy : Reason := 0x0908
def secSelftest : Reason := 0x0909
def secNotStaged : Reason := 0x090B
def secTrialOk : Reason := 0x090C
def secOwner : Reason := 0x090D
def rstWatchdog : Reason := 0x0B13
def pwrPll : Reason := 0x0A07
def uReeve : UnitId := 0x0C00

/-- A record of the Reeve block (R488). The levels are the die's, or of no compute die the module's LP, where nothing moves them;
the temperature is the die's highest reading (log 167). -/
def State.pwrRecord (s : State) (code : Reason) (sev : Byte) (obj : Nat) (cause : Nat) (levels : Option (Nat × Nat) := none)
    (temp : Option Int := none) (rail : Nat := 0xFF) : State :=
  let power := match s.pwr.last with | some x => x.power | none => 0
  let level := if obj < 8 then (s.dieClk obj).level else s.pwr.lp
  let (before, after) := levels.getD (level, level)
  let t := temp.getD (match s.pwr.last with | some x => if obj < 10 then (x.hot obj).1 else 0 | none => 0)
  s.record { unit := uReeve, clk := .reeve, code := code, sev := sev,
             obj := if obj == 0xFF then noObj else BitVec.ofNat 32 obj
             detail := det 40 1 cause ||| det 41 1 obj ||| det 42 1 before ||| det 43 1 after ||| det 44 2 power |||
               det 46 2 s.pwr.policy.pcap ||| det 48 2 (signed16 t) ||| det 50 1 rail }

/-! ### The start of a boot (R434, R455, R495) -/

/-- Nothing removes the rails other than standby for good: VIN, VSTBY, the reference, the comparators (R482, R492, R497). -/
def Carrier.railsOn (c : Carrier) : Bool := c.vin && c.vstby && c.refclk && !c.latch

/-- Nothing at the carrier holds the module in reset. -/
def Carrier.free (c : Carrier) : Bool := c.railsOn && c.resetN && !c.third

/-- OWN_FEED as the straps read (R491). -/
def Carrier.ownFeed (c : Carrier) : Option (BitVec 32) := if c.fidPres then some (c.fid.setWidth 32) else none

/-- RESET_ENTRY ends and FUSE begins: the straps are read (R455, R491). -/
def State.bootStart (s : State) : State :=
  if s.boot.phase != .resetEntry || s.boot.stopped || !s.car.free then s
  else
    (s.modBoot fun b => { b with phase := .fuse, start := s.clk.reeve, ownFeed := s.car.ownFeed }).modPwr fun p =>
      { p with locked := true }

def execBootStart (s : State) : Host.Outcome State Fault Refusal := .next s.bootStart

/-- A boot phase may do its work: nothing has stopped the boot, and what it journalled has been read back. Nothing can be read
back before the Vault serves. -/
def State.inPhase (s : State) (p : BootPhase) : Bool :=
  s.boot.phase == p && !s.boot.stopped && (s.nvm.queue.isEmpty || s.vault.st == .selftest)

/-- A failure leaves the module in reset; the watchdog will repeat the boot (R436). -/
def State.bootStop (s : State) : State := s.modBoot fun b => { b with stopped := true }

/-- FW_VERIFY begins: the Vault's self-tests pass, its DRBG is instantiated, and the journal is replayed with its tags. The Reeve
journals the resets and the boot that it counts, the resets of a trial slot, up to 3, and a feed that the straps name newly
(R452, R455, R456, R459; log 165). -/
def State.startVault (s : State) : State :=
  let s := (s.modVault fun v => { v with st := .ready, generates := 0, reseeds := (v.reseeds + 1) % 2 ^ 32 }).replayJournal
  let n := s.nvm
  let k := s.rst.begun
  let s := s.journal (.counters n.fwSvn n.cfgSvn ((n.resets + k) % 2 ^ 32) ((n.boots + 1) % 2 ^ 32))
  let s := if n.slot.trial && k != 0 then s.journal (.slot { n.slot with tries := min 3 (n.slot.tries + k) }) else s
  let s := match s.boot.ownFeed with
    | some own => if n.ownFeed == some own then s else s.journal (.pairing own n.partner n.partnerFeed)
    | none => s
  s.modRst fun r => { r with begun := 0 }

def execFuse (found : FuseFind) (s : State) : Host.Outcome State Fault Refusal :=
  if !s.inPhase .fuse then .next s
  else if found == .uncorrectable || s.fuses.lifecycle == 0x03 then .next s.bootStop
  else
    let s := if found == .corrected then
        (s.modBoot fun b => { b with fuseFixed := b.fuseFixed + 1 }).secRecord secFuse sevNotice none none 0xFF 0 0
      else s
    .next (s.modBoot fun b => { b with phase := .fwVerify }).startVault

/-! ### Verification of a slot (R441, R448, R452) -/

/-- The active slot has failed: the other one is tried, unless it has failed too or is being staged; then the module will
release in recovery mode. Firmware that has verified goes on running (R462). -/
def State.slotFailed (s : State) (code : Reason) : State :=
  let slot := s.nvm.slot
  let other := !slot.active
  let s := s.modBoot fun b => { b with reason := code, tried := b.tried ++ [slot.active] }
  if s.boot.tried.contains other || slot.staging == some other then
    (s.secRecord secNoImage sevModuleFatal none none 0xFF 0 0).modBoot fun b => { b with phase := .train, reason := secNoImage }
  else
    ((s.secRecord secFallback sevNotice none none 0xFF 0 0).journal
      (.slot { slot with active := other, trial := false, tries := 0, staging := none, staged := false })).modBoot fun b =>
        { b with phase := .fwVerify, fallback := true, trial := false }

/-- Number of a slot. -/
def slotNum (b : Bool) : Nat := b2n b

def State.bundleOf (s : State) (slot : Bool) : Option Bundle := (s.nvm.bundles.find? fun e => e.1 == slotNum slot).map (·.2)

/-- The firmware image of the active slot; `sigOk`: the bytes read verify. -/
def execFwVerify (sigOk : Bool) (s : State) : Host.Outcome State Fault Refusal :=
  if !s.inPhase .fwVerify || s.vault.st != .ready then .next s
  else
    let slot := s.nvm.slot
    let s := s.modBoot fun b => { b with trial := slot.trial }
    if slot.trial && decide (3 ≤ slot.tries) then .next (s.slotFailed s.boot.reason)
    else
      match s.bundleOf slot.active with
      | none => .next ((s.cfgRecord { code := 0x0101 } 0 none).slotFailed 0x0101)
      | some b =>
        let h := b.firmware
        let s := s.verified
        match s.verifyErr h 1 (sigOk && h.sigOk) with
        | some code => .next ((s.secRecord code sevError none (some 1) (slotNum slot.active) h.svn 0).slotFailed code)
        | none =>
          match formatErr h 1 none with
          | some e => .next ((s.cfgRecord e 0 none).slotFailed e.code)
          | none => .next (s.modBoot fun b => { b with
              phase := .cfg, fw := some h, sram := (Config.reeveCode h.digest).take 0x100000 })

/-! ### Configuration (R443, R485) -/

def clampK (lo hi v : Nat) : Nat := max lo (min hi v)

/-- The policy in force, and how many knobs were clamped. -/
def policyOf (p : PolicySection) : PolicySection × Nat :=
  let q : PolicySection :=
    { pcap := clampK 800 2200 p.pcap, fastlim := clampK 105 150 p.fastlim, hyst := clampK 1 20 p.hyst, dwell := clampK 1 100 p.dwell,
      uphold := clampK 100 10000 p.uphold, tWarn := clampK 60 105 p.tWarn, tThrot := clampK 70 105 p.tThrot }
  let n := b2n (q.pcap != p.pcap) + b2n (q.fastlim != p.fastlim) + b2n (q.hyst != p.hyst) + b2n (q.dwell != p.dwell) +
    b2n (q.uphold != p.uphold) + b2n (q.tWarn != p.tWarn) + b2n (q.tThrot != p.tThrot)
  ({ q with tWarn := min q.tWarn q.tThrot }, n)

/-- A module image comes into force. -/
def State.applyModImage (s : State) (m : ModImage) : State :=
  let f := m.fabric
  let s := s.modFab fun b => { b with
    module := f.module, fabricId := f.fabricId, life := BitVec.ofNat 20 f.life, hopsMax := BitVec.ofNat 4 f.hopsMax
    hold := BitVec.ofNat 24 f.hold, weights := f.weights, snapcap := BitVec.ofNat 7 f.snapcap, routes := f.routes }
  let s := (List.range 16).foldl (fun s i => match f.ports[i]? with
    | some p => s.modPort i fun x => { x with dateline := p.dateline, peer := p.peer, peerPort := p.peerPort.setWidth 4 }
    | none => s) s
  let s := s.modGate fun g => { g with addr := m.gate.addr, prefixLen := m.gate.prefixLen, port := m.gate.port, keys := m.gate.keys }
  let s := match m.snap with
    | some x => s.modHarv fun h => { h with
        hosted := x.hosted.map fun c => { cfg := c }, partner := x.partner, partnerFeed := x.partnerFeed }
    | none => s
  let (q, n) := policyOf (m.policy.getD defaultPolicy)
  let s := s.modPwr fun p => { p with policy := q, clamps := satAdd 16 p.clamps n }
  let s := (List.range n).foldl (fun s _ => s.pwrRecord 0x0A08 sevNotice 0xFF 0x05) s
  s.modBoot fun b => { b with mod := some m }

/-- BOOT_CTL.ENABLE is set: the checks of Table 15.7; a bit that is 1 runs none (R446). -/
def State.enableBoot (s : State) (sigOk : Bool) : State :=
  if s.boot.enable then s
  else
    let slot := s.nvm.slot.active
    match s.bundleOf slot with
    | none => (s.cfgRecord { code := 0x0101 } 0x01 none).slotFailed 0x0101
    | some b =>
      let m := b.module
      let s := s.verified
      match s.verifyErr m.hdr 2 (sigOk && m.hdr.sigOk) with
      | some code => (s.secRecord code sevError none (some 2) (slotNum slot) m.hdr.svn 0x01).slotFailed code
      | none =>
        match formatErr m.hdr 2 none with
        | some e => (s.cfgRecord e 0x01 none).slotFailed e.code
        | none =>
          match s.modErr m true with
          | some e => (s.cfgRecord e 0x01 none).slotFailed e.code
          | none =>
            if transferBad m then
              (s.secRecord secTransfer sevError none (some 2) (slotNum slot) m.hdr.svn 0x01).slotFailed secTransfer
            else (s.applyModImage m).modBoot fun b => { b with enable := true, phase := .train }

def execCfg (sigOk : Bool) (s : State) : Host.Outcome State Fault Refusal :=
  if !s.inPhase .cfg || s.vault.st == .error then .next s else .next (s.enableBoot sigOk)

/-- The Reeve sets ENABLE, which it does in CFG; the image's bytes verify. -/
def execBootCtlEnable (s : State) : Host.Outcome State Fault Refusal :=
  if !s.inPhase .cfg || s.vault.st == .error then .next s else .next (s.enableBoot true)

/-! ### Training and release (R317, R320, R434 to R436, R452) -/

/-- FAB_PORT_CTL.ENABLE is set: Table 11.2 rows 2 and 5 for that port. -/
def State.enablePort (s : State) (p : Nat) : State :=
  match s.boot.mod with
  | none => s
  | some m =>
    match m.fabric.ports[p]? with
    | none => s
    | some x =>
      if (s.port p).enable then s
      else if portBad s.fab.module x || s.laserInputs p == 0 then s.cfgRecord ⟨0x0171, BitVec.ofNat 32 p, 0, 0x0101⟩ 0x03 none
      else s.modPort p fun y => { y with enable := true, st := .training }

/-- The Gate's own enable is GATE_ENABLE. -/
def execFabPortEnable (p : Fin 17) (s : State) : Host.Outcome State Fault Refusal :=
  if p.val == 16 then .next s else .next (s.enablePort p.val)

def execTrain (ok : Bool) (s : State) : Host.Outcome State Fault Refusal :=
  if !s.inPhase .train || (s.gran 0).trained then .next s
  else if !ok then .next s.bootStop
  else
    let s := (List.range 12).foldl (fun s n => s.modGran n fun g => { g with trained := true }) s
    let s := (s.wipe 0x100000000 0x80000000).wipe 0x200000000 0x100000000
    let s := (List.range 4).foldl (fun s m => s.laserCtl m 1) s
    let on (p : Nat) : Bool := match s.boot.mod.bind fun m => m.fabric.ports[p]? with | some x => x.enable | none => false
    let s := ((List.range 16).filter on).foldl (fun s p => s.enablePort p) s
    .next (if s.gateBad.isNone then s.trainGate else s)

/-- A record that was written before a module reset is read back into the held records (R415). -/
def State.recall (s : State) (e : EventRec) : State :=
  { s with log := { s.log with held := s.log.held ++ [(s.log.next, e)], next := s.log.next + 1 } }

/-- The records of a module reset's release: what the fault history carried over, the cause that the watchdog held, and
RST_MODULE. OBJECT holds the unit and, above it, the cause. -/
def State.resetRecords (s : State) : State :=
  match s.rst.modCause with
  | none => s
  | some (code, unit) =>
    let s := s.rst.carried.foldl (fun s e => s.recall e) s
    let s := if code == rstWatchdog then s.rstRecord rstWatchdog sevModuleFatal none unit.toNat 0 4
      else if code == pwrPll then s.pwrRecord pwrPll sevModuleFatal 0xFF 0 else s
    s.rstRecord 0x0B05 sevModuleFatal none (unit.toNat + code.toNat * 2 ^ 16) 0 4

/-- A trial boot that is about to release makes its slot permanent: fuses first, then the journal (R442, R452). -/
def State.confirmTrial (s : State) (m : ModImage) : State :=
  let slot := s.nvm.slot
  let fw : Nat := match s.boot.fw with | some h => h.svn | none => 0
  let burn := match s.boot.fw with | some h => h.burnFloor | none => false
  let s := if burn then { s with fuses := { s.fuses with svnFloor := max s.fuses.svnFloor (min 64 fw) } } else s
  let s := s.journal (.counters (max s.nvm.fwSvn fw) (max s.nvm.cfgSvn m.hdr.svn) s.nvm.resets s.nvm.boots)
  let s := s.journal (.slot { slot with trial := false, tries := 0, staging := none, staged := false })
  match m.transfer with
  | some x => if m.hdr.transfer then (ownerParts (BitVec.ofNat 20736 (leNat x.key))).foldl State.journal s else s
  | none => s

/-- Release: every device has trained. A trial is confirmed first, and the release waits for what that journals (R463). Without a
module image the module is in recovery mode (R449). -/
def execRelease (s : State) : Host.Outcome State Fault Refusal :=
  if !s.inPhase .train || !(s.gran 0).trained then .next s
  else
    match (if s.nvm.slot.trial then s.boot.mod else none) with
    | some m => .next (s.confirmTrial m)
    | none =>
      let phase : BootPhase := if s.boot.mod.isSome then .released else .recovery
      let s := s.modBoot fun b => { b with phase := phase, time := (s.clk.reeve - b.start) % 2 ^ 32 }
      let s := if phase == .recovery then s.modGate fun g => { g with port := 49880, keys := [], linkLocalOnly := true } else s
      let s := s.resetRecords.modRst fun r => { r with attempts := 0, modCause := none, carried := [], level := 0, episode := 0 }
      .next s.enableGate

/-! ### The journal (R453 to R457) -/

/-- A module reset with a cause of no reason code: FW_COMMIT names the boot block, the carrier reset no unit. -/
def causeCommit : Reason × BitVec 16 := (0x0000, 0x0D00)
def causeCarrier : Reason × BitVec 16 := (0x0000, 0x0000)

/-- A change has been read back with a good TAG: it takes effect, with what waited for it. -/
def State.applyChange (s : State) (j : JChange) : State :=
  let old := s.nvm.slot
  let s := s.keepChange j
  match j with
  | .slot r =>
    match s.seqr.modCmd with
    | some k =>
      if k.op == .fwCommit && r.trial then
        (({ s with seqr := { s.seqr with modCmd := none } }.reply (k.answer 0)).allNotices).moduleReset causeCommit.1 causeCommit.2
      else s
    | none =>
      if s.boot.phase == .train && s.boot.mod.isSome && old.trial && !r.trial then
        (s.secRecord secTrialOk sevInfo none none 0xFF 0 0).modBoot fun b => { b with trial := false }
      else s
  | .owner i _ => if i == 26 then s.secRecord secOwner sevNotice none none 0xFF 0 0 else s
  | .catalogue e => s.snapTally e
  | .counters _ _ _ _ | .fault _ | .pairing _ _ _ | .cpBegin _ | .cpEnd _ _ => s

/-- The oldest record is read back with the Vault's TAG. One whose TAG fails is counted and written again; the last one may let a
module reset start that the fault history had to log first (R431, R454). -/
def execJournalReadback (ok : Bool) (s : State) : Host.Outcome State Fault Refusal :=
  match s.nvm.queue with
  | [] => .next s
  | j :: rest =>
    if s.vault.st != .ready then .next s
    else if !ok then .next (s.modNvm fun n => { n.write j false with tagFail := satAdd 16 n.tagFail 1 })
    else
      let s := (s.modNvm fun n => { n.write j true with queue := rest }).applyChange j
      match s.rst.due with
      | some (code, unit) => if s.nvm.queue.isEmpty then .next (s.moduleReset code unit) else .next s
      | none => .next s

/-- Compaction begins: the live state is frozen at s, the last SEQ, and the other half is erased (R457). -/
def execJournalCompact (s : State) : Host.Outcome State Fault Refusal :=
  let n := s.nvm
  if n.frozen.isSome || decide (n.records < compactAt n.half) || s.vault.st != .ready then .next s
  else
    let items := s.items
    .next (s.modNvm fun n => { n with
      frozen := some (n.seq, items), half0 := if n.half then [] else n.half0, half1 := if n.half then n.half1 else [] })

/-- Compaction ends: the other half holds the checkpoint and a copy of every record above s, and is the active one. -/
def execJournalCompactDone (s : State) : Host.Outcome State Fault Refusal :=
  match s.nvm.frozen with
  | none => .next s
  | some (at_, items) =>
    if s.vault.st != .ready then .next s
    else
      .next (s.modNvm fun n =>
        let cp := checkpointOf at_ n.seq items
        let h := cp ++ (if n.half then n.half1 else n.half0).filter fun r => r.good && decide (at_ < r.seq)
        { n with
          frozen := none, half := !n.half, records := h.length, seq := n.seq + cp.length
          half0 := if n.half then h else n.half0, half1 := if n.half then n.half1 else h
          compactions := satAdd 16 n.compactions 1, catalogue := keptCatalogue n.catalogue })

/-! ### The Vault (R459, R461) -/

def execDrbgReseed (s : State) : Host.Outcome State Fault Refusal :=
  if s.vault.st != .ready || decide (s.vault.generates < 2 ^ 20) then .next s
  else .next (s.modVault fun v => { v with generates := 0, reseeds := (v.reseeds + 1) % 2 ^ 32 })

/-- A health test or a known-answer test fails: ERROR until a module reset. A boot stops. -/
def execVaultHealthFail (selftest : Bool) (s : State) : Host.Outcome State Fault Refusal :=
  if s.vault.st == .error || s.boot.phase == .resetEntry then .next s
  else
    let code := if selftest then secSelftest else secEntropy
    let s := (s.modVault fun v => { v with st := .error, reason := code }).secRecord code sevModuleFatal none none 0xFF 0 0
    .next (if s.boot.phase == .released || s.boot.phase == .recovery then s else s.bootStop)

/-! ### Attestation (R460, R462) -/

/-- The fuse map of Table 15.2. Each of its words has a SECDED code outside the map. -/
def Fuses.bytes (f : Fuses) : List Byte :=
  leBytes f.serial.toNat 16 ++ leBytes f.mac.toNat 6 ++ [f.lifecycle, BitVec.ofNat 8 (b2n f.jtagOff)] ++
    leBytes f.vendorFp.toNat 64 ++ leBytes (2 ^ f.svnFloor - 1) 8 ++ leBytes 0 32 ++ leBytes f.trim.toNat 1024 ++
    leBytes f.repair.toNat 896

/-- Bytes of a value read little-endian. -/
def bvBytes {n : Nat} (v : BitVec n) (k : Nat) : List Byte := leBytes v.toNat k

/-- The entry of a context in the report. -/
def State.attestCtx (s : State) (c : CtxId) : List Byte :=
  let x := s.ctx c
  let d : Digest := match x.img with | some i => i.hdr.digest | none => 0
  bvBytes d 64 ++ [BitVec.ofNat 8 (stNum x.st), x.gen, BitVec.ofNat 8 (b2n (s.strictOf c)), BitVec.ofNat 8 (b2n x.restored)] ++
    bvBytes (x.snap.last.getD 0xFFFFFFFF) 4 ++ leBytes 0 24

/-- Bytes [1,791:0] of the report. -/
def State.attestBytes (s : State) (nonce : BitVec 256) : List Byte :=
  let b := s.boot
  let flags := b2n (b.phase == .recovery) + 2 * b2n b.trial + 4 * b2n b.fallback + 8 * b2n s.nvm.slot.active
  let fw : Digest := match b.fw with | some h => h.digest | none => 0
  let cf : Digest := match b.mod with | some m => m.hdr.digest | none => 0
  leBytes 1 4 ++ bvBytes nonce 32 ++ s.fuses.bytes.take 23 ++ [BitVec.ofNat 8 flags] ++ bvBytes fw 64 ++ bvBytes cf 64 ++ leBytes s.nvm.fwSvn 4 ++ leBytes s.nvm.cfgSvn 4 ++
  leBytes s.fuses.svnFloor 1 ++ leBytes s.nvm.resets 4 ++ leBytes 0 55 ++ allCtx.flatMap s.attestCtx

/-- A Vault in ERROR refuses a service that a command asks for, with the code of its entry to ERROR (R461, R464). -/
def State.vaultRefuses (s : State) (k : CmdExec) : State :=
  let code := s.vault.reason
  (s.secRecord code (secSev code) none none 0xFF 0 0).turnAway k none code true

/-- The report with its signature, or a refusal. -/
def execAttestReport (r : ReqHdr) (nonce : BitVec 256) (s : State) : Host.Outcome State Fault Refusal :=
  s.request r .attest .module true always fun s k _ =>
    if s.vault.st != .ready then s.vaultRefuses k
    else
      let report := s.attestBytes nonce
      let (sig, s) := s.signed (sha3_512 report)
      s.answered k (.bytes (report ++ bvBytes sig 4627))

/-- The device certificate that the identity area holds: header, identity public key, and the authority's signature (R460). -/
def Fuses.certificate (f : Fuses) : List Byte :=
  let c := f.bytes.take 22 ++ [0x01] ++ leBytes 0 233 ++ bvBytes Config.identityKey 2592
  c ++ bvBytes (Config.certified (sha3_512 c)) 4627

def execAttestCert (r : ReqHdr) (s : State) : Host.Outcome State Fault Refusal :=
  s.request r .attest .module true always fun s k _ =>
    if s.vault.st != .ready then s.vaultRefuses k
    else s.answered k (.bytes s.fuses.certificate)

/-! ### FW_STAGE, FW_COMMIT (R450, R451) -/

/-- The FW_STAGE row of Table 15.7: what refuses a bundle, and the state with its record. -/
def State.stageErr (s : State) (b : Bundle) (slot : Bool) (recv : Nat) : Option (Reason × State) :=
  let sec (code : Reason) (kind svn : Nat) : Reason × State :=
    (code, s.secRecord code (secSev code) none (some kind) (slotNum slot) svn 0x06)
  let cfg (e : CfgErr) : Reason × State := (e.code, s.cfgRecord e 0x06 none)
  if s.vault.st == .error then some (sec s.vault.reason 1 b.firmware.svn)
  else
    match s.verifyErr b.firmware 1 b.firmware.sigOk, s.verifyErr b.module.hdr 2 b.module.hdr.sigOk with
    | some code, _ => some (sec code 1 b.firmware.svn)
    | none, some code => some (sec code 2 b.module.hdr.svn)
    | none, none =>
      match formatErr b.firmware 1 (some recv), formatErr b.module.hdr 2 (some (recv - 0x1000000)) with
      | some e, _ => some (cfg e)
      | none, some e => some (cfg e)
      | none, none =>
        match s.modErr b.module false with
        | some e => some (cfg e)
        | none => if transferBad b.module then some (sec secTransfer 2 b.module.hdr.svn) else none

def execFwStage (r : ReqHdr) (offset length : Nat) (bundle : Bundle) (s : State) : Host.Outcome State Fault Refusal :=
  s.request r .fwStage .module (decide (length ≤ 9078)) always fun s k _ =>
    let slot := s.nvm.slot
    let target := !slot.active
    if !chunkOk s.boot.stage k.session offset then s.turnAway k none cmdChunk
    else
      let s := if s.boot.stage.isSome then s
        else (s.journal (.slot { slot with staging := some target, staged := false })).modNvm fun n =>
          { n with bundles := sdel (slotNum target) n.bundles }
      if !r.final then (s.modBoot fun b => { b with stage := some (k.session, offset + length) }).answered k
      else
        let s := (s.modBoot fun b => { b with stage := none }).modNvm fun n => { n with bundles := sset (slotNum target) bundle n.bundles }
        let s := if s.vault.st == .error then s else s.verified.verified
        match s.stageErr bundle target (offset + length) with
        | some (code, s) => s.turnAway k none code true
        | none =>
          (s.journal (.slot { slot with staging := some target, staged := true, digest := bundle.digest })).answered k

def execFwCommit (r : ReqHdr) (s : State) : Host.Outcome State Fault Refusal :=
  s.request r .fwCommit .module true (fun s _ => allCtx.all fun c => (s.ctx c).st == .empty) fun s k _ =>
    let slot := s.nvm.slot
    match slot.staging with
    | some t =>
      if slot.staged && t != slot.active then
        ({ s.begin_ with seqr := { s.begin_.seqr with modCmd := some k } }).journal
          (.slot { slot with active := t, previous := slot.active, trial := true, tries := 0 })
      else (s.secRecord secNotStaged sevError none none 0xFF 0 0).turnAway k none secNotStaged true
    | none => (s.secRecord secNotStaged sevError none none 0xFF 0 0).turnAway k none secNotStaged true

/-! ### The watchdog (R414, R436, R466) -/

/-- The watchdog. A module reset that has not released in 10 s it starts again; after the third that has not, the module stays in
reset. A released module whose Reeve no longer serves it it resets at once: a hung Reeve may or may not still send its notices
(log 113). -/
def execWatchdogExpiry (s : State) : Host.Outcome State Fault Refusal :=
  if !s.car.free then .next s
  else if s.boot.phase == .released || s.boot.phase == .recovery then
    .next (s.perhapsNotices.moduleReset rstWatchdog uReeve)
  else
    let n := s.rst.attempts + 1
    let s := (s.moduleReset rstWatchdog uReeve).modRst fun r => { r with attempts := n }
    if decide (3 ≤ n) then .next (s.modCar fun c => { c with third := true }) else .next s

/-- The Reeve's cores differ: a module reset, with its notices (R418). -/
def execLockstepMismatch (s : State) : Host.Outcome State Fault Refusal :=
  if s.boot.phase == .resetEntry then .next s else .next (s.allNotices.moduleReset rstWatchdog uReeve)

end Sys2Proof.Machine
end

