-- ==== Sys2Proof/Machine/Reeve.lean ====
section
/-!
DEFINITION. The Reeve's loops, clocks and gating (R466 to R488, 16_reeve_clocks_power.md): samples, the throttle ladder,
the power, thermal and input loops, PLLs, gated clock domains.
-/

namespace Sys2Proof.Machine

/-! ### The throttle ladder (R477 to R479, Table 16.4) -/

/-- Divider of a level. -/
def ladderDiv (l : Nat) : Nat := if l < 2 then 4 else if l < 4 then 5 else if l < 7 then 6 else 8

/-- IDLE of a level. -/
def ladderIdle (l : Nat) : Nat :=
  match l with
  | 1 | 3 | 5 | 8 => 1
  | 6 | 9 => 2
  | 10 => 4
  | 11 => 8
  | _ => 0

/-- The level of die d: the maximum of LP, LT_d and LF. -/
def State.levelOf (s : State) (d : Nat) : Nat := max s.pwr.lp (max (s.dieClk d).lt s.pwr.lf)

/-- The divider that is ordered, or else in force. -/
def DieClk.target (x : DieClk) : Nat := if x.next != 0 then x.next else x.div

/-- The divider is ordered to switch (R471); where it is in force already, only the set-point returns to it. -/
def DieClk.order (x : DieClk) (div : Nat) : DieClk :=
  if div == x.div then { x with next := 0, setDiv := div, edges := 0 } else { x with next := div, edges := 0 }

/-- The change that a new level orders: a slower divider switches and the set-point follows; a faster one raises the
set-point and is pending; within one divider only IDLE moves. A slower level cancels a pending change and applies at once. -/
def DieClk.toLevel (x : DieClk) (new : Nat) : DieClk :=
  let div := ladderDiv new
  let idle := ladderIdle new
  let slower := decide (x.level < new)
  let x := { x with steps := satAdd 32 x.steps 1, level := new }
  if x.pending != 0 && slower then ({ x with pending := 0, cancelled := satAdd 16 x.cancelled 1, idle := idle } : DieClk).order div
  else if decide (div < x.target) then { x with pending := div, setDiv := div }
  else if decide (x.target < div) then ({ x with idle := idle } : DieClk).order div
  else { x with idle := idle }

/-- A PWR_LEVEL record of die d. -/
def State.levelRecord (s : State) (d cause before after : Nat) : State :=
  s.pwrRecord 0x0A01 sevNotice d cause (some (before, after))

/-- Die d takes the level that the three floors give, for a cause (1 power, 2 thermal, 3 input). One record per cause and
die in 1 ms (R488): an entry of `win` is the level after of the last record, plus 256 where a change is withheld. -/
def State.applyLevel (s : State) (cause d : Nat) : State :=
  let x := s.dieClk d
  let new := s.levelOf d
  if new == x.level then s
  else
    let s := s.modDieClk d fun x => x.toLevel new
    match (x.win.find? fun e => e.1 == cause).map (·.2) with
    | some w => s.modDieClk d fun x => { x with win := sset cause (w % 256 + 256) x.win }
    | none => (s.levelRecord d cause x.level new).modDieClk d fun x => { x with win := sset cause new x.win }

/-- The compute dies follow a change of LP or LF. -/
def State.applyLevels (s : State) (cause : Nat) : State := (List.range 8).foldl (fun s d => s.applyLevel cause d) s

/-- SETTLE ends: the faster divider is ordered, and IDLE of the level with it. -/
def execSettleExpiry (d : DieId) (s : State) : Host.Outcome State Fault Refusal :=
  if (s.dieClk d.toNat).pending == 0 then .next s
  else .next (s.modDieClk d.toNat fun x => ({ x with pending := 0, idle := ladderIdle x.level } : DieClk).order x.pending)

/-- The 1 ms of a PWR_LEVEL record ends. -/
def execPwrLevelWindowEnd (d : DieId) (cause : BitVec 2) (s : State) : Host.Outcome State Fault Refusal :=
  let x := s.dieClk d.toNat
  match (x.win.find? fun e => e.1 == cause.toNat).map (·.2) with
  | none => .next s
  | some w =>
    if decide (256 ≤ w) && x.level != w % 256 then
      .next ((s.levelRecord d.toNat cause.toNat (w % 256) x.level).modDieClk d.toNat fun x =>
        { x with win := sset cause.toNat x.level x.win })
    else .next (s.modDieClk d.toNat fun x => { x with win := sdel cause.toNat x.win })

/-! ### Samples (R475, R476) -/

/-- Temperature sensors whose reading moved by more than 20 °C since the last sample. -/
def jumpedTemps (old new : Sample) : List (Nat × Nat) :=
  new.sensors.filter fun f => match old.sensor f.1 f.2, new.sensor f.1 f.2 with
    | some t, some t' => decide (200 < (t - t').natAbs)
    | _, _ => false

/-- Rails whose current moved by more than half of the rail's rating. -/
def jumpedRails (old new : Sample) : List Nat :=
  (List.range 24).filter fun r =>
    match old.rails[r]?, new.rails[r]? with
    | some (a, _), some (a', _) => decide (Config.rating r < 2 * ((a : Int) - a').natAbs)
    | _, _ => false

/-- A sample with the values that failed sensors are given: T_CRIT - 1, and the rail's rating. -/
def givenSample (x : Sample) (failT : List (Nat × Nat)) (failR : List Nat) : Sample :=
  let given (i k : Nat) (t : Int) : Int := if failT.contains (i, k) then 1090 else t
  { x with
    temps := x.temps.zipIdx.map fun e => e.1.zipIdx.map fun y => given e.2 y.2 y.1
    inlet := given 10 0 x.inlet
    outlet := given 11 0 x.outlet
    rails := x.rails.zipIdx.map fun e => if failR.contains e.2 then (Config.rating e.2, e.1.2) else e.1 }

/-- Sensors that fail in a sample: records, and the sample as the Reeve uses it. -/
def State.takeSample (s : State) (x : Sample) : State :=
  let p := s.pwr
  let (jt, jr) := match p.last with | some o => (jumpedTemps o x, jumpedRails o x) | none => ([], [])
  let newT := x.sensors.filter fun f => (jt.contains f || x.badTemp.contains f) && !p.failT.contains f
  let newR := (List.range 24).filter fun r => (jr.contains r || x.badRail.contains r) && !p.failR.contains r
  let failT := p.failT ++ newT
  let failR := p.failR ++ newR
  let y := givenSample x failT failR
  let s := s.modPwr fun p => { p with
    samples := if p.last.isNone then p.samples else p.samples + 1
    stamp := s.clk.reeve
    last := some y
    failT := failT
    failR := failR
    failed := satAdd 16 p.failed (newT.length + newR.length)
    recent := (y.power :: p.recent).take 100
    hist := y.power :: p.hist }
  let s := newT.foldl (fun s f => s.pwrRecord 0x0A09 sevError (if f.1 < 10 then f.1 else 0xFF) 0x04 none (y.sensor f.1 f.2)) s
  newR.foldl (fun s r => s.pwrRecord 0x0A09 sevError 0xFF 0x04 none none r) s

/-! ### The power loop (R480) -/

def sumOf (l : List Nat) : Nat := l.foldl (· + ·) 0

/-- What the loop makes of LP, and whether by a fast rise. -/
def Power.nextLp (p : Power) (power : Nat) : Nat × Bool :=
  let k := p.policy
  let n := p.hist.length
  let up := p.hist.take k.uphold
  if decide (k.pcap * k.fastlim < power * 100) && decide (p.lp < 11) then (min 11 (p.lp + 2), true)
  else if decide (k.dwell ≤ n) && decide (k.pcap * n < sumOf p.hist) && decide (p.lp < 11) then (p.lp + 1, false)
  else if decide (k.uphold ≤ n) && decide (sumOf up * 100 < k.pcap * (100 - k.hyst) * k.uphold) && decide (0 < p.lp) then
    (p.lp - 1, false)
  else (p.lp, false)

/-- The power loop on a sample that has joined `hist`. -/
def State.powerLoop (s : State) (power : Nat) : State :=
  let p := s.pwr
  let (lp, fast) := p.nextLp power
  if lp != p.lp then
    (s.modPwr fun p => { p with lp := lp, hist := [], capFloor := false, fast := satAdd 16 p.fast (b2n fast) }).applyLevels 1
  else
    let k := p.policy
    let up := sumOf (p.hist.take k.uphold)
    if p.lp == 11 && decide (k.uphold ≤ p.hist.length) then
      if decide (k.pcap * k.uphold < up) && !p.capFloor then
        (s.modPwr fun p => { p with capFloor := true, floors := satAdd 16 p.floors 1 }).pwrRecord 0x0A02 sevError 0xFF 0x01
      else if decide (up < k.pcap * k.uphold) then s.modPwr fun p => { p with capFloor := false }
      else s
    else s

/-! ### The input floor, rails and trips (R482 to R484) -/

/-- LF, and PWR_INPUT once per excursion. -/
def State.inputLoop (s : State) (vin : Nat) : State :=
  if decide (vin < 4000) || decide (6000 < vin) then
    let first := !s.pwr.inputOut
    let before := s.pwr.lf
    let s := (s.modPwr fun p => { p with inputOut := true, good := 0, lf := 11 }).applyLevels 3
    if first then s.pwrRecord 0x0A05 sevError 0xFF 0x03 (some (before, 11)) else s
  else
    let s := s.modPwr fun p => { p with inputOut := false, good := min 100 (p.good + 1) }
    if s.pwr.lf != 0 && s.pwr.good == 100 then (s.modPwr fun p => { p with lf := 0 }).applyLevels 3 else s

/-- Rails more than 10% off their set-point; VIN has none. -/
def State.offRails (s : State) (x : Sample) : List Nat :=
  (List.range 24).filter fun r =>
    let set := s.setPointOf r
    match x.rails[r]? with
    | some (_, v) => r != 22 && decide (set < 10 * ((v : Int) - set).natAbs)
    | none => false

/-- A rail off its set-point in two consecutive samples resets the module. -/
def State.railCheck (s : State) (x : Sample) : State :=
  let off := s.offRails x
  let twice := off.filter s.pwr.off.contains
  let s := s.modPwr fun p => { p with off := off }
  match twice with
  | [] => s
  | _ => (twice.foldl (fun s r => s.pwrRecord 0x0A06 sevModuleFatal 0xFF 0x04 none none r) s).dueReset 0x0A06 uReeve

/-- A die or the coolant outlet at T_CRIT resets the module. -/
def State.tripCheck (s : State) (x : Sample) : State :=
  let hot := (List.range 10).filter fun i => decide (1100 ≤ (x.hot i).1)
  let outlet := decide (1100 ≤ x.outlet)
  if hot.isEmpty && !outlet then s
  else
    let s := hot.foldl (fun s i => s.pwrRecord 0x0A04 sevModuleFatal i 0x02) s
    let s := if outlet then s.pwrRecord 0x0A04 sevModuleFatal 0xFF 0x02 none (some x.outlet) else s
    s.dueReset 0x0A04 uReeve

/-- Samples at each level of each die. -/
def State.levelTimes (s : State) : State :=
  (List.range 8).foldl (fun s d => s.modDieClk d fun x => { x with
    above := (x.above + b2n (x.level != 0)) % 2 ^ 32, at11 := (x.at11 + b2n (x.level == 11)) % 2 ^ 32 }) s

/-- The Reeve samples after release. -/
def State.sampling (s : State) : Bool := s.boot.phase == .released || s.boot.phase == .recovery

def execSample (x : Sample) (s : State) : Host.Outcome State Fault Refusal :=
  if !s.sampling then .next s
  else
    let s := s.takeSample x
    match s.pwr.last with
    | none => .next s
    | some y => .next (((((s.powerLoop y.power).inputLoop y.vin).levelTimes).railCheck y).tripCheck y)

/-! ### The thermal loop (R481) -/

/-- A die's crossing above its warning limit. -/
def State.warnCheck (s : State) (i : Nat) (t : Int) (limit : Nat) : State :=
  if decide ((limit * 10 : Int) < t) then
    if s.pwr.warned.contains i then s
    else (s.modPwr fun p => { p with warned := p.warned ++ [i] }).pwrRecord 0x0A03 sevNotice i 0x02
  else s.modPwr fun p => { p with warned := p.warned.filter (· != i) }

/-- LT of a compute die, and its level. -/
def State.thermalDie (s : State) (d : Nat) (t : Int) : State :=
  let k := s.pwr.policy
  let s := s.modDieClk d fun x =>
    if decide ((k.tThrot * 10 : Int) < t) then { x with lt := min 11 (x.lt + 1), cool := 0 }
    else if decide (t < (k.tThrot * 10 : Int) - 50) then
      if decide (100 ≤ x.cool + 1) then { x with lt := x.lt - 1, cool := 0 } else { x with cool := x.cool + 1 }
    else { x with cool := 0 }
  (s.applyLevel 2 d).warnCheck d t k.tWarn

def execThermalCompare (s : State) : Host.Outcome State Fault Refusal :=
  match s.pwr.last with
  | none => .next s
  | some x =>
    if !s.sampling then .next s
    else
      let s := (List.range 8).foldl (fun s d => s.thermalDie d (x.hot d).1) s
      .next ([8, 9].foldl (fun s i => s.warnCheck i (x.hot i).1 s.pwr.policy.tThrot) s)

/-! ### Link margins (R330, R475) -/

/-- Lanes whose corrected symbols pass FAB_MARGIN are dropped. -/
def execLinkMarginRead (ms : List Margin) (s : State) : Host.Outcome State Fault Refusal :=
  if !s.sampling then .next s
  else
    .next (ms.foldl (fun s m => (List.range 8).foldl (fun s i =>
      match m.corrected[i]? with
      | some n => if decide ((s.port m.port.toNat).margin.toNat < n) then s.reeveDrop m.port.toNat (BitVec.ofNat 3 i) else s
      | none => s) s) s)

/-! ### PLLs (R472) -/

/-- The clock block. -/
def uClk : UnitId := 0x0C01

def execRootPllUnlock (s : State) : Host.Outcome State Fault Refusal :=
  if s.boot.phase == .resetEntry then .next s else .next (s.perhapsNotices.moduleReset pwrPll uClk)

/-- Units with a PLL of their own: Cellars and links of a die, Granary devices, fabric ports, the Gate (R469), and the links' ends
at the hubs, which go by 0x0A00 and 0x0A01 as the dies do (log 105). -/
def ownPll (u : UnitId) : Bool :=
  let inR (lo n : Nat) : Bool := decide (lo ≤ u.toNat) && decide (u.toNat < lo + n)
  inR 0x0300 8 || inR 0x0310 12 || inR 0x0700 16 || u == uGate || inR 0x0A00 2

/-- A PHY PLL loses lock: its unit has hung. A die-to-die link of HD1 is reset with the die, one of HD0 with the module. -/
def execPhyPllUnlock (u : UnitId) (s : State) : Host.Outcome State Fault Refusal :=
  if !ownPll u || s.boot.phase == .resetEntry then .next s
  else
    let s := s.modPwr fun p => { p with lostLocks := satAdd 8 p.lostLocks 1 }
    .next (if u == uHarvest 0 then s.escalateModule 0 u else if u == uHarvest 1 then s.startDie 8 else s.startEngine u)

/-! ### The 120 °C comparator (R482) -/

/-- The rails are removed: everything that is not kept without power is lost, what the watchdog holds among it. -/
def State.railsLost (s : State) : State :=
  s.wiped.modRst fun r => { r with modCause := none, carried := [], attempts := 0, begun := 0 }

/-- A die reaches 120 °C; the latch holds the module in reset until VIN is cycled. -/
def execComparatorTrip (d : Nat) (s : State) : Host.Outcome State Fault Refusal :=
  if 10 ≤ d || !s.car.railsOn then .next s else .next (s.railsLost.modCar fun c => { c with latch := true, under := false })

/-! ### Gated clock domains (R473, Table 16.3) -/

/-- A core whose threads are all HALTED or PAUSED, with nothing in flight. -/
def State.coreQuiet (s : State) (g : Nat) : Bool :=
  (s.coreCtx g).isNone || [0, 1, 2, 3].all fun t =>
    let x := s.thr (mkTh g t)
    (x.st == .halted || x.st == .paused) && !x.flying

def execCoreGate (g : CoreId) (s : State) : Host.Outcome State Fault Refusal :=
  if s.coreQuiet g.toNat then .next (s.modCore g.toNat fun c => { c with gated := true }) else .next s

/-- An engine with every channel IDLE and no request outstanding. -/
def State.engineQuiet (s : State) (q : Nat) : Bool :=
  (s.engine q).chans.all fun e => e.2.st == .idle && e.2.reads.isEmpty && e.2.writes.isEmpty

def execQuadGate (q : QuadId) (s : State) : Host.Outcome State Fault Refusal :=
  let k := q.toNat / 2
  if s.engineQuiet (2 * k) && s.engineQuiet (2 * k + 1) then
    .next (s.modPwr fun p => { p with quadOn := p.quadOn.filter (· != k) })
  else .next s

/-- Every reduction, put, feed and Harvest engine of hub h is idle. -/
def State.hubQuiet (s : State) (h : Nat) : Bool :=
  ([0, 1, 2, 3].all fun e => (s.redEng (4 * h + e)).slots.isEmpty) && (s.fab.puts.all fun x => s.putHub x.dest != h) &&
    (s.fab.putsIn.all fun x => s.putHub x.src != h) &&
    (h != 0 || allCtx.all fun c => (s.ctx c).feed.flight.isEmpty) && (allCtx.all fun c => !s.snapLive c) &&
    s.harv.hosted.all fun x => !x.compacting && x.incoming.isEmpty

def execHubEngineGate (h : Fin 2) (s : State) : Host.Outcome State Fault Refusal :=
  if s.hubQuiet h.val then .next (s.modPwr fun p => { p with hubOn := p.hubOn.filter (· != h.val) }) else .next s

end Sys2Proof.Machine
end

