-- ==== Sys2Proof/Machine/Carrier.lean ====
section
/-!
DEFINITION. The carrier's side (R490 to R506, 17_carrier_interface.md): input voltage, standby, the reference, RESET_N, and
the two status outputs.
-/

namespace Sys2Proof.Machine

/-- MOD_RELEASED is high (Table 17.3). -/
def State.modReleased (s : State) : Bool := s.boot.phase == .released || s.boot.phase == .recovery

/-- MOD_FAULT_N is low: held in reset by a lockout, the reference, the comparator, or the third failed attempt. -/
def State.modFault (s : State) : Bool := !s.car.vin || !s.car.refclk || s.car.latch || s.car.third

/-- NVM_RESET_N is high: the module drives it low for the whole of RESET_ENTRY (R498). -/
def State.nvmResetN (s : State) : Bool := s.boot.phase != .resetEntry

/-- VIN leaves 38 to 62 V: every rail but standby is removed (R492). A fall below 38 V is the first half of the cycle that
clears the comparator latch. -/
def execVinLockout (mv : Int) (s : State) : Host.Outcome State Fault Refusal :=
  if mv < -60000 ∨ 65000 < mv then .fault .beyondAbsoluteLimits
  else if 38000 ≤ mv ∧ mv ≤ 62000 then .next s
  else .next (s.railsLost.modCar fun c => { c with vin := false, under := c.under || decide (mv < 38000), third := false })

/-- VIN has been in range for 10 ms. -/
def execVinReturn (s : State) : Host.Outcome State Fault Refusal :=
  .next (s.modCar fun c => { c with vin := true, latch := c.latch && !c.under, under := false }).bootStart

/-- Standby is lost: every rail is removed, and the always-on domain with its latch. -/
def execVstbyLoss (s : State) : Host.Outcome State Fault Refusal :=
  .next (s.railsLost.modCar fun c => { c with vstby := false, latch := false, under := false, third := false })

def execVstbyReturn (s : State) : Host.Outcome State Fault Refusal :=
  .next (s.modCar fun c => { c with vstby := true }).bootStart

/-- REFCLK stops: every rail but standby is removed (R497). -/
def execRefclkLoss (s : State) : Host.Outcome State Fault Refusal :=
  .next (s.railsLost.modCar fun c => { c with refclk := false })

def execRefclkReturn (s : State) : Host.Outcome State Fault Refusal :=
  .next (s.modCar fun c => { c with refclk := true }).bootStart

/-- RESET_N has been low for 100 µs: a module reset, which ends when RESET_N rises (R414, R496). With the rails away it only keeps
the module from booting. -/
def execCarrierReset (s : State) : Host.Outcome State Fault Refusal :=
  if !s.car.resetN then .next s
  else if !s.car.railsOn then .next (s.modCar fun c => { c with resetN := false, third := false })
  else
    let s := (s.allNotices.moduleReset causeCarrier.1 causeCarrier.2).modRst fun r => { r with attempts := 0 }
    .next (s.modCar fun c => { c with resetN := false, third := false })

def execResetNRise (s : State) : Host.Outcome State Fault Refusal :=
  .next (s.modCar fun c => { c with resetN := true }).bootStart

end Sys2Proof.Machine
end

