-- ==== Sys2Proof/Machine/Tile.lean ====
section
/-!
DEFINITION. Tile instructions and the events of the tile engine (04_tiles_and_arrays.md, R99 to R138): checks in the
order of R116, the coalescer, the arrays' activity, retirement.
-/

namespace Sys2Proof.Machine

/-! ### Issue -/

/-- A tile instruction at issue: its registers, one tile instruction in flight per thread (R124), its encoding. -/
def tileInstr (s : State) (th : ThreadId) (regs : List Reg) (legal : Bool) (w : BitVec 32) (act : State → State) :
    Host.Outcome State Fault Refusal :=
  issueWith s th regs fun s =>
    if (s.thr th).tfly.isSome then s.stall th .retire
    else if !legal then s.illegal th w
    else act s

/-- A check that failed: code, tile, format field. -/
abbrev TileBad := Reason × Nat × BitVec 4

/-- The first failing check, in order. -/
def firstBad (l : List (Bool × TileBad)) : Option TileBad := (l.find? (·.1)).map (·.2)

/-- Raise the first failing check, or go on. -/
def State.tileChecks (s : State) (th : ThreadId) (l : List (Bool × TileBad)) (ok : State → State) : State :=
  match firstBad l with
  | some (code, n, field) => s.tileFault th code n field
  | none => ok s

def isInvalid (f : BitVec 4) : Bool := f == 0xF

/-! ### Loads and stores (R105 to R110) -/

/-- Encoding of TLD, TST: a format of Table 4.1, and no scale register without an MX format. -/
def tmemLegal (f : TMem) : Bool := tileFmtOk f.fmt && (isMx f.fmt || f.rsc == 0)

/-- Parts of a tile access of the thread. -/
def tmemParts (t : Thread) (f : TMem) : List Part :=
  tileParts f.fmt (f.n.toNat + 1) (t.xr f.rb) (rowStride (t.xr f.rs)) (t.xr f.rsc) (scaleStride (t.xr f.rs))

def execTld (th : ThreadId) (f : TMem) (s : State) : Host.Outcome State Fault Refusal :=
  tileInstr s th [f.rb, f.rs, f.rsc] (tmemLegal f) (encTMem 0x38 f) fun s =>
    s.access th { kind := .load, parts := tmemParts (s.thr th) f, fin := .tld f.t f.fmt f.n.toNat }

def execTst (th : ThreadId) (f : TMem) (s : State) : Host.Outcome State Fault Refusal :=
  tileInstr s th [f.rb, f.rs, f.rsc] (tmemLegal f) (encTMem 0x39 f) fun s =>
    let t := s.thr th
    let r := t.treg f.t.toNat
    let n := f.t.toNat
    s.tileChecks th [(isInvalid r.fmt, tileInvalid, n, f.fmt), (r.fmt != f.fmt, tileFmtCode, n, f.fmt)] fun s =>
      s.access th { kind := .store, parts := tileData r (tmemParts t f), fin := .tst n }

/-- Bench offset of a source row of TLDT: the row lies in the thread's own Bench, by either window (R109). -/
def ownOff (th : ThreadId) (va : Word) : Option Nat :=
  let a := va.toNat
  if a + 64 ≤ 0x100000 then some a
  else if 0x100000000 ≤ a && a < 0x180000000 && (a - 0x100000000) / 0x100000 == thCore th &&
    decide (a % 0x100000 + 64 ≤ 0x100000) then some (a % 0x100000)
  else none

/-- The transposing load: it reads the first 16 elements of each source row from the own Bench (Table 6.2) and never waits for
memory. An uncorrectable error in a source row
aborts it as a load (Table 6.11; TILE_ABORT shows its n rows, DEDUCED, log 29). -/
def execTldt (th : ThreadId) (f : TMem) (s : State) : Host.Outcome State Fault Refusal :=
  tileInstr s th [f.rb, f.rs] (tileFmtOk f.fmt && f.rsc == 0) (encTMem 0x3A f) fun s =>
    let t := s.thr th
    let k := tileK f.fmt
    let vas := (List.range k).map fun i => t.xr f.rb + BitVec.ofNat 64 i * rowStride (t.xr f.rs)
    let offs := vas.filterMap (ownOff th)
    if isMx f.fmt || offs.length != k then s.tileFault th tileXpose f.t.toNat f.fmt
    else
      match vas.find? fun va => va.toNat % 64 != 0 with
      | some va => s.accFault th ⟨.load, [], .ld 0 64 false⟩ ⟨va, 64, 0, []⟩ memAlign 0 0 true
      | none =>
        let locs := offs.map fun o => benchLoc (thCore th) o
        if t.behind locs then s.stall th .retire
        else if (s.core (thCore th)).promised then s.stall th .bench
        else
          match (vas.zip locs).find? fun x => s.poisonIn x.2 (2 * elemBits f.fmt) with
          | some (va, l) =>
            s.eccFault th ⟨.load, [], .tld f.t f.fmt 0⟩ ⟨va, 64, 0, []⟩ l (f.n.toNat + 1)
          | none =>
            s.fly th .tile [.t f.t.toNat (transposeRows f.fmt (f.n.toNat + 1) (locs.map fun l => leNat (s.peek l 64)))]

/-- Rows of an accumulator access of the thread. -/
def taccParts (t : Thread) (f : TAcc) : List Part := accParts (t.xr f.rb) (rowStride (t.xr f.rs))

def execTald (th : ThreadId) (f : TAcc) (s : State) : Host.Outcome State Fault Refusal :=
  tileInstr s th [f.rb, f.rs] (f.mbz == 0) (encTAcc 0 f) fun s =>
    s.access th { kind := .load, parts := taccParts (s.thr th) f, fin := .tald f.a f.int }

/-- Accumulator format that an INT bit stands for. -/
def intFmt (int : Bool) : BitVec 4 := if int then 0xD else 0x0

def execTast (th : ThreadId) (f : TAcc) (s : State) : Host.Outcome State Fault Refusal :=
  tileInstr s th [f.rb, f.rs] (f.mbz == 0) (encTAcc 1 f) fun s =>
    let t := s.thr th
    let a := t.areg f.a.toNat
    let n := 8 + f.a.toNat
    s.tileChecks th [(isInvalid a.fmt, tileInvalid, n, 0xF), (a.fmt != intFmt f.int, tileFmtCode, n, 0xF),
        (a.poison, tilePoison, n, 0xF)] fun s =>
      s.access th { kind := .store, parts := accData a (taccParts t f), fin := .tst n }

def execTazero (th : ThreadId) (a : BitVec 2) (mbz10 : BitVec 10) (int : Bool) (mbz11 : BitVec 11) (s : State) :
    Host.Outcome State Fault Refusal :=
  tileInstr s th [] (mbz10 == 0 && mbz11 == 0) (encTazero a mbz10 int mbz11) fun s =>
    s.fly th .tile [.a a.toNat { fmt := intFmt int }]

/-! ### TACVT (R111, R112, R116) -/

/-- Encoding of a conversion, as far as the fields alone tell: rm, an odd As for an MX destination. -/
def tcvtLegal (f : TCvt) : Bool :=
  f.mbz == 0 && tileFmtOk f.fmt && f.rm != 3 && !(isMx f.fmt && f.as.getLsbD 0) && !(isInt f.fmt && f.rm != 0) &&
    decide (f.cg.toNat < (if isInt f.fmt then 512 / elemBits f.fmt / 16
      else if isMx f.fmt then tileK f.fmt / 32 else tileK f.fmt / 16))

def execTacvt (th : ThreadId) (f : TCvt) (s : State) : Host.Outcome State Fault Refusal :=
  tileInstr s th [] (tcvtLegal f) (encTCvt f) fun s =>
    let t := s.thr th
    let i := f.as.toNat
    let mx := isMx f.fmt
    let a := t.areg i
    let a1 := t.areg (i + 1)
    let d := f.td.toNat
    let td := t.treg d
    let part := f.cg != 0
    s.tileChecks th [
        (isInvalid a.fmt, tileInvalid, 8 + i, 0xF), (mx && isInvalid a1.fmt, tileInvalid, 9 + i, 0xF),
        (part && isInvalid td.fmt, tileInvalid, d, f.fmt),
        ((cvtGroup a.fmt f.fmt).isNone, tileFmtCode, 8 + i, 0xF), (mx && a1.fmt != 0x0, tileFmtCode, 9 + i, 0xF),
        (part && td.fmt != f.fmt, tileFmtCode, d, f.fmt),
        (a.poison, tilePoison, 8 + i, 0xF), (mx && a1.poison, tilePoison, 9 + i, 0xF)] fun s =>
      if a.bad then s.tileEccSource th (8 + i) 0xF
      else if mx && a1.bad then s.tileEccSource th (9 + i) 0xF
      else if part && td.bad then s.tileEccSource th d f.fmt
      else
        let (r, fl) := cvtRun t.vec.strict a a1 td f.fmt f.rm f.cg.toNat t.tile.key t.tile.ctr t.vec.step
        s.fly th .tile ([.t d r, .flags fl] ++ if f.rm == 2 && f.fmt != 0x0 then [.tileCtr] else [])

/-! ### Products (R113 to R132) -/

/-- What a member of a pass writes: its product, or the effects of an uncorrectable error (Table 4.5). `u` is the tile
that the pass reads for U, `uBad` whether it holds an error; only its owner's tile becomes INVALID. -/
def mmaWrites (t : Thread) (m : Mma) (u : TileReg) (uBad ownU : Bool) : List Wr × List Nat :=
  let tr := t.treg m.f.t.toNat
  let a := t.areg m.f.a.toNat
  let bad := (if tr.bad then [m.f.t.toNat] else []) ++
    (if uBad && ownU && m.f.u != m.f.t then [m.f.u.toNat] else []) ++
    (if !m.zero && a.bad then [8 + m.f.a.toNat] else [])
  if tr.bad || uBad || (!m.zero && a.bad) then
    ([.a m.f.a.toNat a.poisoned] ++ (bad.filter (· < 8)).map fun n => Wr.t n TileReg.invalid, bad)
  else
    let (r, fl) := mmaRun t.vec.strict m.zero tr u a t.tile.trm t.tile.tbm t.tile.tkm
    ([.a m.f.a.toNat r, .flags fl], [])

/-- Two tiles agree in all that a product reads. -/
def TileReg.same (a b : TileReg) : Bool := a.fmt == b.fmt && a.rows == b.rows && a.data == b.data && a.side == b.side

/-- What the arrays use for U: the operand-reuse latches where they hold an equal tile, which is then not read again, else
the tile itself (R122). -/
def Core.operandU (c : Core) (u : TileReg) : TileReg :=
  match c.latch with
  | some l => if l.same u then l else u
  | none => u

/-- A group issues to the arrays as one pass: U is the first member's (R132). An error that only the latches hold makes no
tile INVALID, and they are read anew. The products run on the tiles as they are now, checked when they arrived (DESIGN
CHOICE, log 131). -/
def State.issuePass (s : State) (g : Nat) (ms : List Mma) : State :=
  match ms with
  | [] => s
  | m0 :: _ =>
    let t := (s.thr m0.th).treg m0.f.u.toNat
    let u := (s.core g).operandU t
    let s := s.modCore g fun c => { c with
      arr := .active, idleLo := c.idle.toNat, idleHi := c.idle.toNat,
      cntMerge := c.cntMerge + b2n (decide (2 ≤ ms.length)), latch := if u.bad then none else some u }
    let s := if u.bad && !t.bad then s.tileEccRecord m0.th m0.f.u.toNat else s
    ms.foldl (fun s m =>
      let (ws, bad) := mmaWrites (s.thr m.th) m u u.bad (m.th == m0.th && t.bad)
      let s := bad.foldl (fun s n => s.tileEccRecord m.th n) s
      s.fly m.th .array ws) s

/-- The arrays take the oldest ready pass, if one is there. -/
def State.nextPass (s : State) (g : Nat) : State :=
  match (s.core g).ready with
  | [] => s
  | ms :: rest => (s.modCore g fun c => { c with ready := rest }).issuePass g ms

/-- A pass becomes ready: it issues if the arrays are in hold, or waits for them (R123, R126). -/
def State.passReady (s : State) (g : Nat) (ms : List Mma) : State :=
  let s := s.modCore g fun c => { c with ready := c.ready ++ [ms] }
  let s := ms.foldl (fun s m => s.modThr m.th fun t => { t with st := .waitUnit, why := .array }) s
  match (s.core g).arr with
  | .hold => s.nextPass g
  | .off => s.modCore g fun c => { c with arr := .rampUp }
  | .rampDown => s.modCore g fun c => { c with arr := .rampUp }
  | .rampUp => s
  | .active => s

/-- A group closes and goes to the arrays. -/
def State.closeGroup (s : State) (g : Nat) (k : Nat) : State :=
  match (s.core g).groups[k]? with
  | none => s
  | some x => (s.modCore g fun c => { c with groups := c.groups.eraseIdx k }).passReady g x.members

/-- Two products may share a group (R129). -/
def State.mmaMatch (s : State) (a b : Mma) : Bool :=
  let ta := s.thr a.th
  let tb := s.thr b.th
  let ua := ta.treg a.f.u.toNat
  let ub := tb.treg b.f.u.toNat
  a.zero == b.zero && a.f.u == b.f.u && ua == ub && a.f.tfmt == b.f.tfmt && a.f.ufmt == b.f.ufmt &&
    ta.tile.tkm == tb.tile.tkm

/-- Active rows of a waiting product. -/
def State.mmaRows (s : State) (m : Mma) : Nat :=
  let t := s.thr m.th
  activeRows (t.treg m.f.t.toNat) t.tile.trm

def State.groupRows (s : State) (x : Group) : Nat := x.members.foldl (fun n m => n + s.mmaRows m) 0

/-- Open a group for a product. -/
def State.openGroup (s : State) (m : Mma) : State :=
  let g := thCore m.th
  (s.modCore g fun c => { c with groups := c.groups ++ [⟨[m], c.window.toNat⟩] }).modThr m.th fun t =>
    { t with st := .waitUnit, why := .group }

/-- The coalescer takes a product (R130). -/
def State.coalesce (s : State) (m : Mma) : State :=
  let g := thCore m.th
  let t := s.thr m.th
  let n := s.mmaRows m
  if (s.core g).window == 0 || n == 16 || n == 0 || t.tile.tbm == 0 then s.passReady g [m]
  else
    match (s.core g).groups.findIdx? fun x => match x.members with | m0 :: _ => s.mmaMatch m0 m | [] => false with
    | none => s.openGroup m
    | some k =>
      let x := ((s.core g).groups[k]?).getD ⟨[], 0⟩
      let total := s.groupRows x + n
      if total > 16 then (s.closeGroup g k).openGroup m
      else
        let s := s.modCore g fun c => { c with groups := c.groups.modify k fun x => { x with members := x.members ++ [m] } }
        let s := s.modThr m.th fun t => { t with st := .waitUnit, why := .group }
        if total == 16 then s.closeGroup g k else s

/-- TMMA and TMMAZ. -/
def product (th : ThreadId) (zero : Bool) (f : TMul) (s : State) : Host.Outcome State Fault Refusal :=
  tileInstr s th [] (f.mbz == 0 && tileFmtOk f.tfmt && tileFmtOk f.ufmt) (encTMul (if zero then 0x3D else 0x3C) f) fun s =>
    let t := s.thr th
    let tr := t.treg f.t.toNat
    let u := t.treg f.u.toNat
    let a := t.areg f.a.toNat
    let n := 8 + f.a.toNat
    s.tileChecks th [
        (isInvalid tr.fmt, tileInvalid, f.t.toNat, f.tfmt), (isInvalid u.fmt, tileInvalid, f.u.toNat, f.ufmt),
        (!zero && isInvalid a.fmt, tileInvalid, n, 0xF),
        (tr.fmt != f.tfmt, tileFmtCode, f.t.toNat, f.tfmt), (u.fmt != f.ufmt, tileFmtCode, f.u.toNat, f.ufmt),
        ((pairAcc f.tfmt f.ufmt).isNone, tileFmtCode, f.u.toNat, f.ufmt),
        (!zero && some a.fmt != pairAcc f.tfmt f.ufmt, tileFmtCode, n, 0xF),
        (!zero && a.poison, tilePoison, n, 0xF)] fun s =>
      if t.tile.tkm == 0 then
        s.fly th .tmma (if zero then [.a f.a.toNat (mmaZeroed f.tfmt f.ufmt)] else [])
      else s.coalesce ⟨th, zero, f⟩

def execTmma (th : ThreadId) (f : TMul) (s : State) : Host.Outcome State Fault Refusal := product th false f s

def execTmmaz (th : ThreadId) (f : TMul) (s : State) : Host.Outcome State Fault Refusal := product th true f s

/-! ### Housekeeping (R135, Table 4.10) -/

/-- Shape of opcode 0x3E. -/
def tileMisc (th : ThreadId) (fn : Nat) (rd rs1 rs2 : Reg) (regs : List Reg) (legal : Bool) (act : State → State)
    (s : State) : Host.Outcome State Fault Refusal :=
  tileInstr s th regs legal (encR 0x3E fn rd rs1 rs2) act

def execTzero (th : ThreadId) (rd rs1 rs2 : Reg) (s : State) : Host.Outcome State Fault Refusal :=
  tileMisc th 0 rd rs1 rs2 [] (decide (rd.toNat < 8) && !rs1.getLsbD 4 && tileFmtOk (rs1.setWidth 4) && rs2 == 0) (fun s =>
    s.fly th .tile [.t rd.toNat { fmt := rs1.setWidth 4 }]) s

/-- Rows at and beyond ROWS read as 0, and an instruction that writes the tile writes them as 0 (R101). -/
def TileReg.cut (r : TileReg) : TileReg :=
  { r with
    data := r.data &&& BitVec.ofNat 8192 (2 ^ (512 * r.rows) - 1)
    side := r.side &&& BitVec.ofNat 512 (2 ^ (32 * r.rows) - 1) }

def execTmov (th : ThreadId) (rd rs1 rs2 : Reg) (s : State) : Host.Outcome State Fault Refusal :=
  tileMisc th 1 rd rs1 rs2 [] (decide (rd.toNat < 8) && decide (rs1.toNat < 8) && rs2 == 0) (fun s =>
    let r := (s.thr th).treg rs1.toNat
    s.tileChecks th [(isInvalid r.fmt, tileInvalid, rs1.toNat, 0xF)] fun s =>
      if r.bad then s.tileEccSource th rs1.toNat 0xF else s.fly th .tile [.t rd.toNat r.cut]) s

def execTinv (th : ThreadId) (rd rs1 rs2 : Reg) (s : State) : Host.Outcome State Fault Refusal :=
  tileMisc th 2 rd rs1 rs2 [] (decide (rd.toNat < 12) && rs1 == 0 && rs2 == 0) (fun s =>
    s.fly th .tile [if rd.toNat < 8 then .t rd.toNat TileReg.invalid else .a (rd.toNat - 8) AccReg.invalid]) s

def execTtag (th : ThreadId) (rd rs1 rs2 : Reg) (s : State) : Host.Outcome State Fault Refusal :=
  tileMisc th 3 rd rs1 rs2 [rd] (decide (rs1.toNat < 12) && rs2 == 0) (fun s =>
    let t := s.thr th
    s.fly th .tile [.x rd (if rs1.toNat < 8 then (t.treg rs1.toNat).tag else (t.areg (rs1.toNat - 8)).tag)]) s

def execTsetm (th : ThreadId) (rd rs1 rs2 : Reg) (s : State) : Host.Outcome State Fault Refusal :=
  tileMisc th 4 rd rs1 rs2 [rs1] (rd == 0 && decide (rs2.toNat < 3)) (fun s =>
    s.fly th .tile [.mask rs2.toNat (((s.thr th).xr rs1).setWidth 16)]) s

def execTgetm (th : ThreadId) (rd rs1 rs2 : Reg) (s : State) : Host.Outcome State Fault Refusal :=
  tileMisc th 5 rd rs1 rs2 [rd] (rs1 == 0 && rs2 == 0) (fun s =>
    s.fly th .tile [.x rd (s.thr th).tile.maskWord]) s

/-! ### Retirement and activity -/

/-- One thread's tile instruction retires. -/
def State.tileLand (s : State) (th : ThreadId) : State :=
  match (s.thr th).tfly with
  | none => s
  | some f =>
    let s := s.modThr th fun t => { t with tfly := none, csr := { t.csr with instret := t.csr.instret + 1 } }
    let s := (s.applyWrs th f.wr).countRetired th false (f.unit == .tmma || f.unit == .array)
    s.landed th

/-- A pass has run its beats: its idle beats are counted. Where IDLE changed during the pass, each change acted at a beat
boundary that the commands do not tell, and the count is free between the least and the greatest (R127). -/
def State.countIdle (s : State) (g : Nat) : State :=
  let c := s.core g
  if c.idleLo == c.idleHi then s.modCore g fun c => { c with cntIdle := c.cntIdle + c.idleLo }
  else
    let (v, s) := s.draw 4
    s.modCore g fun c => { c with cntIdle := c.cntIdle + c.idleLo + v.toNat % (c.idleHi - c.idleLo + 1) }

/-- The thread's tile instruction retires; the members of a pass retire together (R132), and the arrays take the next
pass or enter hold (R126). -/
def execTileRetire (th : ThreadId) (s : State) : Host.Outcome State Fault Refusal :=
  match (s.thr th).tfly with
  | none => .next s
  | some f =>
    if f.unit == .array then
      let g := thCore th
      let ms := ([0, 1, 2, 3].map (mkTh g)).filter fun t => ((s.thr t).tfly.map (·.unit)) == some .array
      let s := ms.foldl (fun s t => s.tileLand t) s
      let s := (s.countIdle g).modCore g fun c => { c with arr := .hold }
      .next (s.nextPass g)
    else .next (s.tileLand th)

/-- The window of the k-th open group ends (R130). -/
def execCoalWindowExpiry (g : CoreId) (k : Nat) (s : State) : Host.Outcome State Fault Refusal :=
  .next (s.closeGroup g.toNat k)

/-- Hold ends with no product ready: ramp-down. -/
def execTileHoldExpiry (g : CoreId) (s : State) : Host.Outcome State Fault Refusal :=
  if (s.core g.toNat).arr == .hold then .next (s.modCore g.toNat fun c => { c with arr := .rampDown }) else .next s

def execTileRampDownEnd (g : CoreId) (s : State) : Host.Outcome State Fault Refusal :=
  if (s.core g.toNat).arr == .rampDown then .next (s.modCore g.toNat fun c => { c with arr := .off }) else .next s

/-- The arrays are at full duty: the oldest ready pass issues; if it has withdrawn, they hold (DEDUCED, log 28). -/
def execTileRampUpEnd (g : CoreId) (s : State) : Host.Outcome State Fault Refusal :=
  if (s.core g.toNat).arr == .rampUp then
    .next ((s.modCore g.toNat fun c => { c with arr := .hold }).nextPass g.toNat)
  else .next s

/-- IDLE moves by one toward v, in 0 to 8 (R127). -/
def stepIdle (old v : Nat) : Nat := if old < v && old < 8 then old + 1 else if v < old then old - 1 else old

/-- IDLE of a core moves one step toward v; a pass in the arrays sees the change at its next beat boundary. -/
def State.throttle (s : State) (g v : Nat) : State :=
  s.modCore g fun c =>
    let n := stepIdle c.idle.toNat v
    { c with idle := BitVec.ofNat 4 n, idleLo := min c.idleLo n, idleHi := max c.idleHi n }

/-- The Reeve writes TILE_THROT of a core (R127, R137). -/
def execTileThrot (g : CoreId) (v : Word) (s : State) : Host.Outcome State Fault Refusal :=
  .next (s.throttle g.toNat (getF v 0 4))

/-- The scrub reads a row of a tile register, or of an accumulator: a correctable error is counted, an uncorrectable
one makes the tile INVALID, or the accumulator POISONED (R118, Table 4.5). -/
def execTileScrub (th : ThreadId) (acc : Bool) (n : BitVec 3) (_row : BitVec 4) (ue : Bool) (s : State) :
    Host.Outcome State Fault Refusal :=
  let k := if acc then 8 + n.toNat % 4 else n.toNat
  if ue then .next ((s.tileEccRecord th k).modThr th fun t => t.tileSpoil k)
  else .next (s.modCore (thCore th) fun c => { c with tEccC := satAdd 32 c.tEccC 1 })

end Sys2Proof.Machine
end

