-- ==== Sys2Proof/Machine/Control.lean ====
section
/-!
DEFINITION. Undeliverable notices at their source unit (R340), and writes of registers that have no row of their own
(R11, R14).
-/

namespace Sys2Proof.Machine

/-! ### Undeliverable notices (R269, R270, R309, R340) -/

/-- A signal to another module fails: SYNC_REMOTE at the signalling thread's unit. The packet's TAG names thread, tally and
amount; the value there is not known here (a free value). -/
def State.signalFailed (s : State) (h : PktHdr) : State :=
  let th : ThreadId := h.tag.setWidth 13
  let (value, s) := s.draw 32
  let d := thCore th / 256
  s.record { unit := uSync d, clk := .core (BitVec.ofNat 3 d), code := syncRemote, sev := sevError, ctx := some h.sctx,
             obj := BitVec.ofNat 32 (getF h.tag 13 15), waiter := some th,
             detail := det 40 1 0x08 ||| det 42 2 0xFFFF ||| det 44 4 value.toNat ||| det 48 4 (getF h.tag 28 32) }

/-- A bell's arrival or release fails: SYNC_REMOTE at the unit of the bell that sent it, with the slot. -/
def State.bellFailed (s : State) (h : PktHdr) (op : Nat) : State :=
  s.syncRecord true (getF h.tag 0 32) syncRemote ⟨op, .fabric h.dest, some h.sctx, getF h.tag 32 16, 0⟩

/-- A reduction frame fails: RED_FAB for its bucket. -/
def State.frameFailed (s : State) (h : PktHdr) : State :=
  let id : BitVec 16 := (h.tag >>> 16).setWidth 16
  let step : BitVec 32 := (h.tag >>> 32).setWidth 32
  let ring := getF h.tag 10 3
  match (s.findBucket h.sctx ring id step).bind fun x => (s.bucket x.1 x.2).map fun b => (x.1, b) with
  | some (e, b) => s.redRecord e b redFab sevError b.phaseNow (h.flow ^^^ id).toNat
  | none =>
    s.redRecord ((h.unit.toNat - 0x600) % 8) { ctx := h.sctx, gen := h.sgen, ring := ring, id := id, step := step } redFab sevError 4
      (h.flow ^^^ id).toNat

/-- A packet of a put is lost: whether an earlier one of several was written, the notice does not say (log 133). -/
def State.putLost (s : State) (id : Nat) (flow : BitVec 16) : State :=
  match s.fab.puts.find? fun x => x.id == id with
  | some x =>
    if x.many then
      let (b, s) := s.draw 1
      s.putAnswer id fabPutRefused (b == 1) flow
    else s.putAnswer id fabPutRefused false flow
  | none => s

/-- The source unit of a lost packet acts; a notice of an old generation is discarded. -/
def State.undelivered (s : State) (h : PktHdr) : State :=
  if h.typ != 0x50 && h.sgen != (s.ctx h.sctx).gen then
    if h.typ == 0x01 then s.modSyncDie (getF h.tag 2 11 / 256) fun x => { x with late := x.late + 1 } else s
  else if h.typ == 0x01 then s.signalFailed h
  else if h.typ == 0x02 then s.bellFailed h 0x09
  else if h.typ == 0x03 then s.bellFailed h 0x0A
  else if h.typ == 0x10 || h.typ == 0x11 then s.frameFailed h
  else if h.typ == 0x20 then s.putLost h.tag.toNat h.flow
  else if h.typ == 0x30 then s.snapResend h.sctx
  else s

def execUndeliverableNotice (k : Nat) (s : State) : Host.Outcome State Fault Refusal :=
  match s.inboxAt k [0x40] with
  | none => .next s
  | some p =>
    match p.body with
    | .undeliverable h _ => .next ((s.dropInbox k).undelivered h)
    | _ => .next s

/-! ### Register writes (R11, R14) -/

/-- FAB_PORT_CTL.ENABLE is cleared: the port is DISABLED (Table 11.3). -/
def State.disablePort (s : State) (p : Nat) : State :=
  let x := s.port p
  if !x.enable then s
  else
    let s := s.modPort p fun x => { x with enable := false, st := .disabled, txWidth := 0, rxWidth := 0 }
    if x.st == .up then s.flushPort p else s

/-- FAB_PORT_CTL, FAB_MARGIN. Where R320 refuses ENABLE, LANES_ALLOWED of the same write takes effect all the same
(DESIGN CHOICE, log 157). -/
def State.portStore (s : State) (p off : Nat) (v : Word) : State :=
  if off == 0x00 then (if v.getLsbD 0 then s.enablePort p else s.disablePort p).setAllowed p ((v >>> 8).setWidth 8)
  else if off == 0x28 then s.modPort p fun x => { x with margin := v.setWidth 32 }
  else s

/-- FAB_LINKTO, FAB_ROUTE_SEL. -/
def State.fabStore (s : State) (off : Nat) (v : Word) : State :=
  if off == 0x18 then s.modFab fun b => { b with retrain := v.setWidth 32, ackto := (v >>> 32).setWidth 16 }
  else if off == 0x20 then s.modFab fun b => { b with routeSel := v.setWidth 16 }
  else s

/-- GATE_CTL: a clear disables the port; an UP Gate leaves UP (Table 12.11). -/
def State.gateStore (s : State) (off : Nat) (v : Word) : State :=
  if off != 0x00 then s
  else if v.getLsbD 0 then s.enableGate
  else
    let s := (s.modGate fun g => { g with enable := false }).portDown 16 0
    s.modPort 16 fun x => { x with st := .disabled, txWidth := 0, rxWidth := 0 }

/-- CELL_SCRUB of a die; GRAN_HOT, GRAN_HOTTH, GRAN_SCRUB of a controller. -/
def State.memStore (s : State) (b off : Nat) (v : Word) : State :=
  if b < 0x310 then (if off == 0x38 then s.modDie (b - 0x300) fun x => { x with scrub := v.setWidth 48 } else s)
  else if off == 0x18 then s.modGran (b - 0x310) fun x => { x with hotValid := x.hotValid && !v.getLsbD 63 }
  else if off == 0x20 then s.modGran (b - 0x310) fun x => { x with hotth := v.setWidth 32 }
  else if off == 0x28 then s.modGran (b - 0x310) fun x => { x with scrub := v.setWidth 48 }
  else s

/-- The recovery block. -/
def State.rstStore (s : State) (off : Nat) (v : Word) : State :=
  if off == 0x08 then s.setQuiesce v
  else if off == 0x10 then s.modRst fun r => { r with engTo := v.setWidth 32 }
  else if off == 0x18 then s.modRst fun r => { r with hbPeriod := v.setWidth 32, hbMiss := (v >>> 32).setWidth 4 }
  else if off == 0x20 then s.setGenGap v
  else if off == 0x28 then s.modRst fun r => { r with probeTo := v.setWidth 32 }
  else if off == 0x40 then s.modRst fun r => { r with fhSel := v.setWidth 14 }
  else s

/-- The register block of core g: each thread's registers, then the core's; TILE_THROT moves by one (R127). -/
def State.coreStore (s : State) (g off : Nat) (v : Word) : State :=
  let n := off % 0x1000 / 8
  if off < 0x4000 then
    if n == 0x0B then s.doorbell (4 * g + off / 0x1000)
    else if csrPerThread n then s.csrLand (mkTh g (off / 0x1000)) n v
    else s
  else if off == 0x4310 then s.throttle g (getF v 0 4)
  else if off < 0x4400 && csrCoreWide (0x80 + n) then s.csrWrite (mkTh g 0) (0x80 + n) v
  else s

/-- A write of a register: RO and RSV fields are left as they are. -/
def State.regStore (s : State) (b off : Nat) (v : Word) : State :=
  let inR (lo hi : Nat) : Bool := decide (lo ≤ b) && decide (b ≤ hi)
  if inR 0x300 0x31B then s.memStore b off v
  else if inR 0x700 0x70F then s.portStore (b - 0x700) off v
  else if b == 0x710 then s.fabStore off v
  else if inR 0x720 0x723 then (if off == 0x08 then s.laserCtl (b - 0x720) v else s)
  else if b == 0x900 then s.gateStore off v
  else if inR 0xA10 0xA1F && off == 0x00 then
    if v.getLsbD 0 then s.schedEnable (BitVec.ofNat 4 b) else s.modSnap (BitVec.ofNat 4 b) fun x => { x with sched := false }
  else if b == 0xB00 then s.rstStore off v
  else if b == 0xD00 then
    if off == 0x00 then
      if v.getLsbD 0 then (if s.inPhase .cfg && s.vault.st != .error then s.enableBoot true else s)
      else s.modBoot fun x => { x with enable := false }
    else s
  else if inR 0x1000 0x17FF then s.coreStore (b - 0x1000) off v
  else s.threadStore b off v

/-- A write that reaches no register at its own width changes nothing (the fault of R14 is the issuing thread's). -/
def execRegisterWrite (addr v : Word) (bytes : Nat) (s : State) : Host.Outcome State Fault Refusal :=
  let a := addr.toNat - 0xF000000000
  let b := a / 0x10000
  let off := a % 0x10000
  if s.boot.phase == .resetEntry || addr.toNat < 0xF000000000 || bytes != 8 || off % 8 != 0 || (s.regRead b off).isNone then .next s
  else .next (s.regStore b off v)

end Sys2Proof.Machine
end

