-- ==== Sys2Proof/Machine/Feed.lean ====
section
/-!
DEFINITION. The data-feed engine (12_gate_and_commands.md, R370 to R375).
-/

namespace Sys2Proof.Machine

def feedTimeoutCode : Reason := 0x0240
def feedSize : Reason := 0x0241
def feedEmpty : Reason := 0x0242
def feedRefused : Reason := 0x0243
def feedEpochCode : Reason := 0x0244

/-! ### The engine -/

/-- A record of the feed of context c; OBJECT is the ring slot it writes next. -/
def State.feedRecord (s : State) (c : CtxId) (code : Reason) (sev : Byte) : State :=
  let st := stNum (s.ctx c).st
  s.record { unit := uFeed c, clk := .reeve, code := code, sev := sev, ctx := some c,
             obj := BitVec.ofNat 32 (s.ctx c).feed.nextSlot, detail := det 53 1 st ||| det 54 1 st }

/-- The FEED session under the key that the feed section names. -/
def State.feedSession (s : State) (g : FeedSection) : Option Session :=
  s.gate.sessions.find? fun x => x.role == .feed && x.key == g.key

/-- Its session is open, and the context's feed may work. -/
def State.feedServes (s : State) (c : CtxId) (g : FeedSection) : Bool :=
  s.gateUp && s.ctxServes c && (s.feedSession g).isSome

/-- A message of the feed engine to its server. -/
def State.feedOut (s : State) (g : FeedSection) (o : BitVec 32 → Out) : State :=
  match s.feedSession g with
  | some x => s.gateOutOn x.num (o x.num)
  | none => s

/-- The header of a message of the server's for context c, of a kind and a body of so many bytes (R358). -/
def State.feedHdrOk (s : State) (c : CtxId) (g : FeedSection) (h : BitVec 256) (kind : Byte) (len : Nat) : Bool :=
  headerOk h kind len && headerContext h == c.setWidth 8 &&
    (match s.feedSession g with | some x => headerSession h == x.num | none => false)

/-- A frame of the server's for context c's feed: `act` is what its message does, where the feed may work and the header is
the message's own (log 158). -/
def State.feedFrame (s : State) (c : CtxId) (pn : Word) (hdr : BitVec 256) (kind : Byte) (len : Nat)
    (act : State → FeedSection → State) : State :=
  if !s.gateUp then s
  else
    match (s.ctx c).feed.cfg with
    | none => s.frameIn
    | some g =>
      s.protectedIn (s.feedSession g) pn fun s => if s.ctxServes c && s.feedHdrOk c g hdr kind len then act s g else s

/-- FILL is the next record that will be written (R375); with no slot held, DONE is the same. -/
def Feed.settle (f : Feed) : Feed :=
  let (o, e) := match f.flight with | r :: _ => (r.offset, r.epoch) | [] => (f.reqOff, f.reqEpoch)
  let f := { f with fillOff := o, fillEpoch := e }
  if f.slots.isEmpty then { f with doneOff := o, doneEpoch := e } else f

/-- The feed stops. -/
def State.stopFeed (s : State) (c : CtxId) (code : Reason) : State :=
  (s.feedRecord c code sevError).modFeed c fun f => { f with st := .stopped, stopReason := code, flight := [] }

/-- FEED_REQ for as many records as WINDOW and the free slots allow (R373). -/
def execFeedRequest (c : CtxId) (s : State) : Host.Outcome State Fault Refusal :=
  let f := (s.ctx c).feed
  match f.cfg with
  | none => .next s
  | some g =>
    let n := min (g.window - f.flight.length) (f.credits - f.flight.length)
    if f.st != .active || n == 0 || !s.feedServes c g then .next s
    else
      let new := (List.range n).map fun i =>
        ({ offset := f.reqOff + BitVec.ofNat 64 i, epoch := f.reqEpoch } : FeedRec)
      let s := (s.hubWake 0).modFeed c fun f => { f with flight := f.flight ++ new, reqOff := f.reqOff + BitVec.ofNat 64 n }
      .next (s.feedOut g fun k => .feedReq c k g.dataset g.shard f.reqOff f.reqEpoch n)

/-- Header and bytes of a slot (R372). -/
def slotBytesOf (g : FeedSection) (r : FeedRec) (bs : List Byte) : List Byte :=
  leBytes g.dataset.toNat 4 ++ leBytes g.shard.toNat 4 ++ leBytes r.offset.toNat 8 ++ leBytes r.epoch.toNat 4 ++
    leBytes bs.length 4 ++ leBytes r.crc.toNat 4 ++ leBytes 0 36 ++ bs

/-- The bytes of a record from its fragments, where they are complete: one after another from 0. -/
def joinFrags (len : Nat) : Nat → List (Nat × List Byte) → List Byte → Option (List Byte)
  | 0, _, _ => none
  | fuel + 1, fs, acc =>
    if acc.length == len then some acc
    else
      match fs.find? fun x => x.1 == acc.length && !x.2.isEmpty with
      | some x => joinFrags len fuel fs (acc ++ x.2)
      | none => none

/-- Complete records at the front are written to their slots, each before its READY signal. -/
def State.feedDeliver (s : State) (c : CtxId) (g : FeedSection) (base : Nat) : Nat → State
  | 0 => s
  | fuel + 1 =>
    let f := (s.ctx c).feed
    match f.flight with
    | r :: rest =>
      match r.done, r.len with
      | true, some len =>
        let bs := (joinFrags len (r.frags.length + 1) r.frags []).getD []
        let s := s.pokeVia (granLoc (base + f.nextSlot * g.slot)) (slotBytesOf g r bs)
        let s := s.modFeed c fun f => { f with
          flight := rest, delivered := (f.delivered + 1) % 2 ^ 32, nextSlot := (f.nextSlot + 1) % g.nslots
          credits := f.credits - 1
          slots := if f.credits > g.nslots then f.slots else f.slots ++ [(r.offset, r.epoch)] }
        ((s.modFeed c Feed.settle).hubSignal c g.ready).feedDeliver c g base fuel
      | _, _ => s
    | [] => s

/-- What a fragment does to the record it belongs to: none where it is discarded. A record that is complete and fails its
CRC starts again. -/
def FeedRec.take (r : FeedRec) (g : FeedSection) (f : FeedFragment) : Option FeedRec :=
  let fits := f.dataset == g.dataset && f.shard == g.shard && !r.done && decide (f.bytes.length ≤ 8160) &&
    decide (f.fragOffset + f.bytes.length ≤ f.len) && !(r.frags.any fun x => x.1 == f.fragOffset) &&
    (match r.len with | some n => n == f.len && r.crc == f.crc | none => true)
  if !fits then none
  else
    let frags := r.frags ++ [(f.fragOffset, f.bytes)]
    let r : FeedRec := { r with len := some f.len, crc := f.crc, frags := frags }
    match joinFrags f.len (frags.length + 1) frags [] with
    | some bs => if crc32c bs == f.crc then some { r with done := true } else some { r with len := none, frags := [] }
    | none => some r

/-- A fragment arrives (R374). -/
def State.feedData (s : State) (c : CtxId) (f : FeedFragment) (g : FeedSection) : State :=
  let fd := (s.ctx c).feed
  match (s.ctx c).img.bind feedRing, fd.flight.findIdx? fun r => r.offset == f.offset && r.epoch == f.epoch with
  | some (base, _), some i =>
    match fd.flight[i]?.bind fun r => r.take g f with
    | some r =>
      if fd.st == .stopped then s
      else if f.len > g.slot - 64 then s.stopFeed c feedSize
      else
        let s := s.modFeed c fun x => { x with flight := x.flight.set i r }
        s.feedDeliver c g base (fd.flight.length + 1)
    | none => s
  | _, _ => s

def execFeedData (c : CtxId) (f : FeedFragment) (s : State) : Host.Outcome State Fault Refusal :=
  .next (s.feedFrame c f.pn f.hdr 0x21 (32 + f.bytes.length) fun s g => s.feedData c f g)

/-- The shard ends at an offset: the next record is the first of the next epoch (R370). -/
def execFeedEnd (c : CtxId) (m : FeedEnd) (offset : Word) (s : State) : Host.Outcome State Fault Refusal :=
  .next (s.feedFrame c m.pn m.hdr 0x22 20 fun s g =>
    let f := (s.ctx c).feed
    if f.st == .stopped || f.st == .idle || m.dataset != g.dataset || m.shard != g.shard || m.epoch != f.reqEpoch ||
        decide (offset.toNat > f.reqOff.toNat) then s
    else if offset == 0 then s.stopFeed c feedEmpty
    else
      (s.feedRecord c feedEpochCode sevInfo).modFeed c fun f => Feed.settle { f with
        flight := f.flight.filter fun r => !(r.epoch == m.epoch && decide (offset.toNat ≤ r.offset.toNat))
        reqOff := 0, reqEpoch := m.epoch + 1 })

/-- The server refuses: the feed stops. Its code is the server's own. -/
def execFeedErr (c : CtxId) (m : FeedErr) (s : State) : Host.Outcome State Fault Refusal :=
  .next (s.feedFrame c m.pn m.hdr 0x23 22 fun s g =>
    let f := (s.ctx c).feed
    if f.st == .stopped || f.st == .idle || m.dataset != g.dataset || m.shard != g.shard then s
    else s.stopFeed c feedRefused)

/-- Records not complete RETRY_US after their request are requested again; each eighth failure in a row is recorded. -/
def State.feedRetry (s : State) (c : CtxId) (g : FeedSection) : List FeedRec → State
  | [] => s
  | r :: rest =>
    let s := if r.done then s
      else
        let eighth := r.fails + 1 == 8
        let s := s.modFeed c fun f => { f with
          repeats := (f.repeats + 1) % 2 ^ 32
          flight := f.flight.map fun x =>
            if x.offset == r.offset && x.epoch == r.epoch then { x with fails := if eighth then 0 else x.fails + 1 } else x }
        let s := if eighth then s.feedRecord c feedTimeoutCode sevError else s
        s.feedOut g fun k => .feedReq c k g.dataset g.shard r.offset r.epoch 1
    s.feedRetry c g rest

def execFeedRetryExpiry (c : CtxId) (s : State) : Host.Outcome State Fault Refusal :=
  let f := (s.ctx c).feed
  match f.cfg with
  | some g => if s.ctxServes c && (f.st == .active || f.st == .paused) then .next (s.feedRetry c g f.flight) else .next s
  | none => .next s

end Sys2Proof.Machine
end

