-- ==== Sys2Proof/Machine/Flags.lean ====
section
/-!
DEFINITION. Flags and checks of the vector unit: what an instruction adds to VEC_FLAGS (R76, Table 3.11), the flags of
element-wise operations, and the register-error check of R167 and R168.
-/

namespace Sys2Proof.Machine

/-- The write that adds flags to VEC_FLAGS at retirement. -/
def flagWr (f : Flags) : List Wr := [.flags f]

/-- Flags that the active elements of an element-wise integer operation raise. -/
def viopFlags (op : VIop) (w : Nat) (act : BitVec 256) (a b : BitVec 2048) : Flags :=
  vflags w act fun i => (viop op (8 * w) (vget a w i) (vget b w i)).2

/-- Flags of an element-wise floating-point operation. -/
def vfopFlags (op : VFop) (sp : FSpec) (strict : Bool) (act : BitVec 256) (d a b : BitVec 2048) : Flags :=
  let w := sp.width / 8
  vflags w act fun i => (vfop op sp strict (vget d w i) (vget a w i) (vget b w i)).2

def vecEcc : Reason := 0x0520
def vecStrOnly : Reason := 0x0521

/-- The core counts an uncorrectable error in its vector registers. -/
def Core.countVecU (c : Core) : Core := { c with vEccU := satAdd 32 c.vEccU 1 }

/-- VEC_ECC at the thread's instruction, naming the register (R167). -/
def State.vecEccFault (s : State) (th : ThreadId) (n : Nat) : State :=
  s.raiseExc th { cause := .execution, reason := vecEcc, tval := BitVec.ofNat 64 n, obj := BitVec.ofNat 32 n,
                  effects := [.vecEcc] }

/-- The register check of R168 over the registers that the instruction reads, then the instruction. -/
def State.vecReads (s : State) (th : ThreadId) (us : List VUse) (act : State → State) : State :=
  match (s.thr th).badReg us with
  | some n => s.vecEccFault th n
  | none => act s

end Sys2Proof.Machine
end

