-- ==== Sys2Proof/Machine/Vector.lean ====
section
/-!
DEFINITION. Vector, predicate and scalar floating-point instructions and the events of the vector unit
(05_long_vectors.md, R139 to R174): power and wake, checks in the order of R168, memory access, retirement.
-/

namespace Sys2Proof.Machine

/-! ### Issue -/

/-- A vector instruction at issue: its encoding (R168; an illegal word is no vector instruction and wakes nothing), one in
flight per thread (R144), the unit powered (R164). -/
def vecInstr (s : State) (th : ThreadId) (regs : List Reg) (legal : Bool) (w : BitVec 32) (act : State → State) :
    Host.Outcome State Fault Refusal :=
  issueWith s th regs fun s =>
    let g := thCore th
    if !legal then s.illegal th w
    else if (s.thr th).vfly.isSome then s.stall th .retire
    else
      match (s.core g).vpow with
      | .off => (s.modCore g fun c => { c with vpow := .waking false, cntWake := c.cntWake + 1 }).stall th .wake
      | .waking _ => s.stall th .wake
      | .on => act s

/-- The destination, where a merging instruction reads it (R143). -/
def destUse (z : Bool) (n : Reg) : List VUse := if z then [] else [.v n.toNat]

/-! ### Integer arithmetic (R146, R148) -/

/-- An element-wise integer operation. -/
def vintOp (fn : Nat) (op : VIop) (th : ThreadId) (f : VInt) (s : State) : Host.Outcome State Fault Refusal :=
  vecInstr s th [] true (encVInt fn f) fun s =>
    s.vecReads th ([.v f.vs1.toNat, .v f.vs2.toNat, .p f.pg.toNat] ++ destUse f.z f.vd) fun s =>
      let t := s.thr th
      let w := eszBytes f.esz
      let act := t.pred f.pg.toNat
      let a := t.vr f.vs1
      let b := t.vr f.vs2
      s.fly th .vector ([.v f.vd.toNat (vmap w act f.z (t.vr f.vd) fun i =>
        (viop op (8 * w) (vget a w i) (vget b w i)).1)] ++ flagWr (viopFlags op w act a b))

/-- An integer compare into a predicate. -/
def vintCmp (fn : Nat) (op : VIcmp) (th : ThreadId) (f : VInt) (s : State) : Host.Outcome State Fault Refusal :=
  vecInstr s th [] (!f.vd.getLsbD 4) (encVInt fn f) fun s =>
    s.vecReads th ([.v f.vs1.toNat, .v f.vs2.toNat, .p f.pg.toNat] ++ if f.z then [] else [.p f.vd.toNat]) fun s =>
      let t := s.thr th
      let w := eszBytes f.esz
      s.fly th .vector [.p f.vd.toNat (pmap w (t.pred f.pg.toNat) f.z (t.pred f.vd.toNat) fun i =>
        vicmp op (8 * w) (vget (t.vr f.vs1) w i) (vget (t.vr f.vs2) w i))]

def execVadd (th : ThreadId) (f : VInt) (s : State) := vintOp 0x00 .add th f s
def execVsub (th : ThreadId) (f : VInt) (s : State) := vintOp 0x01 .sub th f s
def execVmul (th : ThreadId) (f : VInt) (s : State) := vintOp 0x02 .mul th f s
def execVmulh (th : ThreadId) (f : VInt) (s : State) := vintOp 0x03 .mulh th f s
def execVmulhu (th : ThreadId) (f : VInt) (s : State) := vintOp 0x04 .mulhu th f s
def execVand (th : ThreadId) (f : VInt) (s : State) := vintOp 0x05 .and th f s
def execVor (th : ThreadId) (f : VInt) (s : State) := vintOp 0x06 .or th f s
def execVxor (th : ThreadId) (f : VInt) (s : State) := vintOp 0x07 .xor th f s
def execVshl (th : ThreadId) (f : VInt) (s : State) := vintOp 0x08 .shl th f s
def execVshr (th : ThreadId) (f : VInt) (s : State) := vintOp 0x09 .shr th f s
def execVsra (th : ThreadId) (f : VInt) (s : State) := vintOp 0x0A .sra th f s
def execVmin (th : ThreadId) (f : VInt) (s : State) := vintOp 0x0B .min th f s
def execVmax (th : ThreadId) (f : VInt) (s : State) := vintOp 0x0C .max th f s
def execVminu (th : ThreadId) (f : VInt) (s : State) := vintOp 0x0D .minu th f s
def execVmaxu (th : ThreadId) (f : VInt) (s : State) := vintOp 0x0E .maxu th f s
def execVadds (th : ThreadId) (f : VInt) (s : State) := vintOp 0x0F .adds th f s
def execVsubs (th : ThreadId) (f : VInt) (s : State) := vintOp 0x10 .subs th f s
def execVaddsu (th : ThreadId) (f : VInt) (s : State) := vintOp 0x11 .addsu th f s
def execVsubsu (th : ThreadId) (f : VInt) (s : State) := vintOp 0x12 .subsu th f s
def execVcmpeq (th : ThreadId) (f : VInt) (s : State) := vintCmp 0x13 .eq th f s
def execVcmplt (th : ThreadId) (f : VInt) (s : State) := vintCmp 0x14 .lt th f s
def execVcmpltu (th : ThreadId) (f : VInt) (s : State) := vintCmp 0x15 .ltu th f s
def execVcmple (th : ThreadId) (f : VInt) (s : State) := vintCmp 0x16 .le th f s
def execVcmpleu (th : ThreadId) (f : VInt) (s : State) := vintCmp 0x17 .leu th f s

/-- VSEL writes every element, from vs1 or vs2 by pg; its z must be 0. -/
def execVsel (th : ThreadId) (f : VInt) (s : State) : Host.Outcome State Fault Refusal :=
  vecInstr s th [] (!f.z) (encVInt 0x18 f) fun s =>
    s.vecReads th [.v f.vs1.toNat, .v f.vs2.toNat, .p f.pg.toNat] fun s =>
      let t := s.thr th
      let w := eszBytes f.esz
      let act := t.pred f.pg.toNat
      s.fly th .vector [.v f.vd.toNat (vmap w (BitVec.allOnes 256) false 0 fun i =>
        if act.getLsbD i then vget (t.vr f.vs1) w i else vget (t.vr f.vs2) w i)]

/-- VPERM moves bits: vs1[vs2[i] mod N]. -/
def execVperm (th : ThreadId) (f : VInt) (s : State) : Host.Outcome State Fault Refusal :=
  vecInstr s th [] true (encVInt 0x19 f) fun s =>
    s.vecReads th ([.v f.vs1.toNat, .v f.vs2.toNat, .p f.pg.toNat] ++ destUse f.z f.vd) fun s =>
      let t := s.thr th
      let w := eszBytes f.esz
      s.fly th .vector [.v f.vd.toNat (vmap w (t.pred f.pg.toNat) f.z (t.vr f.vd) fun i =>
        vget (t.vr f.vs1) w (vget (t.vr f.vs2) w i % elemsN w))]

/-! ### Floating-point arithmetic (R147) -/

/-- Issue to the datapath, or to the divider once it is free (R145). -/
def State.flyDiv (s : State) (th : ThreadId) (div : Bool) (ws : List Wr) : State :=
  if div then
    if [0, 1, 2, 3].any fun t => (s.thr (mkTh (thCore th) t)).vfly.any fun f => f.unit == .divider then
      s.stall th .divider
    else s.fly th .divider ws
  else s.fly th .vector ws

def isDiv : VFop → Bool
  | .div => true
  | .sqrt => true
  | _ => false

/-- FMA and FNMA read their destination as a source. -/
def readsDest : VFop → Bool
  | .fma => true
  | .fnma => true
  | _ => false

/-- An element-wise floating-point operation; `un`: vs2 must be 0 and is not read. -/
def vfltOp (op fn : Nat) (un : Bool) (o : VFop) (th : ThreadId) (f : VFlt) (s : State) :
    Host.Outcome State Fault Refusal :=
  vecInstr s th [] ((arithFmt f.fmt).isSome && (!un || f.vs2 == 0)) (encVFlt op fn f) fun s =>
    s.vecReads th ([.v f.vs1.toNat, .p f.pg.toNat] ++ (if un then [] else [.v f.vs2.toNat]) ++
        (if readsDest o then [.v f.vd.toNat] else destUse f.z f.vd)) fun s =>
      match arithFmt f.fmt with
      | none => s
      | some sp =>
        let t := s.thr th
        let w := sp.width / 8
        let act := t.pred f.pg.toNat
        let d := t.vr f.vd
        let a := t.vr f.vs1
        let b := if un then 0 else t.vr f.vs2
        s.flyDiv th (isDiv o) ([.v f.vd.toNat (vmap w act f.z d fun i =>
          (vfop o sp t.vec.strict (vget d w i) (vget a w i) (vget b w i)).1)] ++
            flagWr (vfopFlags o sp t.vec.strict act d a b))

/-- A floating-point compare into a predicate. -/
def vfltCmp (fn : Nat) (o : VFcmp) (th : ThreadId) (f : VFlt) (s : State) : Host.Outcome State Fault Refusal :=
  vecInstr s th [] ((arithFmt f.fmt).isSome && !f.vd.getLsbD 4) (encVFlt 0x32 fn f) fun s =>
    s.vecReads th ([.v f.vs1.toNat, .v f.vs2.toNat, .p f.pg.toNat] ++ if f.z then [] else [.p f.vd.toNat]) fun s =>
      match arithFmt f.fmt with
      | none => s
      | some sp =>
        let t := s.thr th
        let w := sp.width / 8
        s.fly th .vector [.p f.vd.toNat (pmap w (t.pred f.pg.toNat) f.z (t.pred f.vd.toNat) fun i =>
          vfcmp o sp t.vec.strict (vget (t.vr f.vs1) w i) (vget (t.vr f.vs2) w i))]

def execVfadd (th : ThreadId) (f : VFlt) (s : State) := vfltOp 0x31 0 false .add th f s
def execVfsub (th : ThreadId) (f : VFlt) (s : State) := vfltOp 0x31 1 false .sub th f s
def execVfmul (th : ThreadId) (f : VFlt) (s : State) := vfltOp 0x31 2 false .mul th f s
def execVfdiv (th : ThreadId) (f : VFlt) (s : State) := vfltOp 0x31 3 false .div th f s
def execVfmax (th : ThreadId) (f : VFlt) (s : State) := vfltOp 0x31 4 false .max th f s
def execVfmin (th : ThreadId) (f : VFlt) (s : State) := vfltOp 0x31 5 false .min th f s
def execVfma (th : ThreadId) (f : VFlt) (s : State) := vfltOp 0x31 6 false .fma th f s
def execVfnma (th : ThreadId) (f : VFlt) (s : State) := vfltOp 0x31 7 false .fnma th f s
def execVfsqrt (th : ThreadId) (f : VFlt) (s : State) := vfltOp 0x32 0 true .sqrt th f s
def execVfabs (th : ThreadId) (f : VFlt) (s : State) := vfltOp 0x32 1 true .abs th f s
def execVfneg (th : ThreadId) (f : VFlt) (s : State) := vfltOp 0x32 2 true .neg th f s
def execVfcmpeq (th : ThreadId) (f : VFlt) (s : State) := vfltCmp 3 .eq th f s
def execVfcmplt (th : ThreadId) (f : VFlt) (s : State) := vfltCmp 4 .lt th f s
def execVfcmple (th : ThreadId) (f : VFlt) (s : State) := vfltCmp 5 .le th f s
def execVfcmpne (th : ThreadId) (f : VFlt) (s : State) := vfltCmp 6 .ne th f s

/-! ### Reductions (R158 to R160) -/

/-- A reduction: `fo` the floating-point form, if there is one; `u` the unsigned integer form at [4:3] = 1. -/
def vred (fn : Nat) (fo : Option VRop) (io : VIred) (u : Bool) (th : ThreadId) (f : VRed) (s : State) :
    Host.Outcome State Fault Refusal :=
  let uns := getF f.sub 0 2
  let w := eszBytes (f.sub >>> 2).toNat
  let legal := f.mbz == 0 && (if f.int then uns == 0 || (u && uns == 1) else fo.isSome && (arithFmt f.sub).isSome)
  vecInstr s th [] legal (encVRed fn f) fun s =>
    s.vecReads th [.v f.vs.toNat, .p f.pg.toNat] fun s =>
      let t := s.thr th
      let act := t.pred f.pg.toNat
      let (r, fl) : Nat × Flags :=
        if f.int then iredRun io (uns == 1) w act (t.vr f.vs)
        else
          match fo, arithFmt f.sub with
          | some o, some sp => fredRun o sp t.vec.strict act (t.vr f.vs)
          | _, _ => (0, 0)
      s.fly th .vector ([.v f.vd.toNat (BitVec.ofNat 2048 r)] ++ flagWr fl)

def execVredSum (th : ThreadId) (f : VRed) (s : State) := vred 0 (some .sum) .sum false th f s
def execVredSumsq (th : ThreadId) (f : VRed) (s : State) := vred 1 (some .sumsq) .sumsq false th f s
def execVredMax (th : ThreadId) (f : VRed) (s : State) := vred 2 (some .max) .max true th f s
def execVredMin (th : ThreadId) (f : VRed) (s : State) := vred 3 (some .min) .min true th f s
def execVredAnd (th : ThreadId) (f : VRed) (s : State) := vred 4 none .and false th f s
def execVredOr (th : ThreadId) (f : VRed) (s : State) := vred 5 none .or false th f s
def execVredXor (th : ThreadId) (f : VRed) (s : State) := vred 6 none .xor false th f s

/-! ### Conversion (R161, R162) -/

/-- Encoding of VCVT. -/
def vcvtLegal (f : VCvt) : Bool :=
  let ws := elemBits f.sfmt
  let wd := elemBits f.dfmt
  vcvtFmt f.dfmt && vcvtFmt f.sfmt && f.dfmt != f.sfmt && f.rm != 3 && !(isInt f.dfmt && isInt f.sfmt && f.rm != 0) &&
    decide (f.part.toNat < max ws wd / min ws wd)

/-- The advance of the thread's rounding stream (R94). -/
def srWr (rm : BitVec 2) : List Wr := if rm == 2 then [.vecCtr] else []

def execVcvt (th : ThreadId) (f : VCvt) (s : State) : Host.Outcome State Fault Refusal :=
  vecInstr s th [] (vcvtLegal f) (encVCvt f) fun s =>
    s.vecReads th [.v f.vs.toNat, .p f.pg.toNat, .v f.vd.toNat] fun s =>
      let t := s.thr th
      let (r, fl) := vcvtRun t.vec.strict f.dfmt f.sfmt (t.pred f.pg.toNat) f.rm f.part.toNat t.vec.key t.vec.ctr
        t.vec.step (t.vr f.vd) (t.vr f.vs)
      s.fly th .vector ([.v f.vd.toNat r] ++ flagWr fl ++ srWr f.rm)

/-! ### Memory access (R149 to R156) -/

/-- Registers whose words an access reads. -/
def memUses (m : VAddr) (f : VMem) (store : Bool) : List VUse :=
  [.p f.pg.toNat] ++ (if m == .gather then [.v f.rx.toNat] else []) ++
    (if store then [.v f.v.toNat] else destUse f.z f.v)

/-- A vector load; `ff`: its first-fault form. -/
def vload (mode : Nat) (m : VAddr) (ff : Bool) (th : ThreadId) (f : VMem) (s : State) : Host.Outcome State Fault Refusal :=
  vecInstr s th (f.rb :: if m == .stride then [f.rx] else []) (vecMemLegal m f false) (encVMem 0x35 mode f) fun s =>
    s.vecReads th (memUses m f false) fun s =>
      let t := s.thr th
      s.access th { kind := .load, parts := vecParts t m f false,
                    fin := .vld f.v f.esz (t.pred f.pg.toNat) f.z ff 256 }

def vstore (mode : Nat) (m : VAddr) (th : ThreadId) (f : VMem) (s : State) : Host.Outcome State Fault Refusal :=
  vecInstr s th (f.rb :: if m == .stride then [f.rx] else []) (vecMemLegal m f true) (encVMem 0x36 mode f) fun s =>
    s.vecReads th (memUses m f true) fun s =>
      s.access th { kind := .store, parts := vecParts (s.thr th) m f true, fin := .vst }

def execVld (th : ThreadId) (f : VMem) (s : State) := vload 0 .unit false th f s
def execVlds (th : ThreadId) (f : VMem) (s : State) := vload 1 .stride false th f s
def execVgath (th : ThreadId) (f : VMem) (s : State) := vload 2 .gather false th f s
def execVldff (th : ThreadId) (f : VMem) (s : State) := vload 3 .unit true th f s
def execVgathff (th : ThreadId) (f : VMem) (s : State) := vload 4 .gather true th f s
def execVst (th : ThreadId) (f : VMem) (s : State) := vstore 0 .unit th f s
def execVsts (th : ThreadId) (f : VMem) (s : State) := vstore 1 .stride th f s
def execVscat (th : ThreadId) (f : VMem) (s : State) := vstore 2 .gather th f s

/-! ### Opcode 0x37 (R172, Table 5.11) -/

/-- Shape of opcode 0x37. -/
def vmisc (fn : Nat) (th : ThreadId) (f : VMisc) (regs : List Reg) (legal : Bool) (us : List VUse) (act : State → State)
    (s : State) : Host.Outcome State Fault Refusal :=
  vecInstr s th regs legal (encVMisc fn f) fun s => s.vecReads th us act

/-- A predicate operand. -/
def isPred (r : Reg) : Bool := !r.getLsbD 4

/-- Element size of an fn that carries esz. -/
def subEsz (f : VMisc) : Nat := getF f.sub 0 2

/-- A predicate from two. -/
def pop2 (fn : Nat) (op : BitVec 256 → BitVec 256 → BitVec 256) (th : ThreadId) (f : VMisc) (s : State) :
    Host.Outcome State Fault Refusal :=
  vmisc fn th f [] (isPred f.rd && isPred f.rs1 && isPred f.rs2) [.p f.rs1.toNat, .p f.rs2.toNat] (fun s =>
    let t := s.thr th
    s.fly th .vector [.p f.rd.toNat (op (t.pred f.rs1.toNat) (t.pred f.rs2.toNat))]) s

def execPand (th : ThreadId) (f : VMisc) (s : State) := pop2 0 (fun a b => a &&& b) th f s
def execPor (th : ThreadId) (f : VMisc) (s : State) := pop2 1 (fun a b => a ||| b) th f s
def execPxor (th : ThreadId) (f : VMisc) (s : State) := pop2 2 (fun a b => a ^^^ b) th f s
def execPandn (th : ThreadId) (f : VMisc) (s : State) := pop2 3 (fun a b => a &&& ~~~b) th f s

def execPset (th : ThreadId) (f : VMisc) (s : State) : Host.Outcome State Fault Refusal :=
  vmisc (4 + subEsz f) th f [] (isPred f.rd && f.rs1 == 0 && f.rs2 == 0) [] (fun s =>
    s.fly th .vector [.p f.rd.toNat (lowMask 256 (elemsN (2 ^ subEsz f)))]) s

def execPclr (th : ThreadId) (f : VMisc) (s : State) : Host.Outcome State Fault Refusal :=
  vmisc 8 th f [] (isPred f.rd && f.rs1 == 0 && f.rs2 == 0) [] (fun s => s.fly th .vector [.p f.rd.toNat 0]) s

/-- PLEN sets bits below the signed X[rs1]. -/
def execPlen (th : ThreadId) (f : VMisc) (s : State) : Host.Outcome State Fault Refusal :=
  vmisc (0xC + subEsz f) th f [f.rs1] (isPred f.rd && f.rs2 == 0) [] (fun s =>
    let n := min ((s.thr th).xr f.rs1).toInt.toNat (elemsN (2 ^ subEsz f))
    s.fly th .vector [.p f.rd.toNat (lowMask 256 n)]) s

def execPpop (th : ThreadId) (f : VMisc) (s : State) : Host.Outcome State Fault Refusal :=
  vmisc 0x10 th f [f.rd] (isPred f.rs1 && f.rs2 == 0) [.p f.rs1.toNat] (fun s =>
    s.fly th .vector [.x f.rd (BitVec.ofNat 64 (popCount ((s.thr th).pred f.rs1.toNat) 256))]) s

def execPlow (th : ThreadId) (f : VMisc) (s : State) : Host.Outcome State Fault Refusal :=
  vmisc 0x11 th f [f.rd] (isPred f.rs1 && f.rs2 == 0) [.p f.rs1.toNat] (fun s =>
    s.fly th .vector [.x f.rd (BitVec.ofNat 64 (lowBit ((s.thr th).pred f.rs1.toNat) 256))]) s

def execFfarm (th : ThreadId) (f : VMisc) (s : State) : Host.Outcome State Fault Refusal :=
  vmisc 0x20 th f [] (f.rd == 0 && f.rs1 == 0 && f.rs2 == 0) [] (fun s =>
    s.fly th .vector [.ffr (BitVec.allOnes 256)]) s

def execFftake (th : ThreadId) (f : VMisc) (s : State) : Host.Outcome State Fault Refusal :=
  vmisc 0x21 th f [] (isPred f.rd && isPred f.rs1 && f.rs2 == 0) [.p f.rs1.toNat, .ffr] (fun s =>
    let t := s.thr th
    s.fly th .vector [.p f.rd.toNat (t.vec.ffr &&& t.pred f.rs1.toNat), .ffr (BitVec.allOnes 256)]) s

def execFfput (th : ThreadId) (f : VMisc) (s : State) : Host.Outcome State Fault Refusal :=
  vmisc 0x22 th f [] (f.rd == 0 && isPred f.rs1 && f.rs2 == 0) [.p f.rs1.toNat] (fun s =>
    s.fly th .vector [.ffr ((s.thr th).pred f.rs1.toNat)]) s

def execFfcut (th : ThreadId) (f : VMisc) (s : State) : Host.Outcome State Fault Refusal :=
  vmisc 0x23 th f [f.rd] (f.rs1 == 0 && f.rs2 == 0) [.ffr] (fun s =>
    s.fly th .vector [.x f.rd (BitVec.ofNat 64 (lowBit (~~~(s.thr th).vec.ffr) 256))]) s

def execVdup (th : ThreadId) (f : VMisc) (s : State) : Host.Outcome State Fault Refusal :=
  vmisc (0x100 + subEsz f) th f [f.rs1] (f.rs2 == 0) [] (fun s =>
    let w := 2 ^ subEsz f
    let x := (s.thr th).xr f.rs1
    s.fly th .vector [.v f.rd.toNat (vmap w (BitVec.allOnes 256) false 0 fun _ => x.toNat)]) s

def execVgetx (th : ThreadId) (f : VMisc) (s : State) : Host.Outcome State Fault Refusal :=
  vmisc (0x104 + subEsz f) th f [f.rd, f.rs2] true [.v f.rs1.toNat] (fun s =>
    let t := s.thr th
    let w := 2 ^ subEsz f
    s.fly th .vector [.x f.rd (BitVec.ofNat 64 (vget (t.vr f.rs1) w ((t.xr f.rs2).toNat % elemsN w)))]) s

def execViota (th : ThreadId) (f : VMisc) (s : State) : Host.Outcome State Fault Refusal :=
  vmisc (0x108 + subEsz f) th f [f.rs1] (f.rs2 == 0) [] (fun s =>
    let w := 2 ^ subEsz f
    let x := (s.thr th).xr f.rs1
    s.fly th .vector [.v f.rd.toNat (vmap w (BitVec.allOnes 256) false 0 fun i => x.toNat + i)]) s

def execFmvxf (th : ThreadId) (f : VMisc) (s : State) : Host.Outcome State Fault Refusal :=
  vmisc 0x110 th f [f.rd] (f.rs2 == 0) [.f f.rs1.toNat] (fun s =>
    s.fly th .vector [.x f.rd (BitVec.ofNat 64 ((s.thr th).fr f.rs1))]) s

def execFmvfx (th : ThreadId) (f : VMisc) (s : State) : Host.Outcome State Fault Refusal :=
  vmisc 0x111 th f [f.rs1] (f.rs2 == 0) [] (fun s => s.fly th .vector [.f f.rd.toNat ((s.thr th).xr f.rs1)]) s

/-! ### Scalar floating point (R141, R147) -/

/-- fmt of a scalar floating-point fn. -/
def subFmt (f : VMisc) : BitVec 4 := f.sub.setWidth 4

/-- A scalar operation into an F register. -/
def sfltOp (k : Nat) (o : VFop) (un : Bool) (th : ThreadId) (f : VMisc) (s : State) : Host.Outcome State Fault Refusal :=
  vmisc (0x200 + 16 * k + (subFmt f).toNat) th f [] ((arithFmt (subFmt f)).isSome && (!un || f.rs2 == 0))
    ([.f f.rs1.toNat] ++ (if un then [] else [.f f.rs2.toNat]) ++ if readsDest o then [.f f.rd.toNat] else []) (fun s =>
      match arithFmt (subFmt f) with
      | none => s
      | some sp =>
        let t := s.thr th
        let (r, fl) := vfop o sp t.vec.strict (t.fr f.rd) (t.fr f.rs1) (t.fr f.rs2)
        s.flyDiv th (isDiv o) ([.f f.rd.toNat (BitVec.ofNat 64 r)] ++ flagWr fl)) s

/-- A scalar compare into an X register. -/
def sfltCmp (k : Nat) (o : VFcmp) (th : ThreadId) (f : VMisc) (s : State) : Host.Outcome State Fault Refusal :=
  vmisc (0x200 + 16 * k + (subFmt f).toNat) th f [f.rd] (arithFmt (subFmt f)).isSome
    [.f f.rs1.toNat, .f f.rs2.toNat] (fun s =>
      match arithFmt (subFmt f) with
      | none => s
      | some sp =>
        let t := s.thr th
        s.fly th .vector [.x f.rd (if vfcmp o sp t.vec.strict (t.fr f.rs1) (t.fr f.rs2) then 1 else 0)]) s

def execFadd (th : ThreadId) (f : VMisc) (s : State) := sfltOp 0 .add false th f s
def execFsub (th : ThreadId) (f : VMisc) (s : State) := sfltOp 1 .sub false th f s
def execFmul (th : ThreadId) (f : VMisc) (s : State) := sfltOp 2 .mul false th f s
def execFdiv (th : ThreadId) (f : VMisc) (s : State) := sfltOp 3 .div false th f s
def execFsqrt (th : ThreadId) (f : VMisc) (s : State) := sfltOp 4 .sqrt true th f s
def execFmax (th : ThreadId) (f : VMisc) (s : State) := sfltOp 5 .max false th f s
def execFmin (th : ThreadId) (f : VMisc) (s : State) := sfltOp 6 .min false th f s
def execFma (th : ThreadId) (f : VMisc) (s : State) := sfltOp 7 .fma false th f s
def execFeq (th : ThreadId) (f : VMisc) (s : State) := sfltCmp 8 .eq th f s
def execFlt (th : ThreadId) (f : VMisc) (s : State) := sfltCmp 9 .lt th f s
def execFle (th : ThreadId) (f : VMisc) (s : State) := sfltCmp 0xA .le th f s

/-- Rounding method of a scalar conversion: position 0 of the thread's stream (R162). -/
def Thread.rnd0 (t : Thread) (rm : BitVec 2) : Rnd := rndOf rm (srWord t.vec.key t.vec.ctr t.vec.step 0)

def subRm (f : VMisc) : BitVec 2 := (f.sub >>> 4).setWidth 2

/-- INT64 from an F register. -/
def execFcvtxf (th : ThreadId) (f : VMisc) (s : State) : Host.Outcome State Fault Refusal :=
  vmisc (0x300 + f.sub.toNat) th f [f.rd] ((arithFmt (subFmt f)).isSome && subRm f != 3 && f.rs2 == 0)
    [.f f.rs1.toNat] (fun s =>
      let t := s.thr th
      match arithFmt (subFmt f) with
      | none => s
      | some sp =>
        let (q, fl) := toInt 64 (t.rnd0 (subRm f)) (fread sp t.vec.strict (t.fr f.rs1))
        s.fly th .vector ([.x f.rd (BitVec.ofNat 64 (intBits 64 q))] ++ flagWr fl ++ srWr (subRm f))) s

/-- An F register from INT64. -/
def execFcvtfx (th : ThreadId) (f : VMisc) (s : State) : Host.Outcome State Fault Refusal :=
  vmisc (0x340 + f.sub.toNat) th f [f.rs1] ((arithFmt (subFmt f)).isSome && subRm f != 3 && f.rs2 == 0) [] (fun s =>
    let t := s.thr th
    let (r, fl) := writeElem (subFmt f) t.vec.strict (t.rnd0 (subRm f)) (ofScaled (intVal 64 (t.xr f.rs1).toNat) 0)
    s.fly th .vector ([.f f.rd.toNat (BitVec.ofNat 64 r)] ++ flagWr fl ++ srWr (subRm f))) s

/-! ### The G view (R165, R166) -/

/-- A G operand. -/
def isG (r : Reg) : Bool := decide (r.toNat < 4)

/-- Words of Gk that an instruction reads. -/
def gUses (k : Nat) : List VUse := (List.range 8).map fun m => .v (8 * k + m)

/-- Shape of a G instruction: STR, then the level, before register errors (R168). -/
def ginstr (fn : Nat) (th : ThreadId) (f : VMisc) (regs : List Reg) (legal : Bool) (us : List VUse)
    (act : State → State) (s : State) : Host.Outcome State Fault Refusal :=
  let w := encVMisc fn f
  vecInstr s th regs legal w fun s =>
    let t := s.thr th
    if !t.str then s.raise th .execution vecStrOnly (w.setWidth 64)
    else if !t.super then s.privileged th w
    else s.vecReads th us act

def execGld (th : ThreadId) (f : VMisc) (s : State) : Host.Outcome State Fault Refusal :=
  ginstr 0x700 th f [f.rs1] (isG f.rd && f.rs2 == 0) [] (fun s =>
    let t := s.thr th
    s.access th { kind := .load, parts := gParts t f.rd.toNat (t.xr f.rs1) false, fin := .gld f.rd.toNat }) s

def execGst (th : ThreadId) (f : VMisc) (s : State) : Host.Outcome State Fault Refusal :=
  ginstr 0x701 th f [f.rs1] (isG f.rd && f.rs2 == 0) (gUses f.rd.toNat) (fun s =>
    let t := s.thr th
    s.access th { kind := .store, parts := gParts t f.rd.toNat (t.xr f.rs1) true, fin := .gst }) s

def execGfill (th : ThreadId) (f : VMisc) (s : State) : Host.Outcome State Fault Refusal :=
  ginstr 0x702 th f [f.rs1] (isG f.rd && f.rs2 == 0) [] (fun s =>
    let x := ((s.thr th).xr f.rs1).toNat
    s.fly th .vector ((List.range 8).map fun m =>
      .v (8 * f.rd.toNat + m) (BitVec.ofNat 2048 (packF 64 (List.replicate 32 x))))) s

def execGchk (th : ThreadId) (f : VMisc) (s : State) : Host.Outcome State Fault Refusal :=
  ginstr 0x703 th f [f.rd, f.rs1] (isG f.rs2) (gUses f.rs2.toNat) (fun s =>
    let t := s.thr th
    s.access th { kind := .load, parts := gParts t f.rs2.toNat (t.xr f.rs1) false, fin := .gchk f.rd f.rs2.toNat }) s

/-! ### Retirement, power, scrub -/

/-- The thread's vector instruction retires; a divider is free again. -/
def execVectorRetire (th : ThreadId) (s : State) : Host.Outcome State Fault Refusal :=
  match (s.thr th).vfly with
  | none => .next s
  | some f =>
    let s := s.modThr th fun t => { t with vfly := none, csr := { t.csr with instret := t.csr.instret + 1 } }
    let s := ((s.applyWrs th f.wr).countRetired th true false).landed th
    .next (if f.unit == .divider then s.wake (thCore th) .divider else s)

/-- No vector instruction of the core is in flight or waits for memory. -/
def State.vecIdle (s : State) (g : Nat) : Bool :=
  [0, 1, 2, 3].all fun i =>
    let t := s.thr (mkTh g i)
    t.vfly.isNone && (match t.pend with | some (.access a _ _) => !a.fin.isVector | _ => true)

/-- THRESH idle cycles have passed: the unit powers down (R163). -/
def execVecPowerDown (g : CoreId) (s : State) : Host.Outcome State Fault Refusal :=
  let c := s.core g.toNat
  if c.vpow == .on && c.thresh != 0 && s.vecIdle g.toNat then
    .next (s.setCore g.toNat { c with vpow := .off })
  else .next s

/-- A wake ends (R164). -/
def execVecWakeEnd (g : CoreId) (s : State) : Host.Outcome State Fault Refusal :=
  match (s.core g.toNat).vpow with
  | .waking offAfter =>
    .next ((s.modCore g.toNat fun c => { c with vpow := if offAfter then .off else .on }).wake g.toNat .wake)
  | _ => .next s

/-- Number of a register in CORE_TVAL of VEC_ECC. -/
def vregNum : VRegName → Nat
  | .v n => n.toNat
  | .p n => 32 + n.toNat
  | .ffr => 48

/-- Mark a word of a register. -/
def Thread.markBad (t : Thread) (r : VRegName) (word : Nat) : Thread :=
  match r with
  | .v n => { t with vec := { t.vec with badV := (n.toNat, word) :: t.vec.badV } }
  | .p n => { t with vec := { t.vec with badP := (n.toNat, word) :: t.vec.badP } }
  | .ffr => { t with vec := { t.vec with badF := word :: t.vec.badF } }

/-- The scrub reads a word: a correctable error is counted; an uncorrectable one is recorded and stays until the word is
written (R167). -/
def execVecScrub (th : ThreadId) (reg : VRegName) (word : Nat) (ue : Bool) (s : State) : Host.Outcome State Fault Refusal :=
  let n := vregNum reg
  if ue then
    .next (((s.coreRecord th vecEcc sevNotice (BitVec.ofNat 32 n) (det 40 8 n)).modCore (thCore th) Core.countVecU).modThr
      th fun t => t.markBad reg word)
  else .next (s.modCore (thCore th) fun c => { c with vEccC := satAdd 32 c.vEccC 1 })

end Sys2Proof.Machine
end

