-- ==== Sys2Proof/Machine/Dispatch.lean ====
section
/-!
DEFINITION. What each command does: one arm per row of spec/opcode_table.json, each a call of the command's meaning.
-/

namespace Sys2Proof.Machine

def exec (i : Instr) (s : State) : Host.Outcome State Fault Refusal :=
  match i with
  | .add th rd rs1 rs2 => Sys2Proof.Machine.execAdd th rd rs1 rs2 s
  | .sub th rd rs1 rs2 => Sys2Proof.Machine.execSub th rd rs1 rs2 s
  | .and th rd rs1 rs2 => Sys2Proof.Machine.execAnd th rd rs1 rs2 s
  | .or th rd rs1 rs2 => Sys2Proof.Machine.execOr th rd rs1 rs2 s
  | .xor th rd rs1 rs2 => Sys2Proof.Machine.execXor th rd rs1 rs2 s
  | .shl th rd rs1 rs2 => Sys2Proof.Machine.execShl th rd rs1 rs2 s
  | .shr th rd rs1 rs2 => Sys2Proof.Machine.execShr th rd rs1 rs2 s
  | .sra th rd rs1 rs2 => Sys2Proof.Machine.execSra th rd rs1 rs2 s
  | .slt th rd rs1 rs2 => Sys2Proof.Machine.execSlt th rd rs1 rs2 s
  | .sltu th rd rs1 rs2 => Sys2Proof.Machine.execSltu th rd rs1 rs2 s
  | .mul th rd rs1 rs2 => Sys2Proof.Machine.execMul th rd rs1 rs2 s
  | .mulh th rd rs1 rs2 => Sys2Proof.Machine.execMulh th rd rs1 rs2 s
  | .mulhu th rd rs1 rs2 => Sys2Proof.Machine.execMulhu th rd rs1 rs2 s
  | .div th rd rs1 rs2 => Sys2Proof.Machine.execDiv th rd rs1 rs2 s
  | .divu th rd rs1 rs2 => Sys2Proof.Machine.execDivu th rd rs1 rs2 s
  | .rem th rd rs1 rs2 => Sys2Proof.Machine.execRem th rd rs1 rs2 s
  | .remu th rd rs1 rs2 => Sys2Proof.Machine.execRemu th rd rs1 rs2 s
  | .addi th rd rs1 imm => Sys2Proof.Machine.execAddi th rd rs1 imm s
  | .andi th rd rs1 imm => Sys2Proof.Machine.execAndi th rd rs1 imm s
  | .ori th rd rs1 imm => Sys2Proof.Machine.execOri th rd rs1 imm s
  | .xori th rd rs1 imm => Sys2Proof.Machine.execXori th rd rs1 imm s
  | .slti th rd rs1 imm => Sys2Proof.Machine.execSlti th rd rs1 imm s
  | .sltiu th rd rs1 imm => Sys2Proof.Machine.execSltiu th rd rs1 imm s
  | .shifti th rd rs1 imm => Sys2Proof.Machine.execShifti th rd rs1 imm s
  | .lui th rd imm => Sys2Proof.Machine.execLui th rd imm s
  | .auipc th rd imm => Sys2Proof.Machine.execAuipc th rd imm s
  | .ldb th rd rs1 imm => Sys2Proof.Machine.execLdb th rd rs1 imm s
  | .ldbu th rd rs1 imm => Sys2Proof.Machine.execLdbu th rd rs1 imm s
  | .ldh th rd rs1 imm => Sys2Proof.Machine.execLdh th rd rs1 imm s
  | .ldhu th rd rs1 imm => Sys2Proof.Machine.execLdhu th rd rs1 imm s
  | .ldw th rd rs1 imm => Sys2Proof.Machine.execLdw th rd rs1 imm s
  | .ldwu th rd rs1 imm => Sys2Proof.Machine.execLdwu th rd rs1 imm s
  | .ldd th rd rs1 imm => Sys2Proof.Machine.execLdd th rd rs1 imm s
  | .stb th rs2 rs1 imm => Sys2Proof.Machine.execStb th rs2 rs1 imm s
  | .sth th rs2 rs1 imm => Sys2Proof.Machine.execSth th rs2 rs1 imm s
  | .stw th rs2 rs1 imm => Sys2Proof.Machine.execStw th rs2 rs1 imm s
  | .std th rs2 rs1 imm => Sys2Proof.Machine.execStd th rs2 rs1 imm s
  | .beq th rs1 rs2 off => Sys2Proof.Machine.execBeq th rs1 rs2 off s
  | .bne th rs1 rs2 off => Sys2Proof.Machine.execBne th rs1 rs2 off s
  | .blt th rs1 rs2 off => Sys2Proof.Machine.execBlt th rs1 rs2 off s
  | .bge th rs1 rs2 off => Sys2Proof.Machine.execBge th rs1 rs2 off s
  | .bltu th rs1 rs2 off => Sys2Proof.Machine.execBltu th rs1 rs2 off s
  | .bgeu th rs1 rs2 off => Sys2Proof.Machine.execBgeu th rs1 rs2 off s
  | .jal th rd imm => Sys2Proof.Machine.execJal th rd imm s
  | .jalr th rd rs1 imm => Sys2Proof.Machine.execJalr th rd rs1 imm s
  | .trap th rd rs1 code => Sys2Proof.Machine.execTrap th rd rs1 code s
  | .eret th rd rs1 rs2 => Sys2Proof.Machine.execEret th rd rs1 rs2 s
  | .halt th rd rs1 rs2 => Sys2Proof.Machine.execHalt th rd rs1 rs2 s
  | .iflush th rd rs1 rs2 => Sys2Proof.Machine.execIflush th rd rs1 rs2 s
  | .csrr th rd rs1 csr => Sys2Proof.Machine.execCsrr th rd rs1 csr s
  | .csrw th rd rs1 csr => Sys2Proof.Machine.execCsrw th rd rs1 csr s
  | .fence th rd rs1 rs2 => Sys2Proof.Machine.execFence th rd rs1 rs2 s
  | .pginv th rd rs1 rs2 => Sys2Proof.Machine.execPginv th rd rs1 rs2 s
  | .pginva th rd rs1 rs2 => Sys2Proof.Machine.execPginva th rd rs1 rs2 s
  | .pginvComplete th => Sys2Proof.Machine.execPginvComplete th s
  | .interruptTake th => Sys2Proof.Machine.execInterruptTake th s
  | .asyncMem th => Sys2Proof.Machine.execAsyncMem th s
  | .coreTimerExpiry th => Sys2Proof.Machine.execCoreTimerExpiry th s
  | .coreDoorbell th => Sys2Proof.Machine.execCoreDoorbell th s
  | .icacheFill th => Sys2Proof.Machine.execIcacheFill th s
  | .memReply th k => Sys2Proof.Machine.execMemReply th k s
  | .storeAck th k => Sys2Proof.Machine.execStoreAck th k s
  | .memTimeout th what => Sys2Proof.Machine.execMemTimeout th what s
  | .memMemtoWrite c v => Sys2Proof.Machine.execMemMemtoWrite c v s
  | .benchOutsidePromote g k => Sys2Proof.Machine.execBenchOutsidePromote g k s
  | .granHotBank n ch bank reqs => Sys2Proof.Machine.execGranHotBank n ch bank reqs s
  | .memScrub loc ue => Sys2Proof.Machine.execMemScrub loc ue s
  | .tld th f => Sys2Proof.Machine.execTld th f s
  | .tst th f => Sys2Proof.Machine.execTst th f s
  | .tldt th f => Sys2Proof.Machine.execTldt th f s
  | .tald th f => Sys2Proof.Machine.execTald th f s
  | .tast th f => Sys2Proof.Machine.execTast th f s
  | .tazero th a mbz10 int mbz11 => Sys2Proof.Machine.execTazero th a mbz10 int mbz11 s
  | .tacvt th f => Sys2Proof.Machine.execTacvt th f s
  | .tmma th f => Sys2Proof.Machine.execTmma th f s
  | .tmmaz th f => Sys2Proof.Machine.execTmmaz th f s
  | .tzero th rd rs1 rs2 => Sys2Proof.Machine.execTzero th rd rs1 rs2 s
  | .tmov th rd rs1 rs2 => Sys2Proof.Machine.execTmov th rd rs1 rs2 s
  | .tinv th rd rs1 rs2 => Sys2Proof.Machine.execTinv th rd rs1 rs2 s
  | .ttag th rd rs1 rs2 => Sys2Proof.Machine.execTtag th rd rs1 rs2 s
  | .tsetm th rd rs1 rs2 => Sys2Proof.Machine.execTsetm th rd rs1 rs2 s
  | .tgetm th rd rs1 rs2 => Sys2Proof.Machine.execTgetm th rd rs1 rs2 s
  | .tileRetire th => Sys2Proof.Machine.execTileRetire th s
  | .coalWindowExpiry g k => Sys2Proof.Machine.execCoalWindowExpiry g k s
  | .tileHoldExpiry g => Sys2Proof.Machine.execTileHoldExpiry g s
  | .tileRampDownEnd g => Sys2Proof.Machine.execTileRampDownEnd g s
  | .tileRampUpEnd g => Sys2Proof.Machine.execTileRampUpEnd g s
  | .tileThrot g v => Sys2Proof.Machine.execTileThrot g v s
  | .tileScrub th acc n row ue => Sys2Proof.Machine.execTileScrub th acc n row ue s
  | .vadd th f => Sys2Proof.Machine.execVadd th f s
  | .vsub th f => Sys2Proof.Machine.execVsub th f s
  | .vmul th f => Sys2Proof.Machine.execVmul th f s
  | .vmulh th f => Sys2Proof.Machine.execVmulh th f s
  | .vmulhu th f => Sys2Proof.Machine.execVmulhu th f s
  | .vand th f => Sys2Proof.Machine.execVand th f s
  | .vor th f => Sys2Proof.Machine.execVor th f s
  | .vxor th f => Sys2Proof.Machine.execVxor th f s
  | .vshl th f => Sys2Proof.Machine.execVshl th f s
  | .vshr th f => Sys2Proof.Machine.execVshr th f s
  | .vsra th f => Sys2Proof.Machine.execVsra th f s
  | .vmin th f => Sys2Proof.Machine.execVmin th f s
  | .vmax th f => Sys2Proof.Machine.execVmax th f s
  | .vminu th f => Sys2Proof.Machine.execVminu th f s
  | .vmaxu th f => Sys2Proof.Machine.execVmaxu th f s
  | .vadds th f => Sys2Proof.Machine.execVadds th f s
  | .vsubs th f => Sys2Proof.Machine.execVsubs th f s
  | .vaddsu th f => Sys2Proof.Machine.execVaddsu th f s
  | .vsubsu th f => Sys2Proof.Machine.execVsubsu th f s
  | .vcmpeq th f => Sys2Proof.Machine.execVcmpeq th f s
  | .vcmplt th f => Sys2Proof.Machine.execVcmplt th f s
  | .vcmpltu th f => Sys2Proof.Machine.execVcmpltu th f s
  | .vcmple th f => Sys2Proof.Machine.execVcmple th f s
  | .vcmpleu th f => Sys2Proof.Machine.execVcmpleu th f s
  | .vsel th f => Sys2Proof.Machine.execVsel th f s
  | .vperm th f => Sys2Proof.Machine.execVperm th f s
  | .vfadd th f => Sys2Proof.Machine.execVfadd th f s
  | .vfsub th f => Sys2Proof.Machine.execVfsub th f s
  | .vfmul th f => Sys2Proof.Machine.execVfmul th f s
  | .vfdiv th f => Sys2Proof.Machine.execVfdiv th f s
  | .vfmax th f => Sys2Proof.Machine.execVfmax th f s
  | .vfmin th f => Sys2Proof.Machine.execVfmin th f s
  | .vfma th f => Sys2Proof.Machine.execVfma th f s
  | .vfnma th f => Sys2Proof.Machine.execVfnma th f s
  | .vfsqrt th f => Sys2Proof.Machine.execVfsqrt th f s
  | .vfabs th f => Sys2Proof.Machine.execVfabs th f s
  | .vfneg th f => Sys2Proof.Machine.execVfneg th f s
  | .vfcmpeq th f => Sys2Proof.Machine.execVfcmpeq th f s
  | .vfcmplt th f => Sys2Proof.Machine.execVfcmplt th f s
  | .vfcmple th f => Sys2Proof.Machine.execVfcmple th f s
  | .vfcmpne th f => Sys2Proof.Machine.execVfcmpne th f s
  | .vredSum th f => Sys2Proof.Machine.execVredSum th f s
  | .vredSumsq th f => Sys2Proof.Machine.execVredSumsq th f s
  | .vredMax th f => Sys2Proof.Machine.execVredMax th f s
  | .vredMin th f => Sys2Proof.Machine.execVredMin th f s
  | .vredAnd th f => Sys2Proof.Machine.execVredAnd th f s
  | .vredOr th f => Sys2Proof.Machine.execVredOr th f s
  | .vredXor th f => Sys2Proof.Machine.execVredXor th f s
  | .vcvt th f => Sys2Proof.Machine.execVcvt th f s
  | .vld th f => Sys2Proof.Machine.execVld th f s
  | .vlds th f => Sys2Proof.Machine.execVlds th f s
  | .vgath th f => Sys2Proof.Machine.execVgath th f s
  | .vldff th f => Sys2Proof.Machine.execVldff th f s
  | .vgathff th f => Sys2Proof.Machine.execVgathff th f s
  | .vst th f => Sys2Proof.Machine.execVst th f s
  | .vsts th f => Sys2Proof.Machine.execVsts th f s
  | .vscat th f => Sys2Proof.Machine.execVscat th f s
  | .pand th f => Sys2Proof.Machine.execPand th f s
  | .por th f => Sys2Proof.Machine.execPor th f s
  | .pxor th f => Sys2Proof.Machine.execPxor th f s
  | .pandn th f => Sys2Proof.Machine.execPandn th f s
  | .pset th f => Sys2Proof.Machine.execPset th f s
  | .pclr th f => Sys2Proof.Machine.execPclr th f s
  | .plen th f => Sys2Proof.Machine.execPlen th f s
  | .ppop th f => Sys2Proof.Machine.execPpop th f s
  | .plow th f => Sys2Proof.Machine.execPlow th f s
  | .ffarm th f => Sys2Proof.Machine.execFfarm th f s
  | .fftake th f => Sys2Proof.Machine.execFftake th f s
  | .ffput th f => Sys2Proof.Machine.execFfput th f s
  | .ffcut th f => Sys2Proof.Machine.execFfcut th f s
  | .vdup th f => Sys2Proof.Machine.execVdup th f s
  | .vgetx th f => Sys2Proof.Machine.execVgetx th f s
  | .viota th f => Sys2Proof.Machine.execViota th f s
  | .fmvxf th f => Sys2Proof.Machine.execFmvxf th f s
  | .fmvfx th f => Sys2Proof.Machine.execFmvfx th f s
  | .fadd th f => Sys2Proof.Machine.execFadd th f s
  | .fsub th f => Sys2Proof.Machine.execFsub th f s
  | .fmul th f => Sys2Proof.Machine.execFmul th f s
  | .fdiv th f => Sys2Proof.Machine.execFdiv th f s
  | .fsqrt th f => Sys2Proof.Machine.execFsqrt th f s
  | .fmax th f => Sys2Proof.Machine.execFmax th f s
  | .fmin th f => Sys2Proof.Machine.execFmin th f s
  | .fma th f => Sys2Proof.Machine.execFma th f s
  | .feq th f => Sys2Proof.Machine.execFeq th f s
  | .flt th f => Sys2Proof.Machine.execFlt th f s
  | .fle th f => Sys2Proof.Machine.execFle th f s
  | .fcvtxf th f => Sys2Proof.Machine.execFcvtxf th f s
  | .fcvtfx th f => Sys2Proof.Machine.execFcvtfx th f s
  | .gld th f => Sys2Proof.Machine.execGld th f s
  | .gst th f => Sys2Proof.Machine.execGst th f s
  | .gfill th f => Sys2Proof.Machine.execGfill th f s
  | .gchk th f => Sys2Proof.Machine.execGchk th f s
  | .vectorRetire th => Sys2Proof.Machine.execVectorRetire th s
  | .vecPowerDown g => Sys2Proof.Machine.execVecPowerDown g s
  | .vecWakeEnd g => Sys2Proof.Machine.execVecWakeEnd g s
  | .vecScrub th reg word ue => Sys2Proof.Machine.execVecScrub th reg word ue s
  | .tsig th rd rs1 rs2 => Sys2Proof.Machine.execTsig th rd rs1 rs2 s
  | .tdec th rd rs1 rs2 => Sys2Proof.Machine.execTdec th rd rs1 rs2 s
  | .tset th rd rs1 rs2 => Sys2Proof.Machine.execTset th rd rs1 rs2 s
  | .tread th rd rs1 rs2 => Sys2Proof.Machine.execTread th rd rs1 rs2 s
  | .twait th rd rs1 rs2 => Sys2Proof.Machine.execTwait th rd rs1 rs2 s
  | .barr th rd rs1 rs2 => Sys2Proof.Machine.execBarr th rd rs1 rs2 s
  | .bwait th rd rs1 rs2 => Sys2Proof.Machine.execBwait th rd rs1 rs2 s
  | .bread th rd rs1 rs2 => Sys2Proof.Machine.execBread th rd rs1 rs2 s
  | .tsigr th rd rs1 rs2 => Sys2Proof.Machine.execTsigr th rd rs1 rs2 s
  | .tallySignal k => Sys2Proof.Machine.execTallySignal k s
  | .tallyDecrement k => Sys2Proof.Machine.execTallyDecrement k s
  | .tallySet k => Sys2Proof.Machine.execTallySet k s
  | .tallyWait k => Sys2Proof.Machine.execTallyWait k s
  | .bellArrive k => Sys2Proof.Machine.execBellArrive k s
  | .bellWait k => Sys2Proof.Machine.execBellWait k s
  | .syncTimeout th => Sys2Proof.Machine.execSyncTimeout th s
  | .syncWithdraw k => Sys2Proof.Machine.execSyncWithdraw k s
  | .remoteSignal k => Sys2Proof.Machine.execRemoteSignal k s
  | .remoteBellArrival k => Sys2Proof.Machine.execRemoteBellArrival k s
  | .remoteBellRelease k => Sys2Proof.Machine.execRemoteBellRelease k s
  | .strmStart q ch w => Sys2Proof.Machine.execStrmStart q ch w s
  | .strmRetry q ch w => Sys2Proof.Machine.execStrmRetry q ch w s
  | .strmAbort q ch w => Sys2Proof.Machine.execStrmAbort q ch w s
  | .strmDescReply q ch => Sys2Proof.Machine.execStrmDescReply q ch s
  | .strmDescTimeout q ch => Sys2Proof.Machine.execStrmDescTimeout q ch s
  | .strmIssue q ch => Sys2Proof.Machine.execStrmIssue q ch s
  | .strmReadReply q ch k => Sys2Proof.Machine.execStrmReadReply q ch k s
  | .strmWriteAck q ch k => Sys2Proof.Machine.execStrmWriteAck q ch k s
  | .strmTimeout q ch => Sys2Proof.Machine.execStrmTimeout q ch s
  | .strmWaitTimeout q ch => Sys2Proof.Machine.execStrmWaitTimeout q ch s
  | .registrationRead c => Sys2Proof.Machine.execRegistrationRead c s
  | .announce k => Sys2Proof.Machine.execAnnounce k s
  | .preroundGather k => Sys2Proof.Machine.execPreroundGather k s
  | .preroundSpread k => Sys2Proof.Machine.execPreroundSpread k s
  | .reduceScatterFrame k => Sys2Proof.Machine.execReduceScatterFrame k s
  | .allGatherFrame k => Sys2Proof.Machine.execAllGatherFrame k s
  | .columnReduceScatter k => Sys2Proof.Machine.execColumnReduceScatter k s
  | .columnAllGather k => Sys2Proof.Machine.execColumnAllGather k s
  | .redDeadline e slot => Sys2Proof.Machine.execRedDeadline e slot s
  | .redTimeout e slot => Sys2Proof.Machine.execRedTimeout e slot s
  | .shadowRequest k => Sys2Proof.Machine.execShadowRequest k s
  | .shadowCopy k => Sys2Proof.Machine.execShadowCopy k s
  | .shadowAnswerTimeout e slot => Sys2Proof.Machine.execShadowAnswerTimeout e slot s
  | .packetReceive p pkt => Sys2Proof.Machine.execPacketReceive p pkt s
  | .packetExpiry p k => Sys2Proof.Machine.execPacketExpiry p k s
  | .routeHoldExpiry dest => Sys2Proof.Machine.execRouteHoldExpiry dest s
  | .generationNotice k => Sys2Proof.Machine.execGenerationNotice k s
  | .undeliverableNotice k => Sys2Proof.Machine.execUndeliverableNotice k s
  | .flitReceive p flit => Sys2Proof.Machine.execFlitReceive p flit s
  | .flitAck p seq => Sys2Proof.Machine.execFlitAck p seq s
  | .nak p seq => Sys2Proof.Machine.execNak p seq s
  | .fabAcktoExpiry p => Sys2Proof.Machine.execFabAcktoExpiry p s
  | .portSilence p => Sys2Proof.Machine.execPortSilence p s
  | .laneLockLoss p lanes => Sys2Proof.Machine.execLaneLockLoss p lanes s
  | .lanemap p map => Sys2Proof.Machine.execLanemap p map s
  | .reeveLaneDrop p lane => Sys2Proof.Machine.execReeveLaneDrop p lane s
  | .laneRestore p lane ok => Sys2Proof.Machine.execLaneRestore p lane ok s
  | .fabLanesAllowed p v => Sys2Proof.Machine.execFabLanesAllowed p v s
  | .fabPortEnable p => Sys2Proof.Machine.execFabPortEnable p s
  | .trainingDone p found => Sys2Proof.Machine.execTrainingDone p found s
  | .trainLimitExpiry p => Sys2Proof.Machine.execTrainLimitExpiry p s
  | .fabRetrainExpiry p => Sys2Proof.Machine.execFabRetrainExpiry p s
  | .laserLoss m why => Sys2Proof.Machine.execLaserLoss m why s
  | .laserRestore m => Sys2Proof.Machine.execLaserRestore m s
  | .fabLaserCtl m v => Sys2Proof.Machine.execFabLaserCtl m v s
  | .putRead c => Sys2Proof.Machine.execPutRead c s
  | .putData k => Sys2Proof.Machine.execPutData k s
  | .putReply k => Sys2Proof.Machine.execPutReply k s
  | .putTimeout n => Sys2Proof.Machine.execPutTimeout n s
  | .gateEnable => Sys2Proof.Machine.execGateEnable s
  | .gateDad linkLocal dup => Sys2Proof.Machine.execGateDad linkLocal dup s
  | .neighbourSolicitation m => Sys2Proof.Machine.execNeighbourSolicitation m s
  | .echoRequest m => Sys2Proof.Machine.execEchoRequest m s
  | .gateFrameDrop why => Sys2Proof.Machine.execGateFrameDrop why s
  | .hello h => Sys2Proof.Machine.execHello h s
  | .finish hdr sigOk => Sys2Proof.Machine.execFinish hdr sigOk s
  | .close m => Sys2Proof.Machine.execClose m s
  | .handshakeTimeout session => Sys2Proof.Machine.execHandshakeTimeout session s
  | .load r offset length image => Sys2Proof.Machine.execLoad r offset length image s
  | .start r => Sys2Proof.Machine.execStart r s
  | .pause r => Sys2Proof.Machine.execPause r s
  | .pauseDone c => Sys2Proof.Machine.execPauseDone c s
  | .resume r => Sys2Proof.Machine.execResume r s
  | .stop r => Sys2Proof.Machine.execStop r s
  | .drainDone c => Sys2Proof.Machine.execDrainDone c s
  | .resetCtx r => Sys2Proof.Machine.execResetCtx r s
  | .snap r round external => Sys2Proof.Machine.execSnap r round external s
  | .restore r round source noFallback rsv => Sys2Proof.Machine.execRestore r round source noFallback rsv s
  | .queryContext r => Sys2Proof.Machine.execQueryContext r s
  | .queryEvents r first count => Sys2Proof.Machine.execQueryEvents r first count s
  | .queryRegister r addr => Sys2Proof.Machine.execQueryRegister r addr s
  | .queryDigest r ring bucket step => Sys2Proof.Machine.execQueryDigest r ring bucket step s
  | .queryFeed r => Sys2Proof.Machine.execQueryFeed r s
  | .queryRing r ring => Sys2Proof.Machine.execQueryRing r ring s
  | .telemSet r => Sys2Proof.Machine.execTelemSet r s
  | .telemPeriodic r periodUs => Sys2Proof.Machine.execTelemPeriodic r periodUs s
  | .telemSubscribe r minSeverity => Sys2Proof.Machine.execTelemSubscribe r minSeverity s
  | .telemCancel r what => Sys2Proof.Machine.execTelemCancel r what s
  | .telemPeriodExpiry session => Sys2Proof.Machine.execTelemPeriodExpiry session s
  | .eventFlush session => Sys2Proof.Machine.execEventFlush session s
  | .attestReport r nonce => Sys2Proof.Machine.execAttestReport r nonce s
  | .attestCert r => Sys2Proof.Machine.execAttestCert r s
  | .fwStage r offset length bundle => Sys2Proof.Machine.execFwStage r offset length bundle s
  | .fwCommit r => Sys2Proof.Machine.execFwCommit r s
  | .cmdTimeout target => Sys2Proof.Machine.execCmdTimeout target s
  | .cmdLoadIdle target => Sys2Proof.Machine.execCmdLoadIdle target s
  | .feedRequest c => Sys2Proof.Machine.execFeedRequest c s
  | .feedData c f => Sys2Proof.Machine.execFeedData c f s
  | .feedEnd c m offset => Sys2Proof.Machine.execFeedEnd c m offset s
  | .feedErr c m => Sys2Proof.Machine.execFeedErr c m s
  | .feedRetryExpiry c => Sys2Proof.Machine.execFeedRetryExpiry c s
  | .snapQuiesceDone c => Sys2Proof.Machine.execSnapQuiesceDone c s
  | .snapQuiesce c => Sys2Proof.Machine.execSnapQuiesce c s
  | .snapBlockRead c => Sys2Proof.Machine.execSnapBlockRead c s
  | .snapStageDone c => Sys2Proof.Machine.execSnapStageDone c s
  | .snapPktData k => Sys2Proof.Machine.execSnapPktData k s
  | .snapPktDigest k => Sys2Proof.Machine.execSnapPktDigest k s
  | .snapPktAck k => Sys2Proof.Machine.execSnapPktAck k s
  | .snapPktAskAgain k => Sys2Proof.Machine.execSnapPktAskAgain k s
  | .snapPktManifest k => Sys2Proof.Machine.execSnapPktManifest k s
  | .snapPktFetch k => Sys2Proof.Machine.execSnapPktFetch k s
  | .snapPktCatalogue k => Sys2Proof.Machine.execSnapPktCatalogue k s
  | .snapPairing => Sys2Proof.Machine.execSnapPairing s
  | .snapTimeout b => Sys2Proof.Machine.execSnapTimeout b s
  | .vaultSignDone c => Sys2Proof.Machine.execVaultSignDone c s
  | .hostedCompaction n => Sys2Proof.Machine.execHostedCompaction n s
  | .snapExternalCopy c => Sys2Proof.Machine.execSnapExternalCopy c s
  | .restoreBlock c f => Sys2Proof.Machine.execRestoreBlock c f s
  | .snapSchedEnable c => Sys2Proof.Machine.execSnapSchedEnable c s
  | .probeAnswer u => Sys2Proof.Machine.execProbeAnswer u s
  | .probeTimeout u => Sys2Proof.Machine.execProbeTimeout u s
  | .quiesceAck c u => Sys2Proof.Machine.execQuiesceAck c u s
  | .purgeBoundExpiry c => Sys2Proof.Machine.execPurgeBoundExpiry c s
  | .fenceTimeout c u => Sys2Proof.Machine.execFenceTimeout c u s
  | .genGapExpiry c => Sys2Proof.Machine.execGenGapExpiry c s
  | .rstQuiesceWrite v => Sys2Proof.Machine.execRstQuiesceWrite v s
  | .rstGenGapWrite v => Sys2Proof.Machine.execRstGenGapWrite v s
  | .engineResetDone u => Sys2Proof.Machine.execEngineResetDone u s
  | .engineResetTimeout u => Sys2Proof.Machine.execEngineResetTimeout u s
  | .dieResetDone d => Sys2Proof.Machine.execDieResetDone d s
  | .dieResetTimeout d => Sys2Proof.Machine.execDieResetTimeout d s
  | .watchdogExpiry => Sys2Proof.Machine.execWatchdogExpiry s
  | .lockstepMismatch => Sys2Proof.Machine.execLockstepMismatch s
  | .carrierReset => Sys2Proof.Machine.execCarrierReset s
  | .resetNRise => Sys2Proof.Machine.execResetNRise s
  | .heartbeatSend => Sys2Proof.Machine.execHeartbeatSend s
  | .heartbeat k => Sys2Proof.Machine.execHeartbeat k s
  | .peerDead c ring m => Sys2Proof.Machine.execPeerDead c ring m s
  | .faultNotice k => Sys2Proof.Machine.execFaultNotice k s
  | .deadNotice k => Sys2Proof.Machine.execDeadNotice k s
  | .switch k => Sys2Proof.Machine.execSwitch k s
  | .switchAck k => Sys2Proof.Machine.execSwitchAck k s
  | .go k => Sys2Proof.Machine.execGo k s
  | .bucketCopy k => Sys2Proof.Machine.execBucketCopy k s
  | .join k => Sys2Proof.Machine.execJoin k s
  | .joinHoldExpiry c => Sys2Proof.Machine.execJoinHoldExpiry c s
  | .bootStart => Sys2Proof.Machine.execBootStart s
  | .fuse found => Sys2Proof.Machine.execFuse found s
  | .fwVerify sigOk => Sys2Proof.Machine.execFwVerify sigOk s
  | .cfg sigOk => Sys2Proof.Machine.execCfg sigOk s
  | .train ok => Sys2Proof.Machine.execTrain ok s
  | .release => Sys2Proof.Machine.execRelease s
  | .bootCtlEnable => Sys2Proof.Machine.execBootCtlEnable s
  | .journalReadback ok => Sys2Proof.Machine.execJournalReadback ok s
  | .journalCompact => Sys2Proof.Machine.execJournalCompact s
  | .journalCompactDone => Sys2Proof.Machine.execJournalCompactDone s
  | .drbgReseed => Sys2Proof.Machine.execDrbgReseed s
  | .vaultHealthFail selftest => Sys2Proof.Machine.execVaultHealthFail selftest s
  | .sample x => Sys2Proof.Machine.execSample x s
  | .thermalCompare => Sys2Proof.Machine.execThermalCompare s
  | .linkMarginRead ms => Sys2Proof.Machine.execLinkMarginRead ms s
  | .settleExpiry d => Sys2Proof.Machine.execSettleExpiry d s
  | .pwrLevelWindowEnd d cause => Sys2Proof.Machine.execPwrLevelWindowEnd d cause s
  | .comparatorTrip d => Sys2Proof.Machine.execComparatorTrip d s
  | .rootPllUnlock => Sys2Proof.Machine.execRootPllUnlock s
  | .phyPllUnlock u => Sys2Proof.Machine.execPhyPllUnlock u s
  | .vinLockout mv => Sys2Proof.Machine.execVinLockout mv s
  | .vinReturn => Sys2Proof.Machine.execVinReturn s
  | .vstbyLoss => Sys2Proof.Machine.execVstbyLoss s
  | .refclkLoss => Sys2Proof.Machine.execRefclkLoss s
  | .refclkReturn => Sys2Proof.Machine.execRefclkReturn s
  | .coreGate g => Sys2Proof.Machine.execCoreGate g s
  | .quadGate q => Sys2Proof.Machine.execQuadGate q s
  | .hubEngineGate h => Sys2Proof.Machine.execHubEngineGate h s
  | .registerWrite addr v bytes => Sys2Proof.Machine.execRegisterWrite addr v bytes s
  | .illegalOpcode th word => Sys2Proof.Machine.execIllegalOpcode th word s
  | .externalStoreAck a => Sys2Proof.Machine.execExternalStoreAck a s
  | .switchoverBoundExpiry c ring => Sys2Proof.Machine.execSwitchoverBoundExpiry c ring s
  | .vstbyReturn => Sys2Proof.Machine.execVstbyReturn s
  | .hostedCompactionEnd n => Sys2Proof.Machine.execHostedCompactionEnd n s

end Sys2Proof.Machine
end

