-- ==== Sys2Proof/Machine/Idle.lean ====
section
/-!
DEFINITION. The step of an empty queue (log 11): one cycle of the 3.4 GHz root clock passes (R8, R9, R469, Table 16.2), the
counts of the clocks it drives go on, and the timers of threads count core cycles (R59).
-/

namespace Sys2Proof.Machine

/-- CORE_TIMER counts one core cycle; the step from 1 to 0 sets IPEND.TIMER. -/
def Thread.timerTick (t : Thread) : Thread :=
  if t.csr.timer == 0 || t.st == .paused then t
  else
    { t with csr := { t.csr with
        timer := t.csr.timer - 1, ipend := if t.csr.timer == 1 then t.csr.ipend ||| 2 else t.csr.ipend } }

/-- IDLE of every core of die d moves toward the one that the Reeve writes to the die's cores, by at most 1 in 32 core cycles
(R127, R477). -/
def State.idleStep (s : State) (d : Nat) : State :=
  let v := (s.dieClk d).idle
  (List.range 256).foldl (fun s i => if (s.core (256 * d + i)).idle.toNat == v then s else s.throttle (256 * d + i) v) s

/-- Core cycle of die d: its threads' timers count. -/
def State.dieCoreCycle (s : State) (d : Nat) : State :=
  let s := { s with
    clk := { s.clk with core := smod 0 d (· + 1) s.clk.core, corePhase := sset d 0 s.clk.corePhase }
    threads := s.threads.map fun e => if e.1 / 1024 == d then (e.1, e.2.timerTick) else e }
  if sget 0 s.clk.core d % 32 == 0 then s.idleStep d else s

/-- An array of die d may be inside a beat at this core-clock edge: only a strict FP32 beat is longer than a core cycle (R121). -/
def State.midBeat (s : State) (d : Nat) : Bool :=
  s.cores.any fun e => e.1 / 256 == d && e.2.arr == .active && (match s.coreCtx e.1 with | some c => s.strictOf c | none => false)

/-- A core-clock edge of die d: an ordered divider switches if the edge is a beat boundary of every array on the die, which a free
value says where a beat may be under way, and by the fourth edge it is (R471). The set-point follows a slower divider. -/
def State.divEdge (s : State) (d : Nat) : State :=
  let x := s.dieClk d
  if x.next == 0 then s
  else
    let (b, s) := if s.midBeat d && decide (x.edges < 3) then s.draw 1 else (1, s)
    s.modDieClk d fun x =>
      if b == 1 then
        { x with div := x.next, setDiv := if x.pending == 0 then x.next else x.setDiv, next := 0, edges := 0
                 switches := satAdd 16 x.switches 1 }
      else { x with edges := x.edges + 1 }

/-- One root cycle of die d's divider. No cycle is shortened: a new divider counts from the edge at which it switches. -/
def State.dieCycle (s : State) (d : Nat) : State :=
  let k := sget 0 s.clk.corePhase d + 1
  if decide ((s.dieClk d).div ≤ k) then (s.dieCoreCycle d).divEdge d
  else { s with clk := { s.clk with corePhase := sset d k s.clk.corePhase } }

/-! ### Errors that arise in storage (R118, R215) -/

/-- Tile n of a thread (0 to 7, accumulators 8 to 11) comes to hold an uncorrectable error. -/
def Thread.tileUpset (t : Thread) (n : Nat) : Thread :=
  if n < 8 then t.setT n { t.treg n with bad := true } else t.setA (n - 8) { t.areg (n - 8) with bad := true }

/-- The operand-reuse latches of a core come to hold one. -/
def Core.latchUpset (c : Core) : Core := { c with latch := c.latch.map fun l => { l with bad := true } }

/-- A protected unit comes to hold one, which no read has met. -/
def State.unitUpset (s : State) (u : Nat) : State :=
  if scrubLocOk u && !s.poison.contains u then { s with poison := u :: s.poison, fresh := u :: s.fresh } else s

/-- What a cycle may do to the storage: an uncorrectable error may arise in a tile, in a core's latches, in a memory unit, or
nowhere. Which, free values decide (DESIGN CHOICE, log 151: the spec says what meets an error, not when one arises). -/
def State.upset (s : State) : State :=
  let (kind, s) := s.draw 2
  let (a, s) := s.draw 64
  let (n, s) := s.draw 4
  match kind.toNat with
  | 0 => s.modThr (a.setWidth 13) fun t => t.tileUpset (n.toNat % 12)
  | 1 => s.modCore (a.toNat % 2048) Core.latchUpset
  | 2 => s.unitUpset a.toNat
  | _ => s

/-- One root cycle passes. -/
def State.rootCycle (s : State) : State :=
  let k := s.clk.phase + 1
  let s := { s with clk := { s.clk with
    phase := k, mesh := k / 2, uncore := k / 8, reeve := k / 16 } }
  (List.range 8).foldl (fun s d => s.dieCycle d) s

/-- What a step does when no command waits: nothing while the root PLL is not running, else one root cycle. -/
def State.idle (s : State) : State := if !s.pwr.locked then s else s.rootCycle.upset

end Sys2Proof.Machine
end

