-- ==== Sys2Proof/Safety.lean ====
section
/-!
DEFINITION. The terms in which the claims speak: an answer that is a next state, a thread that may issue, and the state
in which an instruction that has retired leaves the module.
-/

namespace Sys2Proof

/-- The answer is a next state. -/
def completes (o : Host.Outcome Machine.State Machine.Fault Machine.Refusal) : Prop := ∃ t, o = .next t

namespace Machine

/-- Thread th may issue an instruction that names the registers regs (R39, R41). -/
def State.issues (s : State) (th : ThreadId) (regs : List Reg) : Prop :=
  s.canIssue th = true ∧ ∀ r ∈ regs, (s.thr th).xBusy r = false

/-- The thread's context may fetch at pc (R45). -/
def State.mayFetch (s : State) (th : ThreadId) (pc : Word) : Prop :=
  ∃ c, s.thCtx th = some c ∧ s.fetchable c pc = true

/-- The instruction at pc is in the instruction cache and has passed its checks for the thread (R44, R197). -/
def State.hasLine (s : State) (th : ThreadId) (pc : Word) : Prop :=
  ∃ c, s.thCtx th = some c ∧ s.fetchCheck th c pc = .held false

/-- The thread at pc, READY, with nothing pending. -/
def Thread.at_ (t : Thread) (pc : Word) : Thread :=
  { t with pc := pc, st := .ready, why := .none, pend := none, wait := none }

/-- The thread has retired one more instruction (Table 2.7). -/
def Thread.counted (t : Thread) : Thread := { t with csr := { t.csr with instret := t.csr.instret + 1 } }

/-- The state in which thread th has issued: its core notes it (R39). Nothing else differs from s. -/
def State.noted (s : State) (th : ThreadId) : State :=
  { s with cores := smod {} (thCore th) (fun c => { c with last := BitVec.ofNat 2 (thT th) }) s.cores }

/-- The state in which thread th has issued and is now t. Nothing else differs from s. -/
def State.with_ (s : State) (th : ThreadId) (t : Thread) : State :=
  { s.noted th with threads := sset th.toNat t s.threads }

/-- The state in which thread th has issued, asks for no slot, and is now t. Nothing else differs from s. -/
def State.waits (s : State) (th : ThreadId) (t : Thread) : State := ((s.noted th).leaveSlots th).setThr th t

/-- The state with the core of thread th changed by f. Nothing else differs from s. -/
def State.withCore (s : State) (th : ThreadId) (f : Core → Core) : State :=
  { s with cores := smod {} (thCore th) f s.cores }

/-- The state in which thread th, otherwise as t says, comes to the instruction at pc (ArrivalAtAnInstruction says what
that leaves). -/
def State.goesTo (s : State) (th : ThreadId) (t : Thread) (pc : Word) : State := (s.setThr th t).arrive th pc

/-- The state in which thread th, otherwise as t says, has retired an instruction and gone to pc. -/
def State.retires (s : State) (th : ThreadId) (t : Thread) (pc : Word) : State := (s.noted th).goesTo th t.counted pc

/-- The state in which thread th, otherwise as t says, has an instruction in flight and gone on to the next. -/
def State.launches (s : State) (th : ThreadId) (t : Thread) : State := (s.noted th).goesTo th t (t.pc + 4)

/-- Thread th takes an exception at its instruction without delay: nothing in flight, a handler (R55 to R57). -/
def State.handles (s : State) (th : ThreadId) : Prop :=
  (s.thr th).flying = false ∧ (s.thr th).csr.status.getLsbD 4 = false ∧ (s.thr th).csr.tvec ≠ 0

/-- A thread in its handler: CORE_EPC, CORE_CAUSE and CORE_TVAL written; in CORE_STATUS LEVEL 1, IE 0, PLEVEL and PIE the
old LEVEL and IE, INEXC 1, STR as it was (R56). -/
def Thread.entered (t : Thread) (cause tval : Word) : Thread :=
  let t' : Thread := { t with exc := none, csr := { t.csr with
    epc := t.pc &&& ~~~3, cause := cause, tval := tval,
    status := (t.csr.status &&& 0b100000) ||| 0b010001 ||| ((t.csr.status &&& 0b000011) <<< 2) } }
  t'.at_ t.csr.tvec

/-- The state in which thread th has entered its handler, whose first instruction is then fetched. -/
def State.enters (s : State) (th : ThreadId) (cause tval : Word) : State :=
  let u := (s.leaveSlots th).setThr th ((s.thr th).entered cause tval)
  match s.thCtx th with
  | some c => u.fetchHandler th c
  | none => u

end Machine

end Sys2Proof
end

