-- ==== Sys2Proof/Certificates/Slice0/Obligations.lean ====
section
/-!
DEFINITION. The statements of this model for the provers.
-/

open Sys2Proof Sys2Proof.Machine

/-! ### Base instructions -/

/-- R38, R49: integer arithmetic, register–register and immediate, wraps and does not trap on overflow; X0 reads as 0 and
discards writes. (A divisor of 0 is DivisionCorners.) -/
def Obligations.IntegerArithmeticResults : Prop :=
  ∀ (s : State) (th : ThreadId) (rd rs1 rs2 : Reg) (imm : BitVec 16) (up : BitVec 21),
    s.issues th [rd, rs1, rs2] →
    let x := (s.thr th).xr rs1
    let y := (s.thr th).xr rs2
    let gives (i : Instr) (v : Word) : Prop :=
      exec i s = .next (s.retires th ((s.thr th).setX rd v) ((s.thr th).pc + 4))
    (∀ (v : Word) (r : Reg), (s.thr th).xr 0 = 0 ∧
      ((s.thr th).setX rd v).xr r = if r = rd ∧ rd ≠ 0 then v else (s.thr th).xr r) ∧
    gives (.add th rd rs1 rs2) (BitVec.ofInt 64 (x.toInt + y.toInt)) ∧
    gives (.sub th rd rs1 rs2) (BitVec.ofInt 64 (x.toInt - y.toInt)) ∧
    gives (.and th rd rs1 rs2) (x &&& y) ∧ gives (.or th rd rs1 rs2) (x ||| y) ∧ gives (.xor th rd rs1 rs2) (x ^^^ y) ∧
    (let n := y.toNat % 64
     gives (.shl th rd rs1 rs2) (BitVec.ofNat 64 (x.toNat * 2 ^ n)) ∧
     gives (.shr th rd rs1 rs2) (BitVec.ofNat 64 (x.toNat / 2 ^ n)) ∧
     gives (.sra th rd rs1 rs2) (BitVec.ofInt 64 (x.toInt / 2 ^ n))) ∧
    gives (.slt th rd rs1 rs2) (if x.toInt < y.toInt then 1 else 0) ∧
    gives (.sltu th rd rs1 rs2) (if x.toNat < y.toNat then 1 else 0) ∧
    gives (.mul th rd rs1 rs2) (BitVec.ofInt 64 (x.toInt * y.toInt)) ∧
    gives (.mulh th rd rs1 rs2) (BitVec.ofInt 64 (x.toInt * y.toInt / 2 ^ 64)) ∧
    gives (.mulhu th rd rs1 rs2) (BitVec.ofNat 64 (x.toNat * y.toNat / 2 ^ 64)) ∧
    (y ≠ 0 →
      gives (.div th rd rs1 rs2) (BitVec.ofInt 64 (x.toInt.tdiv y.toInt)) ∧
      gives (.rem th rd rs1 rs2) (BitVec.ofInt 64 (x.toInt.tmod y.toInt)) ∧
      gives (.divu th rd rs1 rs2) (BitVec.ofNat 64 (x.toNat / y.toNat)) ∧
      gives (.remu th rd rs1 rs2) (BitVec.ofNat 64 (x.toNat % y.toNat))) ∧
    gives (.addi th rd rs1 imm) (BitVec.ofInt 64 (x.toInt + imm.toInt)) ∧
    gives (.andi th rd rs1 imm) (x &&& BitVec.ofNat 64 imm.toNat) ∧
    gives (.ori th rd rs1 imm) (x ||| BitVec.ofNat 64 imm.toNat) ∧
    gives (.xori th rd rs1 imm) (x ^^^ BitVec.ofNat 64 imm.toNat) ∧
    gives (.slti th rd rs1 imm) (if x.toInt < imm.toInt then 1 else 0) ∧
    gives (.sltiu th rd rs1 imm) (if x.toNat < (BitVec.ofInt 64 imm.toInt).toNat then 1 else 0) ∧
    (let n := imm.toNat % 64
     (imm.toNat / 64 = 0 → gives (.shifti th rd rs1 imm) (BitVec.ofNat 64 (x.toNat * 2 ^ n))) ∧
     (imm.toNat / 64 = 0x100 → gives (.shifti th rd rs1 imm) (BitVec.ofNat 64 (x.toNat / 2 ^ n))) ∧
     (imm.toNat / 64 = 0x200 → gives (.shifti th rd rs1 imm) (BitVec.ofInt 64 (x.toInt / 2 ^ n)))) ∧
    gives (.lui th rd up) (BitVec.ofInt 64 (up.toInt * 2 ^ 16)) ∧
    gives (.auipc th rd up) (BitVec.ofInt 64 ((s.thr th).pc.toInt + up.toInt * 2 ^ 16))

/-- R50: a divisor of 0 raises DIV_ZERO (R56), and rd is unchanged; −2⁶³ by −1 gives −2⁶³ and remainder 0, with no trap. -/
def Obligations.DivisionCorners : Prop :=
  ∀ (s : State) (th : ThreadId) (rd rs1 rs2 : Reg), s.issues th [rd, rs1, rs2] →
    let t := s.thr th
    (∀ i ∈ [Instr.div th rd rs1 rs2, .divu th rd rs1 rs2, .rem th rd rs1 rs2, .remu th rd rs1 rs2],
      s.handles th → t.xr rs2 = 0 →
      exec i s = .next ((s.noted th).coreRecord th 0x0503 0x02 0xFFFFFFFF
        (BitVec.ofNat 192 (t.pc.toNat * 2 ^ 64)) |>.enters th 0x05030003 0) ∧
      ∀ u, exec i s = .next u → ∀ r, (u.thr th).xr r = t.xr r) ∧
    ((t.xr rs1).toInt = -(2 ^ 63) → (t.xr rs2).toInt = -1 →
      exec (.div th rd rs1 rs2) s = .next (s.retires th (t.setX rd (BitVec.ofInt 64 (-(2 ^ 63)))) (t.pc + 4)) ∧
      exec (.rem th rd rs1 rs2) s = .next (s.retires th (t.setX rd 0) (t.pc + 4)))

/-- Table 2.6, R49: where branches and jumps go, and what a jump links. -/
def Obligations.BranchAndJumpTargets : Prop :=
  ∀ (s : State) (th : ThreadId) (rd rs1 rs2 : Reg) (off : BitVec 16) (far : BitVec 21),
    s.issues th [rd, rs1, rs2] →
    let t := s.thr th
    let x := t.xr rs1
    let y := t.xr rs2
    let branches (i : Instr) (taken : Prop) [Decidable taken] : Prop :=
      let pc := if taken then BitVec.ofInt 64 (t.pc.toInt + 4 * off.toInt) else t.pc + 4
      exec i s = .next (s.retires th t pc)
    let jumps (i : Instr) (pc : Word) : Prop :=
      exec i s = .next (s.retires th (t.setX rd (t.pc + 4)) pc)
    branches (.beq th rs1 rs2 off) (x = y) ∧ branches (.bne th rs1 rs2 off) (x ≠ y) ∧
    branches (.blt th rs1 rs2 off) (x.toInt < y.toInt) ∧ branches (.bge th rs1 rs2 off) (y.toInt ≤ x.toInt) ∧
    branches (.bltu th rs1 rs2 off) (x.toNat < y.toNat) ∧ branches (.bgeu th rs1 rs2 off) (y.toNat ≤ x.toNat) ∧
    jumps (.jal th rd far) (BitVec.ofInt 64 (t.pc.toInt + 4 * far.toInt)) ∧
    jumps (.jalr th rd rs1 off) (BitVec.ofNat 64 ((BitVec.ofInt 64 (x.toInt + off.toInt)).toNat / 4 * 4))

/-- R52 to R57: TRAP, an undefined opcode, and a system instruction that USER may not run, take their exceptions. -/
def Obligations.SystemInstructionsTakeExceptions : Prop :=
  ∀ (s : State) (th : ThreadId) (rd rs1 rs2 : Reg) (word : BitVec 32) (csr : BitVec 16),
    s.issues th [rd, rs1] → s.handles th →
    let t := s.thr th
    let recorded (code : BitVec 16) (tval : Word) : State :=
      (s.noted th).coreRecord th code 0x02 0xFFFFFFFF (BitVec.ofNat 192 (tval.toNat + t.pc.toNat * 2 ^ 64))
    exec (.trap th 0 0 rs2) s = .next ((s.noted th).enters th 0x00000004 (rs2.setWidth 64)) ∧
    (decodeInstr th word = none → exec (.illegalOpcode th word) s =
      .next ((recorded 0x0501 (word.setWidth 64)).enters th 0x05010001 (word.setWidth 64))) ∧
    (t.csr.status.getLsbD 0 = false →
      (let w : Word := (encR 0x28 1 0 0 0).setWidth 64
       exec (.eret th 0 0 0) s = .next ((recorded 0x0502 w).enters th 0x05020002 w)) ∧
      (let w : Word := (encR 0x28 3 0 0 0).setWidth 64
       exec (.iflush th 0 0 0) s = .next ((recorded 0x0502 w).enters th 0x05020002 w)) ∧
      (csrAllocated csr.toNat = true →
        let w : Word := (encI 0x2A 0 rs1 csr).setWidth 64
        exec (.csrw th 0 rs1 csr) s = .next ((recorded 0x0502 w).enters th 0x05020002 w)) ∧
      (csrAllocated csr.toNat = true → csr ≠ 0x00 → csr ≠ 0x09 → csr ≠ 0x80 →
        let w : Word := (encI 0x29 rd 0 csr).setWidth 64
        exec (.csrr th rd 0 csr) s = .next ((recorded 0x0502 w).enters th 0x05020002 w)))

/-- R46, R53, R56, R65, R363, Table 2.6: ERET, IFLUSH, CSRR and CSRW at a level that may run them, and HALT; the last HALT
of a context drains it. That HALT leaves the pc at pc + 4 is the model's choice (DEDUCED, log 90). -/
def Obligations.SystemInstructionResults : Prop :=
  ∀ (s : State) (th : ThreadId) (rd rs1 : Reg) (csr : BitVec 16),
    s.issues th [rd, rs1] →
    let t := s.thr th
    (t.csr.status.getLsbD 0 = true →
      exec (.eret th 0 0 0) s = .next (s.retires th { t with csr := { t.csr with
        status := t.csr.status &&& 0b101100 ||| (t.csr.status >>> 2 &&& 0b11) } } t.csr.epc) ∧
      exec (.iflush th 0 0 0) s =
        .next ((s.withCore th fun c => { c with icache := [], userLines := [] }).retires th t (t.pc + 4)) ∧
      (csrAllocated csr.toNat = true → t.flying = false →
        (csr.toNat < 0x80 → exec (.csrw th 0 rs1 csr) s =
          .next (s.retires th (t.csrWrite csr.toNat (t.xr rs1)) (t.pc + 4))) ∧
        (0x80 ≤ csr.toNat → exec (.csrw th 0 rs1 csr) s =
          .next ((s.withCore th fun c => c.csrWrite csr.toNat (t.xr rs1)).retires th t (t.pc + 4))))) ∧
    (t.csr.status.getLsbD 0 = true ∨ csr ∈ [0x00, 0x09, 0x80] →
      csrAllocated csr.toNat = true → t.flying = false →
      exec (.csrr th rd 0 csr) s = .next (s.retires th (t.setX rd (s.csrRead th csr.toNat)) (t.pc + 4))) ∧
    (∀ c, t.flying = false → t.asyncQ = [] → s.thCtx th = some c →
      ((∃ th' ∈ s.threadsOf c, th' ≠ th ∧ (s.thr th').st ≠ .halted) →
        exec (.halt th 0 0 0) s = .next ((((s.noted th).leaveArrays th).leaveSlots th).setThr th
          { t.counted with st := .halted, why := .none, pc := t.pc + 4 })) ∧
      ((∀ th' ∈ s.threadsOf c, th' ≠ th → (s.thr th').st = .halted) → ∃ u, exec (.halt th 0 0 0) s = .next u ∧
        (u.ctx c).st = .draining ∧ (u.thr th).st = .halted ∧ (u.thr th).pc = t.pc + 4 ∧ u.mem = s.mem))

/-- R44, R45: where the line of the instruction at pc is held, a thread that comes there is READY; where it has to come, its
fetch is in flight in a slot, or waits for one; where no window holds pc, FETCH is taken. Nothing but the thread, and its
core's queue for slots, changes. -/
def Obligations.ArrivalAtAnInstruction : Prop :=
  ∀ (s : State) (th : ThreadId) (c : CtxId) (t : Thread) (pc : Word),
    s.thCtx th = some c → t.pauseReq = false → t.stopReq = false →
    let s' := (s.setThr th (t.at_ pc)).leaveSlots th
    let u := s.goesTo th t pc
    let comes (t' : Thread) : Prop := u.thr th = t' ∧ (∀ th', th' ≠ th → u.thr th' = s.thr th') ∧
      (∀ g, g ≠ thCore th → u.core g = s.core g) ∧
      u.core (thCore th) = { s.core (thCore th) with slotQ := (u.core (thCore th)).slotQ } ∧
      u = { s with threads := u.threads, cores := u.cores }
    (s'.hasLine th pc → comes (t.at_ pc)) ∧
    (∀ r, 0x200000000 ≤ pc.toNat → pc.toNat < 0x300000000 →
      (s.ctx c).mem.region 0 ((pc.toNat - 0x200000000) / 0x20000000) (pc.toNat % 0x20000000 / 0x100000) = some r →
      r.x = true → (t.super || r.u) = true → s'.lineHeld th pc = false →
      let coming := t.fills.any fun p => p.toNat / 64 == pc.toNat / 64
      (coming = true → comes { t.at_ pc with st := .waitFetch }) ∧
      (coming = false → s'.slotFree th = true → comes { t.at_ pc with st := .waitFetch, fills := t.fills ++ [pc] }) ∧
      (coming = false → s'.slotFree th = false → comes { t.at_ pc with st := .waitUnit, why := .slot } ∧
        (u.core (thCore th)).slotQ = ((s.core (thCore th)).slotQ.filter fun x => x != th) ++ [th])) ∧
    (s.fetchable c pc = false → t.flying = false → t.asyncQ = [] → t.csr.status.getLsbD 4 = false → t.csr.tvec ≠ 0 →
      u = ((s'.coreRecord th 0x0504 0x02 0xFFFFFFFF (BitVec.ofNat 192 (pc.toNat + pc.toNat * 2 ^ 64))).enters th
        0x05040005 pc))

/-! ### Memory -/

/-- R51, R196, R218: a scalar load from the own Bench writes rd and changes nothing else. -/
def Obligations.OwnBenchLoadResults : Prop :=
  ∀ (s : State) (th : ThreadId) (rd rs1 : Reg) (imm : BitVec 16),
    s.issues th [rd, rs1] → (s.thr th).benchBusy = false → (s.core (thCore th)).promised = false →
    let t := s.thr th
    let va := (BitVec.ofInt 64 ((t.xr rs1).toInt + imm.toInt)).toNat
    let loc := 0x100000000 + thCore th * 0x100000 + va
    let value (len : Nat) : Nat := leNat (memBytes s.mem loc len)
    let loads (i : Instr) (len : Nat) (v : Word) : Prop :=
      va + len ≤ 0x100000 → va % len = 0 → s.poisonIn loc len = false → t.storesTo (loc / 64) = false →
      exec i s = .next (s.retires th (t.setX rd v) (t.pc + 4))
    loads (.ldb th rd rs1 imm) 1 ((BitVec.ofNat 8 (value 1)).signExtend 64) ∧
    loads (.ldbu th rd rs1 imm) 1 (BitVec.ofNat 64 (value 1)) ∧
    loads (.ldh th rd rs1 imm) 2 ((BitVec.ofNat 16 (value 2)).signExtend 64) ∧
    loads (.ldhu th rd rs1 imm) 2 (BitVec.ofNat 64 (value 2)) ∧
    loads (.ldw th rd rs1 imm) 4 ((BitVec.ofNat 32 (value 4)).signExtend 64) ∧
    loads (.ldwu th rd rs1 imm) 4 (BitVec.ofNat 64 (value 4)) ∧
    loads (.ldd th rd rs1 imm) 8 (BitVec.ofNat 64 (value 8))

/-- R51, R215, R218: a scalar store to the own Bench writes its bytes, little-endian, and no other byte; a store of a whole
unit clears its poison mark. -/
def Obligations.OwnBenchStoreFrame : Prop :=
  ∀ (s : State) (th : ThreadId) (rs2 rs1 : Reg) (imm : BitVec 16),
    s.issues th [rs2, rs1] → (s.thr th).benchBusy = false → (s.core (thCore th)).promised = false → Memory.wf s.mem = true →
    let t := s.thr th
    let va := (BitVec.ofInt 64 ((t.xr rs1).toInt + imm.toInt)).toNat
    let loc := 0x100000000 + thCore th * 0x100000 + va
    let stores (i : Instr) (len : Nat) : Prop :=
      va + len ≤ 0x100000 → va % len = 0 → s.poisonIn loc len = false ∨ len = 8 → t.storesTo (loc / 64) = false →
      ∃ u, exec i s = .next u ∧
        { u with mem := s.mem, poison := s.poison } = s.retires th t (t.pc + 4) ∧
        (∀ a, memGet u.mem a =
          if loc ≤ a ∧ a < loc + len then BitVec.ofNat 8 ((t.xr rs2).toNat / 256 ^ (a - loc)) else memGet s.mem a) ∧
        (∀ m, m ∈ u.poison ↔ m ∈ s.poison ∧ ¬ (len = 8 ∧ m = loc))
    stores (.stb th rs2 rs1 imm) 1 ∧ stores (.sth th rs2 rs1 imm) 2 ∧ stores (.stw th rs2 rs1 imm) 4 ∧
    stores (.std th rs2 rs1 imm) 8

/-- R51, R196, R199: a misaligned load or store outside the control window raises MEMORY with MEM_ALIGN before anything
else, and has no other effect. -/
def Obligations.MisalignedAccessTakesMemory : Prop :=
  ∀ (s : State) (th : ThreadId) (rd rs1 : Reg) (imm : BitVec 16),
    s.issues th [rd, rs1] → s.handles th →
    let t := s.thr th
    let va := t.xr rs1 + imm.signExtend 64
    (va.toNat < 0xF000000000 ∨ 0xF100000000 ≤ va.toNat) →
    let raises (i : Instr) (len kind : Nat) : Prop :=
      va.toNat % len ≠ 0 →
      exec i s = .next ((s.noted th).coreRecord th 0x0401 0x02 0xFFFFFFFF
        (BitVec.ofNat 192 (va.toNat + t.pc.toNat * 2 ^ 64 + kind * 2 ^ 144)) |>.enters th 0x04010006 va)
    raises (.ldh th rd rs1 imm) 2 0 ∧ raises (.ldhu th rd rs1 imm) 2 0 ∧ raises (.ldw th rd rs1 imm) 4 0 ∧
    raises (.ldwu th rd rs1 imm) 4 0 ∧ raises (.ldd th rd rs1 imm) 8 0 ∧ raises (.sth th rd rs1 imm) 2 1 ∧
    raises (.stw th rd rs1 imm) 4 1 ∧ raises (.std th rd rs1 imm) 8 1

/-- R217, R218: beyond the own Bench a load leaves its thread in WAIT_MEM, and a store is posted and retires; neither
touches memory yet. Said of the Larder. -/
def Obligations.LarderAccessesAreSent : Prop :=
  ∀ (s : State) (th : ThreadId) (rd rs1 : Reg) (imm : BitVec 16) (c : CtxId) (r : RegionEntry),
    s.issues th [rd, rs1] → s.thCtx th = some c → s.slotFree th = true →
    let t := s.thr th
    let va := t.xr rs1 + imm.signExtend 64
    0x200000000 ≤ va.toNat → va.toNat < 0x300000000 →
    (s.ctx c).mem.region 0 ((va.toNat - 0x200000000) / 0x20000000) (va.toNat % 0x20000000 / 0x100000) = some r →
    (t.super || r.u) = true →
    let loads (i : Instr) (len : Nat) (signed : Bool) : Prop :=
      va.toNat % len = 0 → r.r = true →
      let acc : Access := { kind := .load, parts := [{ va := va, len := len, idx := 0 }], fin := .ld rd len signed }
      let req : Req := { line := va.toNat / 64, parts := [0], sent := true }
      exec i s = .next (s.waits th { t with st := .waitMem, pend := some (.access acc none [req]) })
    let stores (i : Instr) (len : Nat) : Prop :=
      va.toNat % len = 0 → r.w = true →
      let cells := (List.range len).map fun k => (va.toNat + k, BitVec.ofNat 8 ((t.xr rd).toNat / 256 ^ k))
      let post : Posted := { id := t.nextId, va := va, pc := t.pc, gen := (s.ctx c).gen, what := .cells cells }
      exec i s = .next (s.retires th { t with nextId := t.nextId + 1, posted := t.posted ++ [post] } (t.pc + 4))
    loads (.ldb th rd rs1 imm) 1 true ∧ loads (.ldbu th rd rs1 imm) 1 false ∧ loads (.ldh th rd rs1 imm) 2 true ∧
    loads (.ldhu th rd rs1 imm) 2 false ∧ loads (.ldw th rd rs1 imm) 4 true ∧ loads (.ldwu th rd rs1 imm) 4 false ∧
    loads (.ldd th rd rs1 imm) 8 false ∧ stores (.stb th rd rs1 imm) 1 ∧ stores (.sth th rd rs1 imm) 2 ∧
    stores (.stw th rd rs1 imm) 4 ∧ stores (.std th rd rs1 imm) 8

/-- R41, R217, R218: MEM_REPLY completes a waiting load with the bytes as they stand, and STORE_ACK performs a posted
store: its cells are written, and no other byte. -/
def Obligations.RepliesAndAcknowledgements : Prop :=
  (∀ (s : State) (th : ThreadId) (c : CtxId) (rd : Reg) (va : Word) (len : Nat) (r : Req),
    s.thCtx th = some c → s.ctxServes c = true → s.fetchable c ((s.thr th).pc + 4) = true →
    let acc : Access := { kind := .load, parts := [{ va := va, len := len, idx := 0 }], fin := .ld rd len false }
    (s.thr th).pend = some (.access acc none [r]) →
    r.parts = [0] → r.sent = true → r.got = none → r.err = none →
    let loc := r.line * 64 + va.toNat % 64
    s.poisonIn loc len = false →
    ∃ u, exec (.memReply th 0) s = .next u ∧ u.mem = s.mem ∧
      (∀ r', (u.thr th).xr r' = if r' = rd ∧ rd ≠ 0 then BitVec.ofNat 64 (leNat (memBytes s.mem loc len))
        else (s.thr th).xr r') ∧
      (u.thr th).pc = (s.thr th).pc + 4 ∧ (u.thr th).csr.instret = (s.thr th).csr.instret + 1) ∧
  (∀ (s : State) (th : ThreadId) (k : Nat) (p : Posted) (cs : List (Nat × Byte)),
    s.thServes th = true → (s.thr th).posted[k]? = some p → p.what = .cells cs →
    ((s.thr th).posted.take k).any (fun q => q.sameLine p) = false → s.subPoison cs = false → Memory.wf s.mem = true →
    ∃ u, exec (.storeAck th k) s = .next u ∧
      (∀ a, (∀ x ∈ cs, x.1 ≠ a) → memGet u.mem a = memGet s.mem a) ∧
      ((cs.map Prod.fst).Nodup → ∀ x ∈ cs, memGet u.mem x.1 = x.2))

/-- R212, R219, R221: FENCE, PGINV and PGINVA wait for what they order, and a PGINV that completes has emptied the caches of
its context's cores. That a thread at FENCE waits in WAIT_MEM is the model's choice (DEDUCED, log 22). -/
def Obligations.FenceAndInvalidation : Prop :=
  (∀ (s : State) (th : ThreadId) (rs1 : Reg) (c : CtxId),
    s.issues th [rs1] → s.thCtx th = some c → (s.thr th).flying = false →
    let t := s.thr th
    (t.posted = [] → exec (.fence th 0 0 0) s = .next (s.retires th t (t.pc + 4))) ∧
    (t.posted ≠ [] → exec (.fence th 0 0 0) s = .next (s.with_ th { t with st := .waitMem, pend := some .fence })) ∧
    (t.super = true → s.slotFree th = true →
      exec (.pginva th 0 0 0) s = .next (s.waits th { t with st := .waitMem, pend := some (.pginv none) }) ∧
      ((s.ctx c).mem.hasGran = true → 0x100000000000 ≤ (t.xr rs1).toNat → (t.xr rs1).toNat < 0x200000000000 →
        exec (.pginv th 0 rs1 0) s =
          .next (s.waits th { t with st := .waitMem, pend := some (.pginv (some (t.xr rs1))) })))) ∧
  (∀ (s : State) (th : ThreadId) (c : CtxId) (a : Option Word),
    s.thCtx th = some c → (s.thr th).pend = some (.pginv a) → s.ctxServes c = true →
    s.fetchable c ((s.thr th).pc + 4) = true →
    s.pageBusy c (a.map fun v => (v.toNat - 0x100000000000) / 0x10000) = false →
    ∃ u, exec (.pginvComplete th) s = .next u ∧ (u.thr th).pc = (s.thr th).pc + 4 ∧ u.mem = s.mem ∧
      ∀ g ∈ s.coresOf c, (a = none → (u.core g).tlb = []) ∧
        ∀ v, a = some v → u.tlbGet g ((v.toNat - 0x100000000000) / 0x10000) = none)

/-- R58 to R60, Table 2.7: an interrupt or a pending store error is taken at an instruction boundary, the timer's step to
0 and a doorbell set their pending bits. -/
def Obligations.InterruptsAndPendingErrors : Prop :=
  ∀ (s : State) (th : ThreadId) (c : CtxId),
    s.thCtx th = some c → let t := s.thr th
    (s.ctxRuns c = true → s.handles th → t.pauseReq = false → t.stopReq = false → t.asyncQ = [] → t.pend = none →
      (t.st = .ready ∨ t.st = .waitFetch ∨ t.st = .waitUnit) → t.csr.status.getLsbD 1 = true → t.csr.status.getLsbD 5 = false →
      (t.csr.ipend.getLsbD 1 = true → t.csr.ien.getLsbD 1 = true →
        exec (.interruptTake th) s = .next ((s.leaveArrays th).enters th 0x8000000000000021 0)) ∧
      (t.csr.ipend &&& t.csr.ien = 1 →
        exec (.interruptTake th) s = .next ((s.leaveArrays th).enters th 0x8000000000000020 0))) ∧
    (∀ code va rest, s.thServes th = true → s.handles th → t.pauseReq = false → t.stopReq = false → t.pend = none →
      (t.st = .ready ∨ t.st = .waitFetch ∨ t.st = .waitUnit) → t.asyncQ = (code, va) :: rest →
      exec (.asyncMem th) s =
        .next (((s.leaveArrays th).setThr th { t with asyncQ := rest }).enters th
          (BitVec.ofNat 64 (0x07 + code.toNat * 2 ^ 16)) va)) ∧
    (t.csr.timer ≠ 0 → t.st ≠ .paused → t.st ≠ .halted →
      exec (.coreTimerExpiry th) s =
        .next (s.setThr th { t with csr := { t.csr with timer := 0, ipend := t.csr.ipend ||| 0b10 } })) ∧
    exec (.coreDoorbell th) s =
      .next ((s.setThr th { t with csr := { t.csr with ipend := t.csr.ipend ||| 0b01 } }).modCore (thCore th)
        fun k => { k with gated := false })

/-- R44, R200, R215, R222, R224, R225: what the memory units' events leave: a line fetched, a store given up, MEM_MEMTO
written, a promise to an outside access, a hot bank, a scrubbed unit. -/
def Obligations.MemoryUnitEvents : Prop :=
  (∀ (s : State) (th : ThreadId) (c : CtxId) (r : RegionEntry) (rest : List Word), s.thCtx th = some c → s.thServes th = true →
    (s.thr th).fills = (s.thr th).pc :: rest → (s.thr th).st = .waitFetch → (s.thr th).pend = none → (s.thr th).flying = false → (s.thr th).pauseReq = false →
    (s.thr th).stopReq = false → let pc := (s.thr th).pc
    0x200000000 ≤ pc.toNat → pc.toNat < 0x300000000 → pc.toNat % 4 = 0 →
    (s.ctx c).mem.region 0 ((pc.toNat - 0x200000000) / 0x20000000) (pc.toNat % 0x20000000 / 0x100000) = some r →
    r.x = true → ((s.thr th).super || r.u) = true → s.poisonIn (pc.toNat / 64 * 64) 64 = false →
    ∃ u, exec (.icacheFill th) s = .next u ∧ (u.thr th).st = .ready ∧ u.lineHeld th pc = true ∧ u.mem = s.mem ∧
      (u.thr th).pc = pc ∧ (u.thr th).fills = rest) ∧
  (∀ (s : State) (th : ThreadId) (k : Nat) (p : Posted), s.thServes th = true → (s.thr th).posted[k]? = some p →
    (s.thr th).pend = none → (s.thr th).st = .ready →
    ∃ u, exec (.memTimeout th (.store k)) s = .next u ∧ (u.thr th).asyncQ = (s.thr th).asyncQ ++ [(0x040A, p.va)]) ∧
  (∀ (s : State) (c : CtxId) (v : Word), ∃ u, exec (.memMemtoWrite c v) s = .next u ∧
    (u.ctx c).mem.memto = BitVec.ofNat 32 (max (v.toNat % 2 ^ 32) 65536) ∧ u.mem = s.mem ∧ u.threads = s.threads) ∧
  (∀ (s : State) (g : CoreId) (k : Nat), k < s.outside g.toNat →
    exec (.benchOutsidePromote g k) s = .next (s.modCore g.toNat fun x => { x with promised := true })) ∧
  (∀ (s : State) (n ch bank : BitVec 4) (c : CtxId) (m : Nat), 32 ≤ m → (s.gran n.toNat).episode = [] →
    ∃ u, exec (.granHotBank n ch bank [(c, m)]) s = .next u ∧ (u.gran n.toNat).hotValid = true ∧
      (u.gran n.toNat).hotCh = ch ∧ (u.gran n.toNat).hotBank = bank ∧ (u.gran n.toNat).hotCtx = c ∧ u.mem = s.mem) ∧
  (∀ (s : State) (l : Nat), scrubLocOk l = true → s.boot.phase ≠ .resetEntry →
    (∃ u, exec (.memScrub l true) s = .next u ∧ l ∈ u.poison ∧ u.mem = s.mem) ∧
    (∃ u, exec (.memScrub l false) s = .next u ∧ u.poison = s.poison ∧ u.mem = s.mem ∧ u.log = s.log))

/-! ### Tiles -/

/-- A tile instruction that has issued and then retires (R124) has left its thread's tile state as `tile`, its X registers
as `x`, its vector state as `vec`, and memory as it was. -/
def tileCompletes (i : Instr) (s : State) (th : ThreadId) (tile : TileRegs) (x : SMap Word) (vec : VecRegs) : Prop :=
  ∃ u, exec i s = .next u ∧ (u.thr th).tile = (s.thr th).tile ∧ (u.thr th).tfly.isSome = true ∧ u.mem = s.mem ∧
    ∃ v, exec (.tileRetire th) u = .next v ∧ (v.thr th).tile = tile ∧ (v.thr th).x = x ∧ (v.thr th).vec = vec ∧
      (v.thr th).csr.instret = (s.thr th).csr.instret + 1 ∧ v.mem = s.mem

/-- R101, R110, R135: what the housekeeping instructions of the tile engine leave: one tile register or accumulator, one
mask or one X register, and nothing else of the thread's registers. -/
def Obligations.TileHousekeepingResults : Prop :=
  ∀ (s : State) (th : ThreadId) (rd rs1 : Reg) (a : BitVec 2) (int : Bool),
    s.issues th [rd, rs1] → s.mayFetch th ((s.thr th).pc + 4) → (s.thr th).tfly = none →
    let t := s.thr th
    let writesT (i : Instr) (d : Nat) (v : TileReg) : Prop :=
      tileCompletes i s th { t.tile with t := sset d v t.tile.t } t.x t.vec
    let writesA (i : Instr) (d : Nat) (v : AccReg) : Prop :=
      tileCompletes i s th { t.tile with a := sset d v t.tile.a } t.x t.vec
    let writesX (i : Instr) (v : Word) : Prop := tileCompletes i s th t.tile (t.setX rd v).x t.vec
    writesA (.tazero th a 0 int 0) a.toNat { fmt := if int then 0xD else 0x0 } ∧
    (rd.toNat < 8 → rs1.toNat ≤ 0xC → writesT (.tzero th rd rs1 0) rd.toNat { fmt := rs1.setWidth 4 }) ∧
    (rd.toNat < 8 → rs1.toNat < 8 → (t.treg rs1.toNat).fmt ≠ 0xF → (t.treg rs1.toNat).bad = false →
      writesT (.tmov th rd rs1 0) rd.toNat (t.treg rs1.toNat)) ∧
    (rd.toNat < 8 → writesT (.tinv th rd 0 0) rd.toNat { fmt := 0xF }) ∧
    (8 ≤ rd.toNat → rd.toNat < 12 → writesA (.tinv th rd 0 0) (rd.toNat - 8) { fmt := 0xF }) ∧
    (rs1.toNat < 8 → writesX (.ttag th rd rs1 0)
      (BitVec.ofNat 64 ((t.treg rs1.toNat).fmt.toNat + ((t.treg rs1.toNat).rows - 1) * 16))) ∧
    (8 ≤ rs1.toNat → rs1.toNat < 12 → writesX (.ttag th rd rs1 0)
      (BitVec.ofNat 64 ((t.areg (rs1.toNat - 8)).fmt.toNat + 15 * 16 +
        if (t.areg (rs1.toNat - 8)).poison then 256 else 0))) ∧
    tileCompletes (.tsetm th 0 rs1 0) s th { t.tile with trm := (t.xr rs1).setWidth 16 } t.x t.vec ∧
    tileCompletes (.tsetm th 0 rs1 1) s th { t.tile with tbm := (t.xr rs1).setWidth 16 } t.x t.vec ∧
    tileCompletes (.tsetm th 0 rs1 2) s th { t.tile with tkm := (t.xr rs1).setWidth 16 } t.x t.vec ∧
    writesX (.tgetm th rd 0 0)
      (BitVec.ofNat 64 (t.tile.trm.toNat + t.tile.tbm.toNat * 2 ^ 16 + t.tile.tkm.toNat * 2 ^ 32))

/-- R105, R109, R110: tile loads from the own Bench. Row i of the register is the 64 bytes at base + i × stride, for TLDT
element k of row i is element i of source row k; no other register of the thread changes. -/
def Obligations.TileLoadsFromOwnBench : Prop :=
  ∀ (s : State) (th : ThreadId) (f : TMem) (g : TAcc) (i : Nat),
    s.issues th [f.rb, f.rs, f.rsc, g.rb, g.rs] → s.mayFetch th ((s.thr th).pc + 4) → (s.thr th).flying = false →
    (s.core (thCore th)).promised = false →
    let t := s.thr th
    let bench := 0x100000000 + thCore th * 0x100000
    let at_ (rb rs : Reg) (r : Nat) : Nat :=
      (BitVec.ofInt 64 ((t.xr rb).toInt + r * ((t.xr rs).setWidth 32).toInt)).toNat
    let readable (va : Nat) : Prop := va + 64 ≤ 0x100000 ∧ va % 64 = 0 ∧ s.poisonIn (bench + va) 64 = false ∧
      t.storesTo ((bench + va) / 64) = false
    let bytes (va : Nat) : Nat := leNat (memBytes s.mem (bench + va) 64)
    (tileFmtOk f.fmt = true → isMx f.fmt = false → f.rsc = 0 →
      (∀ r ≤ f.n.toNat, readable (at_ f.rb f.rs r)) →
      ∃ v : TileReg, tileCompletes (.tld th f) s th { t.tile with t := sset f.t.toNat v t.tile.t } t.x t.vec ∧
        v.fmt = f.fmt ∧ v.rows = f.n.toNat + 1 ∧ v.bad = false ∧
        (i ≤ f.n.toNat → v.row i = bytes (at_ f.rb f.rs i)) ∧ (f.n.toNat < i → v.row i = 0)) ∧
    (tileFmtOk f.fmt = true → isMx f.fmt = false → f.rsc = 0 →
      (∀ r < tileK f.fmt, readable (at_ f.rb f.rs r)) →
      ∃ v : TileReg, tileCompletes (.tldt th f) s th { t.tile with t := sset f.t.toNat v t.tile.t } t.x t.vec ∧
        v.fmt = f.fmt ∧ v.rows = f.n.toNat + 1 ∧
        ∀ k < tileK f.fmt, i ≤ f.n.toNat →
          v.elem i k = bytes (at_ f.rb f.rs k) / 2 ^ (elemBits f.fmt * i) % 2 ^ elemBits f.fmt) ∧
    (g.mbz = 0 → (∀ r < 16, readable (at_ g.rb g.rs r)) →
      ∃ v : AccReg, tileCompletes (.tald th g) s th { t.tile with a := sset g.a.toNat v t.tile.a } t.x t.vec ∧
        v.fmt = (if g.int then 0xD else 0x0) ∧ v.poison = false ∧
        (i < 16 → v.data.toNat / 2 ^ (512 * i) % 2 ^ 512 = bytes (at_ g.rb g.rs i)))

/-- R108, R110: tile stores to the own Bench write their rows when they retire, and no byte outside them. -/
def Obligations.TileStoresToOwnBench : Prop :=
  ∀ (s : State) (th : ThreadId) (f : TMem) (g : TAcc),
    s.issues th [f.rb, f.rs, f.rsc, g.rb, g.rs] → s.mayFetch th ((s.thr th).pc + 4) → (s.thr th).flying = false →
    (s.core (thCore th)).promised = false → Memory.wf s.mem = true →
    let t := s.thr th
    let bench := 0x100000000 + thCore th * 0x100000
    let at_ (rb rs : Reg) (r : Nat) : Nat :=
      (BitVec.ofInt 64 ((t.xr rb).toInt + r * ((t.xr rs).setWidth 32).toInt)).toNat
    let stored (i : Instr) (rb rs : Reg) (n : Nat) (row : Nat → Nat) : Prop :=
      (∀ r < n, at_ rb rs r + 64 ≤ 0x100000 ∧ at_ rb rs r % 64 = 0 ∧ t.storesTo ((bench + at_ rb rs r) / 64) = false) →
      ∃ u, exec i s = .next u ∧ u.mem = s.mem ∧ ∃ v, exec (.tileRetire th) u = .next v ∧
        (v.thr th).tile = t.tile ∧ (v.thr th).x = t.x ∧
        (∀ a, (∀ r < n, ¬ (bench + at_ rb rs r ≤ a ∧ a < bench + at_ rb rs r + 64)) → memGet v.mem a = memGet s.mem a) ∧
        ((∀ r < n, ∀ q < n, r ≠ q → at_ rb rs r ≠ at_ rb rs q) → ∀ r < n, ∀ k < 64,
          memGet v.mem (bench + at_ rb rs r + k) = BitVec.ofNat 8 (row r / 256 ^ k))
    (tileFmtOk f.fmt = true → isMx f.fmt = false → f.rsc = 0 → (t.treg f.t.toNat).fmt = f.fmt →
      (t.treg f.t.toNat).bad = false →
      stored (.tst th f) f.rb f.rs (f.n.toNat + 1) (fun r => (t.treg f.t.toNat).row r)) ∧
    (g.mbz = 0 → (t.areg g.a.toNat).fmt = (if g.int then 0xD else 0x0) → (t.areg g.a.toNat).poison = false →
      (t.areg g.a.toNat).bad = false →
      stored (.tast th g) g.rb g.rs 16 (fun r => (t.areg g.a.toNat).data.toNat / 2 ^ (512 * r) % 2 ^ 512))

/-- R111, R112, R94, Table 4.2: a legal TACVT writes Td, its flags, and advances the array rounding stream where SR is in
use; FP32 to FP32 copies bits. That FP32 to FP32 with rm = SR leaves the stream as it is is DEDUCED (log 38). -/
def Obligations.AccumulatorConversion : Prop :=
  ∀ (s : State) (th : ThreadId) (f : TCvt),
    s.issues th [] → s.mayFetch th ((s.thr th).pc + 4) → (s.thr th).tfly = none → f.mbz = 0 → f.rm ≠ 3 →
    let t := s.thr th
    let a := t.areg f.as.toNat
    let a1 := t.areg (f.as.toNat + 1)
    let td := t.treg f.td.toNat
    a.poison = false → a.bad = false → (f.cg ≠ 0 → td.fmt = f.fmt ∧ td.bad = false) →
    ((a.fmt = 0x0 ∧ f.fmt ∈ [0x0, 0x1, 0x2, 0x3, 0x4]) ∨ (a.fmt = 0xD ∧ f.rm = 0 ∧ f.fmt ∈ [0xB, 0xC]) ∨
      (a.fmt = 0x0 ∧ isMx f.fmt = true ∧ f.as ∈ [0, 2] ∧ a1.fmt = 0x0 ∧ a1.poison = false ∧ a1.bad = false)) →
    f.cg.toNat < (if f.fmt = 0x0 then 1 else if f.fmt ∈ [0x1, 0x2] then 2 else if f.fmt ∈ [0x3, 0x4, 0xB, 0x9] then 4
      else if f.fmt = 0xC then 8 else 2) →
    let r := cvtRun t.vec.strict a a1 td f.fmt f.rm f.cg.toNat t.tile.key t.tile.ctr t.vec.step
    tileCompletes (.tacvt th f) s th
      { t.tile with
        t := sset f.td.toNat r.1 t.tile.t
        ctr := if f.rm = 2 ∧ f.fmt ≠ 0x0 then t.tile.ctr + 4096 else t.tile.ctr } t.x
      { t.vec with flags := t.vec.flags ||| r.2 } ∧
    (f.fmt = 0x0 → r.1.data = a.data ∧ r.1.rows = 16 ∧ r.2 = 0)

/-- R113 to R115, R126, R129, R130: a product waits for the arrays, alone or in a group; the arrays ramp up, issue it, and
at its retirement write its accumulator and flags; then they hold. That a product which waited runs on its tiles as they are
when it issues is the model's choice (log 131). -/
def Obligations.ProductsThroughTheArrays : Prop :=
  (∀ (s : State) (th : ThreadId) (f : TMul) (zero : Bool) (acc : BitVec 4),
    s.issues th [] → s.mayFetch th ((s.thr th).pc + 4) → (s.thr th).tfly = none → f.mbz = 0 →
    let t := s.thr th
    let i : Instr := if zero then .tmmaz th f else .tmma th f
    tileFmtOk f.tfmt = true → tileFmtOk f.ufmt = true →
    (t.treg f.t.toNat).fmt = f.tfmt → (t.treg f.u.toNat).fmt = f.ufmt → pairAcc f.tfmt f.ufmt = some acc →
    (zero = false → (t.areg f.a.toNat).fmt = acc ∧ (t.areg f.a.toNat).poison = false) →
    (t.tile.tkm = 0 → tileCompletes i s th
      (if zero then { t.tile with a := sset f.a.toNat { fmt := acc } t.tile.a } else t.tile) t.x t.vec) ∧
    (t.tile.tkm ≠ 0 → (s.core (thCore th)).window = 0 → (s.core (thCore th)).arr = .off → t.pauseReq = false →
      ∃ u, exec i s = .next u ∧ (u.thr th).st = .waitUnit ∧ (u.thr th).tile = t.tile ∧ u.mem = s.mem ∧
        (u.core (thCore th)).arr = .rampUp ∧
        (u.core (thCore th)).ready = (s.core (thCore th)).ready ++ [[{ th := th, zero := zero, f := f }]]) ∧
    (t.tile.tkm ≠ 0 → (s.core (thCore th)).window ≠ 0 → (s.core (thCore th)).groups = [] → t.tile.tbm ≠ 0 →
      0 < activeRows (t.treg f.t.toNat) t.tile.trm → activeRows (t.treg f.t.toNat) t.tile.trm < 16 →
      ∃ u, exec i s = .next u ∧ (u.thr th).st = .waitUnit ∧ (u.thr th).tile = t.tile ∧ u.mem = s.mem ∧
        (u.core (thCore th)).groups =
          [{ members := [{ th := th, zero := zero, f := f }], window := (s.core (thCore th)).window.toNat }])) ∧
  (∀ (s : State) (th : ThreadId) (g : CoreId) (m : Mma), thCore th = g.toNat → m.th = th →
    (s.core g.toNat).arr = .rampUp → (s.core g.toNat).ready = [[m]] → s.mayFetch th ((s.thr th).pc + 4) →
    (∀ th', thCore th' = g.toNat → (s.thr th').tfly = none) →
    let t := s.thr th
    t.pauseReq = false → t.stopReq = false →
    (t.treg m.f.t.toNat).bad = false → (t.treg m.f.u.toNat).bad = false → (t.areg m.f.a.toNat).bad = false →
    let r := mmaRun t.vec.strict m.zero (t.treg m.f.t.toNat) (t.treg m.f.u.toNat) (t.areg m.f.a.toNat) t.tile.trm
      t.tile.tbm t.tile.tkm
    ∃ u, exec (.tileRampUpEnd g) s = .next u ∧ (u.core g.toNat).arr = .active ∧ (u.core g.toNat).ready = [] ∧
      (u.thr th).tile = t.tile ∧
      ∃ v, exec (.tileRetire th) u = .next v ∧ (v.core g.toNat).arr = .hold ∧ v.mem = s.mem ∧
        (v.thr th).tile = { t.tile with a := sset m.f.a.toNat r.1 t.tile.a } ∧
        (v.thr th).vec = { t.vec with flags := t.vec.flags ||| r.2 } ∧
        (v.core g.toNat).cntTmma = (s.core g.toNat).cntTmma + 1)

/-- R118, R126, R127, R130, R137: the events of the tile engine: a coalescer window ends, the arrays leave hold and power
down, the throttle moves by one, a scrub finds an error. -/
def Obligations.TileEngineEvents : Prop :=
  ∀ (s : State) (g : CoreId),
    let c := s.core g.toNat
    (∀ (k : Nat) (x : Group), c.groups[k]? = some x → c.arr = .off → ∃ u, exec (.coalWindowExpiry g k) s = .next u ∧
      (u.core g.toNat).groups = c.groups.eraseIdx k ∧ (u.core g.toNat).ready = c.ready ++ [x.members] ∧
      (u.core g.toNat).arr = .rampUp ∧ u.mem = s.mem) ∧
    (c.arr = .hold → exec (.tileHoldExpiry g) s = .next (s.modCore g.toNat fun k => { k with arr := .rampDown })) ∧
    (c.arr = .rampDown → exec (.tileRampDownEnd g) s = .next (s.modCore g.toNat fun k => { k with arr := .off })) ∧
    (∀ v : Word, c.idle.toNat ≤ 8 → ∃ n : Nat,
      exec (.tileThrot g v) s = .next (s.modCore g.toNat fun k => { k with
        idle := BitVec.ofNat 4 n, idleLo := min k.idleLo n, idleHi := max k.idleHi n }) ∧ n ≤ 8 ∧
      (v.toNat % 16 = c.idle.toNat → n = c.idle.toNat) ∧ (v.toNat % 16 < c.idle.toNat → n = c.idle.toNat - 1) ∧
      (c.idle.toNat < v.toNat % 16 → c.idle.toNat < 8 → n = c.idle.toNat + 1)) ∧
    (∀ (th : ThreadId) (n : BitVec 3) (row : BitVec 4), thCore th = g.toNat →
      (∃ u, exec (.tileScrub th false n row true) s = .next u ∧
        (u.thr th).tile = { (s.thr th).tile with t := sset n.toNat { fmt := 0xF } (s.thr th).tile.t } ∧
        (u.core g.toNat).tEccU = min (c.tEccU + 1) (2 ^ 32 - 1) ∧ u.mem = s.mem) ∧
      (n.toNat < 4 → ∃ u, exec (.tileScrub th true n row true) s = .next u ∧
        (u.thr th).areg n.toNat = { fmt := ((s.thr th).areg n.toNat).fmt, poison := true } ∧ u.mem = s.mem) ∧
      exec (.tileScrub th false n row false) s =
        .next (s.modCore g.toNat fun k => { k with tEccC := min (k.tEccC + 1) (2 ^ 32 - 1) }))

/-! ### Vectors -/

/-- Thread th may issue a vector instruction that names the X registers regs: the unit is powered, none of its
instructions is in flight, no register holds an error (R144, R164, R167). -/
def vectorReady (s : State) (th : ThreadId) (regs : List Reg) : Prop :=
  s.issues th regs ∧ s.mayFetch th ((s.thr th).pc + 4) ∧ (s.core (thCore th)).vpow = .on ∧
    (∀ t < 4, (s.thr (mkTh (thCore th) t)).vfly = none) ∧ (s.thr th).vec.badV = [] ∧ (s.thr th).vec.badP = [] ∧
    (s.thr th).vec.badF = []

/-- A vector instruction that has issued and then retires (R144, R145) has left its thread's vector state as `vec`, its X
registers as `x`, its tile state and memory as they were. -/
def vectorCompletes (i : Instr) (s : State) (th : ThreadId) (vec : VecRegs) (x : SMap Word) : Prop :=
  ∃ u, exec i s = .next u ∧ (u.thr th).vec = (s.thr th).vec ∧ (u.thr th).vfly.isSome = true ∧ u.mem = s.mem ∧
    ∃ v, exec (.vectorRetire th) u = .next v ∧ (v.thr th).vec = vec ∧ (v.thr th).x = x ∧
      (v.thr th).tile = (s.thr th).tile ∧ (v.thr th).csr.instret = (s.thr th).csr.instret + 1 ∧ v.mem = s.mem ∧
      (v.core (thCore th)).cntOps = (s.core (thCore th)).cntOps + 1

/-- Signed value of b bits. -/
def signedVal (b x : Nat) : Int := if 2 ^ (b - 1) ≤ x then (x : Int) - 2 ^ b else x

/-- The nearest value in [lo, hi]. -/
def clampTo (lo hi v : Int) : Int := if v < lo then lo else if hi < v then hi else v

/-- R142, R146, R148: integer element operations. Active elements hold the result modulo 2^b, inactive ones keep their
value or, with z, become 0; only the saturating forms raise a flag, ISAT, and only where an active element saturates. -/
def Obligations.VectorIntegerResults : Prop :=
  ∀ (s : State) (th : ThreadId) (f : VInt), vectorReady s th [] →
    let t := s.thr th
    let w := 2 ^ f.esz.toNat
    let b := 8 * w
    let act (j : Nat) : Prop := (t.pred f.pg.toNat).getLsbD j = true
    let x (j : Nat) : Nat := vget (t.vr f.vs1) w j
    let y (j : Nat) : Nat := vget (t.vr f.vs2) w j
    let sx (j : Nat) : Int := signedVal b (x j)
    let sy (j : Nat) : Int := signedVal b (y j)
    let elements (r : BitVec 2048) (v : Nat → Int) : Prop := ∀ j < 256 / w,
      (act j → (vget r w j : Int) = v j % 2 ^ b) ∧
      (¬ act j → vget r w j = if f.z then 0 else vget (t.vr f.vd) w j)
    let gives (i : Instr) (v : Nat → Int) : Prop :=
      ∃ r, elements r v ∧ vectorCompletes i s th { t.vec with v := sset f.vd.toNat r t.vec.v } t.x
    let saturates (i : Instr) (lo hi : Int) (v : Nat → Int) : Prop :=
      ∃ r fl, elements r (fun j => clampTo lo hi (v j)) ∧
        ((∃ j < 256 / w, act j ∧ clampTo lo hi (v j) ≠ v j) → fl = flagIsat) ∧
        ((∀ j < 256 / w, act j → clampTo lo hi (v j) = v j) → fl = 0) ∧
        vectorCompletes i s th { t.vec with v := sset f.vd.toNat r t.vec.v, flags := t.vec.flags ||| fl } t.x
    let lo : Int := -(2 ^ (b - 1))
    let hi : Int := 2 ^ (b - 1) - 1
    gives (.vadd th f) (fun j => x j + y j) ∧ gives (.vsub th f) (fun j => x j - y j) ∧
    gives (.vmul th f) (fun j => x j * y j) ∧ gives (.vmulh th f) (fun j => sx j * sy j / 2 ^ b) ∧
    gives (.vmulhu th f) (fun j => (x j * y j / 2 ^ b : Nat)) ∧ gives (.vand th f) (fun j => (x j &&& y j : Nat)) ∧
    gives (.vor th f) (fun j => (x j ||| y j : Nat)) ∧ gives (.vxor th f) (fun j => (x j ^^^ y j : Nat)) ∧
    gives (.vshl th f) (fun j => (x j * 2 ^ (y j % b) : Nat)) ∧ gives (.vshr th f) (fun j => (x j / 2 ^ (y j % b) : Nat)) ∧
    gives (.vsra th f) (fun j => sx j / 2 ^ (y j % b)) ∧ gives (.vmin th f) (fun j => min (sx j) (sy j)) ∧
    gives (.vmax th f) (fun j => max (sx j) (sy j)) ∧ gives (.vminu th f) (fun j => (min (x j) (y j) : Nat)) ∧
    gives (.vmaxu th f) (fun j => (max (x j) (y j) : Nat)) ∧
    saturates (.vadds th f) lo hi (fun j => sx j + sy j) ∧ saturates (.vsubs th f) lo hi (fun j => sx j - sy j) ∧
    saturates (.vaddsu th f) 0 (2 ^ b - 1) (fun j => (x j : Int) + y j) ∧
    saturates (.vsubsu th f) 0 (2 ^ b - 1) (fun j => (x j : Int) - y j) ∧
    gives (.vperm th f) (fun j => x (y j % (256 / w))) ∧
    (f.z = false → ∃ r, (∀ j < 256 / w, (act j → vget r w j = x j) ∧ (¬ act j → vget r w j = y j)) ∧
      vectorCompletes (.vsel th f) s th { t.vec with v := sset f.vd.toNat r t.vec.v } t.x)

/-- R140, R142, R146, R147: compares write a predicate: active elements the comparison, inactive ones what they held or,
with z, 0, and every bit from N on 0. -/
def Obligations.VectorCompareResults : Prop :=
  ∀ (s : State) (th : ThreadId) (f : VInt) (g : VFlt) (sp : FSpec), vectorReady s th [] →
    let t := s.thr th
    let bits (r old act : BitVec 256) (z : Bool) (n : Nat) (p : Nat → Prop) : Prop := ∀ j < 256,
      (n ≤ j → r.getLsbD j = false) ∧ (j < n → act.getLsbD j = true → (r.getLsbD j = true ↔ p j)) ∧
      (j < n → act.getLsbD j = false → r.getLsbD j = (!z && old.getLsbD j))
    let w := 2 ^ f.esz.toNat
    let x (j : Nat) : Nat := vget (t.vr f.vs1) w j
    let y (j : Nat) : Nat := vget (t.vr f.vs2) w j
    let int (i : Instr) (p : Nat → Prop) : Prop := f.vd.toNat < 16 → ∃ r,
      bits r (t.pred f.vd.toNat) (t.pred f.pg.toNat) f.z (256 / w) p ∧
      vectorCompletes i s th { t.vec with p := sset f.vd.toNat r t.vec.p } t.x
    let v := sp.width / 8
    let a (j : Nat) : FVal := fread sp t.vec.strict (vget (t.vr g.vs1) v j)
    let b (j : Nat) : FVal := fread sp t.vec.strict (vget (t.vr g.vs2) v j)
    let flt (i : Instr) (p : Nat → Prop) : Prop := arithFmt g.fmt = some sp → g.vd.toNat < 16 → ∃ r,
      bits r (t.pred g.vd.toNat) (t.pred g.pg.toNat) g.z (256 / v) p ∧
      vectorCompletes i s th { t.vec with p := sset g.vd.toNat r t.vec.p } t.x
    int (.vcmpeq th f) (fun j => x j = y j) ∧
    int (.vcmplt th f) (fun j => signedVal (8 * w) (x j) < signedVal (8 * w) (y j)) ∧
    int (.vcmpltu th f) (fun j => x j < y j) ∧
    int (.vcmple th f) (fun j => signedVal (8 * w) (x j) ≤ signedVal (8 * w) (y j)) ∧
    int (.vcmpleu th f) (fun j => x j ≤ y j) ∧
    flt (.vfcmpeq th g) (fun j => fcmpEq t.vec.strict (a j) (b j) = true) ∧
    flt (.vfcmplt th g) (fun j => fcmpLt t.vec.strict (a j) (b j) = true) ∧
    flt (.vfcmple th g) (fun j => fcmpLe t.vec.strict (a j) (b j) = true) ∧
    flt (.vfcmpne th g) (fun j => fcmpNe t.vec.strict (a j) (b j) = true)

/-- R90, R142, R147: floating-point element operations: the exact operation of the values read, rounded to nearest even
in the format; the flags are those of the active elements. -/
def Obligations.VectorFloatResults : Prop :=
  ∀ (s : State) (th : ThreadId) (f : VFlt) (sp : FSpec), vectorReady s th [] → arithFmt f.fmt = some sp →
    let t := s.thr th
    let w := sp.width / 8
    let n := 256 / w
    let act (j : Nat) : Bool := (t.pred f.pg.toNat).getLsbD j
    let rd (r : Reg) (j : Nat) : FVal := fread sp t.vec.strict (vget (t.vr r) w j)
    let gives (i : Instr) (v : Nat → FVal × Flags) : Prop :=
      let out (j : Nat) : Nat × Flags := fround ⟨sp, t.vec.strict, false⟩ .rne (v j).1
      ∃ r fl, (∀ j < n, vget r w j = if act j then (out j).1 % 2 ^ (8 * w) else if f.z then 0 else vget (t.vr f.vd) w j) ∧
        (∀ k < 6, (fl : Flags).getLsbD k = true ↔ ∃ j < n, act j = true ∧ ((v j).2 ||| (out j).2).getLsbD k = true) ∧
        vectorCompletes i s th { t.vec with v := sset f.vd.toNat r t.vec.v, flags := t.vec.flags ||| fl } t.x
    let a := rd f.vs1
    let b := rd f.vs2
    let d := rd f.vd
    gives (.vfadd th f) (fun j => fadd (a j) (b j)) ∧ gives (.vfsub th f) (fun j => fadd (a j) (fneg (b j))) ∧
    gives (.vfmul th f) (fun j => fmul (a j) (b j)) ∧ gives (.vfdiv th f) (fun j => fdiv (a j) (b j)) ∧
    gives (.vfmax th f) (fun j => (fmaxV t.vec.strict (a j) (b j), 0)) ∧
    gives (.vfmin th f) (fun j => (fminV t.vec.strict (a j) (b j), 0)) ∧
    gives (.vfma th f) (fun j => ffma (a j) (b j) (d j)) ∧ gives (.vfnma th f) (fun j => ffma (fneg (a j)) (b j) (d j)) ∧
    (f.vs2 = 0 → gives (.vfsqrt th f) (fun j => fsqrt (a j)) ∧ gives (.vfneg th f) (fun j => (fneg (a j), 0)) ∧
      gives (.vfabs th f) (fun j => (match a j with | .fin _ m e => .fin false m e | .inf _ => .inf false | v => v, 0)))

/-- R160: an integer reduction totals, compares or combines the active elements: a total as INT64, saturated with ISAT, the
others at element width; every other bit of vd is 0. A floating-point one gives what the model's fredRun gives. -/
def Obligations.ReductionResults : Prop :=
  ∀ (s : State) (th : ThreadId) (f : VRed), vectorReady s th [] → f.mbz = 0 →
    let t := s.thr th
    let act := t.pred f.pg.toNat
    let gives (i : Instr) (r : Nat) (fl : Flags) : Prop :=
      vectorCompletes i s th { t.vec with
        v := sset f.vd.toNat (BitVec.ofNat 2048 r) t.vec.v, flags := t.vec.flags ||| fl } t.x
    (f.int = true → f.sub.toNat % 4 = 0 →
      let w := 2 ^ (f.sub.toNat / 4)
      let xs := ((List.range (256 / w)).filter fun j => act.getLsbD j).map fun j => vget (t.vr f.vs) w j
      let sums := xs.map (signedVal (8 * w))
      let total (l : List Int) : Int := l.foldl (· + ·) 0
      let sat (v : Int) : Nat := (clampTo (-(2 ^ 63)) (2 ^ 63 - 1) v % 2 ^ 64).toNat
      let isat (v : Int) : Flags := if clampTo (-(2 ^ 63)) (2 ^ 63 - 1) v = v then 0 else flagIsat
      gives (.vredSum th f) (sat (total sums)) (isat (total sums)) ∧
      gives (.vredSumsq th f) (sat (total (sums.map fun v => v * v))) (isat (total (sums.map fun v => v * v))) ∧
      gives (.vredAnd th f) (xs.foldl (· &&& ·) (2 ^ (8 * w) - 1)) 0 ∧ gives (.vredOr th f) (xs.foldl (· ||| ·) 0) 0 ∧
      gives (.vredXor th f) (xs.foldl (· ^^^ ·) 0) 0 ∧
      gives (.vredMax th f) ((sums.foldl max (-(2 ^ (8 * w - 1))) % 2 ^ (8 * w)).toNat)
        (if xs = [] then flagEmpty else 0) ∧
      gives (.vredMin th f) ((sums.foldl min (2 ^ (8 * w - 1) - 1) % 2 ^ (8 * w)).toNat)
        (if xs = [] then flagEmpty else 0)) ∧
    (f.int = true → f.sub.toNat % 4 = 1 →
      let w := 2 ^ (f.sub.toNat / 4)
      let xs := ((List.range (256 / w)).filter fun j => act.getLsbD j).map fun j => vget (t.vr f.vs) w j
      gives (.vredMax th f) (xs.foldl max 0) (if xs = [] then flagEmpty else 0) ∧
      gives (.vredMin th f) (xs.foldl min (2 ^ (8 * w) - 1)) (if xs = [] then flagEmpty else 0)) ∧
    (∀ sp, f.int = false → arithFmt f.sub = some sp →
      let run (o : VRop) := fredRun o sp t.vec.strict act (t.vr f.vs)
      gives (.vredSum th f) (run .sum).1 (run .sum).2 ∧ gives (.vredSumsq th f) (run .sumsq).1 (run .sumsq).2 ∧
      gives (.vredMax th f) (run .max).1 (run .max).2 ∧ gives (.vredMin th f) (run .min).1 (run .min).2)

/-- R94, R161, R162: conversions, vector and scalar; with rm = SR the thread's stream counter advances by 4,096. -/
def Obligations.ConversionResults : Prop :=
  (∀ (s : State) (th : ThreadId) (f : VCvt), vectorReady s th [] → vcvtLegal f = true →
    let t := s.thr th
    let r := vcvtRun t.vec.strict f.dfmt f.sfmt (t.pred f.pg.toNat) f.rm f.part.toNat t.vec.key t.vec.ctr t.vec.step
      (t.vr f.vd) (t.vr f.vs)
    vectorCompletes (.vcvt th f) s th { t.vec with
      v := sset f.vd.toNat r.1 t.vec.v, flags := t.vec.flags ||| r.2
      ctr := if f.rm = 2 then t.vec.ctr + 4096 else t.vec.ctr } t.x) ∧
  (∀ (s : State) (th : ThreadId) (f : VMisc) (sp : FSpec), vectorReady s th [f.rd, f.rs1] → f.rs2 = 0 →
    arithFmt (f.sub.setWidth 4) = some sp → f.sub.toNat / 16 ≠ 3 →
    let t := s.thr th
    let rnd := rndOf ((f.sub >>> 4).setWidth 2) (srWord t.vec.key t.vec.ctr t.vec.step 0)
    let ctr := if f.sub.toNat / 16 = 2 then t.vec.ctr + 4096 else t.vec.ctr
    (let q := toInt 64 rnd (fread sp t.vec.strict (t.fr f.rs1))
     vectorCompletes (.fcvtxf th f) s th { t.vec with flags := t.vec.flags ||| q.2, ctr := ctr }
       (t.setX f.rd (BitVec.ofInt 64 q.1)).x) ∧
    (let r := writeElem (f.sub.setWidth 4) t.vec.strict rnd (ofScaled (t.xr f.rs1).toInt 0)
     ∃ v : BitVec 2048, v.toNat % 2 ^ 64 = r.1 % 2 ^ 64 ∧ v.toNat / 2 ^ 64 = (t.vr f.rd).toNat / 2 ^ 64 ∧
       vectorCompletes (.fcvtfx th f) s th
         { t.vec with v := sset f.rd.toNat v t.vec.v, flags := t.vec.flags ||| r.2, ctr := ctr } t.x))

/-- R149 to R157: vector loads and stores whose active elements lie in the own Bench. Active elements are loaded or
stored, inactive ones touch no memory; a first-fault load with no fault leaves FFR as it is. -/
def Obligations.VectorMemoryOwnBench : Prop :=
  ∀ (s : State) (th : ThreadId) (f : VMem), vectorReady s th [f.rb, f.rx] → (s.thr th).tfly = none →
    (s.core (thCore th)).promised = false → Memory.wf s.mem = true →
    let t := s.thr th
    let w := 2 ^ f.esz.toNat
    let n := 256 / w
    let bench := 0x100000000 + thCore th * 0x100000
    let act (j : Nat) : Prop := (t.pred f.pg.toNat).getLsbD j = true
    let unit (j : Nat) : Nat := (t.xr f.rb + BitVec.ofNat 64 (j * w)).toNat
    let stride (j : Nat) : Nat := (t.xr f.rb + BitVec.ofNat 64 j * t.xr f.rx).toNat
    let gather (j : Nat) : Nat :=
      (t.xr f.rb + BitVec.ofInt 64 (signedVal (8 * w) (vget (t.vr f.rx) w j) * 2 ^ f.sc.toNat)).toNat
    let inBench (ad : Nat → Nat) : Prop :=
      ∀ j < n, act j → ad j + w ≤ 0x100000 ∧ ad j % w = 0 ∧ t.storesTo ((bench + ad j) / 64) = false
    let loads (i : Instr) (ad : Nat → Nat) : Prop :=
      inBench ad → (∀ j < n, act j → s.poisonIn (bench + ad j) w = false) →
      ∃ r, (∀ j < n, (act j → vget r w j = leNat (memBytes s.mem (bench + ad j) w)) ∧
          (¬ act j → vget r w j = if f.z then 0 else vget (t.vr f.v) w j)) ∧
        vectorCompletes i s th { t.vec with v := sset f.v.toNat r t.vec.v } t.x
    let stores (i : Instr) (ad : Nat → Nat) : Prop :=
      inBench ad → s.poison = [] → f.z = false →
      ∃ u, exec i s = .next u ∧ u.mem = s.mem ∧ ∃ v, exec (.vectorRetire th) u = .next v ∧
        (v.thr th).vec = t.vec ∧ (v.thr th).x = t.x ∧
        (∀ a, (∀ j < n, act j → ¬ (bench + ad j ≤ a ∧ a < bench + ad j + w)) → memGet v.mem a = memGet s.mem a) ∧
        ((∀ j < n, ∀ k < n, act j → act k → j ≠ k → ad j ≠ ad k) → ∀ j < n, act j →
          leNat (memBytes v.mem (bench + ad j) w) = vget (t.vr f.v) w j)
    (f.rx = 0 → f.sc = 0 → loads (.vld th f) unit ∧ loads (.vldff th f) unit ∧ stores (.vst th f) unit) ∧
    (f.sc = 0 → loads (.vlds th f) stride ∧ stores (.vsts th f) stride) ∧
    (f.esz = 2 ∨ f.esz = 3 → loads (.vgath th f) gather ∧ loads (.vgathff th f) gather ∧ stores (.vscat th f) gather)

/-- R140, R148, R157, R172: predicates, FFR, and moves between register files. -/
def Obligations.PredicateAndMoveResults : Prop :=
  ∀ (s : State) (th : ThreadId) (f : VMisc), vectorReady s th [f.rd, f.rs1, f.rs2] →
    let t := s.thr th
    let w := 2 ^ (f.sub.toNat % 4)
    let n := 256 / w
    let p1 := t.pred f.rs1.toNat
    let p2 := t.pred f.rs2.toNat
    let x := t.xr f.rs1
    let setP (i : Instr) (bit : Nat → Bool) : Prop :=
      ∃ r : BitVec 256, (∀ j < 256, r.getLsbD j = bit j) ∧
        vectorCompletes i s th { t.vec with p := sset f.rd.toNat r t.vec.p } t.x
    let setX (i : Instr) (v : Word) : Prop := vectorCompletes i s th t.vec (t.setX f.rd v).x
    let lowest (p : BitVec 256) (v : Word) : Prop :=
      (v = 256 ∧ ∀ j < 256, p.getLsbD j = false) ∨
        (v.toNat < 256 ∧ p.getLsbD v.toNat = true ∧ ∀ j < v.toNat, p.getLsbD j = false)
    (f.rd.toNat < 16 → f.rs1.toNat < 16 → f.rs2.toNat < 16 →
      setP (.pand th f) (fun j => p1.getLsbD j && p2.getLsbD j) ∧
      setP (.por th f) (fun j => p1.getLsbD j || p2.getLsbD j) ∧
      setP (.pxor th f) (fun j => p1.getLsbD j ^^ p2.getLsbD j) ∧
      setP (.pandn th f) (fun j => p1.getLsbD j && !p2.getLsbD j)) ∧
    (f.rd.toNat < 16 → f.rs1 = 0 → f.rs2 = 0 →
      setP (.pset th f) (fun j => decide (j < n)) ∧ setP (.pclr th f) (fun _ => false)) ∧
    (f.rd.toNat < 16 → f.rs2 = 0 → setP (.plen th f) (fun j => decide ((j : Int) < x.toInt) && decide (j < n))) ∧
    (f.rs1.toNat < 16 → f.rs2 = 0 →
      setX (.ppop th f) (BitVec.ofNat 64 ((List.range 256).countP fun j => p1.getLsbD j)) ∧
      ∃ v, lowest p1 v ∧ setX (.plow th f) v) ∧
    (f.rs1 = 0 → f.rs2 = 0 → ∃ v, lowest (~~~t.vec.ffr) v ∧ setX (.ffcut th f) v) ∧
    (f.rd = 0 → f.rs1 = 0 → f.rs2 = 0 →
      vectorCompletes (.ffarm th f) s th { t.vec with ffr := BitVec.allOnes 256 } t.x) ∧
    (f.rd.toNat < 16 → f.rs1.toNat < 16 → f.rs2 = 0 → vectorCompletes (.fftake th f) s th
      { t.vec with p := sset f.rd.toNat (t.vec.ffr &&& p1) t.vec.p, ffr := BitVec.allOnes 256 } t.x) ∧
    (f.rd = 0 → f.rs1.toNat < 16 → f.rs2 = 0 → vectorCompletes (.ffput th f) s th { t.vec with ffr := p1 } t.x) ∧
    (f.rs2 = 0 →
      (∃ r, (∀ j < n, vget r w j = x.toNat % 2 ^ (8 * w)) ∧
        vectorCompletes (.vdup th f) s th { t.vec with v := sset f.rd.toNat r t.vec.v } t.x) ∧
      (∃ r, (∀ j < n, vget r w j = (x.toNat + j) % 2 ^ (8 * w)) ∧
        vectorCompletes (.viota th f) s th { t.vec with v := sset f.rd.toNat r t.vec.v } t.x) ∧
      setX (.fmvxf th f) ((t.vr f.rs1).setWidth 64) ∧
      (∃ r : BitVec 2048, r.setWidth 64 = x ∧ r >>> 64 = t.vr f.rd >>> 64 ∧
        vectorCompletes (.fmvfx th f) s th { t.vec with v := sset f.rd.toNat r t.vec.v } t.x)) ∧
    setX (.vgetx th f) (BitVec.ofNat 64 (vget (t.vr f.rs1) w ((t.xr f.rs2).toNat % n)))

/-- R90, R141, R147: scalar floating point works on bits [63:0] of V registers, here their low bits of the format's width,
and leaves the rest of the register; compares write 1 or 0 to an X register. -/
def Obligations.ScalarFloatResults : Prop :=
  ∀ (s : State) (th : ThreadId) (f : VMisc) (sp : FSpec), vectorReady s th [f.rd] → arithFmt (f.sub.setWidth 4) = some sp →
    let t := s.thr th
    let rd (r : Reg) : FVal := fread sp t.vec.strict ((t.vr r).setWidth 64).toNat
    let a := rd f.rs1
    let b := rd f.rs2
    let gives (i : Instr) (v : FVal × Flags) : Prop :=
      let out := fround ⟨sp, t.vec.strict, false⟩ .rne v.1
      ∃ r : BitVec 2048, r.setWidth 64 = BitVec.ofNat 64 out.1 ∧ r >>> 64 = t.vr f.rd >>> 64 ∧
        vectorCompletes i s th { t.vec with
          v := sset f.rd.toNat r t.vec.v, flags := t.vec.flags ||| (v.2 ||| out.2) } t.x
    let compares (i : Instr) (c : Bool) : Prop :=
      vectorCompletes i s th t.vec (t.setX f.rd (if c then 1 else 0)).x
    gives (.fadd th f) (fadd a b) ∧ gives (.fsub th f) (fadd a (fneg b)) ∧ gives (.fmul th f) (fmul a b) ∧
    gives (.fdiv th f) (fdiv a b) ∧ gives (.fmax th f) (fmaxV t.vec.strict a b, 0) ∧
    gives (.fmin th f) (fminV t.vec.strict a b, 0) ∧ gives (.fma th f) (ffma a b (rd f.rd)) ∧
    (f.rs2 = 0 → gives (.fsqrt th f) (fsqrt a)) ∧
    compares (.feq th f) (fcmpEq t.vec.strict a b) ∧ compares (.flt th f) (fcmpLt t.vec.strict a b) ∧
    compares (.fle th f) (fcmpLe t.vec.strict a b)

/-- R52, R165, R166: G instructions in STR at SUPERVISOR level, on own-Bench addresses: Gk is V8k to V8k+7. -/
def Obligations.GViewResults : Prop :=
  ∀ (s : State) (th : ThreadId) (f : VMisc), vectorReady s th [f.rd, f.rs1] → (s.thr th).tfly = none →
    (s.core (thCore th)).promised = false → Memory.wf s.mem = true → s.poison = [] →
    let t := s.thr th
    t.csr.status.getLsbD 0 = true → t.csr.status.getLsbD 5 = true →
    let a := (t.xr f.rs1).toNat
    let loc := 0x100000000 + thCore th * 0x100000 + a
    let clear : Prop := ∀ k < 32, t.storesTo (loc / 64 + k) = false
    let word (k n : Nat) : Nat := (sget 0 t.vec.v (8 * k + n / 32)).toNat / 2 ^ (64 * (n % 32)) % 2 ^ 64
    let mem (n : Nat) : Nat := leNat (memBytes s.mem (loc + 8 * n) 8)
    let holds (vec : VecRegs) (k : Nat) (v : Nat → Nat) : Prop :=
      (∀ n < 256, (sget 0 vec.v (8 * k + n / 32)).toNat / 2 ^ (64 * (n % 32)) % 2 ^ 64 = v n) ∧
      (∀ m, m < 8 * k ∨ 8 * k + 8 ≤ m → sget 0 vec.v m = sget 0 t.vec.v m) ∧ { vec with v := t.vec.v } = t.vec
    (f.rd.toNat < 4 → f.rs2 = 0 →
      (∃ vec, holds vec f.rd.toNat (fun _ => (t.xr f.rs1).toNat) ∧ vectorCompletes (.gfill th f) s th vec t.x) ∧
      (a % 64 = 0 → a + 2048 ≤ 0x100000 → clear →
        (∃ vec, holds vec f.rd.toNat mem ∧ vectorCompletes (.gld th f) s th vec t.x) ∧
        ∃ u, exec (.gst th f) s = .next u ∧ ∃ v, exec (.vectorRetire th) u = .next v ∧ (v.thr th).vec = t.vec ∧
          (∀ b, ¬ (loc ≤ b ∧ b < loc + 2048) → memGet v.mem b = memGet s.mem b) ∧
          ∀ n < 256, leNat (memBytes v.mem (loc + 8 * n) 8) = word f.rd.toNat n)) ∧
    (f.rs2.toNat < 4 → a % 64 = 0 → a + 2048 ≤ 0x100000 → clear → vectorCompletes (.gchk th f) s th t.vec
      (t.setX f.rd (BitVec.ofNat 64 ((List.range 256).countP fun n => word f.rs2.toNat n != mem n))).x)

/-- R163, R164, R167: the vector unit powers down when idle, wakes for an instruction that then issues again, and a scrub
marks or counts an error. -/
def Obligations.VectorUnitEvents : Prop :=
  ∀ (s : State) (g : CoreId),
    let c := s.core g.toNat
    (c.vpow = .on → c.thresh ≠ 0 → s.vecIdle g.toNat = true →
      exec (.vecPowerDown g) s = .next (s.setCore g.toNat { c with vpow := .off })) ∧
    (c.vpow = .waking false → ∃ u, exec (.vecWakeEnd g) s = .next u ∧ (u.core g.toNat).vpow = .on ∧ u.mem = s.mem) ∧
    (∀ th, thCore th = g.toNat → c.vpow = .waking false → (s.thr th).st = .waitUnit → (s.thr th).why = .wake →
      (s.thr th).pend = none → (s.thr th).exc = none → (s.thr th).pauseReq = false → (s.thr th).stopReq = false →
      s.hasLine th (s.thr th).pc → (∀ th', thCore th' = g.toNat → th' ≠ th → (s.thr th').why ≠ .wake) →
      ∃ u, exec (.vecWakeEnd g) s = .next u ∧ u.thr th = { s.thr th with st := .ready, why := .none } ∧
        (u.core g.toNat).vpow = .on) ∧
    (∀ (th : ThreadId) (f : VInt), thCore th = g.toNat → s.issues th [] → (s.thr th).vfly = none → c.vpow = .off →
      ∃ u, exec (.vadd th f) s = .next u ∧ (u.core g.toNat).vpow = .waking false ∧
        (u.core g.toNat).cntWake = c.cntWake + 1 ∧ (u.thr th).st = .waitUnit ∧ (u.thr th).vec = (s.thr th).vec) ∧
    (∀ (th : ThreadId) (n : Reg) (word : Nat), thCore th = g.toNat →
      (∃ u, exec (.vecScrub th (.v n) word true) s = .next u ∧
        (u.thr th).vec = { (s.thr th).vec with badV := (n.toNat, word) :: (s.thr th).vec.badV } ∧
        (u.core g.toNat).vEccU = min (c.vEccU + 1) (2 ^ 32 - 1) ∧ u.mem = s.mem) ∧
      exec (.vecScrub th (.v n) word false) s =
        .next (s.modCore g.toNat fun k => { k with vEccC := min (k.vEccC + 1) (2 ^ 32 - 1) }))

/-! ### Tallies and bells -/

/-- R250, R265 to R267, R269, Table 9.8: what a sync instruction sends and how its thread goes on. A posted one retires, a
reply instruction waits in WAIT_MEM, a wait in WAIT_SYNC; the checks of the core raise SYNC and send nothing. -/
def Obligations.SyncInstructionResults : Prop :=
  ∀ (s : State) (th : ThreadId) (c : CtxId) (rd rs1 rs2 : Reg),
    s.issues th [rd, rs1, rs2] → s.thCtx th = some c → s.fetchable c ((s.thr th).pc + 4) = true →
    (s.thr th).flying = false → s.slotFree th = true → (∀ m ∈ s.sync.msgs, m.src = .thread th → m.dest = none) →
    let t := s.thr th
    let x := (t.xr rs1).toNat
    let y := (t.xr rs2).toNat
    let msg (op : SyncOp) (bell : Bool) (after : Nat) : SyncMsg :=
      { op := op, bell := bell, obj := x, src := .thread th, ctx := c, gen := (s.ctx c).gen, arg := BitVec.ofNat 32 y
        after := after }
    let sent (u : State) (m : SyncMsg) : State := { u with sync := { s.sync with msgs := s.sync.msgs ++ [m] } }
    let asks (op : SyncOp) : State := s.waits th { t with st := .waitMem, pend := some (.sync op x rd none) }
    let waits (bell : Bool) : State := s.waits th { t with st := .waitSync, wait := some (bell, x) }
    (x < 2 ^ 15 → 1 ≤ y → y < 2 ^ 32 → rd = 0 →
      exec (.tsig th rd rs1 rs2) s = .next (sent (s.retires th t (t.pc + 4)) (msg .signal false t.nextId)) ∧
      exec (.tdec th rd rs1 rs2) s = .next (sent (s.retires th t (t.pc + 4)) (msg .decrement false t.nextId))) ∧
    (x < 2 ^ 15 → y < 2 ^ 32 → rd = 0 → exec (.tset th rd rs1 rs2) s =
      .next (sent (s.waits th { t with st := .waitMem, pend := some (.sync .set x 0 none) }) (msg .set false 0))) ∧
    (x < 2 ^ 15 → rs2 = 0 → exec (.tread th rd rs1 rs2) s = .next (asks .read)) ∧
    (x < 2 ^ 12 → rs2 = 0 → exec (.bread th rd rs1 rs2) s = .next (asks .bellRead)) ∧
    (x < 2 ^ 12 → y < 2 ^ 12 → exec (.barr th rd rs1 rs2) s = .next (sent (asks .arrive) (msg .arrive true t.nextId))) ∧
    (x < 2 ^ 15 → y % 2 ^ 31 ≠ 0 → 2 ^ 32 ≤ y → rd = 0 → exec (.twait th rd rs1 rs2) s =
      .next (sent (waits false) { msg .wait false 0 with timeout := BitVec.ofNat 32 (y / 2 ^ 32) })) ∧
    (x < 2 ^ 12 → 2 ^ 32 ≤ y → rd = 0 → exec (.bwait th rd rs1 rs2) s =
      .next (sent (waits true) { msg .bellWait true 0 with timeout := BitVec.ofNat 32 (y / 2 ^ 32) })) ∧
    (x % 2 ^ 32 < 2 ^ 15 → x / 2 ^ 48 = 0 → 1 ≤ y → y < 2 ^ 32 → rd = 0 →
      let here := x / 2 ^ 32 = 0xFFFF ∨ x / 2 ^ 32 = s.fab.module.toNat
      (here ∨ ∃ p ∈ t.posted, p.id < t.nextId) → exec (.tsigr th rd rs1 rs2) s =
        .next (sent (s.retires th t (t.pc + 4)) { msg .signal false t.nextId with
          obj := x % 2 ^ 32, dest := if here then none else some (BitVec.ofNat 16 (x / 2 ^ 32)) })) ∧
    (s.handles th → rd = 0 →
      let raises (i : Instr) (op : Nat) (code : Reason) : Prop :=
        exec i s = .next ((s.noted th).coreRecord th code 0x02 (BitVec.ofNat 32 x)
          (BitVec.ofNat 192 (op + 0xFFFF * 2 ^ 16 + y % 2 ^ 32 * 2 ^ 64)) |>.enters th
            (BitVec.ofNat 64 (code.toNat * 2 ^ 16 + 9)) (BitVec.ofNat 64 x))
      (2 ^ 15 ≤ x → raises (.tsig th rd rs1 rs2) 1 0x0307 ∧ raises (.tdec th rd rs1 rs2) 2 0x0307) ∧
      (x < 2 ^ 15 → y = 0 ∨ 2 ^ 32 ≤ y → raises (.tsig th rd rs1 rs2) 1 0x0304 ∧ raises (.tdec th rd rs1 rs2) 2 0x0304))

/-- No thread of the core of th has an instruction that waits for a slot. -/
def noSlotWaits (s : State) (th : ThreadId) : Prop :=
  ∀ n < 4, (s.thr (mkTh (thCore th) n)).pend = none ∧ (s.thr (mkTh (thCore th) n)).why ≠ .slot

/-- R254 to R257: operations at a tally. Signals saturate, decrements stop at 0, a latch is at most 1, a set clears the
flags and is answered, a wait consumes its amount, or is queued first in first out; a signal lets a queued wait go on. -/
def Obligations.TallyOperations : Prop :=
  ∀ (s : State) (k : Nat) (m : SyncMsg) (th : ThreadId) (c : CtxId),
    m.bell = false → m.src = .thread th → m.gen = (s.ctx m.ctx).gen → s.objOk m = true → noSlotWaits s th →
    let t := s.tally m.obj
    let v := t.value.toNat
    let n := m.arg.toNat
    let leaves (i : Instr) (op : SyncOp) (x : Tally) (more : State → Prop) : Prop :=
      s.msgReady k [op] = some m → ∃ u, exec i s = .next u ∧ u.tally m.obj = x ∧ u.mem = s.mem ∧
        u.sync.msgs = s.sync.msgs.eraseIdx k ∧ (∀ id, id ≠ m.obj → u.tally id = s.tally id) ∧ more u
    let goesOn (w : ThreadId) (u : State) : Prop := (u.thr w).pc = (s.thr w).pc + 4 ∧ (u.thr w).wait = none ∧
      (u.thr w).csr.instret = (s.thr w).csr.instret + 1
    let any (_ : State) : Prop := True
    (t.q = [] →
      (t.latch = false → leaves (.tallySignal k) .signal
        { t with value := BitVec.ofNat 32 (min (v + n) (2 ^ 32 - 1)), sat := t.sat || decide (2 ^ 32 ≤ v + n) } any) ∧
      (t.latch = true → leaves (.tallySignal k) .signal
        { t with value := if v = 0 then 1 else t.value, ovr := t.ovr || decide (v ≠ 0) } any) ∧
      (t.latch = false ∨ n ≤ 1 →
        leaves (.tallySet k) .set { t with value := m.arg, sat := false, under := false, ovr := false } fun u =>
          ∀ op id rd, m.lost = false → (s.thr th).pend = some (.sync op id rd none) →
            (u.thr th).pend = some (.sync op id rd (some (0, 0))))) ∧
    leaves (.tallyDecrement k) .decrement
      (if v < n then { t with value := 0, under := true } else { t with value := BitVec.ofNat 32 (v - n) }) any ∧
    (∀ w wait, t.latch = false → t.q = [wait] → wait.src = .thread w → wait.n ≤ v + n → v + n < 2 ^ 32 →
      (s.thr w).st = .waitSync → s.thCtx w = some c → s.fetchable c ((s.thr w).pc + 4) = true →
      leaves (.tallySignal k) .signal
        { t with q := [], value := BitVec.ofNat 32 (if wait.peek then v + n else v + n - wait.n) } (goesOn w)) ∧
    (let a := n % 2 ^ 31
     let wait : Waiter := { src := m.src, ctx := m.ctx, n := a, peek := decide (2 ^ 31 ≤ n), timeout := m.timeout, arg := m.arg }
     a ≠ 0 → (t.latch = true → a = 1) →
      (t.q = [] → a ≤ v → (s.thr th).st = .waitSync → s.thCtx th = some c → s.fetchable c ((s.thr th).pc + 4) = true →
        leaves (.tallyWait k) .wait
          { t with value := if 2 ^ 31 ≤ n then t.value else BitVec.ofNat 32 (v - a) } (goesOn th)) ∧
      ((∀ h, (t.q ++ [wait]).head? = some h → v < h.n) →
        leaves (.tallyWait k) .wait { t with q := t.q ++ [wait] } fun u => u.threads = s.threads))

/-- R258, R259: arrivals and waits at a bell. An arrival fills its slot and is answered with its round; the last one opens
the next round; a wait for a round that has been released ends at once, one for a round to come is queued. -/
def Obligations.BellOperations : Prop :=
  ∀ (s : State) (k : Nat) (m : SyncMsg) (th : ThreadId) (c : CtxId),
    m.bell = true → m.src = .thread th → m.gen = (s.ctx m.ctx).gen → s.objOk m = true →
    let b := s.bell m.obj
    let p := m.arg.toNat
    let leaves (i : Instr) (op : SyncOp) (x : Bell) (more : State → Prop) : Prop :=
      s.msgReady k [op] = some m → ∃ u, exec i s = .next u ∧ u.bell m.obj = x ∧ u.mem = s.mem ∧
        u.sync.msgs = s.sync.msgs.eraseIdx k ∧ u.sync.tallies = s.sync.tallies ∧ more u
    let answered (token : BitVec 32) (u : State) : Prop :=
      ∀ op id rd, m.lost = false → (s.thr th).pend = some (.sync op id rd none) →
        (u.thr th).pend = some (.sync op id rd (some (0, token.setWidth 64)))
    (p < b.count - b.rchild → p ∉ b.arr → (∀ e ∈ s.children m.obj, e.1 ≠ p) →
      let arrived : Bell := { b with arr := b.arr ++ [p] }
      (arrived.full = false → leaves (.bellArrive k) .arrive arrived (answered b.done)) ∧
      (arrived.full = true → b.held = false → b.snapHold = false → b.parent = none → b.q = [] → b.remote = [] →
        b.early = [] → b.absent.length < b.count → (∀ e ∈ s.children m.obj, (s.bell e.2).held = false) →
        (s.ctx b.ctx).img.bind (·.snap) = none →
        leaves (.bellArrive k) .arrive { b with arr := [], done := b.done + 1 } (answered b.done))) ∧
    (p < b.count - b.rchild → p ∈ b.arr → p ∉ b.early → (∀ e ∈ s.children m.obj, e.1 ≠ p) → b.full = false →
      leaves (.bellArrive k) .arrive { b with early := b.early ++ [p] } (answered (b.done + 1))) ∧
    ((s.thr th).st = .waitSync → s.thCtx th = some c → s.fetchable c ((s.thr th).pc + 4) = true →
      1 ≤ (b.done - m.arg).toNat → (b.done - m.arg).toNat < 2 ^ 31 →
      leaves (.bellWait k) .bellWait b fun u => (u.thr th).pc = (s.thr th).pc + 4 ∧ (u.thr th).wait = none ∧
        (u.thr th).csr.instret = (s.thr th).csr.instret + 1) ∧
    (m.arg = b.done ∨ m.arg = b.done + 1 →
      let wait : Waiter := { src := m.src, ctx := m.ctx, n := p, timeout := m.timeout, arg := m.arg }
      leaves (.bellWait k) .bellWait { b with q := b.q ++ [wait] } fun u => u.threads = s.threads)

/-- R262, R263, R269, R270: a wait that times out raises SYNC at its instruction; one that a pause withdraws consumes
nothing; signals, arrivals and releases from other modules are applied where their object admits them. -/
def Obligations.SyncTimeoutsAndRemote : Prop :=
  (∀ (s : State) (th : ThreadId) (bell : Bool) (id : Nat) (w : Waiter),
    (s.thr th).wait = some (bell, id) → s.handles th → w.src = .thread th →
    (if bell then (s.bell id).q else (s.tally id).q) = [w] →
    ∃ u, exec (.syncTimeout th) s = .next u ∧ u.mem = s.mem ∧ (u.thr th).pc = (s.thr th).csr.tvec ∧
      (u.thr th).csr.cause = 0x03010009 ∧ (u.thr th).csr.tval = BitVec.ofNat 64 id ∧ (u.thr th).wait = none ∧
      (if bell then u.bell id = { s.bell id with q := [] } else u.tally id = { s.tally id with q := [] })) ∧
  (∀ (s : State) (k : Nat) (m : SyncMsg) (th : ThreadId) (w : Waiter),
    s.msgReady k [.withdraw] = some m → m.gen = (s.ctx m.ctx).gen → m.src = .thread th → w.src = .thread th →
    (if m.bell then (s.bell m.obj).q else (s.tally m.obj).q) = [w] →
    let t := s.thr th
    (∃ c, s.thCtx th = some c ∧ (s.fetchCheck th c t.pc).stops = false) →
    t.st = .waitSync → t.pauseReq = true → t.stopReq = false → t.asyncQ = [] → t.pend = none → t.flying = false →
    ∃ u, exec (.syncWithdraw k) s = .next u ∧ u.mem = s.mem ∧ (u.thr th).st = .paused ∧ (u.thr th).pc = t.pc ∧
      (if m.bell then u.bell m.obj = { s.bell m.obj with q := [] }
        else u.tally m.obj = { s.tally m.obj with q := [] })) ∧
  (∀ (s : State) (k : Nat) (p : Packet) (id : Nat) (n : BitVec 32) (th : ThreadId),
    s.inboxAt k [0x01] = some p → p.body = .signal id n th →
    let t := s.tally id
    (t.assigned = true → t.remote = true → t.latch = false → t.q = [] → ∃ u, exec (.remoteSignal k) s = .next u ∧
      u.tally id = { t with value := BitVec.ofNat 32 (min (t.value.toNat + n.toNat) (2 ^ 32 - 1))
                            sat := t.sat || decide (2 ^ 32 ≤ t.value.toNat + n.toNat) } ∧
      u.fab.inbox = s.fab.inbox.eraseIdx k) ∧
    ((t.assigned && t.remote) = false → ∃ u, exec (.remoteSignal k) s = .next u ∧ u.sync.tallies = s.sync.tallies)) ∧
  (∀ (s : State) (k : Nat) (p : Packet) (child b slot : Nat),
    s.inboxAt k [0x02] = some p → p.body = .bellArrival child b slot →
    let x := s.bell b
    let x' : Bell := { x with arr := x.arr ++ [slot]
                              remote := x.remote.filter (fun e => e.1 != slot) ++ [(slot, p.hdr.src, child)] }
    x.assigned = true → x.count - x.rchild ≤ slot → slot < x.count → slot ∉ x.arr → x'.full = false →
    ∃ u, exec (.remoteBellArrival k) s = .next u ∧ u.bell b = x' ∧ u.fab.inbox = s.fab.inbox.eraseIdx k) ∧
  (∀ (s : State) (k : Nat) (p : Packet) (b pb slot : Nat),
    s.inboxAt k [0x03] = some p → p.body = .bellRelease b →
    let x := s.bell b
    x.held = true → x.snapHold = false → x.parent = some (pb, slot, p.hdr.src) → x.q = [] → x.early = [] →
    x.remote = [] → x.absent.length ≠ x.count → (∀ e ∈ s.children b, e.2 ≠ b → (s.bell e.2).held = false) →
    (s.ctx x.ctx).img.bind (·.snap) = none →
    ∃ u, exec (.remoteBellRelease k) s = .next u ∧ u.bell b = { x with held := false, arr := [], done := x.done + 1 } ∧
      u.fab.inbox = s.fab.inbox.eraseIdx k)

/-! ### Stream engines -/

/-- R229, R231, R232, R241 to R244: commands, descriptors, waits and timeouts of a channel. The phase that a fault names,
and START and RETRY of a channel whose context pauses, are the model's choices (logs 33 and 147). -/
def Obligations.StreamChannelControl : Prop :=
  ∀ (s : State) (q : QuadId) (ch : BitVec 3) (w : Writer) (c : CtxId) (r : RegionEntry),
    let x := s.chan q.toNat ch.toNat
    let leaves (i : Instr) (p : Chan → Prop) : Prop :=
      ∃ u, exec i s = .next u ∧ p (u.chan q.toNat ch.toNat) ∧ u.mem = s.mem
    let reads (idx : Nat) : SRead := { loc := (x.base + BitVec.ofNat 64 (64 * idx)).toNat
                                       va := x.base + BitVec.ofNat 64 (64 * idx), len := 64, desc := some idx }
    let faults (y : Chan) (code phase : Nat) : Prop :=
      y.st = .faulted ∧ y.fault = BitVec.ofNat 64 (code + phase * 2 ^ 16 + 2 ^ 63) ∧ y.inData = false
    (s.strmWriter q w = true →
      (s.quadCtx q.toNat = some c → x.st = .idle → x.notify.getLsbD 31 = false →
        0x200000000 ≤ x.base.toNat → x.base.toNat < 0x300000000 →
        (s.ctx c).mem.region 0 ((x.base.toNat - 0x200000000) / 0x20000000) (x.base.toNat % 0x20000000 / 0x100000) = some r →
        r.r = true →
        let full := decide (512 ≤ (s.engine q.toNat).outstanding)
        let y' : Chan := { x.orphan with ctx := c, gen := (s.ctx c).gen, index := 0, rep := 0, pass := 0, waited := false
                                         desc := none, pre := none }
        (s.strmPausing c = false → leaves (.strmStart q ch w) fun y =>
          y = { y' with st := .running, pauseReq := false, want := some 0, dq := if full then some 0 else none
                        reads := x.orphan.reads ++ if full then [] else [reads 0] }) ∧
        (s.strmPausing c = true → leaves (.strmStart q ch w) fun y =>
          y = { y' with st := .paused, pauseReq := true, resume := some (.descriptor 0) })) ∧
      (x.st ≠ .idle → leaves (.strmStart q ch w) fun y => y = x) ∧
      (∀ d, x.st = .faulted → x.badDesc = false → x.waited = true → x.desc = some d → d.moves = false →
        (s.strmPausing x.ctx = false → leaves (.strmRetry q ch w) fun y =>
          y = { x with st := .running, pauseReq := false, inData := true, row := 0, off := 0, cut := none, bound := none
                       buf := [], xloc := [], wrote := false, resume := none }) ∧
        (s.strmPausing x.ctx = true → leaves (.strmRetry q ch w) fun y =>
          y = { x with st := .paused, pauseReq := true, inData := false, want := none, again := false
                       resume := some .data })) ∧
      (x.st ≠ .faulted → leaves (.strmRetry q ch w) fun y => y = x) ∧
      (x.st = .running ∨ x.st = .faulted ∨ x.st = .paused → leaves (.strmAbort q ch w) fun y =>
        (x.reads ≠ [] ∨ x.writes ≠ [] ∨ s.strmMsgs q.toNat ch.toNat = true →
          y = { x.orphan with st := .draining, pauseReq := false }) ∧
        (x.reads = [] → x.writes = [] → s.strmMsgs q.toNat ch.toNat = false → s.strmQueued q.toNat ch.toNat = false →
          y = { x.orphan with st := .idle, pauseReq := false, waited := false, desc := none, pre := none }))) ∧
    (∀ rd idx, x.st = .running → x.reads = [rd] → rd.desc = some idx → rd.live = true → x.want = some idx →
      (leaves (.strmDescTimeout q ch) fun y => faults y 0x0440 0 ∧ y.faddr = x.base + BitVec.ofNat 64 (64 * idx) ∧
        y.reads.all (fun r => !r.live) = true) ∧
      (s.poisonIn rd.loc 64 = false →
        let bs := memBytes s.mem rd.loc 64
        let d := descOf bs
        (descBad bs idx = true → leaves (.strmDescReply q ch) fun y => faults y 0x0440 0) ∧
        (descBad bs idx = false → descMisaligned d = true → leaves (.strmDescReply q ch) fun y => faults y 0x0441 0) ∧
        (descBad bs idx = false → descMisaligned d = false →
          (d.waits = false → d.moves = false → leaves (.strmDescReply q ch) fun y =>
            y.st = .running ∧ y.inData = true ∧ y.desc = some d ∧ y.row = 0 ∧ y.off = 0) ∧
          (d.waits = true → x.waited = false → s.strmTallyOk x.ctx d.waitTally = true →
            ∃ u, exec (.strmDescReply q ch) s = .next u ∧ (u.chan q.toNat ch.toNat).st = .waiting ∧
              (u.chan q.toNat ch.toNat).desc = some d ∧ u.mem = s.mem ∧
              u.sync.msgs = s.sync.msgs ++ [{ op := .wait, obj := d.waitTally, src := .chan q ch, ctx := x.ctx, gen := x.gen
                                              arg := d.waitArg, timeout := BitVec.ofNat 32 d.timeout }])))) ∧
    (x.st = .running → x.inData = true → x.cut = none → leaves (.strmTimeout q ch) fun y =>
      faults y 0x0448 (if x.allIssued && !x.dataReads then 3 else 2) ∧ y.reads.length = x.reads.length ∧
        y.reads.all (fun r => !r.live) = true ∧ y.writes.all (fun r => !r.live) = true) ∧
    (∀ d, x.st = .waiting → x.desc = some d → (∀ m ∈ s.sync.msgs, m.src = .chan q ch → m.op ≠ .withdraw) →
      exec (.strmWaitTimeout q ch) s = .next { s.modChan q.toNat ch.toNat fun y => { y with expired := true } with
        sync := { s.sync with msgs := s.sync.msgs ++ [{ op := .withdraw, obj := d.waitTally, src := .chan q ch, ctx := x.ctx
                                                        gen := x.gen }] } })

/-- R217, R234, R236, R238, R239: the data of a channel. It issues its next run in the order of the operation, a reply's
bytes are written to the destination, an acknowledged write has taken effect and changes no other byte, END signals its
tally and leaves the channel IDLE. That END counts as one repetition completed is the model's choice (log 138). -/
def Obligations.StreamChannelData : Prop :=
  ∀ (s : State) (q : QuadId) (ch : BitVec 3) (d : Desc),
    let x := s.chan q.toNat ch.toNat
    let plain (a : Word) : Prop := (∀ o, s.window x.ctx a ≠ some (.granary o))
    let sa := BitVec.ofInt 64 (d.src.toInt + d.srs * x.rep + d.ss * x.row + x.off)
    let da := BitVec.ofInt 64 (d.dst.toInt + d.drs * x.rep + d.ds * x.row + x.off)
    x.st = .running → x.inData = true → x.desc = some d → x.cut = none →
    (s.ctxServes x.ctx = true → (s.engine q.toNat).outstanding < 512 → x.row < d.rows → x.off < d.cols → plain da →
      (let n := min (64 - sa.toNat % 64) (d.cols - x.off)
       (d.op = 1 ∨ d.op = 2) → plain sa → n ≤ 64 - da.toNat % 64 →
        exec (.strmIssue q ch) s = .next (s.modChan q.toNat ch.toNat fun y => { y with
          reads := y.reads ++ [{ loc := sa.toNat, va := sa, len := n, row := x.row, off := x.off, dests := [(da, da.toNat, n)] }]
          row := if x.off + n ≥ d.cols then x.row + 1 else x.row
          off := if x.off + n ≥ d.cols then 0 else x.off + n })) ∧
      (let n := min (64 - da.toNat % 64) (d.cols - x.off)
       d.op = 4 → exec (.strmIssue q ch) s = .next (s.modChan q.toNat ch.toNat fun y => { y with
          writes := y.writes ++ lineWrites da da.toNat
            ((List.range n).map fun i => BitVec.ofNat 8 (d.src.toNat / 256 ^ ((x.off + i) % 8))) false
          row := if x.off + n ≥ d.cols then x.row + 1 else x.row
          off := if x.off + n ≥ d.cols then 0 else x.off + n }))) ∧
    (∀ r dva dl, x.reads = [r] → r.desc = none → r.live = true → r.dests = [(dva, dl, r.len)] → 0 < r.len →
      d.op = 1 ∨ d.op = 2 → isBench r.loc = false → s.poisonIn r.loc r.len = false →
      x.dq = none → ∃ u, exec (.strmReadReply q ch 0) s = .next u ∧ u.mem = s.mem ∧
        let y := u.chan q.toNat ch.toNat
        y = { x with reads := [], writes := y.writes, wq := y.wq } ∧
        y.writes ++ y.wq = x.writes ++ x.wq ++ lineWrites dva dl (memBytes s.mem r.loc r.len) false) ∧
    (∀ (k : Nat) (w : SWrite), x.dq = none → x.writes[k]? = some w → w.live = true → w.half = none →
      (∀ v ∈ x.writes.take k, ∀ a ∈ w.cells, ∀ b ∈ v.cells, a.1 / 64 ≠ b.1 / 64) → s.subPoison w.cells = false →
      x.row < d.rows → 1 ≤ d.op → d.op ≤ 4 →
      ∃ u, exec (.strmWriteAck q ch k) s = .next u ∧
        (let y := u.chan q.toNat ch.toNat
         y = { x with writes := y.writes, wq := y.wq } ∧ y.writes ++ y.wq = x.writes.eraseIdx k ++ x.wq) ∧
        (u.engine q.toNat).cntBytes = (s.engine q.toNat).cntBytes + w.cells.length ∧
        (∀ a, (∀ c ∈ w.cells, c.1 ≠ a) → memGet u.mem a = memGet s.mem a) ∧
        ((w.cells.map Prod.fst).Nodup → Memory.wf s.mem = true → ∀ c ∈ w.cells, memGet u.mem c.1 = c.2)) ∧
    (s.ctxServes x.ctx = true → d.op = 15 → d.rep ≤ x.pass → x.reads = [] → x.writes = [] → x.wq = [] → x.notify.getLsbD 29 = false →
      d.signals = false ∨ s.strmTallyOk x.ctx d.sigTally = true →
      ∃ u, exec (.strmIssue q ch) s = .next u ∧ (u.chan q.toNat ch.toNat).st = .idle ∧ u.mem = s.mem ∧
        (u.engine q.toNat).cntDesc = (s.engine q.toNat).cntDesc + 1 ∧
        u.sync.msgs = s.sync.msgs ++ if d.signals then
          [{ op := .signal, obj := d.sigTally, src := .chan q ch, ctx := x.ctx, gen := x.gen, arg := 1 }] else [])

/-! ### Gradient reduction -/

/-- R286, R289 to R292: the way of a frame at a member's own position. The member adds its contribution, or its row's total,
word by word within 32 bits, keeps a total that is final, and sends the frame on to the next position. The layout of TAG and
the chunk number of a column circuit are the model's choices (DEDUCED, log 40). -/
def Obligations.ReductionFrameHops : Prop :=
  ∀ (s : State) (k : Nat) (p : Packet) (h : FrameHdr) (ws : List Int) (roll : List (BitVec 2)) (e j : Nat) (b : Bucket)
    (r : RingSt),
    s.inboxAt k [0x10, 0x11] = some p → p.body = .frame h ws roll → s.ctxServes p.hdr.dctx = true →
    s.ring p.hdr.dctx h.ring.toNat = some r → s.findBucket p.hdr.dctx h.ring.toNat h.bucket h.step = some (e, j) →
    s.bucket e j = some b → b.ctx = p.hdr.dctx → b.ring = h.ring.toNat → b.frozen = false → b.ended = false →
    b.waiting = [] → b.totals = [] → h.pass = b.pass → h.srcfail = false → 2 ≤ r.ncol →
    let own := r.pos s.fab.module
    p.hdr.tag.toNat % 1024 = own → r.host own = own →
    let b : Bucket := { b with phase := h.phase.toNat }
    let nc := r.ncol
    let nr := r.nrow
    let x := own % nc
    let y := own / nc
    let sends (i : Instr) (b' : Bucket) (next : Nat) (f : Frame) : Prop :=
      r.host next ≠ own → exec i s = .next (((s.dropInbox k).setBucket e j b').sendFrame e b' r next f)
    let kept (f : Frame) : Bucket := { b with totals := [f], roll := if f.roll = [] then b.roll else f.roll }
    let lim : Int := 2 ^ 31 - 1
    let clip (v : Int) : Int := clampTo (-lim) lim v
    let adds (w q : Int) : Int := clip (w + clip q)
    let clips (w q : Int) : Bool := decide (clip q ≠ q) || decide (adds w q ≠ w + clip q)
    (h.phase = 2 → h.chunk ≠ 1 → r.cfg.twoD = false → b.ready (s.myShadow r) = false → x ≠ (2 * nc - 2) % nc →
      sends (.preroundSpread k) { b with e := some h.maxexp, roll := roll } (r.rowNext own) ⟨h, ws, roll⟩) ∧
    (∀ g ce, b.reg = some g → b.outcome = some 0 → b.srcfail = false → s.myShadow r = false → s.contribExp b = some ce →
      let entered : List (BitVec 2) := roll.set (s.myShard r) 0
      (h.phase = 1 → h.chunk ≠ 1 → r.cfg.twoD = false → b.pre = true → b.e = none → b.origin = true → x ≠ nc - 1 →
        sends (.preroundGather k) b (r.rowNext own)
          ⟨{ h with maxexp := max (b.keepE.getD (-126)) (max h.maxexp ce) }, ws, entered⟩) ∧
      (b.e.isSome = true → b.begun = true →
        (∀ vs, h.phase = 3 → s.contrib b ((r.chunkRange g.elems h.chunk).1 + h.offset) ws.length = some vs →
          let q := quantise h.h h.e
          let f : Frame := ⟨{ h with breach := h.breach || (ws.zip vs).any fun z => clips z.1 (q z.2)
                                     nonfinite := h.nonfinite || vs.any fun v => !isFin v
                                     maxexp := max h.maxexp ce },
            (ws.zip vs).map fun z => adds z.1 (q z.2), if roll = [] then [] else entered⟩
          (modDiff x h.chunk nc ≠ nc - 1 → sends (.reduceScatterFrame k) b (r.rowNext own) f) ∧
          (modDiff x h.chunk nc = nc - 1 → r.cfg.twoD = false →
            sends (.reduceScatterFrame k) (kept f) (r.rowNext own) { f with hdr := { f.hdr with phase := 4 } })) ∧
        (h.phase = 4 → modDiff x h.chunk nc ≠ (2 * nc - 2) % nc →
          sends (.allGatherFrame k) (kept ⟨h, ws, roll⟩) (r.rowNext own) ⟨h, ws, roll⟩) ∧
        (let xc := h.chunk / nr
         let rt := b.rowTotal own
         let lo := (r.partRange g.elems xc (h.chunk % nr)).1 + h.offset - (r.chunkRange g.elems xc).1
         let total (n : Nat) : Int := wordAt rt (lo + n)
         let hm := mergeHdr h rt
         h.phase = 5 → covers rt ((r.chunkRange g.elems xc).2 - (r.chunkRange g.elems xc).1) = true →
          modDiff y (h.chunk % nr) nr ≠ nr - 1 →
          sends (.columnReduceScatter k) b (r.colNext own)
            ⟨{ hm with breach := hm.breach || ws.zipIdx.any fun z => clips z.1 (total z.2) },
              ws.zipIdx.map fun z => adds z.1 (total z.2), if roll = [] then [] else mergeRoll roll (rollOf rt)⟩) ∧
        (let b' : Bucket := { b with rows := b.rows ++ [(own, ⟨h, ws, roll⟩)] }
         let xc := (x + 1) % nc
         h.phase = 6 → modDiff y (h.chunk % nr) nr ≠ (2 * nr - 2) % nr →
          (∃ n < nr, covers (b'.partTotal own (xc * nr + n))
            ((r.partRange g.elems xc n).2 - (r.partRange g.elems xc n).1) = false) →
          sends (.columnAllGather k) b' (r.colNext own) ⟨h, ws, roll⟩)))

/-- Bucket b of ring r waits for its pre-round: nothing of it can go on. -/
def awaitsExponent (s : State) (r : RingSt) (b : Bucket) : Prop :=
  s.ring b.ctx b.ring = some r ∧ b.pre = true ∧ b.e = none ∧ b.origin = true ∧ b.waiting = [] ∧ b.totals = [] ∧
    b.frozen = false ∧ b.ended = false ∧ r.cfg.twoD = false ∧ r.members ≠ []

/-- R280 to R282, R296 to R301, R304: a registration is read and accepted, or refused with its STATUS; announces, deadlines,
shadows and timeouts of a bucket. The layout of TAG, and that a refusal writes INFO as 0, are the model's choices (logs 40
and 170). -/
def Obligations.ReductionBuckets : Prop :=
  (∀ (s : State) (c : CtxId) (sec : RedSection), (s.ctx c).img.bind (·.red) = some sec → s.ctxServes c = true →
    let q := (s.ctx c).red
    let loc := sec.queue.base.toNat + q.k % sec.queue.slots * 64
    let x := regBytes (memBytes s.mem loc 64)
    0 < q.ready → s.poisonIn loc 64 = false →
    (∀ r e k b, s.regCheck c x = none → s.ring c x.ring = some r → s.findBucket c x.ring x.id x.step = some (e, k) →
      s.bucket e k = some b → b.ctx = c → b.ring = x.ring → b.late = false → awaitsExponent s r b → s.myShadow r = false →
      r.pos s.fab.module % r.ncol = 0 → r.host (r.pos s.fab.module) = r.pos s.fab.module → Memory.wf s.mem = true →
      let size := x.elems * (if x.fmt = 1 then 2 else 4)
      let pending := match s.histOf c x.ring x.id with
        | some h => if h.pendingDefer then 1 + h.later.length else 0
        | none => 0
      s.firstPoison x.src size = none →
      ∃ u, exec (.registrationRead c) s = .next u ∧ (u.ctx c).red.k = (q.k + 1) % 2 ^ 32 ∧
        (u.ctx c).red.ready = q.ready - 1 ∧
        u.sync.msgs = s.sync.msgs ++ [{ op := .wait, obj := sec.queue.tally, src := .hub c .reg, ctx := c
                                        gen := (s.ctx c).gen, arg := 1 }] ∧
        u.bucket e k = some { b with
          reg := some { k := q.k, id := x.id, ring := x.ring, step := x.step, src := x.src, elems := x.elems
                        bf16 := x.fmt == 1, tensor := x.tensor, doneTally := x.done, res := x.res, scale := x.scale
                        defer := x.defer }
          timing := false, outcome := some 0
          usesDefer := !r.cfg.drop && decide ((s.deferUsers b).length < pending) } ∧
        ∀ l, s.digLoc c x.ring x.id x.step = some l →
          (∀ a, a < l ∨ l + 384 ≤ a → memGet u.mem a = memGet s.mem a) ∧
          ∃ d, u.digEntry c x.ring x.id x.step = some d ∧
            d.sent = sentDigest x.id x.step (x.fmt == 1) x.elems (memBytes s.mem x.src size)) ∧
    (∀ code, s.regCheck c x = some code → Memory.wf s.mem = true → (s.tally x.done).q = [] →
      ∃ u, exec (.registrationRead c) s = .next u ∧ (u.ctx c).red.k = (q.k + 1) % 2 ^ 32 ∧ u.red = s.red ∧
        (∀ a, memGet u.mem a = if loc + 56 ≤ a ∧ a < loc + 64
          then BitVec.ofNat 8 ((code.toNat + 2 ^ 31) / 256 ^ (a - (loc + 56))) else memGet s.mem a))) ∧
  (∀ (s : State) (k : Nat) (p : Packet) (h : FrameHdr) (ws : List Int) (roll : List (BitVec 2)) (e j : Nat) (b : Bucket)
    (r : RingSt),
    s.inboxAt k [0x10, 0x11] = some p → p.body = .frame h ws roll → h.phase = 7 →
    s.ring p.hdr.dctx h.ring.toNat = some r → s.findBucket p.hdr.dctx h.ring.toNat h.bucket h.step = some (e, j) →
    s.bucket e j = some b → b.reg = none → b.outcome = none → b.origin = false → s.myShadow r = false →
    exec (.announce k) s = .next ((s.dropInbox k).setBucket e j { b with timing := true })) ∧
  (∀ (s : State) (e : BitVec 3) (slot : Nat) (b : Bucket) (r : RingSt),
    s.bucket e.toNat slot = some b → s.ring b.ctx b.ring = some r → b.outcome = none → b.frozen = false →
    let policy : BitVec 2 := if r.cfg.drop then 3 else 2
    let leaves (i : Instr) (b' : Bucket) : Prop :=
      ∃ u, exec i s = .next u ∧ u.bucket e.toNat slot = some b' ∧ u.mem = s.mem
    (b.timing = true → b.reg = none → b.asked = false → s.myShadow r = false →
      (∀ m, r.shadowOf (s.myShard r) = some m →
        let t := ((s.redRecord e.toNat b 0x0608 1 b.phaseNow).modRedEng e.toNat fun x =>
          { x with cntLate := min (x.cntLate + 1) (2 ^ 16 - 1) }).setBucket e.toNat slot
            { b with timing := false, late := true, asked := true }
        exec (.redDeadline e slot) s = .next (t.sendPkt (t.mkPkt m b.ctx b.ctx b.id (0x0600 + e.setWidth 16)
          (redTag b.ring 0 b.id b.step) (.shadowRequest (BitVec.ofNat 3 b.ring) b.id b.step)))) ∧
      (r.shadowOf (s.myShard r) = none → awaitsExponent s r b →
        leaves (.redDeadline e slot) { b with timing := false, late := true, outcome := some policy })) ∧
    (b.asked = true → b.reg = none → awaitsExponent s r b →
      leaves (.shadowAnswerTimeout e slot) { b with asked := false, outcome := some policy } ∧
      ∀ k p copy, s.inboxAt k [0x13] = some p → p.hdr.dctx = b.ctx →
        p.body = .shadowCopy (BitVec.ofNat 3 b.ring) b.id b.step (some copy) false → b.ring < 8 →
        s.findBucket b.ctx b.ring b.id b.step = some (e.toNat, slot) →
        leaves (.shadowCopy k) { b with asked := false, outcome := some 1, copy := some copy })) ∧
  (∀ (s : State) (k : Nat) (p : Packet) (ring : BitVec 3) (id : BitVec 16) (step : BitVec 32) (e j : Nat) (b : Bucket)
    (g : RegRec),
    s.inboxAt k [0x12] = some p → p.body = .shadowRequest ring id step →
    s.findBucket p.hdr.dctx ring.toNat id step = some (e, j) → s.bucket e j = some b → b.reg = some g →
    let n := g.elems * (if g.bf16 then 2 else 4)
    let bs := memBytes s.mem g.src n
    s.poisonIn g.src n = false →
    exec (.shadowRequest k) s = .next ((s.dropInbox k).sendPkt ((s.dropInbox k).mkPkt p.hdr.src p.hdr.dctx p.hdr.sctx id
      p.hdr.unit (redTag ring.toNat 0 id step) (.shadowCopy ring id step (some (bs, g.bf16,
        localExp (decodeElems (s.strictOf p.hdr.dctx) g.bf16 bs g.elems), sentDigest id step g.bf16 g.elems bs)) false)))) ∧
  (∀ (s : State) (e : BitVec 3) (slot : Nat) (b : Bucket) (g : RegRec), s.bucket e.toNat slot = some b → b.reg = some g →
    (s.ctx b.ctx).st = .running → (s.tally g.doneTally).q = [] →
    ∃ u, exec (.redTimeout e slot) s = .next u ∧ u.bucket e.toNat slot = none ∧ (u.ctx b.ctx).st = .faulted ∧
      (u.redEng e.toNat).errTimeout = min ((s.redEng e.toNat).errTimeout + 1) (2 ^ 16 - 1))

/-! ### Optical fabric -/

/-- R322 to R327, Tables 11.2 and 11.3: the link layer of a port. Flits are taken in order or refused with a NAK,
acknowledged ones leave the replay buffer, a replay starts from the flit named, the sixteenth takes the port DOWN; training,
its limit and its failures. Sequence numbers that start at 0, idle flits without one, the counts that a flit brings, and
when a NAK is sent are the model's choices (logs 8, 63, 98 and 135). -/
def Obligations.LinkLayer : Prop :=
  ∀ (s : State) (p : Fin 17),
    let x := s.port p.val
    let leaves (i : Instr) (f : Port → Port) : Prop := exec i s = .next (s.modPort p.val f)
    let down (i : Instr) (cause : BitVec 4) : Prop :=
      ∃ u, exec i s = .next u ∧ (u.port p.val).st = .down ∧ (u.port p.val).cause = cause ∧ u.mem = s.mem
    let replays (i : Instr) (seq : BitVec 12) : Prop :=
      let n := if x.replayFrom = seq then x.replays + 1 else 1
      (n < 16 → exec i s = .next ((s.modPort p.val fun y => { y with
        replayFrom := seq, replays := n, replayEnd := y.replay.getLast?.map (·.seq)
        cntReplay := (y.cntReplay + 1) % 2 ^ 32 }).send (.replay p.val seq))) ∧
      (16 ≤ n → p.val ≠ 16 → x.queue = [] → (∀ f ∈ x.replay, f.pkt = none) → down i 2)
    (x.st = .up → p.val ≠ 16 →
      (∀ f : Flit, f.ok = true → f.idle = false → f.seq = x.expected → x.queue = [] →
        exec (.flitReceive p f) s = .next ((s.modPort p.val fun y => { y.countFec f with
          flitsRx := (y.flitsRx + 1) % 2 ^ 32, expected := x.expected + 1, discard := false, rxHeld := y.rxHeld + 1
          used := f.credits.foldl (fun u c => smod 0 (chanKey c.1.toNat c.2.1) (· - c.2.2) u) y.used }).send
            (.ack p.val f.seq))) ∧
      (∀ f : Flit, f.fecOk = false ∨ f.crcOk = false ∨ (f.idle = false ∧ f.seq ≠ x.expected) → x.discard = false →
        ∃ u, exec (.flitReceive p f) s = .next u ∧ u.out = s.out ++ [.nak p.val x.expected] ∧
          (u.port p.val).discard = true ∧ (u.port p.val).expected = x.expected ∧ (u.port p.val).rxHeld = x.rxHeld ∧
          (u.port p.val).cntNak = (x.cntNak + 1) % 2 ^ 32 ∧ u.mem = s.mem ∧
          (u.port p.val).cntCrc = if f.fecOk = true ∧ f.crcOk = false then (x.cntCrc + 1) % 2 ^ 32 else x.cntCrc) ∧
      (x.queue = [] → x.replay = [] → ∃ u, exec (.portSilence p) s = .next u ∧ (u.port p.val).st = .down ∧
        (u.port p.val).cause = 3 ∧ u.mem = s.mem ∧
        ∀ r ∈ s.fab.routes, (∃ c ∈ r.cands, c.toNat = p.val) → r.dest ∈ u.fab.holds)) ∧
    (x.st = .up →
      (∀ seq i, x.replay.findIdx? (fun f => f.seq == seq) = some i → x.queue = [] →
        leaves (.flitAck p seq) fun y => { y with replay := x.replay.drop (i + 1), replays := 0 }) ∧
      (∀ seq, (∃ f ∈ x.replay, f.seq = seq) → replays (.nak p seq) seq) ∧
      (∀ f rest, x.replay = f :: rest → replays (.fabAcktoExpiry p) f.seq)) ∧
    (x.st = .training →
      (∀ t : Training, p.val ≠ 16 →
        let tx := t.txGood &&& x.allowed &&& BitVec.ofNat 8 (drivable (s.laserInputs p.val))
        (t.peer = x.peer → t.peerPort = x.peerPort → t.fabricId = s.fab.fabricId → 4 ≤ laneCount tx.toNat →
          4 ≤ laneCount t.rxGood.toNat → ∃ u, exec (.trainingDone p t) s = .next u ∧
            let y := u.port p.val
            y.st = .up ∧ y.txGood = tx ∧ y.rxGood = t.rxGood ∧ y.txWidth = widthOf (laneCount tx.toNat) ∧
              y.rxWidth = widthOf (laneCount t.rxGood.toNat) ∧ y.nextSeq = 0 ∧ y.expected = 0 ∧ y.replay = []) ∧
        (t.peer ≠ x.peer ∨ t.peerPort ≠ x.peerPort ∨ t.fabricId ≠ s.fab.fabricId → down (.trainingDone p t) 5)) ∧
      (∀ t : Training, p.val = 16 → t.txGood = 0xFF → t.rxGood = 0xFF → x.allowed = 0xFF → 2 ≤ s.laserInputs 16 →
        ∃ u, exec (.trainingDone p t) s = .next u ∧ (u.port 16).st = .up ∧ (u.port 16).txWidth = 8) ∧
      down (.trainLimitExpiry p) 6) ∧
    (x.st = .down → leaves (.fabRetrainExpiry p) fun y => { y with st := .training }) ∧
    (∀ m cfg, p.val ≠ 16 → s.boot.mod = some m → m.fabric.ports[p.val]? = some cfg → cfg.enable = true → x.enable = false →
      portBad s.fab.module cfg = false → 0 < s.laserInputs p.val →
      leaves (.fabPortEnable p) fun y => { y with enable := true, st := .training })

/-- R315, R316, R329 to R331: lanes and laser source modules. A lane that loses lock, or that the Reeve drops, leaves the
receive map and the neighbour is told; a restored one rejoins; the transmit lanes are those allowed, fed, and received well
by the neighbour. That a lost spare lane sends no NAK is DEDUCED (log 135). -/
def Obligations.LanesAndLasers : Prop :=
  (∀ (s : State) (p : Fin 17) (lane : BitVec 3), (s.port p.val).st = .up → p.val ≠ 16 →
    let x := s.port p.val
    let bit : Byte := BitVec.ofNat 8 (2 ^ lane.toNat)
    let active (lanes : Byte) : Bool := (List.range 8).any fun i =>
      (x.rxGood &&& lanes).getLsbD i && decide (laneCount (x.rxGood.toNat % 2 ^ i) < x.rxWidth)
    let moves (i : Instr) (new : Byte) (naks : Bool) : Prop :=
      4 ≤ laneCount new.toNat → ∃ u, exec i s = .next u ∧ (u.port p.val).st = .up ∧ (u.port p.val).rxGood = new ∧
        (u.port p.val).rxWidth = widthOf (laneCount new.toNat) ∧ (u.port p.val).txGood = x.txGood ∧ u.mem = s.mem ∧
        u.out = s.out ++ Out.lanemap p.val new :: if naks then [Out.nak p.val x.expected] else []
    (∀ lanes : Byte, x.rxGood &&& lanes ≠ 0 → moves (.laneLockLoss p lanes) (x.rxGood &&& ~~~lanes) (active lanes)) ∧
    (x.rxGood.getLsbD lane.toNat = true → moves (.reeveLaneDrop p lane) (x.rxGood &&& ~~~bit) (active bit)) ∧
    (x.rxGood.getLsbD lane.toNat = false → moves (.laneRestore p lane true) (x.rxGood ||| bit) false)) ∧
  (∀ (s : State) (p : PortId) (map : Byte) (q : Fin 17), q.val = p.toNat → (s.port p.toNat).st = .up →
    let x := s.port p.toNat
    let fed : Byte := BitVec.ofNat 8 (drivable (s.laserInputs p.toNat))
    let fits (i : Instr) (x' : Port) (new : Byte) : Prop :=
      4 ≤ laneCount new.toNat → x.replays = 0 → ∃ u, exec i s = .next u ∧ u.mem = s.mem ∧ u.port p.toNat = { x' with
        txGood := new, txWidth := if x.txGood = new then x.txWidth else widthOf (laneCount new.toNat) }
    fits (.lanemap q map) { x with peerMap := map } (map &&& x.allowed &&& fed) ∧
    fits (.fabLanesAllowed p map) { x with allowed := map } (x.peerMap &&& map &&& fed)) ∧
  (∀ (s : State) (m : BitVec 2) (v : Word), (∀ p < 17, (s.port p).st ≠ .up) → s.boot.phase ≠ .resetEntry →
    let l := s.laser m.toNat
    let loses (i : Instr) (l' : Laser) : Prop := l.healthy = true → l'.healthy = false → ∃ u, exec i s = .next u ∧
      u.laser m.toNat = { l' with seen := true, losses := min (l.losses + 1) (2 ^ 16 - 1) } ∧ u.mem = s.mem
    loses (.laserLoss m .absent) { l with present := false } ∧ loses (.laserLoss m .disabled) { l with enabled := false } ∧
    loses (.laserLoss m .fault) { l with fault := true } ∧ loses (.laserLoss m .lowPower) { l with lowPower := true } ∧
    loses (.fabLaserCtl m v) { l with enabled := v.getLsbD 0 } ∧
    (∃ u, exec (.laserRestore m) s = .next u ∧ u.mem = s.mem ∧ u.laser m.toNat =
      { l with seen := true, present := true, fault := false, lowPower := false
               insertions := if l.present then l.insertions else min (l.insertions + 1) (2 ^ 16 - 1) }))

/-- R319, R332 to R340: packets. One for this module with a current generation is delivered, one for another goes on with
one more hop; expiries, holds and generation notices drop what they say. That credits go back as PACKET_RECEIVE takes a
packet is DEDUCED (log 135). -/
def Obligations.PacketsAndRoutes : Prop :=
  (∀ (s : State) (p : PortId) (pkt : Packet), (s.port p.toNat).st = .up → pkt.hdr.vc.toNat < 6 →
    pkt.hdr.src ∈ s.fab.routes.map (·.dest) → (s.port p.toNat).holds pkt = true →
    let h := pkt.hdr
    let key := h.src.toNat * 16 + h.sctx.toNat
    let here := h.dest = s.fab.module ∨ h.dest = 0xFFFF
    let stale : Prop := ∃ g, s.fab.kept.find? (fun e => e.1 == key) = some (key, g) ∧
      1 ≤ (g - h.sgen).toNat ∧ (g - h.sgen).toNat ≤ 127
    let back : Out := .credits p.toNat h.vc h.cls (pktFlits pkt)
    (here → pkt.crcOk = true → ¬ stale → ∃ u, exec (.packetReceive p pkt) s = .next u ∧ u.out = s.out ++ [back] ∧
      (pkt.parts ≤ 1 → u.fab.inbox = s.fab.inbox ++ [pkt]) ∧
      (1 < pkt.parts → pkt.part + 1 ≠ pkt.parts → u.fab.inbox = s.fab.inbox) ∧ sget 0 u.fab.kept key = h.sgen ∧ u.mem = s.mem) ∧
    (here → pkt.crcOk = false → ∃ u, exec (.packetReceive p pkt) s = .next u ∧ u.fab.inbox = s.fab.inbox ∧
      u.fab.kept = s.fab.kept ∧ s.fab.drop < u.fab.drop ∧ u.mem = s.mem) ∧
    (stale → here ∧ pkt.crcOk = true ∨ ¬ here →
      exec (.packetReceive p pkt) s =
        .next ((s.creditBack p.toNat pkt).modFab fun b => { b with stale := b.stale + 1 })) ∧
    (∀ out, ¬ here → ¬ stale → h.hops.toNat + 1 ≤ s.fab.hopsMax.toNat → h.dest ∉ s.fab.holds →
      s.choosePort { h with hops := h.hops + 1 } = some out →
      exec (.packetReceive p pkt) s =
        .next ((((s.creditBack p.toNat pkt).keepGen h.src h.sctx h.sgen).enqueue out
          (pkt.withHdr { h with hops := h.hops + 1 })).modFab fun b => { b with transit := b.transit + 1 }))) ∧
  (∀ (s : State) (p : PortId) (k : Nat) (q : Packet), (s.port p.toNat).queue[k]? = some q →
    ∃ u, exec (.packetExpiry p k) s = .next u ∧ s.fab.drop < u.fab.drop ∧ u.mem = s.mem ∧
      (q.hdr.typ = 0x40 → (u.port p.toNat).queue = (s.port p.toNat).queue.eraseIdx k)) ∧
  (∀ (s : State) (dest : ModuleNo), dest ∈ s.fab.holds → ∃ u, exec (.routeHoldExpiry dest) s = .next u ∧
    dest ∉ u.fab.holds ∧ (∀ q ∈ u.fab.held, q.hdr.dest ≠ dest) ∧ u.mem = s.mem) ∧
  (∀ (s : State) (k : Nat) (p : Packet) (c : CtxId) (g : Byte), s.inboxAt k [0x41] = some p → p.body = .genNotice c g →
    s.staleGen p.hdr.src c g = false → ∃ u, exec (.generationNotice k) s = .next u ∧ u.mem = s.mem ∧
      sget 0 u.fab.kept (p.hdr.src.toNat * 16 + c.toNat) = g ∧
      ∀ q, q ∈ u.fab.inbox ↔ q ∈ s.fab.inbox.eraseIdx k ∧ ¬ (q.hdr.src = p.hdr.src ∧ q.hdr.sctx = c ∧
        1 ≤ (g - q.hdr.sgen).toNat ∧ (g - q.hdr.sgen).toNat ≤ 127))

/-- R341 to R344: puts. A good record is sent and remembered, a bad one is refused in its STATUS; data lands in the
destination's memory and nowhere else; an answer, a lost packet or a timeout ends the put. That a record whose source cannot
be read is FAB_PUT_FORMAT, and PARTIAL of a put that a loss ends (R340), are the model's choices (logs 110 and 133). -/
def Obligations.Puts : Prop :=
  (∀ (s : State) (c : CtxId) (q : QueueCfg), (s.ctx c).img.bind (·.putq) = some q → s.ctxServes c = true →
    0 < (s.ctx c).putReady →
    let slot := q.base.toNat + (s.ctx c).putK % q.slots * 64
    let x := putRec (memBytes s.mem slot 64)
    s.poisonIn slot 64 = false →
    (s.putOk c x = true → ∃ u, exec (.putRead c) s = .next u ∧ u.mem = s.mem ∧
      (u.ctx c).putK = ((s.ctx c).putK + 1) % 2 ^ 32 ∧ (u.ctx c).putReady = (s.ctx c).putReady - 1 ∧
      u.fab.puts = s.fab.puts ++ [{ ctx := c, gen := (s.ctx c).gen, id := s.fab.nextPut, slot := BitVec.ofNat 64 slot
                                    dest := x.dest, done := x.done, many := decide (4096 < x.len) }]) ∧
    (s.putOk c x = false → (s.tally x.done).q = [] → Memory.wf s.mem = true → ∃ u, exec (.putRead c) s = .next u ∧
      u.fab.puts = s.fab.puts ∧ u.fab.putBad = (s.fab.putBad + 1) % 2 ^ 32 ∧
      ∀ a, memGet u.mem a = if slot + 48 ≤ a ∧ a < slot + 56
        then BitVec.ofNat 8 ((0x070B + 2 ^ 63) / 256 ^ (a - (slot + 48))) else memGet s.mem a)) ∧
  (∀ (s : State) (k : Nat) (p : Packet) (id len off : Nat) (daddr : Word) (last : Bool) (data : List Byte),
    s.inboxAt k [0x20] = some p → p.body = .putData id len off daddr false none last data →
    (s.ctx p.hdr.dctx).st = .running → s.ctxServes p.hdr.dctx = true → Memory.wf s.mem = true → data.length ≤ 4096 →
    (isLarder daddr.toNat || isCellar daddr.toNat) = true → s.hubRange p.hdr.dctx true daddr.toNat data.length = true →
    (∀ y ∈ s.fab.putsIn, y.src = p.hdr.src → y.id = id → y.refused = false ∧ y.gen = (s.ctx p.hdr.dctx).gen) →
    ∃ u, exec (.putData k) s = .next u ∧ ∀ a, memGet u.mem a =
      if daddr.toNat ≤ a ∧ a < daddr.toNat + data.length then data.getD (a - daddr.toNat) 0 else memGet s.mem a) ∧
  (∀ (s : State) (x : PutSt), s.fab.puts.find? (fun y => y.id == x.id) = some x → x.gen = (s.ctx x.ctx).gen →
    Memory.wf s.mem = true →
    let t := s.tally x.done
    t.assigned = true → t.ctx = x.ctx → t.latch = false → t.q = [] → t.value.toNat < 2 ^ 32 - 1 →
    let ends (i : Instr) (status : Nat) : Prop := ∃ u, exec i s = .next u ∧
      (u.tally x.done).value = t.value + 1 ∧ (∀ y, y ∈ u.fab.puts ↔ y ∈ s.fab.puts ∧ y.id ≠ x.id) ∧
      ∀ a, memGet u.mem a = if x.slot.toNat + 48 ≤ a ∧ a < x.slot.toNat + 56
        then BitVec.ofNat 8 (status / 256 ^ (a - (x.slot.toNat + 48))) else memGet s.mem a
    (∀ k p code part, s.inboxAt k [0x21] = some p → p.body = .putReply x.id code part →
      ends (.putReply k) (code.toNat + (if part then 2 ^ 16 else 0) + 2 ^ 63)) ∧
    (∀ k p h code, s.inboxAt k [0x40] = some p → p.body = .undeliverable h code → h.typ = 0x20 → h.tag.toNat = x.id →
      h.sgen = (s.ctx h.sctx).gen → ∃ part : Bool, (x.many = false → part = false) ∧
        ends (.undeliverableNotice k) (0x070C + (if part then 2 ^ 16 else 0) + 2 ^ 63)) ∧
    (∀ i, s.fab.puts[i]? = some x → ends (.putTimeout i) (0x070D + 2 ^ 16 + 2 ^ 63)))

/-! ### The Gate and commands to contexts -/

/-- R348 to R357, R369, Table 12.2: the port, addresses, dropped frames, sessions from HELLO to CLOSE, telemetry and event
messages. That a number seen inside the window is dropped, and the address that an Echo request is answered from, are the
model's choices (logs 148 and 152). -/
def Obligations.GateAndSessions : Prop :=
  (∀ (s : State) (m : ModImage), s.gate.enable = false → s.boot.mod = some m → s.gateErr m.gate true = none →
    (s.port 16).st = .disabled →
    exec .gateEnable s =
      .next ((s.modGate fun g => { g with enable := true }).modPort 16 fun x => { x with st := .training })) ∧
  (∀ (s : State) (dst : BitVec 48) (hop : Byte) (target : BitVec 128) (n : BitVec 32) (pn : Word),
    s.gateUp = true →
    let link := linkLocalOf s.fuses.mac
    let group (a : BitVec 128) : BitVec 48 := 0x3333FF#24 ++ a.setWidth 24
    let static : Prop := s.boot.mod.isSome = true ∧ s.gate.linkLocalOnly = false
    let ours := dst = s.fuses.mac ∨ dst = 0x333300000001 ∨ dst = group link ∨ (static ∧ dst = group s.gate.addr)
    let uses (a : BitVec 128) : Prop :=
      (a = link ∧ s.gate.llOk = true) ∨ (static ∧ a = s.gate.addr ∧ s.gate.dadOk = true)
    let source := if target = 0xFF020000000000000000000000000001 then link else target
    let sec := s.clk.reeve / 212500000
    let echoes := if s.gate.echoWindow = sec then s.gate.echoes else 0
    let sends (i : Instr) (g : Gate) (o : List Out) : Prop := exec i s = .next { s with gate := g, out := s.out ++ o }
    let g : Gate := { s.gate with rx := s.gate.rx + 1 }
    (¬ ours → exec (.neighbourSolicitation ⟨dst, hop, target⟩) s = .next s ∧ exec (.echoRequest ⟨dst, target⟩) s = .next s) ∧
    (ours →
      (hop = 255 → uses target → sends (.neighbourSolicitation ⟨dst, hop, target⟩) { g with tx := g.tx + 1 } [.advert target]) ∧
      (hop ≠ 255 ∨ ¬ uses target → sends (.neighbourSolicitation ⟨dst, hop, target⟩) g []) ∧
      (uses source → echoes < 1000 → sends (.echoRequest ⟨dst, target⟩)
        { g with tx := g.tx + 1, echoWindow := sec, echoes := echoes + 1 } [.echo source]) ∧
      (¬ uses source ∨ 1000 ≤ echoes → sends (.echoRequest ⟨dst, target⟩) g [])) ∧
    sends (.gateFrameDrop .unprotected) { g with dUnprot := min (g.dUnprot + 1) (2 ^ 16 - 1) } [] ∧
    sends (.gateFrameDrop .icv) { g with dIcv := min (g.dIcv + 1) (2 ^ 16 - 1) } [] ∧
    sends (.gateFrameDrop .headerRule) { g with dHeader := min (g.dHeader + 1) (2 ^ 16 - 1) } [] ∧
    (∀ x hdr, s.gate.sessions.find? (fun y => y.num == n) = some x →
      (x.replayed pn = true → sends (.gateFrameDrop (.replay n pn)) { g with dReplay := min (g.dReplay + 1) (2 ^ 16 - 1) } [] ∧
        sends (.close ⟨n, pn, hdr⟩) { g with dReplay := min (g.dReplay + 1) (2 ^ 16 - 1) } []) ∧
      (x.replayed pn = false →
        sends (.gateFrameDrop (.replay n pn))
          { g with sessions := g.sessions.map fun y => if y.num == n then y.received pn else y } [] ∧
        (headerOk hdr 0x13 0 = true → headerSession hdr = n →
          sends (.close ⟨n, pn, hdr⟩) { g with sessions := g.sessions.filter fun y => y.num != n } []))) ∧
    exec (.gateDad true false) s = .next (s.modGate fun g => { g with llOk := true }) ∧
    exec (.gateDad true true) s = .next (s.modGate fun g => { g with llOk := false }) ∧
    exec (.gateDad false false) s = .next (s.modGate fun g => { g with dadOk := true, linkLocalOnly := false }) ∧
    (∃ u, exec (.gateDad false true) s = .next u ∧ u.gate.linkLocalOnly = true ∧ u.gate.dadOk = false ∧
      u.log.next = s.log.next + 1)) ∧
  (∀ (s : State) (h : Hello) (k : GateKey), s.gateUp = true → s.boot.phase = .released →
    s.gate.keys[h.key.toNat]? = some k → s.sessionRoom h.mac = true → s.vault.st = .ready →
    let headed := headerOk h.hdr 0x10 1604 = true ∧ headerSession h.hdr = 0
    (k.mac = h.mac → k.role.isSome = true → h.bodyOk = true → h.rsv = 0 → headed → ∃ u, exec (.hello h) s = .next u ∧
      ∃ nonce seed rnd,
      let n := s.gate.nextNum
      let kem := Config.encaps h.ek seed
      let both := leBytes h.key.toNat 2 ++ leBytes h.rsv.toNat 2 ++ leBytes h.nonce.toNat 32 ++ leBytes h.ek.toNat 1568 ++
        (leBytes n.toNat 4 ++ leBytes nonce.toNat 32 ++ leBytes kem.2.toNat 1568)
      let sig := Config.sign (sha3_512 both) rnd
      u.out = s.out ++ [.accept n nonce kem.2 sig] ∧ u.gate.sessions = s.gate.sessions ∧
      u.gate.hands = s.gate.hands ++ [{ num := n, key := h.key.toNat, mac := h.mac, shared := kem.1
                                        transcript := sha3_512 (both ++ leBytes sig.toNat 4627) }]) ∧
    (k.mac ≠ h.mac ∨ h.bodyOk = false ∨ h.rsv ≠ 0 ∨ ¬ headed → ∃ u, exec (.hello h) s = .next u ∧ u.out = s.out ∧
      u.gate.hands = s.gate.hands ∧ u.log.next = s.log.next + 1) ∧
    (∀ d role hdr, s.gate.hands.find? (fun x => x.num == d.num) = some d → d.key = h.key.toNat → d.mac = h.mac →
      k.mac = h.mac → k.role = some role → headerSession hdr = d.num →
      (headerOk hdr 0x12 4627 = true → ∃ u, exec (.finish hdr true) s = .next u ∧
        let keys := keccakHash 136 0x1F 88 (leBytes d.shared.toNat 32 ++ leBytes d.transcript.toNat 64)
        let x : Session := { num := d.num, key := d.key, role := role, mac := d.mac
                             rxKey := BitVec.ofNat 256 keys, txKey := BitVec.ofNat 256 (keys / 2 ^ 256)
                             rxSalt := BitVec.ofNat 96 (keys / 2 ^ 512), txSalt := BitVec.ofNat 96 (keys / 2 ^ 608) }
        u.gate.sessions = ((s.gate.sessions.filter fun x => x.mac != h.mac) ++ [x]).map
          (fun y => if y.num == d.num then { y with txPn := y.txPn + 1 } else y) ∧
        u.out = s.out ++ [.reply { session := d.num, seq := 0, op := none, context := 0xFF, reason := 0 }]) ∧
      (∃ u, exec (.finish hdr false) s = .next u ∧ u.out = s.out ∧ u.gate.sessions = s.gate.sessions ∧
        u.log.next = s.log.next + 1))) ∧
  (∀ (s : State) (n : BitVec 32),
    exec (.handshakeTimeout n) s = .next (s.modGate fun g => { g with hands := g.hands.filter fun h => h.num != n })) ∧
  (∀ (s : State) (x : Session), (s.port 16).st = .up →
    let sent (y : Session) : Session := { y with txPn := y.txPn + 1 }
    (x.period.isSome = true → s.gate.sessions.find? (fun y => y.num == x.num && y.period.isSome) = some x →
      exec (.telemPeriodExpiry x.num) s = .next ((s.modGate fun g => { g with
        tx := g.tx + 1, sessions := g.sessions.map fun y => if y.num == x.num then sent y else y }).send
        (.reply { session := x.num, seq := 0, op := some .telem, context := 0xFF, reason := 0, body := .bytes s.telemetry }))) ∧
    (∀ i rest, x.waiting = i :: rest → s.gate.sessions.find? (fun y => y.num == x.num && !y.waiting.isEmpty) = some x →
      ∃ u, exec (.eventFlush x.num) s = .next u ∧
        u.out = s.out ++ [.events x.num i ((x.waiting.take 128).filterMap fun j =>
          (s.log.held.find? fun e => e.1 == j).map (·.2))] ∧
        u.gate.sessions = s.gate.sessions.map fun y =>
          if y.num = x.num then sent { y with waiting := y.waiting.drop 128 } else y)) ∧
  (∀ (x : Session) (p q : Word),
    (p ≠ 0 → (x.received p).replayed p = true) ∧
    (x.replayed q = true → (x.received p).replayed q = true) ∧
    (x.rxTop.toNat < q.toNat → x.replayed q = false) ∧
    (q ≠ p → x.replayed q = false → p.toNat < q.toNat + 64 → (x.received p).replayed q = false))

/-- Request r of a command (Table 12.4) passes rows 1 to 6 of R359: frames pass, its frame is new, its form is right, its
session is open with role CONTROL, has nothing executing, and r.seq is its next SEQ. -/
def admitted (s : State) (r : ReqHdr) (op : Nat) : Prop :=
  s.gateUp = true ∧ s.boot.phase = .released ∧ r.version = 1 ∧ r.kind = 1 ∧ r.reservedZero = true ∧
    r.bodyLen.toNat ≤ 9086 ∧ r.bodyOk = true ∧ r.opcode.toNat = op ∧
    s.executing r.session = none ∧ s.seqr.modCmd = none ∧
    ∃ x, s.gate.sessions.find? (fun y => y.num == r.session) = some x ∧ x.replayed r.pn = false ∧ x.role = .control ∧
      r.seq = if x.begun then x.last + 1 else 1

/-- Request r has been answered in u: the reply has left, and is stored with the session (R360). -/
def answers (u : State) (r : ReqHdr) (op : CmdOp) (reason : Reason) (body : Body) : Prop :=
  let y : Reply := { session := r.session, seq := r.seq, op := some op, context := r.context, reason := reason, body := body }
  Out.reply y ∈ u.out ∧ ∃ x, u.gate.sessions.find? (fun z => z.num == r.session) = some x ∧ x.last = r.seq ∧
    x.stored = some y

/-- R359, R360, R368, R460, R462, Tables 12.6 and 12.7: QUERY, TELEM and ATTEST answer with what stands in the state, and
change only sessions and counts. -/
def Obligations.QueriesAndTelemetry : Prop :=
  ∀ (s : State) (r : ReqHdr),
    let counts (u : State) : Prop := u.seqr = { s.seqr with executed := (s.seqr.executed + 1) % 2 ^ 32 } ∧
      u.gate = { s.gate with rx := u.gate.rx, tx := u.gate.tx, sessions := u.gate.sessions } ∧
      s.out <+: u.out ∧
      u = { s with gate := u.gate, seqr := u.seqr, out := u.out, vault := u.vault, freeCtr := u.freeCtr, grans := u.grans }
    let kept (u : State) : Prop := u.vault = s.vault ∧ u.freeCtr = s.freeCtr
    let told (i : Instr) (op : CmdOp) (body : Body) (p : State → Prop) : Prop := admitted s r (opNum op) →
      ∃ u, exec i s = .next u ∧ answers u r op 0 body ∧ counts u ∧ p u
    let tells (i : Instr) (op : CmdOp) (body : Body) : Prop := told i op body fun u => kept u ∧ u.grans = s.grans
    let session (i : Instr) (p : Session → Prop) : Prop := admitted s r 0x0A → ∃ u, exec i s = .next u ∧ answers u r .telem 0 .none ∧ counts u ∧
      kept u ∧ u.grans = s.grans ∧ ∃ x, u.gate.sessions.find? (fun z => z.num == r.session) = some x ∧ p x
    (r.context.toNat < 16 →
      let c : CtxId := r.context.setWidth 4
      (s.ctx c).cmd = none →
      tells (.queryContext r) .query
        (.context (s.ctxWord c) ((s.quadsOf c).map (BitVec.ofNat 9)) (s.ctx c).gen (s.ctx c).restored) ∧
      (∀ (ring : Byte) (bucket : BitVec 16) (step : BitVec 32) (d : DigEntry),
        s.digEntry c ring.toNat bucket step = some d →
        told (.queryDigest r ring bucket step) .query (.digest d.sent d.recv d.roll) kept) ∧
      tells (.queryFeed r) .query (.words ((List.range 7).map fun i => (s.readFeed c (8 * i)).getD 0)) ∧
      (∀ (ring : Byte) (g : RingSt), (s.ctx c).rings[ring.toNat]? = some g →
        tells (.queryRing r ring) .query (.ring g.cfg.nrow g.cfg.ncol g.cfg.members))) ∧
    (r.context = 0xFF →
      (∀ first count, 1 ≤ count → count ≤ 128 →
        let l := (s.log.held.filter fun e => decide (first.toNat ≤ e.1)).take count
        tells (.queryEvents r first count) .query
          (.events (match l with | e :: _ => e.1 | [] => s.log.next) (l.map (·.2)))) ∧
      (∀ (g n : Nat) (v : Word), g < 2048 → n < 8 →
        s.regRead (0x1000 + g) (8 * n) = some v →
        tells (.queryRegister r (BitVec.ofNat 64 (0xF000000000 + (0x1000 + g) * 0x10000 + 8 * n))) .query (.words [v])) ∧
      tells (.telemSet r) .telem (.bytes s.telemetry) ∧
      (∀ us, 1000 ≤ us → us < 2 ^ 32 → session (.telemPeriodic r us) fun x => x.period = some us) ∧
      (∀ sev : Byte, sev.toNat ≤ 5 → session (.telemSubscribe r sev) fun x => x.minSev = some sev) ∧
      session (.telemCancel r 2) (fun x => x.period = none) ∧
      session (.telemCancel r 3) (fun x => x.minSev = none ∧ x.waiting = []) ∧
      (s.vault.st = .ready →
        (∀ nonce, ∃ rnd, told (.attestReport r nonce) .attest (.bytes (s.attestBytes nonce ++
          leBytes (Config.sign (sha3_512 (s.attestBytes nonce)) rnd).toNat 4627)) fun u => u.grans = s.grans) ∧
        (∃ sig : BitVec 37016, tells (.attestCert r) .attest (.bytes (leBytes s.fuses.serial.toNat 16 ++
          leBytes s.fuses.mac.toNat 6 ++ [0x01] ++ leBytes 0 233 ++ leBytes Config.identityKey.toNat 2592 ++ leBytes sig.toNat 4627)))))

/-- R361 to R367, R383, R407, R409, Table 12.13: commands move a context between its states, and answer when they are done.
That the timeout of a module command probes the boot block is DEDUCED (log 150). -/
def Obligations.ContextCommands : Prop :=
  (∀ (s : State) (r : ReqHdr), r.context.toNat < 16 →
    let c : CtxId := r.context.setWidth 4
    let x := s.ctx c
    let leaves (op : Nat) (i : Instr) (p : State → Prop) : Prop := admitted s r op → ∃ u, exec i s = .next u ∧ p u
    x.cmd = none →
    (∀ off len img, x.st = .empty → len ≤ 9078 → chunkOk x.load r.session off = true →
      (r.final = false → leaves 0x01 (.load r off len img) fun u => answers u r .load 0 .none ∧
        (u.ctx c).load = some (r.session, off + len) ∧ (u.ctx c).st = .empty) ∧
      (r.final = true → s.vault.st = .ready → (∀ code, s.verifyErr img.hdr 3 img.hdr.sigOk = some code →
        leaves 0x01 (.load r off len img) fun u => answers u r .load code .none ∧ (u.ctx c).st = .empty ∧ (u.ctx c).load = none)) ∧
      (r.final = true → s.vault.st = .ready → s.verifyErr img.hdr 3 img.hdr.sigOk = none →
        formatErr img.hdr 3 (some (off + len)) = none → s.ctxErr c img = none →
        leaves 0x01 (.load r off len img) fun u => answers u r .load 0 .none ∧ (u.ctx c).st = .loaded ∧
          (u.ctx c).img = some img ∧ (u.ctx c).mem.regions = img.memory.regions ∧ (u.ctx c).load = none)) ∧
    (∀ img, x.st = .loaded → x.img = some img → x.restored = false → img.snap = none → joinsImg img = false →
      (∀ e ∈ img.header.threads, s.thCtx e.th = some c ∧ s.fetchable c e.entry = true) →
      (img.header.threads.map (·.th)).Nodup →
      leaves 0x02 (.start r) fun u => answers u r .start 0 .none ∧ (u.ctx c).st = .running ∧
        ∀ e ∈ img.header.threads, (u.thr e.th).enabled = true ∧ (u.thr e.th).pc = e.entry ∧
          (u.thr e.th).csr.tvec = e.tvec ∧ (u.thr e.th).csr.status = 0b000001) ∧
    ((∀ q ∈ s.quadsOf c, ∀ ch < 8, (s.chan q ch).st = .idle) →
      (x.st = .running → x.snap.phase = .idle → leaves 0x03 (.pause r) fun u =>
        (u.ctx c).cmd = some ⟨r.session, r.seq, .pause, r.context⟩ ∧ (u.ctx c).st = .running ∧
        ∀ th ∈ s.threadsOf c, (s.thr th).atBoundary = true → (s.thr th).asyncQ = [] → (s.thr th).stopReq = false →
          (u.thr th).st = .paused ∧ (u.thr th).pc = (s.thr th).pc) ∧
      (x.st = .paused → (∀ th ∈ s.threadsOf c, (s.thr th).st = .paused → (s.thr th).stopReq = false ∧
          (s.fetchCheck th c (s.thr th).pc).stops = false) →
        leaves 0x04 (.resume r) fun u => answers u r .resume 0 .none ∧ (u.ctx c).st = .running ∧
        ∀ th ∈ s.threadsOf c, (s.thr th).st = .paused →
          ((u.thr th).st = .ready ∨ (u.thr th).st = .waitFetch ∨ (u.thr th).st = .waitUnit ∧ (u.thr th).why = .slot) ∧
          (u.thr th).pc = (s.thr th).pc) ∧
      (x.st = .running ∨ x.st = .paused → (∀ th ∈ s.threadsOf c, (s.thr th).asyncQ = []) →
        leaves 0x05 (.stop r) fun u => (u.ctx c).st = .draining ∧
        (u.ctx c).cmd = some ⟨r.session, r.seq, .stop, r.context⟩ ∧
        ∀ th ∈ s.threadsOf c, (s.thr th).st = .paused ∨ ((s.thr th).atBoundary = true ∧ (s.thr th).asyncQ = []) →
          (u.thr th).st = .halted)) ∧
    (x.st = .faulted → x.rst.purge = none → x.rst.purgeWaits = false → x.snap.phase = .idle →
      leaves 0x06 (.resetCtx r) fun u => answers u r .resetCtx 0 .none ∧ (u.ctx c).st = .empty ∧ (u.ctx c).mem.regions = [] ∧
        ∀ q, u.quadCtx q ≠ some c) ∧
    (x.st = .running → x.rst.purge = none → x.rst.purgeWaits = false → x.rst.gap = false →
      leaves 0x06 (.resetCtx r) fun u => (u.ctx c).gen = x.gen + 1 ∧ (u.ctx c).rst.purge.isSome = true ∧
        (u.ctx c).cmd = some ⟨r.session, r.seq, .resetCtx, r.context⟩)) ∧
  (∀ (s : State) (c : CtxId) (k : CmdExec), (s.ctx c).cmd = some k →
    let leaves (i : Instr) (st : CtxState) : Prop := ∃ u, exec i s = .next u ∧ (u.ctx c).st = st ∧ (u.ctx c).cmd = none
    (k.op = .pause → (s.ctx c).st = .running → (s.ctx c).snap.phase = .idle → s.allPaused c = true →
      leaves (.pauseDone c) .paused) ∧
    (∀ img, (s.ctx c).img = some img → (s.ctx c).st = .draining → (s.ctx c).rst.purge = none → s.drained c = true →
      leaves (.drainDone c) .loaded ∧ ((s.ctx c).rst.purgeWaits = true → ∃ u, exec (.drainDone c) s = .next u ∧
        (u.ctx c).rst.purgeWaits = false ∧ u.log.next = s.log.next + 2)) ∧
    ((s.ctx c).st = .running → leaves (.cmdTimeout (some c)) .faulted)) ∧
  (∀ (s : State) (c : CtxId) (e : BitVec 32 × Nat),
    ((s.ctx c).load = some e → ∃ u, exec (.cmdLoadIdle (some c)) s = .next u ∧ (u.ctx c).load = none ∧
      u.log.next = s.log.next + 1) ∧
    (s.boot.stage = some e → ∃ u, exec (.cmdLoadIdle none) s = .next u ∧ u.boot.stage = none) ∧
    (∀ k, s.seqr.modCmd = some k → ∃ u, exec (.cmdTimeout none) s = .next u ∧ u.seqr.modCmd = none ∧
      u.ctxs = s.ctxs ∧ (0x0D00 ∈ u.rst.probes ∨ s.rst.engines.contains 0x0D00 = true)) ∧
    (∀ img sec, (s.ctx c).snap.sched = false → (s.ctx c).img = some img → img.snap = some sec →
      syncGranted img.sync true sec.stepBell = true → syncCounting img.sync sec.captureTally = true →
      syncCounting img.sync sec.commitTally = true → s.boot.mod.bind (·.snap) = none →
      exec (.snapSchedEnable c) s = .next (s.modSnap c fun y => { y with sched := true })))

/-- R370 to R375: the feed. It requests as many records as its window and free slots allow, writes a complete record with
its header to the next slot and signals READY, drops a record whose CRC differs, ends an epoch, stops on an error and
requests again what has not come. -/
def Obligations.DataFeed : Prop :=
  ∀ (s : State) (c : CtxId) (g : FeedSection),
    let f := (s.ctx c).feed
    f.cfg = some g → s.feedServes c g = true →
    let fresh (pn : Word) (hdr : BitVec 256) (kind : Byte) (len : Nat) : Prop :=
      headerOk hdr kind len = true ∧ headerContext hdr = c.setWidth 8 ∧
        ∀ x, s.feedSession g = some x → x.replayed pn = false ∧ headerSession hdr = x.num
    let leaves (i : Instr) (o : List Out) (p : Feed → Prop) : Prop :=
      ∃ u, exec i s = .next u ∧ u.out = s.out ++ o ∧ u.mem = s.mem ∧ p (u.ctx c).feed
    (let n := min (g.window - f.flight.length) (f.credits - f.flight.length)
     f.st = .active → 0 < n → ∀ x, s.feedSession g = some x →
      leaves (.feedRequest c) [.feedReq c x.num g.dataset g.shard f.reqOff f.reqEpoch n] fun f' =>
      f' = { f with reqOff := f.reqOff + BitVec.ofNat 64 n, flight := f.flight ++ (List.range n).map fun i =>
        { offset := f.reqOff + BitVec.ofNat 64 i, epoch := f.reqEpoch } }) ∧
    (∀ (img : CtxImage) (base len : Nat) (r : FeedRec) (d : FeedFragment),
      (s.ctx c).img = some img → feedRing img = some (base, len) → f.st = .active → f.flight = [r] → r.done = false →
      r.frags = [] → r.len = none → d.dataset = g.dataset → d.shard = g.shard → d.offset = r.offset → d.epoch = r.epoch →
      d.fragOffset = 0 → d.bytes.length = d.len → 0 < d.len → d.len ≤ 8160 → d.len + 64 ≤ g.slot →
      fresh d.pn d.hdr 0x21 (32 + d.len) →
      let slot := granLoc (base + f.nextSlot * g.slot)
      let bytes := leBytes g.dataset.toNat 4 ++ leBytes g.shard.toNat 4 ++ leBytes r.offset.toNat 8 ++
        leBytes r.epoch.toNat 4 ++ leBytes d.len 4 ++ leBytes d.crc.toNat 4 ++ List.replicate 36 0 ++ d.bytes
      let ready := s.tally g.ready
      (crc32c d.bytes = d.crc → Memory.wf s.mem = true → ready.q = [] → ready.assigned = true → ready.ctx = c →
        ready.latch = false → ready.value.toNat < 2 ^ 32 - 1 → ∃ u, exec (.feedData c d) s = .next u ∧
          (u.ctx c).feed.flight = [] ∧ (u.ctx c).feed.delivered = (f.delivered + 1) % 2 ^ 32 ∧
          (u.ctx c).feed.nextSlot = (f.nextSlot + 1) % g.nslots ∧ (u.tally g.ready).value = ready.value + 1 ∧
          ∀ a, memGet u.mem a = if slot ≤ a ∧ a < slot + 64 + d.len then bytes.getD (a - slot) 0 else memGet s.mem a) ∧
      (crc32c d.bytes ≠ d.crc → leaves (.feedData c d) [] fun f' =>
        f'.flight = [{ r with crc := d.crc }] ∧ f'.delivered = f.delivered ∧ f'.nextSlot = f.nextSlot)) ∧
    (∀ (pn offset : Word) hdr, f.st = .active → offset.toNat ≤ f.reqOff.toNat → fresh pn hdr 0x22 20 →
      (offset ≠ 0 → leaves (.feedEnd c ⟨pn, hdr, g.dataset, g.shard, f.reqEpoch⟩ offset) [] fun f' => f'.reqOff = 0 ∧ f'.reqEpoch = f.reqEpoch + 1 ∧
        f'.flight = f.flight.filter fun r => !(r.epoch == f.reqEpoch && decide (offset.toNat ≤ r.offset.toNat))) ∧
      (offset = 0 → leaves (.feedEnd c ⟨pn, hdr, g.dataset, g.shard, f.reqEpoch⟩ offset) [] fun f' => f'.st = .stopped ∧ f'.stopReason = 0x0242)) ∧
    (∀ pn hdr offset why, f.st = .active → fresh pn hdr 0x23 22 →
      leaves (.feedErr c ⟨pn, hdr, g.dataset, g.shard, offset, why⟩) [] fun f' =>
      f'.st = .stopped ∧ f'.stopReason = 0x0243 ∧ f'.flight = []) ∧
    (∀ r x, f.st = .active → f.flight = [r] → r.done = false → r.fails < 7 → s.feedSession g = some x →
      leaves (.feedRetryExpiry c) [.feedReq c x.num g.dataset g.shard r.offset r.epoch 1] fun f' =>
        f' = { f with repeats := (f.repeats + 1) % 2 ^ 32, flight := [{ r with fails := r.fails + 1 }] })

/-! ### Harvest -/

/-- R384 to R391, R396, R403, Table 13.11: a snapshot from the command to its commit and its external copy. Only the free
slots of the partner are unknown (R394): a snapshot that does not fit is abandoned. The pairing message, the copy that a
block is sent again from, what the DRBG counts, and pairing again are the model's choices (logs 73, 78, 87 and 146). -/
def Obligations.SnapshotsTaken : Prop :=
  ∀ (s : State) (c : CtxId) (img : CtxImage) (sec : SnapSection),
    (s.ctx c).img = some img → img.snap = some sec →
    let x := (s.ctx c).snap
    let leaves (i : Instr) (p : SnapSt → State → Prop) : Prop := ∃ u, exec i s = .next u ∧ p (u.ctx c).snap u
    let next := x.extQ.head?.map fun m => (m, 0)
    let loose := (s.ctx c).cmd = none ∧ (s.bell sec.stepBell).snapHold = false
    let reads (i : Nat) := ∀ l, blockLoc img i = some l →
      (l / 0x400000) ∉ s.written ∧ s.poisonIn l 0x400000 = false
    let copy (i : Nat) : List Byte := match blockLoc img i with
      | some l => memBytes s.mem l 0x400000
      | none => memBytes x.cells (i * 0x400000) 0x400000
    let store (o : Out) : List Out :=
      if (s.gate.sessions.any fun y => y.role == .store) && (s.port 16).st == .up then [o] else []
    (∀ (r : ReqHdr) (round : BitVec 32) (external : Bool), admitted s r 0x07 → r.context = c.setWidth 8 →
      (s.ctx c).st = .running → (s.ctx c).cmd = none → leaves (.snap r round external) fun y u =>
        (u.ctx c).cmd = some ⟨r.session, r.seq, .snap, r.context⟩ ∧ y.phase = x.phase ∧
        y.req = some (if round = 0xFFFFFFFF then none else some round, external)) ∧
    (x.phase = .quiescing → loose → x.req = none → leaves (.snapQuiesce c) fun y u =>
      y.phase = .idle ∧ y.reason = 0x0801 ∧ u.log.next = s.log.next + 1 ∧ u.mem = s.mem) ∧
    (x.phase = .quiescing → s.snapQuiet c sec = true → x.join = none → loose →
      (x.direct = true → leaves (.snapQuiesceDone c) fun y u => y.phase = .data ∧ y.set = List.range (snapN img) ∧
        y.toSend = y.set ∧ u.mem = s.mem ∧
        y.toStage = (if sec.stageLen = 0 then [] else y.set.filter fun i => decide (stateBlocks img ≤ i)) ∧
        ∀ b, b ∈ u.written ↔ b ∈ s.written ∧ ∀ i < snapN img, ∀ l, blockLoc img i = some l → b ≠ l / 0x400000) ∧
      (x.direct = false → x.req = none → leaves (.snapQuiesceDone c) fun y u => u.mem = s.mem ∧
        (y.phase = .idle ∧ y.reason = 0x0803 ∨ (s.changedSet c img).length ≤ x.hostSlots ∧
          y.phase = .data ∧ y.set = s.changedSet c img ∧ y.toSend = y.set))) ∧
    (x.phase = .data → x.join = none →
      (∀ i rest l, x.toStage = i :: rest → blockLoc img i = some l → reads i → Memory.wf s.mem = true →
        let d := stageLoc img sec x.set i
        leaves (.snapBlockRead c) fun y u => y.toStage = rest ∧ y.phase = .data ∧ (d / 0x400000) ∉ u.written ∧
          ∀ a, memGet u.mem a = if d ≤ a ∧ a < d + 0x400000 then memGet s.mem (l + (a - d)) else memGet s.mem a) ∧
      (∀ i j rest, x.toStage = [] → x.toSend = i :: j :: rest → i ∉ j :: rest → sec.stageLen = 0 → reads i →
        let read : State := match blockLoc img i with | some l => s.readVia l 0x400000 | none => s
        let y : SnapSt := { x with digests := sset i (sha3_512 (copy i)) x.digests, toSend := j :: rest }
        (x.direct = true → leaves (.snapBlockRead c) fun z u =>
          z = y ∧ u.out = s.out ++ store (.storeBlock c x.round i (copy i)) ∧ u.mem = s.mem) ∧
        (x.direct = false → exec (.snapBlockRead c) s =
          .next ((read.modSnap c fun _ => { y with
            unacked := (x.unacked.filter fun k => k != i) ++ [i]
            kept := memWrite (i * 0x400000) (copy i) x.kept }).snapBlock s.harv.partner c s.fab.module
              x.round i (copy i)))) ∧
      (x.toStage = [] → x.staged = false → 0 < sec.stageLen →
        let t := s.tally sec.captureTally
        t.assigned = true → t.ctx = c → t.latch = false → t.q = [] → t.value.toNat < 2 ^ 32 - 1 →
        leaves (.snapStageDone c) fun y u =>
          y = { x with staged := true } ∧ (u.tally sec.captureTally).value = t.value + 1) ∧
      (∀ k p hdr data, s.inboxAt k [0x30] = some p → p.body = .snap hdr data → hdr.context = c → hdr.round = x.round →
        hdr.client = s.fab.module →
        (hdr.kind = 0x04 → hdr.block ≠ 0xFFFFFFFF → loose → leaves (.snapPktAck k) fun y u =>
          y.unacked = x.unacked.filter (fun j => j != hdr.block.toNat) ∧ u.fab.inbox = s.fab.inbox.eraseIdx k) ∧
        (∀ m, hdr.kind = 0x04 → hdr.block = 0xFFFFFFFF → x.manifest = some m → s.nvm.queue = [] → s.vault.st ≠ .error →
          leaves (.snapPktAck k) fun y u => y.phase = .committed ∧ y.last = some m.round ∧ y.root = m.root ∧
            y.commits = x.commits + 1 ∧ u.nvm.queue =
              [.catalogue ⟨c, m.round, if x.direct then 0xFFFF else s.harv.partner, m.root⟩]) ∧
        (hdr.kind = 0x05 → hdr.block.toNat ∈ x.unacked → 3 ≤ sget 0 x.tries hdr.block.toNat → loose → x.req = none →
          leaves (.snapPktAskAgain k) fun y _ => y.phase = .idle ∧ y.reason = 0x0804) ∧
        (hdr.kind = 0x05 → hdr.block.toNat ∈ x.unacked → sget 0 x.tries hdr.block.toNat < 3 →
          let i := hdr.block.toNat
          let t := (s.dropInbox k).modHarv fun h => { h with
            inst := smod {} (i % 2) (fun z => { z with again := min (z.again + 1) (2 ^ 16 - 1) }) h.inst }
          exec (.snapPktAskAgain k) s = .next ((t.modSnap c fun y => { y with
            tries := sset i (sget 0 x.tries i + 1) y.tries }).snapBlock s.harv.partner c s.fab.module x.round i
              (memBytes x.kept (i * 0x400000) 0x400000)))) ∧
      (loose → x.req = none → leaves (.snapTimeout ⟨c, false⟩) fun y _ => y.phase = .idle ∧ y.reason = 0x0808)) ∧
    (∀ m, x.signing = some m → s.vault.st ≠ .error → ∃ rnd k,
      let v := { s.vault with generates := (s.vault.generates + 1) % 2 ^ 32, signs := (s.vault.signs + 1) % 2 ^ 32 }
      let m : Manifest := { m with
        sig := Config.sign (sha3_512 (manifestBytes m)) rnd, sigOk := true, key := Config.identityKey }
      let t := { s with vault := v, freeCtr := k }.modSnap c fun y => { y with signing := none, manifest := some m }
      (x.direct = true → leaves (.vaultSignDone c) fun y u => y = { x with signing := none, manifest := some m } ∧
        u.vault = v ∧ u.out = s.out ++ store (.storeManifest c m)) ∧
      (x.direct = false → exec (.vaultSignDone c) s = .next (t.sendPkt (t.mkPkt s.harv.partner c c 3 (uHarvest 1) 0
        (.snapManifest ⟨0x03, c, s.fab.module, m.round, 0xFFFFFFFF, 0⟩ m))))) ∧
    (∀ m, x.ext = some (m, 0) → leaves (.snapExternalCopy c) fun y u =>
      y = x ∧ u.out = s.out ++ store (.storeManifest c m) ∧ u.mem = s.mem) ∧
    (∀ m, x.ext = some (m, 0) → (s.port 16).st = .down → exec (.snapExternalCopy c) s =
      .next (s.snapSend s.harv.partner 0x06 c s.fab.module m.round 0)) ∧
    ((∀ m y pn, x.ext = some (m, m.leaves.length) → s.gateUp = true →
        s.gate.sessions.find? (fun z => z.role == .store) = some y → y.replayed pn = false →
        leaves (.externalStoreAck ⟨c, m.round, pn⟩) fun z u => u.mem = s.mem ∧ u.out = s.out ∧
          z = { x with ext := next, extQ := x.extQ.drop 1, lastExt := x.lastExt || x.last == some m.round }) ∧
      (∀ m i, x.ext = some (m, i) → leaves (.snapTimeout ⟨c, true⟩) fun z u =>
        z = { x with ext := next, extQ := x.extQ.drop 1, reason := 0x080C } ∧ u.mem = s.mem)) ∧
    (∀ n keep empty, s.partnerReach = true → (∀ d, d ≠ c → (s.ctx d).img = none) →
      (s.hostedFor s.harv.partner = none ∧ n = 0 ∧ keep = 0 ∧ empty = true ∨
        ∃ j h, s.hostedFor s.harv.partner = some j ∧ s.harv.hosted[j]? = some h ∧ n = h.cfg.len ∧ keep = h.cfg.keep ∧
          empty = !(h.snaps.any fun z => z.ctx == c)) →
      exec .snapPairing s = .next ((s.modSnap c fun y => { y with paired := false }).sendPkt
        (s.mkPkt s.harv.partner c c 0 (uHarvest 0) 0
          (.pairing c (s.boot.ownFeed.getD 0) (layoutOf img) n keep empty))))

/-- R384, R390, R392, R393, Table 13.8: a host keeps a block in a slot of the client's range, answers for it by its digest,
records a manifest once, serves fetches except during a compaction, and keeps the latest snapshots of each context; the
client takes what comes back. The pairing message, the catalogue packet, the slots a snapshot needs, when abandoned slots
are freed, and pairing again are the model's choices (logs 73, 74, 137, 145 and 146). -/
def Obligations.SnapshotsHosted : Prop :=
  (∀ (s : State) (k : Nat) (p : Packet) (hdr : SnapHdr) (data : List Byte),
    s.inboxAt k [0x30] = some p → p.body = .snap hdr data →
    let i := hdr.block.toNat
    let c := hdr.context
    let s' := s.dropInbox k
    let tells (t : State) (kind : Byte) (round : BitVec 32) : State := t.snapSend p.hdr.src kind c hdr.client round hdr.block
    (hdr.client = s.fab.module →
      (hdr.kind = 0x01 → exec (.snapPktData k) s = .next (s'.modSnap c fun y =>
        { y with buf := memWrite (i * 0x400000 + hdr.offset) data y.buf })) ∧
      (∀ r, hdr.kind = 0x07 → (s.ctx c).snap.restore = some r → hdr.block = 0xFFFFFFFF → r.manifest.isSome = true →
        exec (.snapPktCatalogue k) s =
          .next (s'.modSnap c fun y => { y with restore := some { r with latest := r.round == hdr.round } }))) ∧
    (∀ j h n, hdr.client ≠ s.fab.module → s.hostedFor hdr.client = some j → s.harv.hosted[j]? = some h →
      let x := h.arriving c hdr.round
      let l := h.slotLoc n
      (hdr.kind = 0x01 → Memory.wf s.mem = true →
        (match x.slots.find? fun e => e.1 == i with | some e => e.2 = n | none => (h.putArriving x).freeSlot = some n) →
        ∃ u, exec (.snapPktData k) s = .next u ∧ u.fab.inbox = s.fab.inbox.eraseIdx k ∧
          (∃ h', u.harv.hosted[j]? = some h' ∧ (h'.arriving c hdr.round).slots.find? (fun e => e.1 == i) = some (i, n)) ∧
          (sget {} u.harv.inst (i % 2)).recv = (sget {} s.harv.inst (i % 2)).recv + data.length ∧
          ∀ a, memGet u.mem a = if l + hdr.offset ≤ a ∧ a < l + hdr.offset + data.length
            then data.getD (a - (l + hdr.offset)) 0 else memGet s.mem a) ∧
      (hdr.kind = 0x02 → x.slots.find? (fun e => e.1 == i) = some (i, n) →
        let good := data = leBytes (sha3_512 (memBytes s.mem l 0x400000)).toNat 64 ∧ s.poisonIn l 0x400000 = false
        let t := (s'.hubWake (i % 2)).readVia l 0x400000
        (good → exec (.snapPktDigest k) s = .next (tells t 0x04 hdr.round)) ∧
        (¬ good → exec (.snapPktDigest k) s = .next (tells (t.modHarv fun v => { v with
          inst := smod {} (i % 2) (fun y => { y with mismatch := min (y.mismatch + 1) (2 ^ 16 - 1) }) v.inst }) 0x05 hdr.round))) ∧
      (hdr.kind = 0x06 → let w := s'.hubWake (i % 2)
        (h.compacting = true → exec (.snapPktFetch k) s =
          .next (w.modHosted j fun g => { g with waiting := g.waiting ++ [p] })) ∧
        (∀ y, h.compacting = false → hdr.block ≠ 0xFFFFFFFF →
          (h.snaps.filter fun z => z.ctx == c).find? (fun z => z.manifest.round == hdr.round) = some y →
          (y.map.find? (fun e => e.1 == i) = some (i, n) → s.poisonIn l 0x400000 = false → exec (.snapPktFetch k) s =
            .next ((w.readVia l 0x400000).snapBlock p.hdr.src c hdr.client hdr.round i (memBytes s.mem l 0x400000))) ∧
          (y.map.find? (fun e => e.1 == i) = none →
            exec (.snapPktFetch k) s = .next (tells w 0x07 hdr.round)))))) ∧
  (∀ (s : State) (k : Nat) (p : Packet) (hdr : SnapHdr) (m : Manifest) (j : Nat) (h : Hosted),
    s.inboxAt k [0x30] = some p → p.body = .snapManifest hdr m → hdr.client ≠ s.fab.module →
    s.hostedFor hdr.client = some j → s.harv.hosted[j]? = some h → p.hdr.src ≠ s.fab.module →
    ∃ u h', exec (.snapPktManifest k) s = .next u ∧ u.harv.hosted[j]? = some h' ∧
      if h.snaps.any fun x => x.ctx == hdr.context && x.manifest.round == m.round then h' = h
      else (∃ map, h'.snaps = h.snaps ++ [⟨hdr.context, m, map⟩] ∧
          (m.parent = none → ∀ i n, map.find? (fun e => e.1 == i) = some (i, n) →
            (i, n) ∈ (h.arriving hdr.context m.round).slots)) ∧
        h'.incoming = h.incoming.filter fun x => x.ctx != hdr.context) ∧
  (∀ (s : State) (i : BitVec 2) (h : Hosted), s.harv.hosted[i.toNat]? = some h →
    exec (.hostedCompaction i) s = .next (((s.hubWake 0).hubWake 1).modHosted i.toNat fun g => { g with compacting := true }) ∧
    (h.compacting = true → h.waiting = [] → ∃ u h', exec (.hostedCompactionEnd i) s = .next u ∧
      u.harv.hosted[i.toNat]? = some h' ∧ h'.compacting = false ∧ h'.incoming = h.incoming ∧ u.mem = s.mem ∧
      ∀ c, let mine := h.snaps.filter fun x => x.ctx == c
        h'.snaps.filter (fun x => x.ctx == c) = mine.drop (mine.length - h.cfg.keep))) ∧
  (∀ (s : State) (k : Nat) (p : Packet) (c : CtxId) (feed : BitVec 32) (layout : Digest) (len keep : Nat) (empty : Bool),
    s.inboxAt k [0x30, 0x50] = some p → p.body = .pairing c feed layout len keep empty →
    (p.hdr.tag = 0 → s.hostedFor p.hdr.src = none → exec (.snapPktCatalogue k) s =
      .next ((s.dropInbox k).sendPkt ((s.dropInbox k).mkPkt p.hdr.src c c 0 (uHarvest 0) 1
        (.pairing c (s.boot.ownFeed.getD 0) layout 0 0 true)))) ∧
    (∀ j h, p.hdr.tag = 0 → s.hostedFor p.hdr.src = some j → s.harv.hosted[j]? = some h →
      ∃ u h', exec (.snapPktCatalogue k) s = .next u ∧ u.harv.hosted[j]? = some h' ∧
        h'.incoming = (h.incoming.filter fun x => x.ctx != c) ∧
        ((∀ x ∈ h.snaps, x.ctx = c → x.manifest.layout = layout) → h'.snaps = h.snaps)) ∧
    (∀ img sec, p.hdr.tag = 1 → p.hdr.src = s.harv.partner → (s.ctx c).img = some img → img.snap = some sec →
      s.boot.ownFeed ≠ some feed →
      let slots := (len - 0x6000000) / 0x400000
      let needs := snapN img + keep * max (s.ctx c).snap.maxSet (stateBlocks img)
      (needs ≤ slots → empty = true → exec (.snapPktCatalogue k) s =
        .next ((s.dropInbox k).modSnap c fun y => { y with paired := true, hostSlots := slots, parent := none })) ∧
      (slots < needs → ∃ u, exec (.snapPktCatalogue k) s = .next u ∧ (u.ctx c).snap.off = true ∧
        (u.ctx c).snap.paired = true ∧ (u.ctx c).snap.parent = (s.ctx c).snap.parent ∧ u.mem = s.mem)))

/-- R398 to R400, R427: a restore asks its source for the manifest and each block in turn, puts a block whose digest the
manifest gives where it belongs, and ends with the context RESTORED or with its code. That reserved bits of the body are
refused is DEDUCED (log 20). -/
def Obligations.Restores : Prop :=
  (∀ (s : State) (r : ReqHdr) (c : CtxId) (img : CtxImage) (sec : SnapSection) (round : BitVec 32) (noFallback : Bool),
    admitted s r 0x08 → r.context = c.setWidth 8 → (s.ctx c).st = .loaded → (s.ctx c).cmd = none →
    (s.ctx c).img = some img → img.snap = some sec → joinsImg img = false →
    let restoring (u : State) (external : Bool) : Prop :=
      (u.ctx c).cmd = some ⟨r.session, r.seq, .restore, r.context⟩ ∧ (u.ctx c).snap.phase = .restore ∧
      (u.ctx c).snap.restore = some { round := round, external := external, noFallback := noFallback } ∧ u.mem = s.mem
    (s.partnerReach = true → ∃ u, exec (.restore r round 0 noFallback 0) s = .next u ∧ restoring u false) ∧
    ((∃ x ∈ s.gate.sessions, x.role = .store) → ∃ u, exec (.restore r round 1 noFallback 0) s = .next u ∧ restoring u true ∧
      u.out = s.out ++ [.storeFetch c round none]) ∧
    ((∀ x ∈ s.gate.sessions, x.role ≠ .store) → ∃ u, exec (.restore r round 1 noFallback 0) s = .next u ∧
      answers u r .restore 0x0806 .none ∧
      (u.ctx c).cmd = none ∧ (u.ctx c).snap.phase = .idle ∧ (u.ctx c).snap.reason = 0x0806 ∧ (u.ctx c).st = .loaded) ∧
    (∀ (source : Byte) (rsv : BitVec 7), 2 ≤ source.toNat ∨ rsv ≠ 0 → ∃ u, exec (.restore r round source noFallback rsv) s = .next u ∧
      answers u r .restore 0x0202 .none ∧ u.mem = s.mem ∧ u.ctxs = s.ctxs)) ∧
  (∀ (s : State) (c : CtxId) (img : CtxImage) (sec : SnapSection) (r : Restoring) (x : Session) (pn : Word),
    (s.ctx c).snap.restore = some r → (s.ctx c).img = some img → img.snap = some sec → s.gateUp = true →
    s.gate.sessions.find? (fun z => z.role == .store) = some x → x.replayed pn = false →
    r.external = true → r.retried = false →
    let leaves (b : FromStore) (p : SnapSt → State → Prop) : Prop :=
      ∃ u, exec (.restoreBlock c ⟨pn, b⟩) s = .next u ∧ p (u.ctx c).snap u
    let fails (y : SnapSt) (u : State) : Prop := y.restore = none ∧ y.phase = .idle ∧ y.reason = 0x0806 ∧
      (u.ctx c).cmd = none ∧ (u.ctx c).restored = (s.ctx c).restored
    (r.manifest = none → leaves (.manifest r.round none) fails) ∧
    (∀ m, r.manifest = none → s.vault.st ≠ .error → m.round = r.round → m.sigOk = true → m.layout = layoutOf img →
      m.signer ∈ sec.signers ∨ m.signer = sha3_512 (leBytes Config.identityKey.toNat 2592) → m.leaves.length = snapN img → rootOf m.leaves = m.root →
      r.next < m.leaves.length → leaves (.manifest r.round (some m)) fun y u =>
        y.restore = some { r with manifest := some m } ∧ u.out = s.out ++ [.storeFetch c r.round (some r.next)] ∧
        u.mem = s.mem) ∧
    (∀ m data, r.manifest = some m →
      let good := m.leaves[r.next]? = some (sha3_512 data)
      (∀ l, good → blockLoc img r.next = some l → r.next + 1 < m.leaves.length → Memory.wf s.mem = true →
        leaves (.block r.round r.next data) fun y u => y.restore = some { r with next := r.next + 1 } ∧
          u.out = s.out ++ [.storeFetch c r.round (some (r.next + 1))] ∧
          ∀ a, memGet u.mem a = if l ≤ a ∧ a < l + data.length then data.getD (a - l) 0 else memGet s.mem a) ∧
      (good → m.leaves.length = r.next + 1 → leaves (.block r.round r.next data) fun y u => (u.ctx c).restored = true ∧
        y.phase = .idle ∧ y.restore = none ∧ y.leaves = m.leaves ∧
        (u.ctx c).cmd = none ∧ (u.ctx c).st = (s.ctx c).st) ∧
      (¬ good → r.noFallback = true → leaves (.block r.round r.next data) fails)))

/-! ### Faults and recovery -/

/-- What the NVM of s keeps in t when the module is cut off: its bundles and the halves of its journal, to which the first of
the records that were being written may have been added, with one more that has no good TAG (R454, R463; logs 55 and 165). -/
def nvmKept (s t : State) : Prop :=
  t.nvm = { bundles := s.nvm.bundles, half0 := t.nvm.half0, half1 := t.nvm.half1 } ∧
    (s.nvm.frozen = none → ∃ k rest, (rest.filter fun r => r.good).map (·.item) = s.nvm.queue.take k ∧ rest.length ≤ k + 1 ∧
      t.nvm.half0 = s.nvm.half0 ++ (if s.nvm.half then [] else rest) ∧
      t.nvm.half1 = s.nvm.half1 ++ if s.nvm.half then rest else [])

/-- R406, R408 to R415, R436, Tables 14.1 to 14.6: probes, the parts and the end of a purge, generations, engine and die
resets, and the escalation of what does not end in time. The resets that a trial counts, the causes, the notices, the hold
after the third attempt, and which units a context has work at are the model's choices (logs 53, 105, 113, 117 and 155). -/
def Obligations.PurgesAndResets : Prop :=
  (∀ (s : State) (u : UnitId),
    let e := resetUnit u
    exec (.probeAnswer u) s = .next (s.modRst fun r => { r with probes := r.probes.filter fun x => x != u }) ∧
    (u ∈ s.rst.probes → resetsAlone u = true → e ∉ s.rst.engines → ∃ t, exec (.probeTimeout u) s = .next t ∧
      t.rst.engines = s.rst.engines ++ [e] ∧ t.rst.cntProbe = min (s.rst.cntProbe + 1) (2 ^ 16 - 1) ∧ u ∉ t.rst.probes ∧
      (unitIn e 0x1800 512 = none → e ≠ uFeed 0 → ∀ c, s.workAt c e = true → (s.ctx c).st ≠ .empty →
        (s.ctx c).st ≠ .faulted → (t.ctx c).st = .faulted ∧ (t.ctx c).rst.lastReason = 0x0B08)) ∧
    (∀ c, u ∈ (s.ctx c).rst.fenced →
      (resetsAlone u = true → ∃ t, exec (.fenceTimeout c u) s = .next t ∧ e ∈ t.rst.engines) ∧
      ((s.ctx c).st ≠ .faulted → (s.ctx c).rst.purge = none → ∃ t, exec (.quiesceAck c u) s = .next t ∧
        u ∉ (t.ctx c).rst.fenced ∧
        (unitIn u 0x1000 2048 = none → unitIn u 0x1800 512 = none →
          t.threads = s.threads ∧ (unitIn u 0x300 8 = none → t.mem = s.mem)) ∧
        ∀ g, unitIn u 0x1000 2048 = some g → (t.core g).icache = [] ∧ (t.core g).tlb = [] ∧
          ∀ th, thCore th ≠ g → t.thr th = s.thr th)) ∧
    (∀ c p, (s.ctx c).rst.purge = some p → (s.ctx c).cmd = none → u ∈ p.units →
      ((∃ v ∈ p.units, v ≠ u) → ∃ t, exec (.quiesceAck c u) s = .next t ∧
        (t.ctx c).rst.purge = some { p with units := p.units.filter fun x => x != u }) ∧
      ((∀ v ∈ p.units, v = u) → ∃ t, exec (.quiesceAck c u) s = .next t ∧ (t.ctx c).rst.purge = none) ∧
      ∃ t, exec (.purgeBoundExpiry c) s = .next t ∧ (t.ctx c).rst.purge = none ∧
        (t.ctx c).rst.fenced = (s.ctx c).rst.fenced ++ p.units ∧ t.log.next = s.log.next + p.units.length + 1) ∧
    (e ∈ s.rst.engines →
      (∃ t, exec (.engineResetDone u) s = .next t ∧ e ∉ t.rst.engines ∧
        t.rst.cntEngine = min (s.rst.cntEngine + 1) (2 ^ 16 - 1) ∧
        ∀ q, unitIn e 0x1800 512 = some q → Memory.wf s.mem = true →
          (∀ th, thQuad th = q → t.thr th = { nextId := (s.thr th).nextId, late := (t.thr th).late } ∧
            (s.thr th).late ≤ (t.thr th).late) ∧
          (∀ th, thQuad th ≠ q → t.thr th = s.thr th) ∧
          ∀ a, memGet t.mem a = if benchLoc (4 * q) 0 ≤ a ∧ a < benchLoc (4 * q) 0 + 0x400000 then 0 else memGet s.mem a) ∧
      (∀ d, dieAbove e = some d → d ∉ s.rst.dieResets → ∃ t, exec (.engineResetTimeout u) s = .next t ∧
        e ∉ t.rst.engines ∧ t.rst.dieResets = s.rst.dieResets ++ [d] ∧
        t.rst.cntDie = min (s.rst.cntDie + 1) (2 ^ 16 - 1)))) ∧
  (∀ (s : State) (c : CtxId),
    ((s.ctx c).rst.purgeWaits = false →
      exec (.genGapExpiry c) s = .next (s.modCtxRst c fun r => { r with gap := false })) ∧
    ((s.ctx c).rst.purgeWaits = true → ∃ t, exec (.genGapExpiry c) s = .next t ∧ (t.ctx c).gen = (s.ctx c).gen + 1 ∧
      (t.ctx c).rst.purgeWaits = false ∧ (t.ctx c).rst.purge = some ⟨s.purgeUnits c, false⟩)) ∧
  (∀ (s : State) (v : Word),
    exec (.rstQuiesceWrite v) s =
      .next (s.modRst fun r => { r with quiesce := BitVec.ofNat 32 (max 8500 (v.toNat % 2 ^ 32)) }) ∧
    exec (.rstGenGapWrite v) s =
      .next (s.modRst fun r => { r with genGap := BitVec.ofNat 32 (max 108800 (v.toNat % 2 ^ 32)) })) ∧
  (∀ (s : State) (d : Nat), d ∈ s.rst.dieResets →
    (d < 8 → s.cfrac = 0 → Memory.wf s.mem = true → ∃ t, exec (.dieResetDone d) s = .next t ∧ d ∉ t.rst.dieResets ∧
      (∀ th : ThreadId, (th.toNat / 1024 = d → t.thr th = { nextId := (s.thr th).nextId, late := (t.thr th).late } ∧
          (s.thr th).late ≤ (t.thr th).late) ∧
        (th.toNat / 1024 ≠ d → t.thr th = s.thr th)) ∧
      ∀ a, memGet t.mem a =
        if benchLoc (256 * d) 0 ≤ a ∧ a < benchLoc (256 * d) 0 + 0x10000000 ∨
          0x200000000 + d * 0x20000000 ≤ a ∧ a < 0x200000000 + (d + 1) * 0x20000000 ∨
          0x1000000000 + d * 0x800000000 ≤ a ∧ a < 0x1000000000 + (d + 1) * 0x800000000
        then 0 else memGet s.mem a) ∧
    (d ≤ 8 → s.rst.due = none → s.rst.fhSecond ≠ s.clk.reeve / 212500000 →
      ∃ t, exec (.dieResetTimeout d) s = .next t ∧ t.rst.level = 4 ∧
        t.rst.due = some (0x0B04, if d = 8 then 0x0A01 else BitVec.ofNat 16 (0x300 + d)))) ∧
  (∀ s : State,
    let dead (i : Instr) (cause : Reason × BitVec 16) (third : Bool) (attempts : Nat) : Prop :=
      ∃ t, exec i s = .next t ∧ t.boot.phase = .resetEntry ∧ t.rst.modCause = some cause ∧ t.fuses = s.fuses ∧ t.mem = [] ∧
        nvmKept s t ∧ t.car.third = third ∧ t.rst.attempts = attempts ∧ t.rst.begun = s.rst.begun + 1 ∧ t.threads = [] ∧
        t.ctxs = [] ∧ t.pending = s.pending
    let n := s.rst.attempts + 1
    let served := s.boot.phase = .released ∨ s.boot.phase = .recovery
    (s.car.free = true →
      (served → dead .watchdogExpiry (0x0B13, 0x0C00) s.car.third s.rst.attempts) ∧
      (¬ served → dead .watchdogExpiry (0x0B13, 0x0C00) (s.car.third || decide (3 ≤ n)) n)) ∧
    (s.boot.phase ≠ .resetEntry → dead .lockstepMismatch (0x0B13, 0x0C00) s.car.third s.rst.attempts ∧
      dead .rootPllUnlock (0x0A07, 0x0C01) s.car.third s.rst.attempts) ∧
    (s.car.resetN = true → s.car.railsOn = true → dead .carrierReset (0, 0) false 0))

/-- R417 to R428: heartbeats, the death of a member, the switchover that freezes a ring's buckets and changes its roles, the
copy of a completed bucket, and the return of a replacement. The GO of a join, the leaves that JOIN carries, and the rings
of a replacement are the model's choices (logs 56, 57 and 156). -/
def Obligations.RingsAndSwitchover : Prop :=
  (∀ s : State,
    (∀ c r g, s.ring c r = some g → (s.ctx c).st ≠ .empty → ∃ t, exec .heartbeatSend s = .next t ∧
      t.ring c r = some { g with missed := (g.watch s.fab.module).map fun m =>
        (m, 1 + (match g.missed.find? fun e => e.1 == m with | some e => e.2 | none => 0)) } ∧
      ∀ m ∈ g.watch s.fab.module, m ∈ s.fab.holds → m ≠ 0xFFFF →
        ∃ q ∈ t.fab.held, q.hdr.dest = m ∧ q.hdr.typ = 0x50 ∧ q.body = .heartbeat) ∧
    (∀ k p, s.inboxAt k [0x50] = some p → p.body = .heartbeat → ∃ t, exec (.heartbeat k) s = .next t ∧
      t.fab.inbox = s.fab.inbox.eraseIdx k ∧ ∀ c r g, s.ring c r = some g → t.ring c r =
        some { g with missed := g.missed.map fun e => if e.1 == p.hdr.src then (e.1, 0) else e })) ∧
  (∀ (s : State) (c : CtxId) (g : RingSt) (m : ModuleNo) (x : Member), (s.ctx c).rings = [g] → (s.ctx c).st = .running →
    s.snapSec c = none → g.members.find? (fun y => y.module == m) = some x → m ∉ g.dead → m ≠ s.fab.module →
    (g.switch = none → g.queued = [] → (s.ctx c).rst.switchMask.getLsbD 0 = true → (s.ctx c).rst.filling = false →
      g.coordinator m ≠ some s.fab.module →
      let falls (i : Instr) : Prop := ∃ t, exec i s = .next t ∧
        t.ring c 0 = some { g with switch := some { dead := m, coordinator := false } } ∧ (t.ctx c).rst.deadMod = m ∧
        (t.ctx c).rst.deadValid = true ∧ (t.ctx c).st = .running
      ((∃ e ∈ g.missed, e.1 = m ∧ s.rst.hbMiss.toNat ≤ e.2) → m ∈ g.watch s.fab.module → falls (.peerDead c 0 m)) ∧
      (∀ k p, s.inboxAt k [0x50] = some p →
        (∀ b, p.body = .faultNotice c b → p.hdr.src = m → falls (.faultNotice k)) ∧
        (p.body = .deadNotice 0 m → p.hdr.dctx = c → falls (.deadNotice k)))) ∧
    (∀ k p, s.inboxAt k [0x50] = some p → p.hdr.dctx = c →
      (p.body = .switch 0 m → ∃ t, exec (.switch k) s = .next t ∧
        t.ring c 0 = some { g with
          switch := some { dead := m, coordinator := false, frozen := true }, queued := g.queued.filter fun y => y != m } ∧
        ∀ e < 8, ∀ j b, s.bucket e j = some b → t.bucket e j =
          some (if b.ctx == c && b.ring == 0 then { b with frozen := true } else b)) ∧
      (∀ w bs, p.body = .switchAck 0 bs → g.switch = some w → w.coordinator = true → g.queued = [] →
        (∃ y ∈ g.liveBut w.dead, y.module ≠ p.hdr.src ∧ ∀ e ∈ w.acks, e.1 ≠ y.module) →
        ∃ t, exec (.switchAck k) s = .next t ∧ t.ring c 0 = some { g with switch := some { w with
          acks := (w.acks.filter fun e => e.1 != p.hdr.src) ++ [(p.hdr.src, bs)] } }) ∧
      ((∀ e < 8, (s.redEng e).slots = []) → g.lastOf m = false → g.queued = [] →
        let drops := x.shadow = false ∧ g.heir m = none
        ∀ go, p.body = .go 0 m go false → ∃ t, exec (.go k) s = .next t ∧
          (t.ctx c).rst.switches = min ((s.ctx c).rst.switches + 1) (2 ^ 16 - 1) ∧
          ∃ g', t.ring c 0 = some g' ∧ g'.dead = g.dead ++ [m] ∧ g'.switch = none ∧
            (drops → g'.dropped = g.dropped ++ [x.shard]) ∧ (¬ drops → g'.dropped = g.dropped) ∧
            g'.members = g.members.map fun y => if y.module == m then { y with shadow := true }
              else if some y.module == g.heir m then { y with shadow := false } else y) ∧
      (∀ id step res info recv e j b rec, p.body = .bucketCopy 0 id step res [] info recv →
        s.findBucket c 0 id step = some (e, j) → s.bucket e j = some b → b.frozen = true → b.ended = false →
        b.reg = some rec → (s.tally rec.doneTally).q = [] →
        ∃ t, exec (.bucketCopy k) s = .next t ∧ t.bucket e j = none ∧
          t.mem = (((s.poke rec.res res).putDigest c 0 id step fun d => { d with recv := recv, roll := b.roll }).writeStatus
            c rec.k (statusBits b 0 false false) info.toNat).mem))) ∧
  (∀ (s : State) (c : CtxId) (g : RingSt) (k : Nat) (p : Packet), (s.ctx c).rings = [g] → s.inboxAt k [0x50] = some p →
    p.hdr.dctx = c →
    (∀ shard layout ls img sec, p.body = .join 0 shard layout ls → (s.ctx c).img = some img → img.snap = some sec →
      p.hdr.src ∈ g.dead → s.myShard g = shard →
      (layout = layoutOf img → (s.ctx c).snap.join = none → (s.ctx c).snap.joinQueue = [] → exec (.join k) s =
        .next ((s.dropInbox k).modSnap c fun y => { y with join := some p.hdr.src, joinLeaves := ls })) ∧
      (layout ≠ layoutOf img → ∃ t, exec (.join k) s = .next t ∧ (t.ctx c).snap = (s.ctx c).snap ∧
        t.log.next ≥ s.log.next + 1)) ∧
    (∀ m, p.body = .go 0 m [] true → m ≠ s.fab.module → (s.ctx c).st = .running → ∃ t, exec (.go k) s = .next t ∧
      let shard := (g.members.find? fun y => y.module == m).map (·.shard)
      t.ring c 0 = some { g with
        members := g.members.map fun y => if some y.shard == shard then { y with shadow := y.module == m } else y
        dropped := g.dropped.filter fun x => some x != shard
        dead := g.dead.filter fun y => y != m, missed := g.missed.filter fun e => e.1 != m })) ∧
  (∀ (s : State) (c : CtxId), (s.ctx c).st = .running →
    ((s.ctx c).rst.fill = .joinSent ∨ (s.ctx c).rst.fill = .held → ∃ t, exec (.joinHoldExpiry c) s = .next t ∧
      (t.ctx c).rst.fill = .abandoned ∧ (t.ctx c).st = .faulted ∧ (t.ctx c).rst.lastReason = 0x0B11) ∧
    (∀ m img sec, (s.ctx c).rst.fill = .none → (s.ctx c).snap.join = some m → (s.ctx c).snap.busy = true →
      (s.ctx c).img = some img → img.snap = some sec → (s.bell sec.stepBell).snapHold = false → (s.ctx c).cmd = none →
      (s.ctx c).snap.joinQueue = [] → ∃ t, exec (.joinHoldExpiry c) s = .next t ∧
        (t.ctx c).snap.join = none ∧ (t.ctx c).snap.phase = .idle ∧ (t.ctx c).st = .running) ∧
    (∀ g w, s.ring c 0 = some g → g.switch = some w → ∃ t, exec (.switchoverBoundExpiry c 0) s = .next t ∧
      (t.ctx c).st = .faulted ∧ (t.ctx c).rst.lastReason = 0x0B0C ∧ t.ring c 0 = some { g with switch := none, queued := [] }))

/-! ### Boot, journal, Vault, update -/

/-- R434 to R464: the boot from its start to release, the journal and its compaction, the Vault's DRBG and its failures, the
staging and the commit of an update. A record that reads back wrong, a cut journal, the Gate in RECOVERY, and the order of a
replay are the model's choices (logs 52, 55, 89 and 165). -/
def Obligations.BootAndUpdate : Prop :=
  (∀ s : State,
    let leaves (i : Instr) (p : State → Prop) : Prop := ∃ t, exec i s = .next t ∧ p t
    let n := s.nvm
    let slot := n.slot
    (s.boot.phase = .resetEntry → s.boot.stopped = false → s.car.free = true → exec .bootStart s = .next { s with
      boot := { s.boot with phase := .fuse, start := s.clk.reeve, ownFeed := s.car.ownFeed }
      pwr := { s.pwr with locked := true } }) ∧
    (s.inPhase .fuse = true → s.fuses.lifecycle ≠ 0x03 → s.vault.st = .selftest →
      exec (.fuse .uncorrectable) s = .next (s.modBoot fun b => { b with stopped := true }) ∧
      leaves (.fuse .corrected) (fun t => t.boot = { s.boot with phase := .fwVerify, fuseFixed := s.boot.fuseFixed + 1 } ∧
        t.log.next > s.log.next) ∧
      leaves (.fuse .clean) fun t => t.boot = { s.boot with phase := .fwVerify } ∧ t.rst.begun = 0 ∧
        t.vault = { s.vault with st := .ready, generates := 0, reseeds := (s.vault.reseeds + 1) % 2 ^ 32 } ∧
        let m := s.replayJournal.nvm
        t.nvm = { m with queue := m.queue ++
          [.counters m.fwSvn m.cfgSvn ((m.resets + s.rst.begun) % 2 ^ 32) ((m.boots + 1) % 2 ^ 32)] ++
          (if m.slot.trial = true ∧ s.rst.begun ≠ 0 then
            [.slot { m.slot with tries := min 3 (m.slot.tries + s.rst.begun) }] else []) ++
          (match s.boot.ownFeed with
            | some own => if m.ownFeed = some own then [] else [.pairing own m.partner m.partnerFeed]
            | none => []) }) ∧
    (∀ slot' f c r b e x, n.half1 = [] → n.half0 = [⟨1, .slot slot', true⟩, ⟨2, .catalogue e, true⟩, ⟨3, x, false⟩,
        ⟨3, .counters f c r b, true⟩] →
      let m := s.replayJournal.nvm
      m.slot = slot' ∧ m.fwSvn = f ∧ m.cfgSvn = c ∧ m.resets = r ∧ m.boots = b ∧ m.catalogue = n.catalogue ++ [e] ∧
        m.seq = 3 ∧ m.records = 4 ∧ m.half = false ∧ m.tagFail = min (n.tagFail + 1) (2 ^ 16 - 1) ∧
        s.replayJournal.log.next = s.log.next + 1) ∧
    (∀ b, s.inPhase .fwVerify = true → s.vault.st = .ready → s.bundleOf slot.active = some b →
      (slot.trial = true → slot.tries < 3) → b.firmware.sigOk = true →
      (s.verifyErr b.firmware 1 true = none → formatErr b.firmware 1 none = none → leaves (.fwVerify true) fun t =>
        t.boot = { s.boot with phase := .cfg, fw := some b.firmware, trial := slot.trial
                               sram := (Config.reeveCode b.firmware.digest).take 0x100000 } ∧
        t.vault.verifies = (s.vault.verifies + 1) % 2 ^ 32 ∧ t.log = s.log) ∧
      (∀ code, s.verifyErr b.firmware 1 false = some code → s.boot.tried = [] → slot.staging ≠ some (!slot.active) →
        leaves (.fwVerify false) fun t => t.boot = { s.boot with
            phase := .fwVerify, fallback := true, trial := false, reason := code, tried := [slot.active] } ∧
          t.nvm.queue = [.slot { slot with
            active := !slot.active, trial := false, tries := 0, staging := none, staged := false }] ∧
          t.log.next = s.log.next + 2)) ∧
    (∀ b, s.inPhase .cfg = true → s.vault.st ≠ .error → s.boot.enable = false → s.bundleOf slot.active = some b →
      b.module.hdr.sigOk = true → s.verifyErr b.module.hdr 2 true = none → formatErr b.module.hdr 2 none = none →
      transferBad b.module = false → s.modErr b.module true = none →
      let inForce (t : State) : Prop := t.boot = { s.boot with enable := true, phase := .train, mod := some b.module } ∧
        t.fab.module = b.module.fabric.module ∧ t.fab.routes = b.module.fabric.routes ∧ t.gate.keys = b.module.gate.keys ∧
        t.gate.addr = b.module.gate.addr ∧ t.pwr.policy = (policyOf (b.module.policy.getD defaultPolicy)).1
      leaves (.cfg true) inForce ∧ leaves .bootCtlEnable inForce) ∧
    (s.inPhase .train = true → (s.gran 0).trained = false →
      exec (.train false) s = .next (s.modBoot fun b => { b with stopped := true }) ∧
      leaves (.train true) fun t => (∀ k < 12, (t.gran k).trained = true) ∧ t.boot = s.boot ∧
        (∀ m < 4, (t.laser m).enabled = true) ∧
        ∀ a, memGet t.mem a = if 0x100000000 ≤ a ∧ a < 0x180000000 ∨ 0x200000000 ≤ a ∧ a < 0x300000000 then 0
          else memGet s.mem a) ∧
    (s.inPhase .train = true → (s.gran 0).trained = true →
      (∀ m f, s.boot.mod = some m → slot.trial = true → s.boot.fw = some f → m.transfer = none → s.vault.st = .ready →
        leaves .release fun t => t.boot = s.boot ∧ t.nvm.queue =
          [.counters (max n.fwSvn f.svn) (max n.cfgSvn m.hdr.svn) n.resets n.boots,
           .slot { slot with trial := false, tries := 0, staging := none, staged := false }]) ∧
      (∀ m, s.boot.mod = some m → slot.trial = false → leaves .release fun t => t.boot = { s.boot with
          phase := .released, time := (s.clk.reeve - s.boot.start) % 2 ^ 32 } ∧
        t.rst.attempts = 0 ∧ t.rst.modCause = none ∧ t.mem = s.mem) ∧
      (s.boot.mod = none → leaves .release fun t => t.boot.phase = .recovery ∧ t.gate.enable = true ∧
        t.gate.port = 49880 ∧ t.gate.keys = [] ∧ t.gate.linkLocalOnly = true)) ∧
    (∀ j rest, s.vault.st = .ready → n.queue = j :: rest →
      let w (good : Bool) : Nvm := { n with
        seq := n.seq + 1, records := n.records + 1
        half0 := if n.half then n.half0 else n.half0 ++ [⟨n.seq + 1, j, good⟩]
        half1 := if n.half then n.half1 ++ [⟨n.seq + 1, j, good⟩] else n.half1 }
      exec (.journalReadback false) s = .next { s with nvm := { w false with tagFail := min (n.tagFail + 1) (2 ^ 16 - 1) } } ∧
      (s.rst.due = none →
        (∀ r, j = .slot r → s.seqr.modCmd = none → s.boot.phase = .train → s.boot.mod.isSome = true → slot.trial = true →
          r.trial = false → leaves (.journalReadback true) fun t => t.nvm.slot = r ∧
            t.boot = { s.boot with trial := false } ∧ t.log.next = s.log.next + 1) ∧
        (∀ f c r b, j = .counters f c r b → exec (.journalReadback true) s =
          .next { s with nvm := { w true with queue := rest, fwSvn := f, cfgSvn := c, resets := r, boots := b } }) ∧
        (∀ e, j = .fault e → exec (.journalReadback true) s = .next { s with
          nvm := { w true with queue := rest }
          rst := { s.rst with history := sset s.rst.fhNext e s.rst.history, fhNext := (s.rst.fhNext + 1) % 16384
                              fhWrapped := s.rst.fhWrapped || s.rst.fhNext == 16383 } }) ∧
        (∀ own p f, j = .pairing own p f → exec (.journalReadback true) s =
          .next { s with nvm := { w true with queue := rest, ownFeed := some own, partner := p, partnerFeed := f } }))) ∧
    (n.frozen = none → s.vault.st = .ready → (if n.half then 196416 else 196608) ≤ n.records →
      exec .journalCompact s = .next { s with nvm := { n with
        frozen := some (n.seq, s.items)
        half0 := if n.half then [] else n.half0, half1 := if n.half then n.half1 else [] } }) ∧
    (∀ a items, n.frozen = some (a, items) → s.vault.st = .ready → leaves .journalCompactDone fun t =>
      t.nvm.half = !n.half ∧ t.nvm.frozen = none ∧ t.nvm.compactions = min (n.compactions + 1) (2 ^ 16 - 1) ∧
      t.nvm.queue = n.queue ∧
      (let old := if n.half then n.half1 else n.half0
       let new := checkpointOf a n.seq items ++ old.filter fun r => r.good && decide (a < r.seq)
       (if n.half then t.nvm.half0 else t.nvm.half1) = new ∧ (if n.half then t.nvm.half1 else t.nvm.half0) = old ∧
        t.nvm.records = new.length) ∧
      ∀ c, let mine := n.catalogue.filter fun e => e.ctx == c
        t.nvm.catalogue.filter (fun e => e.ctx == c) = mine.drop (mine.length - 64)) ∧
    (s.vault.st = .ready → 2 ^ 20 ≤ s.vault.generates → exec .drbgReseed s = .next { s with
      vault := { s.vault with generates := 0, reseeds := (s.vault.reseeds + 1) % 2 ^ 32 } }) ∧
    (∀ selftest, s.vault.st ≠ .error → s.boot.phase ≠ .resetEntry → leaves (.vaultHealthFail selftest) fun t =>
      t.vault = { s.vault with st := .error, reason := if selftest then 0x0909 else 0x0908 } ∧
      t.log.next = s.log.next + 1 ∧
      t.boot = { s.boot with stopped := if s.boot.phase = .released ∨ s.boot.phase = .recovery
        then s.boot.stopped else true })) ∧
  (∀ (s : State) (r : ReqHdr), r.context = 0xFF →
    let slot := s.nvm.slot
    let leaves (op : Nat) (i : Instr) (p : State → Prop) : Prop := admitted s r op → ∃ t, exec i s = .next t ∧ p t
    (∀ off len b, len ≤ 9078 → chunkOk s.boot.stage r.session off = true →
      (r.final = false → s.vault.st = .ready → leaves 0x0C (.fwStage r off len b) fun t => answers t r .fwStage 0 .none ∧
        t.boot.stage = some (r.session, off + len) ∧
        t.nvm.queue = s.nvm.queue ++ if s.boot.stage.isSome then []
          else [.slot { slot with staging := some (!slot.active), staged := false }]) ∧
      (r.final = true → s.vault.st = .ready → b.firmware.sigOk = true → b.module.hdr.sigOk = true →
        s.verifyErr b.firmware 1 true = none → s.verifyErr b.module.hdr 2 true = none →
        formatErr b.firmware 1 (some (off + len)) = none →
        formatErr b.module.hdr 2 (some (off + len - 0x1000000)) = none → transferBad b.module = false →
        s.modErr b.module false = none → leaves 0x0C (.fwStage r off len b) fun t => answers t r .fwStage 0 .none ∧
          t.boot.stage = none ∧ t.bundleOf (!slot.active) = some b ∧ t.bundleOf slot.active = s.bundleOf slot.active ∧
          JChange.slot { slot with staging := some (!slot.active), staged := true, digest := b.digest } ∈ t.nvm.queue)) ∧
    ((∀ c, (s.ctx c).st = .empty) → s.vault.st = .ready →
      (slot.staging = some (!slot.active) → slot.staged = true → leaves 0x0D (.fwCommit r) fun t =>
        t.seqr.modCmd = some ⟨r.session, r.seq, .fwCommit, 0xFF⟩ ∧ t.nvm.queue = s.nvm.queue ++
          [.slot { slot with active := !slot.active, previous := slot.active, trial := true, tries := 0 }]) ∧
      (slot.staged = false → leaves 0x0D (.fwCommit r) fun t => answers t r .fwCommit 0x090B .none ∧ t.nvm = s.nvm)))

/-! ### The Reeve and the carrier -/

/-- R466 to R488: the loops choose the level of each die as the largest of three floors; clocks of idle domains stop. The
input power that a sample sums to, the window of PWR_LEVEL, a cut journal, and what the loss of the rails forgets are the
model's choices (logs 55, 95, 104 and 107). -/
def Obligations.PowerLoopsAndClocks : Prop :=
  ∀ s : State,
    let leaves (i : Instr) (p : State → Prop) : Prop := ∃ t, exec i s = .next t ∧ p t
    let p := s.pwr
    let k := p.policy
    let inForce (t : State) : Prop := ∀ d < 8, (t.dieClk d).level = max t.pwr.lp (max (t.dieClk d).lt t.pwr.lf)
    (∀ o x, s.sampling = true → p.last = some o → jumpedTemps o x = [] → jumpedRails o x = [] → x.badTemp = [] →
      x.badRail = [] → p.failT = [] → p.failR = [] → p.off = [] → x.outlet < 1100 →
      (∀ l ∈ x.temps, ∀ t ∈ l, t < 1100) → inForce s →
      let power := ((x.rails.take 22).map fun e => e.1 * e.2).sum / 10000
      let vin := ((x.rails[22]?).getD (0, 0)).2 / 10
      let h := power :: p.hist
      let fast := k.pcap * k.fastlim < power * 100 ∧ p.lp < 11
      let slow := k.dwell ≤ h.length ∧ k.pcap * h.length < h.sum ∧ p.lp < 11
      let down := k.uphold ≤ h.length ∧ (h.take k.uphold).sum * 100 < k.pcap * (100 - k.hyst) * k.uphold ∧ 0 < p.lp
      leaves (.sample x) fun t => inForce t ∧ t.pwr.last = some x ∧ t.pwr.samples = p.samples + 1 ∧
        t.pwr.stamp = s.clk.reeve ∧ t.mem = s.mem ∧
        t.pwr.lp = (if fast then min 11 (p.lp + 2) else if slow then p.lp + 1 else if down then p.lp - 1 else p.lp) ∧
        t.pwr.lf = (if vin < 4000 ∨ 6000 < vin then 11 else if 99 ≤ p.good then 0 else p.lf)) ∧
    (∀ x, s.sampling = true → p.last = some x → inForce s → leaves .thermalCompare fun t => inForce t ∧
      t.pwr.lp = p.lp ∧ t.pwr.lf = p.lf ∧ ∀ d < 8, ∀ (l : List Int), ∀ c ∈ l, x.temps[d]? = some l → (∀ e ∈ l, e ≤ c) →
        (t.dieClk d).lt = if k.tThrot * 10 < c then min 11 ((s.dieClk d).lt + 1)
          else if c < k.tThrot * 10 - 50 ∧ 99 ≤ (s.dieClk d).cool then (s.dieClk d).lt - 1 else (s.dieClk d).lt) ∧
    (∀ d : DieId, let x := s.dieClk d.toNat
      x.pending ≠ 0 → exec (.settleExpiry d) s = .next (s.modDieClk d.toNat fun y => { y with
        pending := 0, idle := ladderIdle y.level, edges := 0, next := if x.pending = x.div then 0 else x.pending
        setDiv := if x.pending = x.div then x.div else y.setDiv })) ∧
    (∀ (d : DieId) (cause : BitVec 2) (w : Nat), (s.dieClk d.toNat).win.find? (fun e => e.1 == cause.toNat) =
        some (cause.toNat, w) →
      (w < 256 → exec (.pwrLevelWindowEnd d cause) s =
        .next (s.modDieClk d.toNat fun y => { y with win := sdel cause.toNat y.win })) ∧
      (256 ≤ w → (s.dieClk d.toNat).level ≠ w % 256 → leaves (.pwrLevelWindowEnd d cause) fun t =>
        t.log.next = s.log.next + 1 ∧ t.dieClk d.toNat =
          { s.dieClk d.toNat with win := sset cause.toNat (s.dieClk d.toNat).level (s.dieClk d.toNat).win })) ∧
    (∀ (m : Margin) (i : BitVec 3) (c : Nat), s.sampling = true → m.corrected[i.toNat]? = some c →
      (∀ j e, j ≠ i.toNat → m.corrected[j]? = some e → e ≤ (s.port m.port.toNat).margin.toNat) →
      exec (.linkMarginRead [m]) s =
        .next (if (s.port m.port.toNat).margin.toNat < c then s.reeveDrop m.port.toNat i else s)) ∧
    (∀ d < 10, s.car.railsOn = true → leaves (.comparatorTrip d) fun t => t.car = { s.car with latch := true, under := false } ∧
      t.boot.phase = .resetEntry ∧ t.mem = [] ∧ t.rst.modCause = none ∧ t.fuses = s.fuses ∧ nvmKept s t) ∧
    (∀ g : CoreId, (∀ i < 4, let t := s.thr (mkTh g.toNat i)
        (t.st = .halted ∨ t.st = .paused) ∧ t.flying = false) →
      exec (.coreGate g) s = .next (s.modCore g.toNat fun c => { c with gated := true })) ∧
    (∀ q : QuadId, s.engineQuiet (q.toNat / 2 * 2) = true → s.engineQuiet (q.toNat / 2 * 2 + 1) = true →
      leaves (.quadGate q) fun t => t = { s with pwr := t.pwr } ∧
        t.pwr = { p with quadOn := p.quadOn.filter fun j => j != q.toNat / 2 }) ∧
    (∀ h : Fin 2, s.hubQuiet h.val = true → leaves (.hubEngineGate h) fun t => t = { s with pwr := t.pwr } ∧
      t.pwr = { p with hubOn := p.hubOn.filter fun j => j != h.val })

/-- R472: a root PLL that loses lock starts a module reset with cause PWR_PLL; a PHY PLL's unit is reset alone (R412), or
with its die where it is a link of the die (R413), and the loss is counted. The unit of the cause, and the reset of a link's
PLL, are DEDUCED (log 105). -/
def Obligations.PllLossOfLock : Prop :=
  ∀ s : State, s.boot.phase ≠ .resetEntry →
    let leaves (i : Instr) (p : State → Prop) : Prop := ∃ t, exec i s = .next t ∧ p t
    let lost (t : State) : Prop := t.pwr.lostLocks = min (s.pwr.lostLocks + 1) (2 ^ 8 - 1)
    (leaves .rootPllUnlock fun t => t.boot.phase = .resetEntry ∧ t.rst.modCause = some (0x0A07, 0x0C01)) ∧
    (∀ u, ownPll u = true → resetsAlone u = true → u ∉ s.rst.engines →
      leaves (.phyPllUnlock u) fun t => t.rst.engines = s.rst.engines ++ [u] ∧ lost t) ∧
    (∀ d, d < 8 → d ∉ s.rst.dieResets →
      leaves (.phyPllUnlock (uDieMem d)) fun t => t.rst.dieResets = s.rst.dieResets ++ [d] ∧ lost t)

/-- R11, R14, R316, R330, R490 to R506, Tables 17.1 to 17.3: loss and return of voltages and the reference, RESET_N, and the
registers that outside writes set; a write that no register takes changes nothing. That standby clears the latch and the
hold, and the widths at which outside writes are taken, are DEDUCED (logs 97 and 109). -/
def Obligations.CarrierAndRegisters : Prop :=
  (∀ s : State,
    let off (i : Instr) (car : Carrier) : Prop := ∃ t, exec i s = .next t ∧ t.car = car ∧ t.boot = {} ∧ t.mem = [] ∧
      t.threads = [] ∧ t.ctxs = [] ∧ t.fuses = s.fuses ∧ t.pending = s.pending ∧ nvmKept s t
    let back (i : Instr) (car : Carrier) : Prop :=
      (car.free = false → exec i s = .next { s with car := car }) ∧
      (car.free = true → s.boot.phase = .resetEntry → s.boot.stopped = false → ∃ t, exec i s = .next t ∧ t.car = car ∧
        t.boot.phase = .fuse ∧ t.boot.start = s.clk.reeve ∧ t.mem = s.mem)
    (∀ mv : Int, -60000 ≤ mv → mv ≤ 65000 →
      (38000 ≤ mv ∧ mv ≤ 62000 → exec (.vinLockout mv) s = .next s) ∧
      (¬ (38000 ≤ mv ∧ mv ≤ 62000) → off (.vinLockout mv)
        { s.car with vin := false, under := s.car.under || decide (mv < 38000), third := false })) ∧
    off .vstbyLoss { s.car with vstby := false, latch := false, under := false, third := false } ∧
    off .refclkLoss { s.car with refclk := false } ∧
    back .vinReturn { s.car with vin := true, latch := s.car.latch && !s.car.under, under := false } ∧
    back .vstbyReturn { s.car with vstby := true } ∧
    back .refclkReturn { s.car with refclk := true } ∧
    back .resetNRise { s.car with resetN := true }) ∧
  (∀ (s : State) (v : Word),
    let w (b off : Nat) (t : State) : Prop :=
      exec (.registerWrite (BitVec.ofNat 64 (0xF000000000 + b * 0x10000 + off)) v 8) s = .next t
    s.boot.phase ≠ .resetEntry →
    (∀ d < 8, w (0x300 + d) 0x38 (s.modDie d fun x => { x with scrub := v.setWidth 48 })) ∧
    (∀ g < 12, w (0x310 + g) 0x20 (s.modGran g fun x => { x with hotth := v.setWidth 32 }) ∧
      w (0x310 + g) 0x28 (s.modGran g fun x => { x with scrub := v.setWidth 48 })) ∧
    (∀ p < 16, w (0x700 + p) 0x28 (s.modPort p fun x => { x with margin := v.setWidth 32 })) ∧
    w 0x710 0x18 (s.modFab fun b => { b with retrain := v.setWidth 32, ackto := (v >>> 32).setWidth 16 }) ∧
    w 0x710 0x20 (s.modFab fun b => { b with routeSel := v.setWidth 16 }) ∧
    w 0xB00 0x10 (s.modRst fun r => { r with engTo := v.setWidth 32 }) ∧
    w 0xB00 0x18 (s.modRst fun r => { r with hbPeriod := v.setWidth 32, hbMiss := (v >>> 32).setWidth 4 }) ∧
    w 0xB00 0x28 (s.modRst fun r => { r with probeTo := v.setWidth 32 }) ∧
    w 0xB00 0x40 (s.modRst fun r => { r with fhSel := v.setWidth 14 }) ∧
    (v.getLsbD 0 = false →
      ((s.port 16).st ≠ .up →
        w 0x900 0x00 ((s.modGate fun g => { g with enable := false }).modPort 16 fun x =>
          { x with st := .disabled, txWidth := 0, rxWidth := 0 })) ∧
      ((s.port 16).st = .up → ∃ t, exec (.registerWrite 0xF009000000 v 8) s = .next t ∧ t.gate.enable = false ∧ (t.port 16).st = .disabled ∧
        t.log.next = s.log.next + 1) ∧
      w 0xD00 0x00 (s.modBoot fun b => { b with enable := false }) ∧
      ∀ c : CtxId, w (0xA10 + c.toNat) 0x00 (s.modSnap c fun x => { x with sched := false })) ∧
    (∀ addr bytes, bytes ≠ 8 ∨ addr.toNat < 0xF000000000 ∨ addr.toNat % 8 ≠ 0 →
      exec (.registerWrite addr v bytes) s = .next s))

/-! ### Steps, reset, invariants -/

/-- A step with a command at the front of its queue is that command's effect, on the state with the queue's rest (log 1). -/
def Obligations.StepRunsFrontCommand : Prop :=
  ∀ (s : State) (c : Instr) (rest : List Instr),
    step { s with pending := c :: rest } = exec c { s with pending := rest }

/-- R8, R9, R59, R469, Table 16.2: a step of an empty queue passes one cycle of the root clock where it runs; the mesh,
uncore and Reeve clocks count every second, eighth and sixteenth one, and an ordered divider switches at an edge of its die at
which no array is inside a beat (R471). That time passes there, and nowhere else, is the
model's choice (log 11). -/
def Obligations.EmptyQueueCountsTime : Prop :=
  ∀ s : State, s.pending = [] → ∃ t, step s = .next t ∧ t.mem = s.mem ∧ t.ctxs = s.ctxs ∧ t.log = s.log ∧ t.out = s.out ∧
    t.pending = [] ∧
    (s.pwr.locked = false → t = s) ∧
    (s.pwr.locked = true → (∀ d < 8, (s.dieClk d).next ≠ 0 → (s.dieClk d).div ≤ sget 0 s.clk.corePhase d + 1 →
        (∀ g, g / 256 = d → (s.core g).arr ≠ .active) →
        (t.dieClk d).div = (s.dieClk d).next ∧ (t.dieClk d).next = 0) ∧
      t.clk.phase = s.clk.phase + 1 ∧ t.clk.mesh = t.clk.phase / 2 ∧
      t.clk.uncore = t.clk.phase / 8 ∧ t.clk.reeve = t.clk.phase / 16 ∧
      (∀ d < 8, (s.dieClk d).div ≤ sget 0 s.clk.corePhase d + 1 →
        sget 0 t.clk.core d = sget 0 s.clk.core d + 1 ∧ sget 0 t.clk.corePhase d = 0) ∧
      ∀ th, (t.thr th).xr = (s.thr th).xr ∧ (t.thr th).pc = (s.thr th).pc ∧ (t.thr th).st = (s.thr th).st)

/-- R194, R414, R434 and the reset columns of the register tables: what reset leaves, for the values the manual gives. The
empty queue and what unwritten memory reads as are the model's choices (logs 1 and 4). -/
def Obligations.ResetState : Prop :=
  let s := State.reset
  s.pending = [] ∧ (∀ a, memGet s.mem a = 0) ∧ Memory.wf s.mem = true ∧ s.boot.phase = .resetEntry ∧ s.boot.enable = false ∧
    s.vault.st = .selftest ∧ s.gate.enable = false ∧ s.gate.sessions = [] ∧ s.rst.quiesce = 53125 ∧ s.rst.engTo = 212500 ∧
    s.rst.hbPeriod = 21250 ∧ s.rst.hbMiss = 3 ∧ s.rst.genGap = 108800 ∧ s.rst.probeTo = 2125 ∧ s.pwr.locked = false ∧
    (∀ c : CtxId, (s.ctx c).st = .empty ∧ (s.ctx c).gen = 0 ∧ (s.ctx c).img = none) ∧
    (∀ th : ThreadId, (s.thr th).st = .halted ∧ (s.thr th).enabled = false) ∧ (∀ d < 8, (s.dieClk d).div = 4) ∧
    (∀ q, s.quadCtx q = none) ∧ ∀ p < 17, (s.port p).st = .disabled

/-- A memory in its canonical form stays so at every step, whatever command runs. -/
def Obligations.StepKeepsMemoryCanonical : Prop :=
  ∀ s t : State, Memory.wf s.mem = true → step s = .next t → Memory.wf t.mem = true

/-- R492, Table 17.2: no command stops but VIN_LOCKOUT, and that only where the voltage passes the absolute limits, for
which the manual promises nothing. That VIN_LOCKOUT stops there is the model's choice (log 108). -/
def Obligations.OnlyVinLockoutStops : Prop :=
  (∀ (s : State) (c : Instr), (∀ mv, c = .vinLockout mv → -60000 ≤ mv ∧ mv ≤ 65000) → completes (exec c s)) ∧
  (∀ (s : State) (mv : Int), mv < -60000 ∨ 65000 < mv → exec (.vinLockout mv) s = .fault .beyondAbsoluteLimits)
end

