-- ==== Sys2Proof/Laws/Sparse.lean ====
section
/-!
SUPPORT. Laws of the sparse tables and of the byte memory: a read after a write, writes elsewhere, and the canonical form
that every memory operation keeps.
-/

namespace Sys2Proof.Machine

/-! ### Tables -/

@[simp] theorem sget_nil {α : Type} (d : α) (k : Nat) : sget d [] k = d := rfl

theorem sget_cons {α : Type} (d : α) (k' : Nat) (v : α) (m : SMap α) (k : Nat) :
    sget d ((k', v) :: m) k = if k = k' then v else sget d m k := rfl

/-- A table reads at k what was put there, and elsewhere what it read before. -/
theorem sget_sset {α : Type} (d : α) (k : Nat) (v : α) (m : SMap α) (j : Nat) :
    sget d (sset k v m) j = if j = k then v else sget d m j := by
  induction m with
  | nil => rfl
  | cons e m ih =>
    obtain ⟨k', v'⟩ := e
    by_cases h1 : k < k'
    · simp only [sset, if_pos h1, sget_cons]
    · by_cases h2 : k = k'
      · subst h2
        simp only [sset, if_neg h1, if_true, sget_cons]
        by_cases hj : j = k <;> simp [hj]
      · simp only [sset, if_neg h1, if_neg h2, sget_cons, ih]
        by_cases hj : j = k'
        · rw [if_pos hj, if_neg (by omega), if_pos hj]
        · rw [if_neg hj, if_neg hj]

@[simp] theorem sget_sset_self {α : Type} (d : α) (k : Nat) (v : α) (m : SMap α) : sget d (sset k v m) k = v := by
  simp [sget_sset]

theorem sget_sset_ne {α : Type} (d : α) {k j : Nat} (v : α) (m : SMap α) (h : j ≠ k) :
    sget d (sset k v m) j = sget d m j := by simp [sget_sset, h]

/-- The last entry put at a key is the one that stays. -/
@[simp] theorem sset_sset {α : Type} (k : Nat) (v w : α) (m : SMap α) : sset k v (sset k w m) = sset k v m := by
  induction m with
  | nil => simp [sset]
  | cons e m ih =>
    obtain ⟨k', v'⟩ := e
    by_cases h1 : k < k'
    · simp [sset, h1]
    · by_cases h2 : k = k'
      · simp [sset, h2]
      · simp [sset, h1, h2, ih]

/-- Changing an entry twice is changing it once. -/
theorem smod_smod {α : Type} (d : α) (k : Nat) (f g : α → α) (m : SMap α) :
    smod d k f (smod d k g m) = smod d k (fun x => f (g x)) m := by simp [smod]

theorem sget_smod {α : Type} (d : α) (k : Nat) (f : α → α) (m : SMap α) (j : Nat) :
    sget d (smod d k f m) j = if j = k then f (sget d m k) else sget d m j := by simp [smod, sget_sset]

@[simp] theorem sget_smod_self {α : Type} (d : α) (k : Nat) (f : α → α) (m : SMap α) :
    sget d (smod d k f m) k = f (sget d m k) := by simp [sget_smod]

/-! ### Memory -/

@[simp] theorem memGet_nil (a : Nat) : memGet [] a = 0 := rfl

/-- A byte of memory that was written reads so, and every other byte reads as before. -/
theorem memGet_memSet_le (a : Nat) (b : Byte) (m : List Host.Cell) (h : Memory.wf m = true) (j : Nat) :
    memGet (memSet a b m) j = if j = a then b else memGet m j := by
  have low : ∀ (m : List Host.Cell) (k : Nat) (v : Byte), Memory.wf ((k, v) :: m) = true →
      ∀ j, j ≤ k → memGet m j = 0 := by
    intro m
    induction m with
    | nil => intros; rfl
    | cons e m ih =>
      obtain ⟨k', v'⟩ := e
      intro k v hw j hj
      simp only [Memory.wf, Bool.and_eq_true, decide_eq_true_eq] at hw
      have : j ≠ k' := by omega
      simp only [memGet, sget_cons, if_neg this]
      exact ih k' v' hw.2 j (by omega)
  induction m with
  | nil =>
    by_cases hb : b = 0
    · by_cases hj : j = a <;> simp only [memSet, memGet, sget_nil, hj, if_true, if_false, hb]
    · simp only [memSet, memGet, if_neg hb, sget_cons, sget_nil]
  | cons e m ih =>
    obtain ⟨k, v⟩ := e
    have hm : Memory.wf m = true := by
      cases m with
      | nil => rfl
      | cons e m => simp only [Memory.wf, Bool.and_eq_true] at h; exact h.2
    have hl := low m k v h
    by_cases h1 : a < k
    · by_cases hb : b = 0
      · simp only [memSet, if_pos h1, if_pos hb]
        by_cases hj : j = a
        · subst hj
          have : memGet m j = 0 := hl j (by omega)
          simp only [memGet] at this
          simp only [memGet, sget_cons, hb, Nat.ne_of_lt h1, this, if_true, if_false]
        · simp [hj]
      · simp only [memSet, if_pos h1, if_neg hb, memGet, sget_cons]
    · by_cases h2 : a = k
      · subst h2
        by_cases hb : b = 0
        · simp only [memSet, if_neg h1, if_true, hb]
          by_cases hj : j = a
          · subst hj; simp [hl j (Nat.le_refl j)]
          · simp [memGet, sget_cons, hj]
        · simp only [memSet, if_neg h1, if_true, if_neg hb, memGet, sget_cons]
          by_cases hj : j = a <;> simp [hj]
      · simp only [memSet, if_neg h1, if_neg h2]
        have := ih hm
        simp only [memGet] at this
        simp only [memGet, sget_cons, this]
        by_cases hj : j = k
        · rw [if_pos hj, if_neg (by omega), if_pos hj]
        · rw [if_neg hj, if_neg hj]

/-- The first listed address. -/
def memLow : List Host.Cell → Option Nat
  | [] => none
  | c :: _ => some c.1

theorem memory_wf_cons (a : Nat) (b : Byte) (m : List Host.Cell) :
    Memory.wf ((a, b) :: m) = true ↔ b ≠ 0 ∧ (∀ k, memLow m = some k → a < k) ∧ Memory.wf m = true := by
  cases m with
  | nil => simp [Memory.wf, memLow]
  | cons e m => obtain ⟨k, v⟩ := e; simp [Memory.wf, memLow, and_assoc]

/-- Writing one byte keeps the canonical form. -/
theorem memSet_wf (a : Nat) (b : Byte) (m : List Host.Cell) (h : Memory.wf m = true) : Memory.wf (memSet a b m) = true := by
  have low : ∀ m : List Host.Cell, Memory.wf m = true → ∀ k, memLow (memSet a b m) = some k →
      k = a ∨ ∃ k', memLow m = some k' ∧ k' ≤ k := by
    intro m hm k hk
    cases m with
    | nil =>
      by_cases hb : b = 0
      · simp only [memSet, if_pos hb, memLow] at hk; cases hk
      · simp only [memSet, if_neg hb, memLow, Option.some.injEq] at hk; exact .inl hk.symm
    | cons e m =>
      obtain ⟨k', v'⟩ := e
      by_cases h1 : a < k'
      · by_cases hb : b = 0
        · simp only [memSet, if_pos h1, if_pos hb, memLow, Option.some.injEq] at hk; exact .inr ⟨k', rfl, by omega⟩
        · simp only [memSet, if_pos h1, if_neg hb, memLow, Option.some.injEq] at hk; exact .inl hk.symm
      · by_cases h2 : a = k'
        · subst h2
          by_cases hb : b = 0
          · simp only [memSet, if_neg h1, if_true, if_pos hb] at hk
            exact .inr ⟨a, rfl, Nat.le_of_lt (((memory_wf_cons a v' m).1 hm).2.1 k hk)⟩
          · simp only [memSet, if_neg h1, if_true, if_neg hb, memLow, Option.some.injEq] at hk; exact .inl hk.symm
        · simp [memSet, h1, h2, memLow] at hk; exact .inr ⟨k', rfl, by omega⟩
  induction m with
  | nil =>
    by_cases hb : b = 0
    · simp only [memSet, if_pos hb, Memory.wf]
    · rw [memSet, if_neg hb]; exact bne_iff_ne.2 hb
  | cons e m ih =>
    obtain ⟨k, v⟩ := e
    obtain ⟨hv, hlow, hm⟩ := (memory_wf_cons k v m).1 h
    by_cases h1 : a < k
    · by_cases hb : b = 0
      · simpa only [memSet, if_pos h1, if_pos hb] using h
      · simp only [memSet, if_pos h1, if_neg hb]
        exact (memory_wf_cons a b _).2 ⟨hb, by simp [memLow]; omega, h⟩
    · by_cases h2 : a = k
      · subst h2
        by_cases hb : b = 0
        · simpa only [memSet, if_neg h1, if_true, if_pos hb] using hm
        · simp only [memSet, if_neg h1, if_true, if_neg hb]
          exact (memory_wf_cons a b m).2 ⟨hb, hlow, hm⟩
      · simp only [memSet, if_neg h1, if_neg h2]
        refine (memory_wf_cons k v _).2 ⟨hv, ?_, ih hm⟩
        intro k' hk'
        rcases low m hm k' hk' with rfl | ⟨k'', hk'', hle⟩
        · omega
        · have := hlow k'' hk''; omega

/-- Writing bytes keeps the canonical form. -/
theorem memWrite_wf (a : Nat) (bs : List Byte) (m : List Host.Cell) (h : Memory.wf m = true) :
    Memory.wf (memWrite a bs m) = true := by
  induction bs generalizing a m with
  | nil => exact h
  | cons b bs ih => exact ih _ _ (memSet_wf a b m h)

/-- Writing cells one by one keeps the canonical form. -/
theorem memCells_wf (cs : List (Nat × Byte)) (m : List Host.Cell) (h : Memory.wf m = true) :
    Memory.wf (cs.foldl (fun m c => memSet c.1 c.2 m) m) = true := by
  induction cs generalizing m with
  | nil => exact h
  | cons c cs ih => exact ih _ (memSet_wf c.1 c.2 m h)

/-- Dropping listed bytes keeps the canonical form. -/
theorem memFilter_wf (p : Host.Cell → Bool) (m : List Host.Cell) (h : Memory.wf m = true) :
    Memory.wf (m.filter p) = true := by
  have low : ∀ m : List Host.Cell, Memory.wf m = true → ∀ k, memLow (m.filter p) = some k →
      ∃ k', memLow m = some k' ∧ k' ≤ k := by
    intro m
    induction m with
    | nil => intro _ k hk; simp [memLow] at hk
    | cons e m ih =>
      obtain ⟨a, b⟩ := e
      intro hm k hk
      obtain ⟨_, hl, hm'⟩ := (memory_wf_cons a b m).1 hm
      refine ⟨a, rfl, ?_⟩
      by_cases hp : p (a, b) = true
      · simp [hp, memLow] at hk; omega
      · simp [hp] at hk
        obtain ⟨k', h1, h2⟩ := ih hm' k hk
        have := hl k' h1; omega
  induction m with
  | nil => rfl
  | cons e m ih =>
    obtain ⟨a, b⟩ := e
    obtain ⟨hb, hl, hm⟩ := (memory_wf_cons a b m).1 h
    by_cases hp : p (a, b) = true
    · rw [List.filter_cons_of_pos hp]
      refine (memory_wf_cons a b _).2 ⟨hb, ?_, ih hm⟩
      intro k hk
      obtain ⟨k', h1, h2⟩ := low m hm k hk
      have := hl k' h1; omega
    · rw [List.filter_cons_of_neg hp]; exact ih hm

/-- Clearing a range keeps the canonical form. -/
theorem memClear_wf (a n : Nat) (m : List Host.Cell) (h : Memory.wf m = true) : Memory.wf (memClear a n m) = true :=
  memFilter_wf _ m h

/-- After a write of bytes from a on, byte a + i reads the i-th of them, every other byte as before. -/
theorem memGet_memWrite (a : Nat) (bs : List Byte) (m : List Host.Cell) (h : Memory.wf m = true) (j : Nat) :
    memGet (memWrite a bs m) j = if a ≤ j ∧ j < a + bs.length then bs.getD (j - a) 0 else memGet m j := by
  induction bs generalizing a m with
  | nil => rw [if_neg (by simp)]; rfl
  | cons b bs ih =>
    simp only [memWrite, ih _ _ (memSet_wf a b m h), memGet_memSet_le a b m h, List.length_cons]
    by_cases h1 : j = a
    · subst h1
      rw [if_neg (by omega), if_pos rfl, if_pos (by omega)]
      simp
    · by_cases h2 : a + 1 ≤ j ∧ j < a + 1 + bs.length
      · have e : j - a = (j - (a + 1)) + 1 := by omega
        rw [if_pos h2, if_pos (by omega), e]; simp
      · rw [if_neg h2, if_neg h1, if_neg (by omega)]

end Sys2Proof.Machine
end

