-- ==== Sys2Proof/Laws/State.lean ====
section
/-!
SUPPORT. What each update of the state leaves as it is: one lemma per field and per accessor, true by rfl.
-/

namespace Sys2Proof.Machine

variable (s : State)

/-! ### Updates through other updates -/

@[simp] theorem State.modThr_eq (th : ThreadId) (f : Thread → Thread) : s.modThr th f = s.setThr th (f (s.thr th)) := rfl
@[simp] theorem State.modCore_eq (g : Nat) (f : Core → Core) : s.modCore g f = s.setCore g (f (s.core g)) := rfl
@[simp] theorem State.modCtx_eq (c : CtxId) (f : Ctx → Ctx) : s.modCtx c f = s.setCtx c (f (s.ctx c)) := rfl

/-! ### An entry that was put reads so -/

@[simp] theorem State.setThr_thr (th : ThreadId) (t : Thread) : (s.setThr th t).thr th = t := by
  simp [State.setThr, State.thr]
@[simp] theorem State.setCore_core (g : Nat) (c : Core) : (s.setCore g c).core g = c := by
  simp [State.setCore, State.core]
@[simp] theorem State.setCtx_ctx (c : CtxId) (x : Ctx) : (s.setCtx c x).ctx c = x := by
  simp [State.setCtx, State.ctx]
@[simp] theorem State.modDie_die (d : Nat) (f : DieMem → DieMem) : (s.modDie d f).die d = f (s.die d) := by
  simp [State.modDie, State.die]
@[simp] theorem State.modGran_gran (n : Nat) (f : Gran → Gran) : (s.modGran n f).gran n = f (s.gran n) := by
  simp [State.modGran, State.gran]
@[simp] theorem State.modEngine_engine (q : Nat) (f : Engine → Engine) : (s.modEngine q f).engine q = f (s.engine q) := by
  simp [State.modEngine, State.engine]
@[simp] theorem State.modRedEng_redEng (e : Nat) (f : RedEngine → RedEngine) :
    (s.modRedEng e f).redEng e = f (s.redEng e) := by simp [State.modRedEng, State.redEng]
@[simp] theorem State.modChan_chan (q ch : Nat) (f : Chan → Chan) : (s.modChan q ch f).chan q ch = f (s.chan q ch) := by
  simp [State.modChan, State.chan]
@[simp] theorem State.modTally_tally (i : Nat) (f : Tally → Tally) : (s.modTally i f).tally i = f (s.tally i) := by
  simp [State.modTally, State.modSync, State.tally]
@[simp] theorem State.modBell_bell (j : Nat) (f : Bell → Bell) : (s.modBell j f).bell j = f (s.bell j) := by
  simp [State.modBell, State.modSync, State.bell]
@[simp] theorem State.modPort_port (p : Nat) (f : Port → Port) : (s.modPort p f).port p = f (s.port p) := by
  simp [State.modPort, State.modFab, State.port]
@[simp] theorem State.modDieClk_dieClk (d : Nat) (f : DieClk → DieClk) : (s.modDieClk d f).dieClk d = f (s.dieClk d) := by
  simp [State.modDieClk, State.modPwr, State.dieClk]

/-! ### Other entries of the same table -/

theorem State.setThr_thr_ne (th th' : ThreadId) (t : Thread) (h : th' ≠ th) : (s.setThr th t).thr th' = s.thr th' := by
  simp [State.setThr, State.thr, sget_sset, BitVec.toNat_inj, h]
theorem State.setCore_core_ne (g g' : Nat) (c : Core) (h : g' ≠ g) : (s.setCore g c).core g' = s.core g' := by
  simp [State.setCore, State.core, sget_sset, h]
theorem State.setCtx_ctx_ne (c c' : CtxId) (x : Ctx) (h : c' ≠ c) : (s.setCtx c x).ctx c' = s.ctx c' := by
  simp [State.setCtx, State.ctx, sget_sset, BitVec.toNat_inj, h]

/-! ### Puts at one place -/

@[simp] theorem State.setThr_setThr (th : ThreadId) (t u : Thread) : (s.setThr th t).setThr th u = s.setThr th u := by
  simp [State.setThr]
@[simp] theorem State.setCore_setCore (g : Nat) (c d : Core) : (s.setCore g c).setCore g d = s.setCore g d := by
  simp [State.setCore]
@[simp] theorem State.setCtx_setCtx (c : CtxId) (x y : Ctx) : (s.setCtx c x).setCtx c y = s.setCtx c y := by
  simp [State.setCtx]

/-! ### Free values -/

@[simp] theorem State.draw_fst (w : Nat) : (s.draw w).1 = Config.free w s.freeCtr := rfl
theorem State.draw_snd (w : Nat) : (s.draw w).2 = { s with freeCtr := s.freeCtr + 1 } := rfl

/-! ### Fields and accessors -/

@[simp] theorem State.setThr_pending (th : ThreadId) (t : Thread) : (s.setThr th t).pending = s.pending := rfl
@[simp] theorem State.setThr_freeCtr (th : ThreadId) (t : Thread) : (s.setThr th t).freeCtr = s.freeCtr := rfl
@[simp] theorem State.setThr_clk (th : ThreadId) (t : Thread) : (s.setThr th t).clk = s.clk := rfl
@[simp] theorem State.setThr_count (th : ThreadId) (t : Thread) (k' : Clk) : (s.setThr th t).count k' = s.count k' := rfl
@[simp] theorem State.setThr_stampBase (th : ThreadId) (t : Thread) : (s.setThr th t).stampBase = s.stampBase := rfl
@[simp] theorem State.setThr_log (th : ThreadId) (t : Thread) : (s.setThr th t).log = s.log := rfl
@[simp] theorem State.setThr_out (th : ThreadId) (t : Thread) : (s.setThr th t).out = s.out := rfl
@[simp] theorem State.setThr_cores (th : ThreadId) (t : Thread) : (s.setThr th t).cores = s.cores := rfl
@[simp] theorem State.setThr_core (th : ThreadId) (t : Thread) (g' : Nat) : (s.setThr th t).core g' = s.core g' := rfl
@[simp] theorem State.setThr_quadOwner (th : ThreadId) (t : Thread) : (s.setThr th t).quadOwner = s.quadOwner := rfl
@[simp] theorem State.setThr_thCtx (th : ThreadId) (t : Thread) (th' : ThreadId) : (s.setThr th t).thCtx th' = s.thCtx th' := rfl
@[simp] theorem State.setThr_quadCtx (th : ThreadId) (t : Thread) (q' : Nat) : (s.setThr th t).quadCtx q' = s.quadCtx q' := rfl
@[simp] theorem State.setThr_mem (th : ThreadId) (t : Thread) : (s.setThr th t).mem = s.mem := rfl
@[simp] theorem State.setThr_peek (th : ThreadId) (t : Thread) (l' n' : Nat) : (s.setThr th t).peek l' n' = s.peek l' n' := rfl
@[simp] theorem State.setThr_poison (th : ThreadId) (t : Thread) : (s.setThr th t).poison = s.poison := rfl
@[simp] theorem State.setThr_poisonIn (th : ThreadId) (t : Thread) (l' n' : Nat) : (s.setThr th t).poisonIn l' n' = s.poisonIn l' n' := rfl
@[simp] theorem State.setThr_fresh (th : ThreadId) (t : Thread) : (s.setThr th t).fresh = s.fresh := rfl
@[simp] theorem State.setThr_cfrac (th : ThreadId) (t : Thread) : (s.setThr th t).cfrac = s.cfrac := rfl
@[simp] theorem State.setThr_dies (th : ThreadId) (t : Thread) : (s.setThr th t).dies = s.dies := rfl
@[simp] theorem State.setThr_die (th : ThreadId) (t : Thread) (d' : Nat) : (s.setThr th t).die d' = s.die d' := rfl
@[simp] theorem State.setThr_grans (th : ThreadId) (t : Thread) : (s.setThr th t).grans = s.grans := rfl
@[simp] theorem State.setThr_gran (th : ThreadId) (t : Thread) (n' : Nat) : (s.setThr th t).gran n' = s.gran n' := rfl
@[simp] theorem State.setThr_sync (th : ThreadId) (t : Thread) : (s.setThr th t).sync = s.sync := rfl
@[simp] theorem State.setThr_tally (th : ThreadId) (t : Thread) (i' : Nat) : (s.setThr th t).tally i' = s.tally i' := rfl
@[simp] theorem State.setThr_bell (th : ThreadId) (t : Thread) (j' : Nat) : (s.setThr th t).bell j' = s.bell j' := rfl
@[simp] theorem State.setThr_ctxs (th : ThreadId) (t : Thread) : (s.setThr th t).ctxs = s.ctxs := rfl
@[simp] theorem State.setThr_ctx (th : ThreadId) (t : Thread) (c' : CtxId) : (s.setThr th t).ctx c' = s.ctx c' := rfl
@[simp] theorem State.setThr_gate (th : ThreadId) (t : Thread) : (s.setThr th t).gate = s.gate := rfl
@[simp] theorem State.setThr_seqr (th : ThreadId) (t : Thread) : (s.setThr th t).seqr = s.seqr := rfl
@[simp] theorem State.setThr_fab (th : ThreadId) (t : Thread) : (s.setThr th t).fab = s.fab := rfl
@[simp] theorem State.setThr_port (th : ThreadId) (t : Thread) (p' : Nat) : (s.setThr th t).port p' = s.port p' := rfl
@[simp] theorem State.setThr_rst (th : ThreadId) (t : Thread) : (s.setThr th t).rst = s.rst := rfl
@[simp] theorem State.setThr_strm (th : ThreadId) (t : Thread) : (s.setThr th t).strm = s.strm := rfl
@[simp] theorem State.setThr_engine (th : ThreadId) (t : Thread) (q' : Nat) : (s.setThr th t).engine q' = s.engine q' := rfl
@[simp] theorem State.setThr_chan (th : ThreadId) (t : Thread) (q' ch' : Nat) : (s.setThr th t).chan q' ch' = s.chan q' ch' := rfl
@[simp] theorem State.setThr_red (th : ThreadId) (t : Thread) : (s.setThr th t).red = s.red := rfl
@[simp] theorem State.setThr_redEng (th : ThreadId) (t : Thread) (e' : Nat) : (s.setThr th t).redEng e' = s.redEng e' := rfl
@[simp] theorem State.setThr_harv (th : ThreadId) (t : Thread) : (s.setThr th t).harv = s.harv := rfl
@[simp] theorem State.setThr_written (th : ThreadId) (t : Thread) : (s.setThr th t).written = s.written := rfl
@[simp] theorem State.setThr_fuses (th : ThreadId) (t : Thread) : (s.setThr th t).fuses = s.fuses := rfl
@[simp] theorem State.setThr_nvm (th : ThreadId) (t : Thread) : (s.setThr th t).nvm = s.nvm := rfl
@[simp] theorem State.setThr_boot (th : ThreadId) (t : Thread) : (s.setThr th t).boot = s.boot := rfl
@[simp] theorem State.setThr_vault (th : ThreadId) (t : Thread) : (s.setThr th t).vault = s.vault := rfl
@[simp] theorem State.setThr_pwr (th : ThreadId) (t : Thread) : (s.setThr th t).pwr = s.pwr := rfl
@[simp] theorem State.setThr_dieClk (th : ThreadId) (t : Thread) (d' : Nat) : (s.setThr th t).dieClk d' = s.dieClk d' := rfl
@[simp] theorem State.setThr_car (th : ThreadId) (t : Thread) : (s.setThr th t).car = s.car := rfl
@[simp] theorem State.setCore_pending (g : Nat) (c : Core) : (s.setCore g c).pending = s.pending := rfl
@[simp] theorem State.setCore_freeCtr (g : Nat) (c : Core) : (s.setCore g c).freeCtr = s.freeCtr := rfl
@[simp] theorem State.setCore_clk (g : Nat) (c : Core) : (s.setCore g c).clk = s.clk := rfl
@[simp] theorem State.setCore_count (g : Nat) (c : Core) (k' : Clk) : (s.setCore g c).count k' = s.count k' := rfl
@[simp] theorem State.setCore_stampBase (g : Nat) (c : Core) : (s.setCore g c).stampBase = s.stampBase := rfl
@[simp] theorem State.setCore_log (g : Nat) (c : Core) : (s.setCore g c).log = s.log := rfl
@[simp] theorem State.setCore_out (g : Nat) (c : Core) : (s.setCore g c).out = s.out := rfl
@[simp] theorem State.setCore_threads (g : Nat) (c : Core) : (s.setCore g c).threads = s.threads := rfl
@[simp] theorem State.setCore_thr (g : Nat) (c : Core) (th' : ThreadId) : (s.setCore g c).thr th' = s.thr th' := rfl
@[simp] theorem State.setCore_quadOwner (g : Nat) (c : Core) : (s.setCore g c).quadOwner = s.quadOwner := rfl
@[simp] theorem State.setCore_thCtx (g : Nat) (c : Core) (th' : ThreadId) : (s.setCore g c).thCtx th' = s.thCtx th' := rfl
@[simp] theorem State.setCore_quadCtx (g : Nat) (c : Core) (q' : Nat) : (s.setCore g c).quadCtx q' = s.quadCtx q' := rfl
@[simp] theorem State.setCore_mem (g : Nat) (c : Core) : (s.setCore g c).mem = s.mem := rfl
@[simp] theorem State.setCore_peek (g : Nat) (c : Core) (l' n' : Nat) : (s.setCore g c).peek l' n' = s.peek l' n' := rfl
@[simp] theorem State.setCore_poison (g : Nat) (c : Core) : (s.setCore g c).poison = s.poison := rfl
@[simp] theorem State.setCore_poisonIn (g : Nat) (c : Core) (l' n' : Nat) : (s.setCore g c).poisonIn l' n' = s.poisonIn l' n' := rfl
@[simp] theorem State.setCore_fresh (g : Nat) (c : Core) : (s.setCore g c).fresh = s.fresh := rfl
@[simp] theorem State.setCore_cfrac (g : Nat) (c : Core) : (s.setCore g c).cfrac = s.cfrac := rfl
@[simp] theorem State.setCore_dies (g : Nat) (c : Core) : (s.setCore g c).dies = s.dies := rfl
@[simp] theorem State.setCore_die (g : Nat) (c : Core) (d' : Nat) : (s.setCore g c).die d' = s.die d' := rfl
@[simp] theorem State.setCore_grans (g : Nat) (c : Core) : (s.setCore g c).grans = s.grans := rfl
@[simp] theorem State.setCore_gran (g : Nat) (c : Core) (n' : Nat) : (s.setCore g c).gran n' = s.gran n' := rfl
@[simp] theorem State.setCore_sync (g : Nat) (c : Core) : (s.setCore g c).sync = s.sync := rfl
@[simp] theorem State.setCore_tally (g : Nat) (c : Core) (i' : Nat) : (s.setCore g c).tally i' = s.tally i' := rfl
@[simp] theorem State.setCore_bell (g : Nat) (c : Core) (j' : Nat) : (s.setCore g c).bell j' = s.bell j' := rfl
@[simp] theorem State.setCore_ctxs (g : Nat) (c : Core) : (s.setCore g c).ctxs = s.ctxs := rfl
@[simp] theorem State.setCore_ctx (g : Nat) (c : Core) (c' : CtxId) : (s.setCore g c).ctx c' = s.ctx c' := rfl
@[simp] theorem State.setCore_gate (g : Nat) (c : Core) : (s.setCore g c).gate = s.gate := rfl
@[simp] theorem State.setCore_seqr (g : Nat) (c : Core) : (s.setCore g c).seqr = s.seqr := rfl
@[simp] theorem State.setCore_fab (g : Nat) (c : Core) : (s.setCore g c).fab = s.fab := rfl
@[simp] theorem State.setCore_port (g : Nat) (c : Core) (p' : Nat) : (s.setCore g c).port p' = s.port p' := rfl
@[simp] theorem State.setCore_rst (g : Nat) (c : Core) : (s.setCore g c).rst = s.rst := rfl
@[simp] theorem State.setCore_strm (g : Nat) (c : Core) : (s.setCore g c).strm = s.strm := rfl
@[simp] theorem State.setCore_engine (g : Nat) (c : Core) (q' : Nat) : (s.setCore g c).engine q' = s.engine q' := rfl
@[simp] theorem State.setCore_chan (g : Nat) (c : Core) (q' ch' : Nat) : (s.setCore g c).chan q' ch' = s.chan q' ch' := rfl
@[simp] theorem State.setCore_red (g : Nat) (c : Core) : (s.setCore g c).red = s.red := rfl
@[simp] theorem State.setCore_redEng (g : Nat) (c : Core) (e' : Nat) : (s.setCore g c).redEng e' = s.redEng e' := rfl
@[simp] theorem State.setCore_harv (g : Nat) (c : Core) : (s.setCore g c).harv = s.harv := rfl
@[simp] theorem State.setCore_written (g : Nat) (c : Core) : (s.setCore g c).written = s.written := rfl
@[simp] theorem State.setCore_fuses (g : Nat) (c : Core) : (s.setCore g c).fuses = s.fuses := rfl
@[simp] theorem State.setCore_nvm (g : Nat) (c : Core) : (s.setCore g c).nvm = s.nvm := rfl
@[simp] theorem State.setCore_boot (g : Nat) (c : Core) : (s.setCore g c).boot = s.boot := rfl
@[simp] theorem State.setCore_vault (g : Nat) (c : Core) : (s.setCore g c).vault = s.vault := rfl
@[simp] theorem State.setCore_pwr (g : Nat) (c : Core) : (s.setCore g c).pwr = s.pwr := rfl
@[simp] theorem State.setCore_dieClk (g : Nat) (c : Core) (d' : Nat) : (s.setCore g c).dieClk d' = s.dieClk d' := rfl
@[simp] theorem State.setCore_car (g : Nat) (c : Core) : (s.setCore g c).car = s.car := rfl
@[simp] theorem State.setCtx_pending (c : CtxId) (x : Ctx) : (s.setCtx c x).pending = s.pending := rfl
@[simp] theorem State.setCtx_freeCtr (c : CtxId) (x : Ctx) : (s.setCtx c x).freeCtr = s.freeCtr := rfl
@[simp] theorem State.setCtx_clk (c : CtxId) (x : Ctx) : (s.setCtx c x).clk = s.clk := rfl
@[simp] theorem State.setCtx_count (c : CtxId) (x : Ctx) (k' : Clk) : (s.setCtx c x).count k' = s.count k' := rfl
@[simp] theorem State.setCtx_stampBase (c : CtxId) (x : Ctx) : (s.setCtx c x).stampBase = s.stampBase := rfl
@[simp] theorem State.setCtx_log (c : CtxId) (x : Ctx) : (s.setCtx c x).log = s.log := rfl
@[simp] theorem State.setCtx_out (c : CtxId) (x : Ctx) : (s.setCtx c x).out = s.out := rfl
@[simp] theorem State.setCtx_threads (c : CtxId) (x : Ctx) : (s.setCtx c x).threads = s.threads := rfl
@[simp] theorem State.setCtx_thr (c : CtxId) (x : Ctx) (th' : ThreadId) : (s.setCtx c x).thr th' = s.thr th' := rfl
@[simp] theorem State.setCtx_cores (c : CtxId) (x : Ctx) : (s.setCtx c x).cores = s.cores := rfl
@[simp] theorem State.setCtx_core (c : CtxId) (x : Ctx) (g' : Nat) : (s.setCtx c x).core g' = s.core g' := rfl
@[simp] theorem State.setCtx_quadOwner (c : CtxId) (x : Ctx) : (s.setCtx c x).quadOwner = s.quadOwner := rfl
@[simp] theorem State.setCtx_thCtx (c : CtxId) (x : Ctx) (th' : ThreadId) : (s.setCtx c x).thCtx th' = s.thCtx th' := rfl
@[simp] theorem State.setCtx_quadCtx (c : CtxId) (x : Ctx) (q' : Nat) : (s.setCtx c x).quadCtx q' = s.quadCtx q' := rfl
@[simp] theorem State.setCtx_mem (c : CtxId) (x : Ctx) : (s.setCtx c x).mem = s.mem := rfl
@[simp] theorem State.setCtx_peek (c : CtxId) (x : Ctx) (l' n' : Nat) : (s.setCtx c x).peek l' n' = s.peek l' n' := rfl
@[simp] theorem State.setCtx_poison (c : CtxId) (x : Ctx) : (s.setCtx c x).poison = s.poison := rfl
@[simp] theorem State.setCtx_poisonIn (c : CtxId) (x : Ctx) (l' n' : Nat) : (s.setCtx c x).poisonIn l' n' = s.poisonIn l' n' := rfl
@[simp] theorem State.setCtx_fresh (c : CtxId) (x : Ctx) : (s.setCtx c x).fresh = s.fresh := rfl
@[simp] theorem State.setCtx_cfrac (c : CtxId) (x : Ctx) : (s.setCtx c x).cfrac = s.cfrac := rfl
@[simp] theorem State.setCtx_dies (c : CtxId) (x : Ctx) : (s.setCtx c x).dies = s.dies := rfl
@[simp] theorem State.setCtx_die (c : CtxId) (x : Ctx) (d' : Nat) : (s.setCtx c x).die d' = s.die d' := rfl
@[simp] theorem State.setCtx_grans (c : CtxId) (x : Ctx) : (s.setCtx c x).grans = s.grans := rfl
@[simp] theorem State.setCtx_gran (c : CtxId) (x : Ctx) (n' : Nat) : (s.setCtx c x).gran n' = s.gran n' := rfl
@[simp] theorem State.setCtx_sync (c : CtxId) (x : Ctx) : (s.setCtx c x).sync = s.sync := rfl
@[simp] theorem State.setCtx_tally (c : CtxId) (x : Ctx) (i' : Nat) : (s.setCtx c x).tally i' = s.tally i' := rfl
@[simp] theorem State.setCtx_bell (c : CtxId) (x : Ctx) (j' : Nat) : (s.setCtx c x).bell j' = s.bell j' := rfl
@[simp] theorem State.setCtx_gate (c : CtxId) (x : Ctx) : (s.setCtx c x).gate = s.gate := rfl
@[simp] theorem State.setCtx_seqr (c : CtxId) (x : Ctx) : (s.setCtx c x).seqr = s.seqr := rfl
@[simp] theorem State.setCtx_fab (c : CtxId) (x : Ctx) : (s.setCtx c x).fab = s.fab := rfl
@[simp] theorem State.setCtx_port (c : CtxId) (x : Ctx) (p' : Nat) : (s.setCtx c x).port p' = s.port p' := rfl
@[simp] theorem State.setCtx_rst (c : CtxId) (x : Ctx) : (s.setCtx c x).rst = s.rst := rfl
@[simp] theorem State.setCtx_strm (c : CtxId) (x : Ctx) : (s.setCtx c x).strm = s.strm := rfl
@[simp] theorem State.setCtx_engine (c : CtxId) (x : Ctx) (q' : Nat) : (s.setCtx c x).engine q' = s.engine q' := rfl
@[simp] theorem State.setCtx_chan (c : CtxId) (x : Ctx) (q' ch' : Nat) : (s.setCtx c x).chan q' ch' = s.chan q' ch' := rfl
@[simp] theorem State.setCtx_red (c : CtxId) (x : Ctx) : (s.setCtx c x).red = s.red := rfl
@[simp] theorem State.setCtx_redEng (c : CtxId) (x : Ctx) (e' : Nat) : (s.setCtx c x).redEng e' = s.redEng e' := rfl
@[simp] theorem State.setCtx_harv (c : CtxId) (x : Ctx) : (s.setCtx c x).harv = s.harv := rfl
@[simp] theorem State.setCtx_written (c : CtxId) (x : Ctx) : (s.setCtx c x).written = s.written := rfl
@[simp] theorem State.setCtx_fuses (c : CtxId) (x : Ctx) : (s.setCtx c x).fuses = s.fuses := rfl
@[simp] theorem State.setCtx_nvm (c : CtxId) (x : Ctx) : (s.setCtx c x).nvm = s.nvm := rfl
@[simp] theorem State.setCtx_boot (c : CtxId) (x : Ctx) : (s.setCtx c x).boot = s.boot := rfl
@[simp] theorem State.setCtx_vault (c : CtxId) (x : Ctx) : (s.setCtx c x).vault = s.vault := rfl
@[simp] theorem State.setCtx_pwr (c : CtxId) (x : Ctx) : (s.setCtx c x).pwr = s.pwr := rfl
@[simp] theorem State.setCtx_dieClk (c : CtxId) (x : Ctx) (d' : Nat) : (s.setCtx c x).dieClk d' = s.dieClk d' := rfl
@[simp] theorem State.setCtx_car (c : CtxId) (x : Ctx) : (s.setCtx c x).car = s.car := rfl
@[simp] theorem State.modDie_pending (d : Nat) (f : DieMem → DieMem) : (s.modDie d f).pending = s.pending := rfl
@[simp] theorem State.modDie_freeCtr (d : Nat) (f : DieMem → DieMem) : (s.modDie d f).freeCtr = s.freeCtr := rfl
@[simp] theorem State.modDie_clk (d : Nat) (f : DieMem → DieMem) : (s.modDie d f).clk = s.clk := rfl
@[simp] theorem State.modDie_count (d : Nat) (f : DieMem → DieMem) (k' : Clk) : (s.modDie d f).count k' = s.count k' := rfl
@[simp] theorem State.modDie_stampBase (d : Nat) (f : DieMem → DieMem) : (s.modDie d f).stampBase = s.stampBase := rfl
@[simp] theorem State.modDie_log (d : Nat) (f : DieMem → DieMem) : (s.modDie d f).log = s.log := rfl
@[simp] theorem State.modDie_out (d : Nat) (f : DieMem → DieMem) : (s.modDie d f).out = s.out := rfl
@[simp] theorem State.modDie_threads (d : Nat) (f : DieMem → DieMem) : (s.modDie d f).threads = s.threads := rfl
@[simp] theorem State.modDie_thr (d : Nat) (f : DieMem → DieMem) (th' : ThreadId) : (s.modDie d f).thr th' = s.thr th' := rfl
@[simp] theorem State.modDie_cores (d : Nat) (f : DieMem → DieMem) : (s.modDie d f).cores = s.cores := rfl
@[simp] theorem State.modDie_core (d : Nat) (f : DieMem → DieMem) (g' : Nat) : (s.modDie d f).core g' = s.core g' := rfl
@[simp] theorem State.modDie_quadOwner (d : Nat) (f : DieMem → DieMem) : (s.modDie d f).quadOwner = s.quadOwner := rfl
@[simp] theorem State.modDie_thCtx (d : Nat) (f : DieMem → DieMem) (th' : ThreadId) : (s.modDie d f).thCtx th' = s.thCtx th' := rfl
@[simp] theorem State.modDie_quadCtx (d : Nat) (f : DieMem → DieMem) (q' : Nat) : (s.modDie d f).quadCtx q' = s.quadCtx q' := rfl
@[simp] theorem State.modDie_mem (d : Nat) (f : DieMem → DieMem) : (s.modDie d f).mem = s.mem := rfl
@[simp] theorem State.modDie_peek (d : Nat) (f : DieMem → DieMem) (l' n' : Nat) : (s.modDie d f).peek l' n' = s.peek l' n' := rfl
@[simp] theorem State.modDie_poison (d : Nat) (f : DieMem → DieMem) : (s.modDie d f).poison = s.poison := rfl
@[simp] theorem State.modDie_poisonIn (d : Nat) (f : DieMem → DieMem) (l' n' : Nat) : (s.modDie d f).poisonIn l' n' = s.poisonIn l' n' := rfl
@[simp] theorem State.modDie_fresh (d : Nat) (f : DieMem → DieMem) : (s.modDie d f).fresh = s.fresh := rfl
@[simp] theorem State.modDie_cfrac (d : Nat) (f : DieMem → DieMem) : (s.modDie d f).cfrac = s.cfrac := rfl
@[simp] theorem State.modDie_grans (d : Nat) (f : DieMem → DieMem) : (s.modDie d f).grans = s.grans := rfl
@[simp] theorem State.modDie_gran (d : Nat) (f : DieMem → DieMem) (n' : Nat) : (s.modDie d f).gran n' = s.gran n' := rfl
@[simp] theorem State.modDie_sync (d : Nat) (f : DieMem → DieMem) : (s.modDie d f).sync = s.sync := rfl
@[simp] theorem State.modDie_tally (d : Nat) (f : DieMem → DieMem) (i' : Nat) : (s.modDie d f).tally i' = s.tally i' := rfl
@[simp] theorem State.modDie_bell (d : Nat) (f : DieMem → DieMem) (j' : Nat) : (s.modDie d f).bell j' = s.bell j' := rfl
@[simp] theorem State.modDie_ctxs (d : Nat) (f : DieMem → DieMem) : (s.modDie d f).ctxs = s.ctxs := rfl
@[simp] theorem State.modDie_ctx (d : Nat) (f : DieMem → DieMem) (c' : CtxId) : (s.modDie d f).ctx c' = s.ctx c' := rfl
@[simp] theorem State.modDie_gate (d : Nat) (f : DieMem → DieMem) : (s.modDie d f).gate = s.gate := rfl
@[simp] theorem State.modDie_seqr (d : Nat) (f : DieMem → DieMem) : (s.modDie d f).seqr = s.seqr := rfl
@[simp] theorem State.modDie_fab (d : Nat) (f : DieMem → DieMem) : (s.modDie d f).fab = s.fab := rfl
@[simp] theorem State.modDie_port (d : Nat) (f : DieMem → DieMem) (p' : Nat) : (s.modDie d f).port p' = s.port p' := rfl
@[simp] theorem State.modDie_rst (d : Nat) (f : DieMem → DieMem) : (s.modDie d f).rst = s.rst := rfl
@[simp] theorem State.modDie_strm (d : Nat) (f : DieMem → DieMem) : (s.modDie d f).strm = s.strm := rfl
@[simp] theorem State.modDie_engine (d : Nat) (f : DieMem → DieMem) (q' : Nat) : (s.modDie d f).engine q' = s.engine q' := rfl
@[simp] theorem State.modDie_chan (d : Nat) (f : DieMem → DieMem) (q' ch' : Nat) : (s.modDie d f).chan q' ch' = s.chan q' ch' := rfl
@[simp] theorem State.modDie_red (d : Nat) (f : DieMem → DieMem) : (s.modDie d f).red = s.red := rfl
@[simp] theorem State.modDie_redEng (d : Nat) (f : DieMem → DieMem) (e' : Nat) : (s.modDie d f).redEng e' = s.redEng e' := rfl
@[simp] theorem State.modDie_harv (d : Nat) (f : DieMem → DieMem) : (s.modDie d f).harv = s.harv := rfl
@[simp] theorem State.modDie_written (d : Nat) (f : DieMem → DieMem) : (s.modDie d f).written = s.written := rfl
@[simp] theorem State.modDie_fuses (d : Nat) (f : DieMem → DieMem) : (s.modDie d f).fuses = s.fuses := rfl
@[simp] theorem State.modDie_nvm (d : Nat) (f : DieMem → DieMem) : (s.modDie d f).nvm = s.nvm := rfl
@[simp] theorem State.modDie_boot (d : Nat) (f : DieMem → DieMem) : (s.modDie d f).boot = s.boot := rfl
@[simp] theorem State.modDie_vault (d : Nat) (f : DieMem → DieMem) : (s.modDie d f).vault = s.vault := rfl
@[simp] theorem State.modDie_pwr (d : Nat) (f : DieMem → DieMem) : (s.modDie d f).pwr = s.pwr := rfl
@[simp] theorem State.modDie_dieClk (d : Nat) (f : DieMem → DieMem) (d' : Nat) : (s.modDie d f).dieClk d' = s.dieClk d' := rfl
@[simp] theorem State.modDie_car (d : Nat) (f : DieMem → DieMem) : (s.modDie d f).car = s.car := rfl
@[simp] theorem State.modGran_pending (n : Nat) (f : Gran → Gran) : (s.modGran n f).pending = s.pending := rfl
@[simp] theorem State.modGran_freeCtr (n : Nat) (f : Gran → Gran) : (s.modGran n f).freeCtr = s.freeCtr := rfl
@[simp] theorem State.modGran_clk (n : Nat) (f : Gran → Gran) : (s.modGran n f).clk = s.clk := rfl
@[simp] theorem State.modGran_count (n : Nat) (f : Gran → Gran) (k' : Clk) : (s.modGran n f).count k' = s.count k' := rfl
@[simp] theorem State.modGran_stampBase (n : Nat) (f : Gran → Gran) : (s.modGran n f).stampBase = s.stampBase := rfl
@[simp] theorem State.modGran_log (n : Nat) (f : Gran → Gran) : (s.modGran n f).log = s.log := rfl
@[simp] theorem State.modGran_out (n : Nat) (f : Gran → Gran) : (s.modGran n f).out = s.out := rfl
@[simp] theorem State.modGran_threads (n : Nat) (f : Gran → Gran) : (s.modGran n f).threads = s.threads := rfl
@[simp] theorem State.modGran_thr (n : Nat) (f : Gran → Gran) (th' : ThreadId) : (s.modGran n f).thr th' = s.thr th' := rfl
@[simp] theorem State.modGran_cores (n : Nat) (f : Gran → Gran) : (s.modGran n f).cores = s.cores := rfl
@[simp] theorem State.modGran_core (n : Nat) (f : Gran → Gran) (g' : Nat) : (s.modGran n f).core g' = s.core g' := rfl
@[simp] theorem State.modGran_quadOwner (n : Nat) (f : Gran → Gran) : (s.modGran n f).quadOwner = s.quadOwner := rfl
@[simp] theorem State.modGran_thCtx (n : Nat) (f : Gran → Gran) (th' : ThreadId) : (s.modGran n f).thCtx th' = s.thCtx th' := rfl
@[simp] theorem State.modGran_quadCtx (n : Nat) (f : Gran → Gran) (q' : Nat) : (s.modGran n f).quadCtx q' = s.quadCtx q' := rfl
@[simp] theorem State.modGran_mem (n : Nat) (f : Gran → Gran) : (s.modGran n f).mem = s.mem := rfl
@[simp] theorem State.modGran_peek (n : Nat) (f : Gran → Gran) (l' n' : Nat) : (s.modGran n f).peek l' n' = s.peek l' n' := rfl
@[simp] theorem State.modGran_poison (n : Nat) (f : Gran → Gran) : (s.modGran n f).poison = s.poison := rfl
@[simp] theorem State.modGran_poisonIn (n : Nat) (f : Gran → Gran) (l' n' : Nat) : (s.modGran n f).poisonIn l' n' = s.poisonIn l' n' := rfl
@[simp] theorem State.modGran_fresh (n : Nat) (f : Gran → Gran) : (s.modGran n f).fresh = s.fresh := rfl
@[simp] theorem State.modGran_cfrac (n : Nat) (f : Gran → Gran) : (s.modGran n f).cfrac = s.cfrac := rfl
@[simp] theorem State.modGran_dies (n : Nat) (f : Gran → Gran) : (s.modGran n f).dies = s.dies := rfl
@[simp] theorem State.modGran_die (n : Nat) (f : Gran → Gran) (d' : Nat) : (s.modGran n f).die d' = s.die d' := rfl
@[simp] theorem State.modGran_sync (n : Nat) (f : Gran → Gran) : (s.modGran n f).sync = s.sync := rfl
@[simp] theorem State.modGran_tally (n : Nat) (f : Gran → Gran) (i' : Nat) : (s.modGran n f).tally i' = s.tally i' := rfl
@[simp] theorem State.modGran_bell (n : Nat) (f : Gran → Gran) (j' : Nat) : (s.modGran n f).bell j' = s.bell j' := rfl
@[simp] theorem State.modGran_ctxs (n : Nat) (f : Gran → Gran) : (s.modGran n f).ctxs = s.ctxs := rfl
@[simp] theorem State.modGran_ctx (n : Nat) (f : Gran → Gran) (c' : CtxId) : (s.modGran n f).ctx c' = s.ctx c' := rfl
@[simp] theorem State.modGran_gate (n : Nat) (f : Gran → Gran) : (s.modGran n f).gate = s.gate := rfl
@[simp] theorem State.modGran_seqr (n : Nat) (f : Gran → Gran) : (s.modGran n f).seqr = s.seqr := rfl
@[simp] theorem State.modGran_fab (n : Nat) (f : Gran → Gran) : (s.modGran n f).fab = s.fab := rfl
@[simp] theorem State.modGran_port (n : Nat) (f : Gran → Gran) (p' : Nat) : (s.modGran n f).port p' = s.port p' := rfl
@[simp] theorem State.modGran_rst (n : Nat) (f : Gran → Gran) : (s.modGran n f).rst = s.rst := rfl
@[simp] theorem State.modGran_strm (n : Nat) (f : Gran → Gran) : (s.modGran n f).strm = s.strm := rfl
@[simp] theorem State.modGran_engine (n : Nat) (f : Gran → Gran) (q' : Nat) : (s.modGran n f).engine q' = s.engine q' := rfl
@[simp] theorem State.modGran_chan (n : Nat) (f : Gran → Gran) (q' ch' : Nat) : (s.modGran n f).chan q' ch' = s.chan q' ch' := rfl
@[simp] theorem State.modGran_red (n : Nat) (f : Gran → Gran) : (s.modGran n f).red = s.red := rfl
@[simp] theorem State.modGran_redEng (n : Nat) (f : Gran → Gran) (e' : Nat) : (s.modGran n f).redEng e' = s.redEng e' := rfl
@[simp] theorem State.modGran_harv (n : Nat) (f : Gran → Gran) : (s.modGran n f).harv = s.harv := rfl
@[simp] theorem State.modGran_written (n : Nat) (f : Gran → Gran) : (s.modGran n f).written = s.written := rfl
@[simp] theorem State.modGran_fuses (n : Nat) (f : Gran → Gran) : (s.modGran n f).fuses = s.fuses := rfl
@[simp] theorem State.modGran_nvm (n : Nat) (f : Gran → Gran) : (s.modGran n f).nvm = s.nvm := rfl
@[simp] theorem State.modGran_boot (n : Nat) (f : Gran → Gran) : (s.modGran n f).boot = s.boot := rfl
@[simp] theorem State.modGran_vault (n : Nat) (f : Gran → Gran) : (s.modGran n f).vault = s.vault := rfl
@[simp] theorem State.modGran_pwr (n : Nat) (f : Gran → Gran) : (s.modGran n f).pwr = s.pwr := rfl
@[simp] theorem State.modGran_dieClk (n : Nat) (f : Gran → Gran) (d' : Nat) : (s.modGran n f).dieClk d' = s.dieClk d' := rfl
@[simp] theorem State.modGran_car (n : Nat) (f : Gran → Gran) : (s.modGran n f).car = s.car := rfl
@[simp] theorem State.modFab_pending (f : Fab → Fab) : (s.modFab f).pending = s.pending := rfl
@[simp] theorem State.modFab_freeCtr (f : Fab → Fab) : (s.modFab f).freeCtr = s.freeCtr := rfl
@[simp] theorem State.modFab_clk (f : Fab → Fab) : (s.modFab f).clk = s.clk := rfl
@[simp] theorem State.modFab_count (f : Fab → Fab) (k' : Clk) : (s.modFab f).count k' = s.count k' := rfl
@[simp] theorem State.modFab_stampBase (f : Fab → Fab) : (s.modFab f).stampBase = s.stampBase := rfl
@[simp] theorem State.modFab_log (f : Fab → Fab) : (s.modFab f).log = s.log := rfl
@[simp] theorem State.modFab_out (f : Fab → Fab) : (s.modFab f).out = s.out := rfl
@[simp] theorem State.modFab_threads (f : Fab → Fab) : (s.modFab f).threads = s.threads := rfl
@[simp] theorem State.modFab_thr (f : Fab → Fab) (th' : ThreadId) : (s.modFab f).thr th' = s.thr th' := rfl
@[simp] theorem State.modFab_cores (f : Fab → Fab) : (s.modFab f).cores = s.cores := rfl
@[simp] theorem State.modFab_core (f : Fab → Fab) (g' : Nat) : (s.modFab f).core g' = s.core g' := rfl
@[simp] theorem State.modFab_quadOwner (f : Fab → Fab) : (s.modFab f).quadOwner = s.quadOwner := rfl
@[simp] theorem State.modFab_thCtx (f : Fab → Fab) (th' : ThreadId) : (s.modFab f).thCtx th' = s.thCtx th' := rfl
@[simp] theorem State.modFab_quadCtx (f : Fab → Fab) (q' : Nat) : (s.modFab f).quadCtx q' = s.quadCtx q' := rfl
@[simp] theorem State.modFab_mem (f : Fab → Fab) : (s.modFab f).mem = s.mem := rfl
@[simp] theorem State.modFab_peek (f : Fab → Fab) (l' n' : Nat) : (s.modFab f).peek l' n' = s.peek l' n' := rfl
@[simp] theorem State.modFab_poison (f : Fab → Fab) : (s.modFab f).poison = s.poison := rfl
@[simp] theorem State.modFab_poisonIn (f : Fab → Fab) (l' n' : Nat) : (s.modFab f).poisonIn l' n' = s.poisonIn l' n' := rfl
@[simp] theorem State.modFab_fresh (f : Fab → Fab) : (s.modFab f).fresh = s.fresh := rfl
@[simp] theorem State.modFab_cfrac (f : Fab → Fab) : (s.modFab f).cfrac = s.cfrac := rfl
@[simp] theorem State.modFab_dies (f : Fab → Fab) : (s.modFab f).dies = s.dies := rfl
@[simp] theorem State.modFab_die (f : Fab → Fab) (d' : Nat) : (s.modFab f).die d' = s.die d' := rfl
@[simp] theorem State.modFab_grans (f : Fab → Fab) : (s.modFab f).grans = s.grans := rfl
@[simp] theorem State.modFab_gran (f : Fab → Fab) (n' : Nat) : (s.modFab f).gran n' = s.gran n' := rfl
@[simp] theorem State.modFab_sync (f : Fab → Fab) : (s.modFab f).sync = s.sync := rfl
@[simp] theorem State.modFab_tally (f : Fab → Fab) (i' : Nat) : (s.modFab f).tally i' = s.tally i' := rfl
@[simp] theorem State.modFab_bell (f : Fab → Fab) (j' : Nat) : (s.modFab f).bell j' = s.bell j' := rfl
@[simp] theorem State.modFab_ctxs (f : Fab → Fab) : (s.modFab f).ctxs = s.ctxs := rfl
@[simp] theorem State.modFab_ctx (f : Fab → Fab) (c' : CtxId) : (s.modFab f).ctx c' = s.ctx c' := rfl
@[simp] theorem State.modFab_gate (f : Fab → Fab) : (s.modFab f).gate = s.gate := rfl
@[simp] theorem State.modFab_seqr (f : Fab → Fab) : (s.modFab f).seqr = s.seqr := rfl
@[simp] theorem State.modFab_rst (f : Fab → Fab) : (s.modFab f).rst = s.rst := rfl
@[simp] theorem State.modFab_strm (f : Fab → Fab) : (s.modFab f).strm = s.strm := rfl
@[simp] theorem State.modFab_engine (f : Fab → Fab) (q' : Nat) : (s.modFab f).engine q' = s.engine q' := rfl
@[simp] theorem State.modFab_chan (f : Fab → Fab) (q' ch' : Nat) : (s.modFab f).chan q' ch' = s.chan q' ch' := rfl
@[simp] theorem State.modFab_red (f : Fab → Fab) : (s.modFab f).red = s.red := rfl
@[simp] theorem State.modFab_redEng (f : Fab → Fab) (e' : Nat) : (s.modFab f).redEng e' = s.redEng e' := rfl
@[simp] theorem State.modFab_harv (f : Fab → Fab) : (s.modFab f).harv = s.harv := rfl
@[simp] theorem State.modFab_written (f : Fab → Fab) : (s.modFab f).written = s.written := rfl
@[simp] theorem State.modFab_fuses (f : Fab → Fab) : (s.modFab f).fuses = s.fuses := rfl
@[simp] theorem State.modFab_nvm (f : Fab → Fab) : (s.modFab f).nvm = s.nvm := rfl
@[simp] theorem State.modFab_boot (f : Fab → Fab) : (s.modFab f).boot = s.boot := rfl
@[simp] theorem State.modFab_vault (f : Fab → Fab) : (s.modFab f).vault = s.vault := rfl
@[simp] theorem State.modFab_pwr (f : Fab → Fab) : (s.modFab f).pwr = s.pwr := rfl
@[simp] theorem State.modFab_dieClk (f : Fab → Fab) (d' : Nat) : (s.modFab f).dieClk d' = s.dieClk d' := rfl
@[simp] theorem State.modFab_car (f : Fab → Fab) : (s.modFab f).car = s.car := rfl
@[simp] theorem State.modGate_pending (f : Gate → Gate) : (s.modGate f).pending = s.pending := rfl
@[simp] theorem State.modGate_freeCtr (f : Gate → Gate) : (s.modGate f).freeCtr = s.freeCtr := rfl
@[simp] theorem State.modGate_clk (f : Gate → Gate) : (s.modGate f).clk = s.clk := rfl
@[simp] theorem State.modGate_count (f : Gate → Gate) (k' : Clk) : (s.modGate f).count k' = s.count k' := rfl
@[simp] theorem State.modGate_stampBase (f : Gate → Gate) : (s.modGate f).stampBase = s.stampBase := rfl
@[simp] theorem State.modGate_log (f : Gate → Gate) : (s.modGate f).log = s.log := rfl
@[simp] theorem State.modGate_out (f : Gate → Gate) : (s.modGate f).out = s.out := rfl
@[simp] theorem State.modGate_threads (f : Gate → Gate) : (s.modGate f).threads = s.threads := rfl
@[simp] theorem State.modGate_thr (f : Gate → Gate) (th' : ThreadId) : (s.modGate f).thr th' = s.thr th' := rfl
@[simp] theorem State.modGate_cores (f : Gate → Gate) : (s.modGate f).cores = s.cores := rfl
@[simp] theorem State.modGate_core (f : Gate → Gate) (g' : Nat) : (s.modGate f).core g' = s.core g' := rfl
@[simp] theorem State.modGate_quadOwner (f : Gate → Gate) : (s.modGate f).quadOwner = s.quadOwner := rfl
@[simp] theorem State.modGate_thCtx (f : Gate → Gate) (th' : ThreadId) : (s.modGate f).thCtx th' = s.thCtx th' := rfl
@[simp] theorem State.modGate_quadCtx (f : Gate → Gate) (q' : Nat) : (s.modGate f).quadCtx q' = s.quadCtx q' := rfl
@[simp] theorem State.modGate_mem (f : Gate → Gate) : (s.modGate f).mem = s.mem := rfl
@[simp] theorem State.modGate_peek (f : Gate → Gate) (l' n' : Nat) : (s.modGate f).peek l' n' = s.peek l' n' := rfl
@[simp] theorem State.modGate_poison (f : Gate → Gate) : (s.modGate f).poison = s.poison := rfl
@[simp] theorem State.modGate_poisonIn (f : Gate → Gate) (l' n' : Nat) : (s.modGate f).poisonIn l' n' = s.poisonIn l' n' := rfl
@[simp] theorem State.modGate_fresh (f : Gate → Gate) : (s.modGate f).fresh = s.fresh := rfl
@[simp] theorem State.modGate_cfrac (f : Gate → Gate) : (s.modGate f).cfrac = s.cfrac := rfl
@[simp] theorem State.modGate_dies (f : Gate → Gate) : (s.modGate f).dies = s.dies := rfl
@[simp] theorem State.modGate_die (f : Gate → Gate) (d' : Nat) : (s.modGate f).die d' = s.die d' := rfl
@[simp] theorem State.modGate_grans (f : Gate → Gate) : (s.modGate f).grans = s.grans := rfl
@[simp] theorem State.modGate_gran (f : Gate → Gate) (n' : Nat) : (s.modGate f).gran n' = s.gran n' := rfl
@[simp] theorem State.modGate_sync (f : Gate → Gate) : (s.modGate f).sync = s.sync := rfl
@[simp] theorem State.modGate_tally (f : Gate → Gate) (i' : Nat) : (s.modGate f).tally i' = s.tally i' := rfl
@[simp] theorem State.modGate_bell (f : Gate → Gate) (j' : Nat) : (s.modGate f).bell j' = s.bell j' := rfl
@[simp] theorem State.modGate_ctxs (f : Gate → Gate) : (s.modGate f).ctxs = s.ctxs := rfl
@[simp] theorem State.modGate_ctx (f : Gate → Gate) (c' : CtxId) : (s.modGate f).ctx c' = s.ctx c' := rfl
@[simp] theorem State.modGate_seqr (f : Gate → Gate) : (s.modGate f).seqr = s.seqr := rfl
@[simp] theorem State.modGate_fab (f : Gate → Gate) : (s.modGate f).fab = s.fab := rfl
@[simp] theorem State.modGate_port (f : Gate → Gate) (p' : Nat) : (s.modGate f).port p' = s.port p' := rfl
@[simp] theorem State.modGate_rst (f : Gate → Gate) : (s.modGate f).rst = s.rst := rfl
@[simp] theorem State.modGate_strm (f : Gate → Gate) : (s.modGate f).strm = s.strm := rfl
@[simp] theorem State.modGate_engine (f : Gate → Gate) (q' : Nat) : (s.modGate f).engine q' = s.engine q' := rfl
@[simp] theorem State.modGate_chan (f : Gate → Gate) (q' ch' : Nat) : (s.modGate f).chan q' ch' = s.chan q' ch' := rfl
@[simp] theorem State.modGate_red (f : Gate → Gate) : (s.modGate f).red = s.red := rfl
@[simp] theorem State.modGate_redEng (f : Gate → Gate) (e' : Nat) : (s.modGate f).redEng e' = s.redEng e' := rfl
@[simp] theorem State.modGate_harv (f : Gate → Gate) : (s.modGate f).harv = s.harv := rfl
@[simp] theorem State.modGate_written (f : Gate → Gate) : (s.modGate f).written = s.written := rfl
@[simp] theorem State.modGate_fuses (f : Gate → Gate) : (s.modGate f).fuses = s.fuses := rfl
@[simp] theorem State.modGate_nvm (f : Gate → Gate) : (s.modGate f).nvm = s.nvm := rfl
@[simp] theorem State.modGate_boot (f : Gate → Gate) : (s.modGate f).boot = s.boot := rfl
@[simp] theorem State.modGate_vault (f : Gate → Gate) : (s.modGate f).vault = s.vault := rfl
@[simp] theorem State.modGate_pwr (f : Gate → Gate) : (s.modGate f).pwr = s.pwr := rfl
@[simp] theorem State.modGate_dieClk (f : Gate → Gate) (d' : Nat) : (s.modGate f).dieClk d' = s.dieClk d' := rfl
@[simp] theorem State.modGate_car (f : Gate → Gate) : (s.modGate f).car = s.car := rfl
@[simp] theorem State.modRst_pending (f : Rst → Rst) : (s.modRst f).pending = s.pending := rfl
@[simp] theorem State.modRst_freeCtr (f : Rst → Rst) : (s.modRst f).freeCtr = s.freeCtr := rfl
@[simp] theorem State.modRst_clk (f : Rst → Rst) : (s.modRst f).clk = s.clk := rfl
@[simp] theorem State.modRst_count (f : Rst → Rst) (k' : Clk) : (s.modRst f).count k' = s.count k' := rfl
@[simp] theorem State.modRst_stampBase (f : Rst → Rst) : (s.modRst f).stampBase = s.stampBase := rfl
@[simp] theorem State.modRst_log (f : Rst → Rst) : (s.modRst f).log = s.log := rfl
@[simp] theorem State.modRst_out (f : Rst → Rst) : (s.modRst f).out = s.out := rfl
@[simp] theorem State.modRst_threads (f : Rst → Rst) : (s.modRst f).threads = s.threads := rfl
@[simp] theorem State.modRst_thr (f : Rst → Rst) (th' : ThreadId) : (s.modRst f).thr th' = s.thr th' := rfl
@[simp] theorem State.modRst_cores (f : Rst → Rst) : (s.modRst f).cores = s.cores := rfl
@[simp] theorem State.modRst_core (f : Rst → Rst) (g' : Nat) : (s.modRst f).core g' = s.core g' := rfl
@[simp] theorem State.modRst_quadOwner (f : Rst → Rst) : (s.modRst f).quadOwner = s.quadOwner := rfl
@[simp] theorem State.modRst_thCtx (f : Rst → Rst) (th' : ThreadId) : (s.modRst f).thCtx th' = s.thCtx th' := rfl
@[simp] theorem State.modRst_quadCtx (f : Rst → Rst) (q' : Nat) : (s.modRst f).quadCtx q' = s.quadCtx q' := rfl
@[simp] theorem State.modRst_mem (f : Rst → Rst) : (s.modRst f).mem = s.mem := rfl
@[simp] theorem State.modRst_peek (f : Rst → Rst) (l' n' : Nat) : (s.modRst f).peek l' n' = s.peek l' n' := rfl
@[simp] theorem State.modRst_poison (f : Rst → Rst) : (s.modRst f).poison = s.poison := rfl
@[simp] theorem State.modRst_poisonIn (f : Rst → Rst) (l' n' : Nat) : (s.modRst f).poisonIn l' n' = s.poisonIn l' n' := rfl
@[simp] theorem State.modRst_fresh (f : Rst → Rst) : (s.modRst f).fresh = s.fresh := rfl
@[simp] theorem State.modRst_cfrac (f : Rst → Rst) : (s.modRst f).cfrac = s.cfrac := rfl
@[simp] theorem State.modRst_dies (f : Rst → Rst) : (s.modRst f).dies = s.dies := rfl
@[simp] theorem State.modRst_die (f : Rst → Rst) (d' : Nat) : (s.modRst f).die d' = s.die d' := rfl
@[simp] theorem State.modRst_grans (f : Rst → Rst) : (s.modRst f).grans = s.grans := rfl
@[simp] theorem State.modRst_gran (f : Rst → Rst) (n' : Nat) : (s.modRst f).gran n' = s.gran n' := rfl
@[simp] theorem State.modRst_sync (f : Rst → Rst) : (s.modRst f).sync = s.sync := rfl
@[simp] theorem State.modRst_tally (f : Rst → Rst) (i' : Nat) : (s.modRst f).tally i' = s.tally i' := rfl
@[simp] theorem State.modRst_bell (f : Rst → Rst) (j' : Nat) : (s.modRst f).bell j' = s.bell j' := rfl
@[simp] theorem State.modRst_ctxs (f : Rst → Rst) : (s.modRst f).ctxs = s.ctxs := rfl
@[simp] theorem State.modRst_ctx (f : Rst → Rst) (c' : CtxId) : (s.modRst f).ctx c' = s.ctx c' := rfl
@[simp] theorem State.modRst_gate (f : Rst → Rst) : (s.modRst f).gate = s.gate := rfl
@[simp] theorem State.modRst_seqr (f : Rst → Rst) : (s.modRst f).seqr = s.seqr := rfl
@[simp] theorem State.modRst_fab (f : Rst → Rst) : (s.modRst f).fab = s.fab := rfl
@[simp] theorem State.modRst_port (f : Rst → Rst) (p' : Nat) : (s.modRst f).port p' = s.port p' := rfl
@[simp] theorem State.modRst_strm (f : Rst → Rst) : (s.modRst f).strm = s.strm := rfl
@[simp] theorem State.modRst_engine (f : Rst → Rst) (q' : Nat) : (s.modRst f).engine q' = s.engine q' := rfl
@[simp] theorem State.modRst_chan (f : Rst → Rst) (q' ch' : Nat) : (s.modRst f).chan q' ch' = s.chan q' ch' := rfl
@[simp] theorem State.modRst_red (f : Rst → Rst) : (s.modRst f).red = s.red := rfl
@[simp] theorem State.modRst_redEng (f : Rst → Rst) (e' : Nat) : (s.modRst f).redEng e' = s.redEng e' := rfl
@[simp] theorem State.modRst_harv (f : Rst → Rst) : (s.modRst f).harv = s.harv := rfl
@[simp] theorem State.modRst_written (f : Rst → Rst) : (s.modRst f).written = s.written := rfl
@[simp] theorem State.modRst_fuses (f : Rst → Rst) : (s.modRst f).fuses = s.fuses := rfl
@[simp] theorem State.modRst_nvm (f : Rst → Rst) : (s.modRst f).nvm = s.nvm := rfl
@[simp] theorem State.modRst_boot (f : Rst → Rst) : (s.modRst f).boot = s.boot := rfl
@[simp] theorem State.modRst_vault (f : Rst → Rst) : (s.modRst f).vault = s.vault := rfl
@[simp] theorem State.modRst_pwr (f : Rst → Rst) : (s.modRst f).pwr = s.pwr := rfl
@[simp] theorem State.modRst_dieClk (f : Rst → Rst) (d' : Nat) : (s.modRst f).dieClk d' = s.dieClk d' := rfl
@[simp] theorem State.modRst_car (f : Rst → Rst) : (s.modRst f).car = s.car := rfl
@[simp] theorem State.modSync_pending (f : Sync → Sync) : (s.modSync f).pending = s.pending := rfl
@[simp] theorem State.modSync_freeCtr (f : Sync → Sync) : (s.modSync f).freeCtr = s.freeCtr := rfl
@[simp] theorem State.modSync_clk (f : Sync → Sync) : (s.modSync f).clk = s.clk := rfl
@[simp] theorem State.modSync_count (f : Sync → Sync) (k' : Clk) : (s.modSync f).count k' = s.count k' := rfl
@[simp] theorem State.modSync_stampBase (f : Sync → Sync) : (s.modSync f).stampBase = s.stampBase := rfl
@[simp] theorem State.modSync_log (f : Sync → Sync) : (s.modSync f).log = s.log := rfl
@[simp] theorem State.modSync_out (f : Sync → Sync) : (s.modSync f).out = s.out := rfl
@[simp] theorem State.modSync_threads (f : Sync → Sync) : (s.modSync f).threads = s.threads := rfl
@[simp] theorem State.modSync_thr (f : Sync → Sync) (th' : ThreadId) : (s.modSync f).thr th' = s.thr th' := rfl
@[simp] theorem State.modSync_cores (f : Sync → Sync) : (s.modSync f).cores = s.cores := rfl
@[simp] theorem State.modSync_core (f : Sync → Sync) (g' : Nat) : (s.modSync f).core g' = s.core g' := rfl
@[simp] theorem State.modSync_quadOwner (f : Sync → Sync) : (s.modSync f).quadOwner = s.quadOwner := rfl
@[simp] theorem State.modSync_thCtx (f : Sync → Sync) (th' : ThreadId) : (s.modSync f).thCtx th' = s.thCtx th' := rfl
@[simp] theorem State.modSync_quadCtx (f : Sync → Sync) (q' : Nat) : (s.modSync f).quadCtx q' = s.quadCtx q' := rfl
@[simp] theorem State.modSync_mem (f : Sync → Sync) : (s.modSync f).mem = s.mem := rfl
@[simp] theorem State.modSync_peek (f : Sync → Sync) (l' n' : Nat) : (s.modSync f).peek l' n' = s.peek l' n' := rfl
@[simp] theorem State.modSync_poison (f : Sync → Sync) : (s.modSync f).poison = s.poison := rfl
@[simp] theorem State.modSync_poisonIn (f : Sync → Sync) (l' n' : Nat) : (s.modSync f).poisonIn l' n' = s.poisonIn l' n' := rfl
@[simp] theorem State.modSync_fresh (f : Sync → Sync) : (s.modSync f).fresh = s.fresh := rfl
@[simp] theorem State.modSync_cfrac (f : Sync → Sync) : (s.modSync f).cfrac = s.cfrac := rfl
@[simp] theorem State.modSync_dies (f : Sync → Sync) : (s.modSync f).dies = s.dies := rfl
@[simp] theorem State.modSync_die (f : Sync → Sync) (d' : Nat) : (s.modSync f).die d' = s.die d' := rfl
@[simp] theorem State.modSync_grans (f : Sync → Sync) : (s.modSync f).grans = s.grans := rfl
@[simp] theorem State.modSync_gran (f : Sync → Sync) (n' : Nat) : (s.modSync f).gran n' = s.gran n' := rfl
@[simp] theorem State.modSync_ctxs (f : Sync → Sync) : (s.modSync f).ctxs = s.ctxs := rfl
@[simp] theorem State.modSync_ctx (f : Sync → Sync) (c' : CtxId) : (s.modSync f).ctx c' = s.ctx c' := rfl
@[simp] theorem State.modSync_gate (f : Sync → Sync) : (s.modSync f).gate = s.gate := rfl
@[simp] theorem State.modSync_seqr (f : Sync → Sync) : (s.modSync f).seqr = s.seqr := rfl
@[simp] theorem State.modSync_fab (f : Sync → Sync) : (s.modSync f).fab = s.fab := rfl
@[simp] theorem State.modSync_port (f : Sync → Sync) (p' : Nat) : (s.modSync f).port p' = s.port p' := rfl
@[simp] theorem State.modSync_rst (f : Sync → Sync) : (s.modSync f).rst = s.rst := rfl
@[simp] theorem State.modSync_strm (f : Sync → Sync) : (s.modSync f).strm = s.strm := rfl
@[simp] theorem State.modSync_engine (f : Sync → Sync) (q' : Nat) : (s.modSync f).engine q' = s.engine q' := rfl
@[simp] theorem State.modSync_chan (f : Sync → Sync) (q' ch' : Nat) : (s.modSync f).chan q' ch' = s.chan q' ch' := rfl
@[simp] theorem State.modSync_red (f : Sync → Sync) : (s.modSync f).red = s.red := rfl
@[simp] theorem State.modSync_redEng (f : Sync → Sync) (e' : Nat) : (s.modSync f).redEng e' = s.redEng e' := rfl
@[simp] theorem State.modSync_harv (f : Sync → Sync) : (s.modSync f).harv = s.harv := rfl
@[simp] theorem State.modSync_written (f : Sync → Sync) : (s.modSync f).written = s.written := rfl
@[simp] theorem State.modSync_fuses (f : Sync → Sync) : (s.modSync f).fuses = s.fuses := rfl
@[simp] theorem State.modSync_nvm (f : Sync → Sync) : (s.modSync f).nvm = s.nvm := rfl
@[simp] theorem State.modSync_boot (f : Sync → Sync) : (s.modSync f).boot = s.boot := rfl
@[simp] theorem State.modSync_vault (f : Sync → Sync) : (s.modSync f).vault = s.vault := rfl
@[simp] theorem State.modSync_pwr (f : Sync → Sync) : (s.modSync f).pwr = s.pwr := rfl
@[simp] theorem State.modSync_dieClk (f : Sync → Sync) (d' : Nat) : (s.modSync f).dieClk d' = s.dieClk d' := rfl
@[simp] theorem State.modSync_car (f : Sync → Sync) : (s.modSync f).car = s.car := rfl
@[simp] theorem State.modEngine_pending (q : Nat) (f : Engine → Engine) : (s.modEngine q f).pending = s.pending := rfl
@[simp] theorem State.modEngine_freeCtr (q : Nat) (f : Engine → Engine) : (s.modEngine q f).freeCtr = s.freeCtr := rfl
@[simp] theorem State.modEngine_clk (q : Nat) (f : Engine → Engine) : (s.modEngine q f).clk = s.clk := rfl
@[simp] theorem State.modEngine_count (q : Nat) (f : Engine → Engine) (k' : Clk) : (s.modEngine q f).count k' = s.count k' := rfl
@[simp] theorem State.modEngine_stampBase (q : Nat) (f : Engine → Engine) : (s.modEngine q f).stampBase = s.stampBase := rfl
@[simp] theorem State.modEngine_log (q : Nat) (f : Engine → Engine) : (s.modEngine q f).log = s.log := rfl
@[simp] theorem State.modEngine_out (q : Nat) (f : Engine → Engine) : (s.modEngine q f).out = s.out := rfl
@[simp] theorem State.modEngine_threads (q : Nat) (f : Engine → Engine) : (s.modEngine q f).threads = s.threads := rfl
@[simp] theorem State.modEngine_thr (q : Nat) (f : Engine → Engine) (th' : ThreadId) : (s.modEngine q f).thr th' = s.thr th' := rfl
@[simp] theorem State.modEngine_cores (q : Nat) (f : Engine → Engine) : (s.modEngine q f).cores = s.cores := rfl
@[simp] theorem State.modEngine_core (q : Nat) (f : Engine → Engine) (g' : Nat) : (s.modEngine q f).core g' = s.core g' := rfl
@[simp] theorem State.modEngine_quadOwner (q : Nat) (f : Engine → Engine) : (s.modEngine q f).quadOwner = s.quadOwner := rfl
@[simp] theorem State.modEngine_thCtx (q : Nat) (f : Engine → Engine) (th' : ThreadId) : (s.modEngine q f).thCtx th' = s.thCtx th' := rfl
@[simp] theorem State.modEngine_quadCtx (q : Nat) (f : Engine → Engine) (q' : Nat) : (s.modEngine q f).quadCtx q' = s.quadCtx q' := rfl
@[simp] theorem State.modEngine_mem (q : Nat) (f : Engine → Engine) : (s.modEngine q f).mem = s.mem := rfl
@[simp] theorem State.modEngine_peek (q : Nat) (f : Engine → Engine) (l' n' : Nat) : (s.modEngine q f).peek l' n' = s.peek l' n' := rfl
@[simp] theorem State.modEngine_poison (q : Nat) (f : Engine → Engine) : (s.modEngine q f).poison = s.poison := rfl
@[simp] theorem State.modEngine_poisonIn (q : Nat) (f : Engine → Engine) (l' n' : Nat) : (s.modEngine q f).poisonIn l' n' = s.poisonIn l' n' := rfl
@[simp] theorem State.modEngine_fresh (q : Nat) (f : Engine → Engine) : (s.modEngine q f).fresh = s.fresh := rfl
@[simp] theorem State.modEngine_cfrac (q : Nat) (f : Engine → Engine) : (s.modEngine q f).cfrac = s.cfrac := rfl
@[simp] theorem State.modEngine_dies (q : Nat) (f : Engine → Engine) : (s.modEngine q f).dies = s.dies := rfl
@[simp] theorem State.modEngine_die (q : Nat) (f : Engine → Engine) (d' : Nat) : (s.modEngine q f).die d' = s.die d' := rfl
@[simp] theorem State.modEngine_grans (q : Nat) (f : Engine → Engine) : (s.modEngine q f).grans = s.grans := rfl
@[simp] theorem State.modEngine_gran (q : Nat) (f : Engine → Engine) (n' : Nat) : (s.modEngine q f).gran n' = s.gran n' := rfl
@[simp] theorem State.modEngine_sync (q : Nat) (f : Engine → Engine) : (s.modEngine q f).sync = s.sync := rfl
@[simp] theorem State.modEngine_tally (q : Nat) (f : Engine → Engine) (i' : Nat) : (s.modEngine q f).tally i' = s.tally i' := rfl
@[simp] theorem State.modEngine_bell (q : Nat) (f : Engine → Engine) (j' : Nat) : (s.modEngine q f).bell j' = s.bell j' := rfl
@[simp] theorem State.modEngine_ctxs (q : Nat) (f : Engine → Engine) : (s.modEngine q f).ctxs = s.ctxs := rfl
@[simp] theorem State.modEngine_ctx (q : Nat) (f : Engine → Engine) (c' : CtxId) : (s.modEngine q f).ctx c' = s.ctx c' := rfl
@[simp] theorem State.modEngine_gate (q : Nat) (f : Engine → Engine) : (s.modEngine q f).gate = s.gate := rfl
@[simp] theorem State.modEngine_seqr (q : Nat) (f : Engine → Engine) : (s.modEngine q f).seqr = s.seqr := rfl
@[simp] theorem State.modEngine_fab (q : Nat) (f : Engine → Engine) : (s.modEngine q f).fab = s.fab := rfl
@[simp] theorem State.modEngine_port (q : Nat) (f : Engine → Engine) (p' : Nat) : (s.modEngine q f).port p' = s.port p' := rfl
@[simp] theorem State.modEngine_rst (q : Nat) (f : Engine → Engine) : (s.modEngine q f).rst = s.rst := rfl
@[simp] theorem State.modEngine_red (q : Nat) (f : Engine → Engine) : (s.modEngine q f).red = s.red := rfl
@[simp] theorem State.modEngine_redEng (q : Nat) (f : Engine → Engine) (e' : Nat) : (s.modEngine q f).redEng e' = s.redEng e' := rfl
@[simp] theorem State.modEngine_harv (q : Nat) (f : Engine → Engine) : (s.modEngine q f).harv = s.harv := rfl
@[simp] theorem State.modEngine_written (q : Nat) (f : Engine → Engine) : (s.modEngine q f).written = s.written := rfl
@[simp] theorem State.modEngine_fuses (q : Nat) (f : Engine → Engine) : (s.modEngine q f).fuses = s.fuses := rfl
@[simp] theorem State.modEngine_nvm (q : Nat) (f : Engine → Engine) : (s.modEngine q f).nvm = s.nvm := rfl
@[simp] theorem State.modEngine_boot (q : Nat) (f : Engine → Engine) : (s.modEngine q f).boot = s.boot := rfl
@[simp] theorem State.modEngine_vault (q : Nat) (f : Engine → Engine) : (s.modEngine q f).vault = s.vault := rfl
@[simp] theorem State.modEngine_pwr (q : Nat) (f : Engine → Engine) : (s.modEngine q f).pwr = s.pwr := rfl
@[simp] theorem State.modEngine_dieClk (q : Nat) (f : Engine → Engine) (d' : Nat) : (s.modEngine q f).dieClk d' = s.dieClk d' := rfl
@[simp] theorem State.modEngine_car (q : Nat) (f : Engine → Engine) : (s.modEngine q f).car = s.car := rfl
@[simp] theorem State.modRedEng_pending (e : Nat) (f : RedEngine → RedEngine) : (s.modRedEng e f).pending = s.pending := rfl
@[simp] theorem State.modRedEng_freeCtr (e : Nat) (f : RedEngine → RedEngine) : (s.modRedEng e f).freeCtr = s.freeCtr := rfl
@[simp] theorem State.modRedEng_clk (e : Nat) (f : RedEngine → RedEngine) : (s.modRedEng e f).clk = s.clk := rfl
@[simp] theorem State.modRedEng_count (e : Nat) (f : RedEngine → RedEngine) (k' : Clk) : (s.modRedEng e f).count k' = s.count k' := rfl
@[simp] theorem State.modRedEng_stampBase (e : Nat) (f : RedEngine → RedEngine) : (s.modRedEng e f).stampBase = s.stampBase := rfl
@[simp] theorem State.modRedEng_log (e : Nat) (f : RedEngine → RedEngine) : (s.modRedEng e f).log = s.log := rfl
@[simp] theorem State.modRedEng_out (e : Nat) (f : RedEngine → RedEngine) : (s.modRedEng e f).out = s.out := rfl
@[simp] theorem State.modRedEng_threads (e : Nat) (f : RedEngine → RedEngine) : (s.modRedEng e f).threads = s.threads := rfl
@[simp] theorem State.modRedEng_thr (e : Nat) (f : RedEngine → RedEngine) (th' : ThreadId) : (s.modRedEng e f).thr th' = s.thr th' := rfl
@[simp] theorem State.modRedEng_cores (e : Nat) (f : RedEngine → RedEngine) : (s.modRedEng e f).cores = s.cores := rfl
@[simp] theorem State.modRedEng_core (e : Nat) (f : RedEngine → RedEngine) (g' : Nat) : (s.modRedEng e f).core g' = s.core g' := rfl
@[simp] theorem State.modRedEng_quadOwner (e : Nat) (f : RedEngine → RedEngine) : (s.modRedEng e f).quadOwner = s.quadOwner := rfl
@[simp] theorem State.modRedEng_thCtx (e : Nat) (f : RedEngine → RedEngine) (th' : ThreadId) : (s.modRedEng e f).thCtx th' = s.thCtx th' := rfl
@[simp] theorem State.modRedEng_quadCtx (e : Nat) (f : RedEngine → RedEngine) (q' : Nat) : (s.modRedEng e f).quadCtx q' = s.quadCtx q' := rfl
@[simp] theorem State.modRedEng_mem (e : Nat) (f : RedEngine → RedEngine) : (s.modRedEng e f).mem = s.mem := rfl
@[simp] theorem State.modRedEng_peek (e : Nat) (f : RedEngine → RedEngine) (l' n' : Nat) : (s.modRedEng e f).peek l' n' = s.peek l' n' := rfl
@[simp] theorem State.modRedEng_poison (e : Nat) (f : RedEngine → RedEngine) : (s.modRedEng e f).poison = s.poison := rfl
@[simp] theorem State.modRedEng_poisonIn (e : Nat) (f : RedEngine → RedEngine) (l' n' : Nat) : (s.modRedEng e f).poisonIn l' n' = s.poisonIn l' n' := rfl
@[simp] theorem State.modRedEng_fresh (e : Nat) (f : RedEngine → RedEngine) : (s.modRedEng e f).fresh = s.fresh := rfl
@[simp] theorem State.modRedEng_cfrac (e : Nat) (f : RedEngine → RedEngine) : (s.modRedEng e f).cfrac = s.cfrac := rfl
@[simp] theorem State.modRedEng_dies (e : Nat) (f : RedEngine → RedEngine) : (s.modRedEng e f).dies = s.dies := rfl
@[simp] theorem State.modRedEng_die (e : Nat) (f : RedEngine → RedEngine) (d' : Nat) : (s.modRedEng e f).die d' = s.die d' := rfl
@[simp] theorem State.modRedEng_grans (e : Nat) (f : RedEngine → RedEngine) : (s.modRedEng e f).grans = s.grans := rfl
@[simp] theorem State.modRedEng_gran (e : Nat) (f : RedEngine → RedEngine) (n' : Nat) : (s.modRedEng e f).gran n' = s.gran n' := rfl
@[simp] theorem State.modRedEng_sync (e : Nat) (f : RedEngine → RedEngine) : (s.modRedEng e f).sync = s.sync := rfl
@[simp] theorem State.modRedEng_tally (e : Nat) (f : RedEngine → RedEngine) (i' : Nat) : (s.modRedEng e f).tally i' = s.tally i' := rfl
@[simp] theorem State.modRedEng_bell (e : Nat) (f : RedEngine → RedEngine) (j' : Nat) : (s.modRedEng e f).bell j' = s.bell j' := rfl
@[simp] theorem State.modRedEng_ctxs (e : Nat) (f : RedEngine → RedEngine) : (s.modRedEng e f).ctxs = s.ctxs := rfl
@[simp] theorem State.modRedEng_ctx (e : Nat) (f : RedEngine → RedEngine) (c' : CtxId) : (s.modRedEng e f).ctx c' = s.ctx c' := rfl
@[simp] theorem State.modRedEng_gate (e : Nat) (f : RedEngine → RedEngine) : (s.modRedEng e f).gate = s.gate := rfl
@[simp] theorem State.modRedEng_seqr (e : Nat) (f : RedEngine → RedEngine) : (s.modRedEng e f).seqr = s.seqr := rfl
@[simp] theorem State.modRedEng_fab (e : Nat) (f : RedEngine → RedEngine) : (s.modRedEng e f).fab = s.fab := rfl
@[simp] theorem State.modRedEng_port (e : Nat) (f : RedEngine → RedEngine) (p' : Nat) : (s.modRedEng e f).port p' = s.port p' := rfl
@[simp] theorem State.modRedEng_rst (e : Nat) (f : RedEngine → RedEngine) : (s.modRedEng e f).rst = s.rst := rfl
@[simp] theorem State.modRedEng_strm (e : Nat) (f : RedEngine → RedEngine) : (s.modRedEng e f).strm = s.strm := rfl
@[simp] theorem State.modRedEng_engine (e : Nat) (f : RedEngine → RedEngine) (q' : Nat) : (s.modRedEng e f).engine q' = s.engine q' := rfl
@[simp] theorem State.modRedEng_chan (e : Nat) (f : RedEngine → RedEngine) (q' ch' : Nat) : (s.modRedEng e f).chan q' ch' = s.chan q' ch' := rfl
@[simp] theorem State.modRedEng_harv (e : Nat) (f : RedEngine → RedEngine) : (s.modRedEng e f).harv = s.harv := rfl
@[simp] theorem State.modRedEng_written (e : Nat) (f : RedEngine → RedEngine) : (s.modRedEng e f).written = s.written := rfl
@[simp] theorem State.modRedEng_fuses (e : Nat) (f : RedEngine → RedEngine) : (s.modRedEng e f).fuses = s.fuses := rfl
@[simp] theorem State.modRedEng_nvm (e : Nat) (f : RedEngine → RedEngine) : (s.modRedEng e f).nvm = s.nvm := rfl
@[simp] theorem State.modRedEng_boot (e : Nat) (f : RedEngine → RedEngine) : (s.modRedEng e f).boot = s.boot := rfl
@[simp] theorem State.modRedEng_vault (e : Nat) (f : RedEngine → RedEngine) : (s.modRedEng e f).vault = s.vault := rfl
@[simp] theorem State.modRedEng_pwr (e : Nat) (f : RedEngine → RedEngine) : (s.modRedEng e f).pwr = s.pwr := rfl
@[simp] theorem State.modRedEng_dieClk (e : Nat) (f : RedEngine → RedEngine) (d' : Nat) : (s.modRedEng e f).dieClk d' = s.dieClk d' := rfl
@[simp] theorem State.modRedEng_car (e : Nat) (f : RedEngine → RedEngine) : (s.modRedEng e f).car = s.car := rfl
@[simp] theorem State.modHarv_pending (f : Harvest → Harvest) : (s.modHarv f).pending = s.pending := rfl
@[simp] theorem State.modHarv_freeCtr (f : Harvest → Harvest) : (s.modHarv f).freeCtr = s.freeCtr := rfl
@[simp] theorem State.modHarv_clk (f : Harvest → Harvest) : (s.modHarv f).clk = s.clk := rfl
@[simp] theorem State.modHarv_count (f : Harvest → Harvest) (k' : Clk) : (s.modHarv f).count k' = s.count k' := rfl
@[simp] theorem State.modHarv_stampBase (f : Harvest → Harvest) : (s.modHarv f).stampBase = s.stampBase := rfl
@[simp] theorem State.modHarv_log (f : Harvest → Harvest) : (s.modHarv f).log = s.log := rfl
@[simp] theorem State.modHarv_out (f : Harvest → Harvest) : (s.modHarv f).out = s.out := rfl
@[simp] theorem State.modHarv_threads (f : Harvest → Harvest) : (s.modHarv f).threads = s.threads := rfl
@[simp] theorem State.modHarv_thr (f : Harvest → Harvest) (th' : ThreadId) : (s.modHarv f).thr th' = s.thr th' := rfl
@[simp] theorem State.modHarv_cores (f : Harvest → Harvest) : (s.modHarv f).cores = s.cores := rfl
@[simp] theorem State.modHarv_core (f : Harvest → Harvest) (g' : Nat) : (s.modHarv f).core g' = s.core g' := rfl
@[simp] theorem State.modHarv_quadOwner (f : Harvest → Harvest) : (s.modHarv f).quadOwner = s.quadOwner := rfl
@[simp] theorem State.modHarv_thCtx (f : Harvest → Harvest) (th' : ThreadId) : (s.modHarv f).thCtx th' = s.thCtx th' := rfl
@[simp] theorem State.modHarv_quadCtx (f : Harvest → Harvest) (q' : Nat) : (s.modHarv f).quadCtx q' = s.quadCtx q' := rfl
@[simp] theorem State.modHarv_mem (f : Harvest → Harvest) : (s.modHarv f).mem = s.mem := rfl
@[simp] theorem State.modHarv_peek (f : Harvest → Harvest) (l' n' : Nat) : (s.modHarv f).peek l' n' = s.peek l' n' := rfl
@[simp] theorem State.modHarv_poison (f : Harvest → Harvest) : (s.modHarv f).poison = s.poison := rfl
@[simp] theorem State.modHarv_poisonIn (f : Harvest → Harvest) (l' n' : Nat) : (s.modHarv f).poisonIn l' n' = s.poisonIn l' n' := rfl
@[simp] theorem State.modHarv_fresh (f : Harvest → Harvest) : (s.modHarv f).fresh = s.fresh := rfl
@[simp] theorem State.modHarv_cfrac (f : Harvest → Harvest) : (s.modHarv f).cfrac = s.cfrac := rfl
@[simp] theorem State.modHarv_dies (f : Harvest → Harvest) : (s.modHarv f).dies = s.dies := rfl
@[simp] theorem State.modHarv_die (f : Harvest → Harvest) (d' : Nat) : (s.modHarv f).die d' = s.die d' := rfl
@[simp] theorem State.modHarv_grans (f : Harvest → Harvest) : (s.modHarv f).grans = s.grans := rfl
@[simp] theorem State.modHarv_gran (f : Harvest → Harvest) (n' : Nat) : (s.modHarv f).gran n' = s.gran n' := rfl
@[simp] theorem State.modHarv_sync (f : Harvest → Harvest) : (s.modHarv f).sync = s.sync := rfl
@[simp] theorem State.modHarv_tally (f : Harvest → Harvest) (i' : Nat) : (s.modHarv f).tally i' = s.tally i' := rfl
@[simp] theorem State.modHarv_bell (f : Harvest → Harvest) (j' : Nat) : (s.modHarv f).bell j' = s.bell j' := rfl
@[simp] theorem State.modHarv_ctxs (f : Harvest → Harvest) : (s.modHarv f).ctxs = s.ctxs := rfl
@[simp] theorem State.modHarv_ctx (f : Harvest → Harvest) (c' : CtxId) : (s.modHarv f).ctx c' = s.ctx c' := rfl
@[simp] theorem State.modHarv_gate (f : Harvest → Harvest) : (s.modHarv f).gate = s.gate := rfl
@[simp] theorem State.modHarv_seqr (f : Harvest → Harvest) : (s.modHarv f).seqr = s.seqr := rfl
@[simp] theorem State.modHarv_fab (f : Harvest → Harvest) : (s.modHarv f).fab = s.fab := rfl
@[simp] theorem State.modHarv_port (f : Harvest → Harvest) (p' : Nat) : (s.modHarv f).port p' = s.port p' := rfl
@[simp] theorem State.modHarv_rst (f : Harvest → Harvest) : (s.modHarv f).rst = s.rst := rfl
@[simp] theorem State.modHarv_strm (f : Harvest → Harvest) : (s.modHarv f).strm = s.strm := rfl
@[simp] theorem State.modHarv_engine (f : Harvest → Harvest) (q' : Nat) : (s.modHarv f).engine q' = s.engine q' := rfl
@[simp] theorem State.modHarv_chan (f : Harvest → Harvest) (q' ch' : Nat) : (s.modHarv f).chan q' ch' = s.chan q' ch' := rfl
@[simp] theorem State.modHarv_red (f : Harvest → Harvest) : (s.modHarv f).red = s.red := rfl
@[simp] theorem State.modHarv_redEng (f : Harvest → Harvest) (e' : Nat) : (s.modHarv f).redEng e' = s.redEng e' := rfl
@[simp] theorem State.modHarv_written (f : Harvest → Harvest) : (s.modHarv f).written = s.written := rfl
@[simp] theorem State.modHarv_fuses (f : Harvest → Harvest) : (s.modHarv f).fuses = s.fuses := rfl
@[simp] theorem State.modHarv_nvm (f : Harvest → Harvest) : (s.modHarv f).nvm = s.nvm := rfl
@[simp] theorem State.modHarv_boot (f : Harvest → Harvest) : (s.modHarv f).boot = s.boot := rfl
@[simp] theorem State.modHarv_vault (f : Harvest → Harvest) : (s.modHarv f).vault = s.vault := rfl
@[simp] theorem State.modHarv_pwr (f : Harvest → Harvest) : (s.modHarv f).pwr = s.pwr := rfl
@[simp] theorem State.modHarv_dieClk (f : Harvest → Harvest) (d' : Nat) : (s.modHarv f).dieClk d' = s.dieClk d' := rfl
@[simp] theorem State.modHarv_car (f : Harvest → Harvest) : (s.modHarv f).car = s.car := rfl
@[simp] theorem State.modNvm_pending (f : Nvm → Nvm) : (s.modNvm f).pending = s.pending := rfl
@[simp] theorem State.modNvm_freeCtr (f : Nvm → Nvm) : (s.modNvm f).freeCtr = s.freeCtr := rfl
@[simp] theorem State.modNvm_clk (f : Nvm → Nvm) : (s.modNvm f).clk = s.clk := rfl
@[simp] theorem State.modNvm_count (f : Nvm → Nvm) (k' : Clk) : (s.modNvm f).count k' = s.count k' := rfl
@[simp] theorem State.modNvm_stampBase (f : Nvm → Nvm) : (s.modNvm f).stampBase = s.stampBase := rfl
@[simp] theorem State.modNvm_log (f : Nvm → Nvm) : (s.modNvm f).log = s.log := rfl
@[simp] theorem State.modNvm_out (f : Nvm → Nvm) : (s.modNvm f).out = s.out := rfl
@[simp] theorem State.modNvm_threads (f : Nvm → Nvm) : (s.modNvm f).threads = s.threads := rfl
@[simp] theorem State.modNvm_thr (f : Nvm → Nvm) (th' : ThreadId) : (s.modNvm f).thr th' = s.thr th' := rfl
@[simp] theorem State.modNvm_cores (f : Nvm → Nvm) : (s.modNvm f).cores = s.cores := rfl
@[simp] theorem State.modNvm_core (f : Nvm → Nvm) (g' : Nat) : (s.modNvm f).core g' = s.core g' := rfl
@[simp] theorem State.modNvm_quadOwner (f : Nvm → Nvm) : (s.modNvm f).quadOwner = s.quadOwner := rfl
@[simp] theorem State.modNvm_thCtx (f : Nvm → Nvm) (th' : ThreadId) : (s.modNvm f).thCtx th' = s.thCtx th' := rfl
@[simp] theorem State.modNvm_quadCtx (f : Nvm → Nvm) (q' : Nat) : (s.modNvm f).quadCtx q' = s.quadCtx q' := rfl
@[simp] theorem State.modNvm_mem (f : Nvm → Nvm) : (s.modNvm f).mem = s.mem := rfl
@[simp] theorem State.modNvm_peek (f : Nvm → Nvm) (l' n' : Nat) : (s.modNvm f).peek l' n' = s.peek l' n' := rfl
@[simp] theorem State.modNvm_poison (f : Nvm → Nvm) : (s.modNvm f).poison = s.poison := rfl
@[simp] theorem State.modNvm_poisonIn (f : Nvm → Nvm) (l' n' : Nat) : (s.modNvm f).poisonIn l' n' = s.poisonIn l' n' := rfl
@[simp] theorem State.modNvm_fresh (f : Nvm → Nvm) : (s.modNvm f).fresh = s.fresh := rfl
@[simp] theorem State.modNvm_cfrac (f : Nvm → Nvm) : (s.modNvm f).cfrac = s.cfrac := rfl
@[simp] theorem State.modNvm_dies (f : Nvm → Nvm) : (s.modNvm f).dies = s.dies := rfl
@[simp] theorem State.modNvm_die (f : Nvm → Nvm) (d' : Nat) : (s.modNvm f).die d' = s.die d' := rfl
@[simp] theorem State.modNvm_grans (f : Nvm → Nvm) : (s.modNvm f).grans = s.grans := rfl
@[simp] theorem State.modNvm_gran (f : Nvm → Nvm) (n' : Nat) : (s.modNvm f).gran n' = s.gran n' := rfl
@[simp] theorem State.modNvm_sync (f : Nvm → Nvm) : (s.modNvm f).sync = s.sync := rfl
@[simp] theorem State.modNvm_tally (f : Nvm → Nvm) (i' : Nat) : (s.modNvm f).tally i' = s.tally i' := rfl
@[simp] theorem State.modNvm_bell (f : Nvm → Nvm) (j' : Nat) : (s.modNvm f).bell j' = s.bell j' := rfl
@[simp] theorem State.modNvm_ctxs (f : Nvm → Nvm) : (s.modNvm f).ctxs = s.ctxs := rfl
@[simp] theorem State.modNvm_ctx (f : Nvm → Nvm) (c' : CtxId) : (s.modNvm f).ctx c' = s.ctx c' := rfl
@[simp] theorem State.modNvm_gate (f : Nvm → Nvm) : (s.modNvm f).gate = s.gate := rfl
@[simp] theorem State.modNvm_seqr (f : Nvm → Nvm) : (s.modNvm f).seqr = s.seqr := rfl
@[simp] theorem State.modNvm_fab (f : Nvm → Nvm) : (s.modNvm f).fab = s.fab := rfl
@[simp] theorem State.modNvm_port (f : Nvm → Nvm) (p' : Nat) : (s.modNvm f).port p' = s.port p' := rfl
@[simp] theorem State.modNvm_rst (f : Nvm → Nvm) : (s.modNvm f).rst = s.rst := rfl
@[simp] theorem State.modNvm_strm (f : Nvm → Nvm) : (s.modNvm f).strm = s.strm := rfl
@[simp] theorem State.modNvm_engine (f : Nvm → Nvm) (q' : Nat) : (s.modNvm f).engine q' = s.engine q' := rfl
@[simp] theorem State.modNvm_chan (f : Nvm → Nvm) (q' ch' : Nat) : (s.modNvm f).chan q' ch' = s.chan q' ch' := rfl
@[simp] theorem State.modNvm_red (f : Nvm → Nvm) : (s.modNvm f).red = s.red := rfl
@[simp] theorem State.modNvm_redEng (f : Nvm → Nvm) (e' : Nat) : (s.modNvm f).redEng e' = s.redEng e' := rfl
@[simp] theorem State.modNvm_harv (f : Nvm → Nvm) : (s.modNvm f).harv = s.harv := rfl
@[simp] theorem State.modNvm_written (f : Nvm → Nvm) : (s.modNvm f).written = s.written := rfl
@[simp] theorem State.modNvm_fuses (f : Nvm → Nvm) : (s.modNvm f).fuses = s.fuses := rfl
@[simp] theorem State.modNvm_boot (f : Nvm → Nvm) : (s.modNvm f).boot = s.boot := rfl
@[simp] theorem State.modNvm_vault (f : Nvm → Nvm) : (s.modNvm f).vault = s.vault := rfl
@[simp] theorem State.modNvm_pwr (f : Nvm → Nvm) : (s.modNvm f).pwr = s.pwr := rfl
@[simp] theorem State.modNvm_dieClk (f : Nvm → Nvm) (d' : Nat) : (s.modNvm f).dieClk d' = s.dieClk d' := rfl
@[simp] theorem State.modNvm_car (f : Nvm → Nvm) : (s.modNvm f).car = s.car := rfl
@[simp] theorem State.modBoot_pending (f : Boot → Boot) : (s.modBoot f).pending = s.pending := rfl
@[simp] theorem State.modBoot_freeCtr (f : Boot → Boot) : (s.modBoot f).freeCtr = s.freeCtr := rfl
@[simp] theorem State.modBoot_clk (f : Boot → Boot) : (s.modBoot f).clk = s.clk := rfl
@[simp] theorem State.modBoot_count (f : Boot → Boot) (k' : Clk) : (s.modBoot f).count k' = s.count k' := rfl
@[simp] theorem State.modBoot_stampBase (f : Boot → Boot) : (s.modBoot f).stampBase = s.stampBase := rfl
@[simp] theorem State.modBoot_log (f : Boot → Boot) : (s.modBoot f).log = s.log := rfl
@[simp] theorem State.modBoot_out (f : Boot → Boot) : (s.modBoot f).out = s.out := rfl
@[simp] theorem State.modBoot_threads (f : Boot → Boot) : (s.modBoot f).threads = s.threads := rfl
@[simp] theorem State.modBoot_thr (f : Boot → Boot) (th' : ThreadId) : (s.modBoot f).thr th' = s.thr th' := rfl
@[simp] theorem State.modBoot_cores (f : Boot → Boot) : (s.modBoot f).cores = s.cores := rfl
@[simp] theorem State.modBoot_core (f : Boot → Boot) (g' : Nat) : (s.modBoot f).core g' = s.core g' := rfl
@[simp] theorem State.modBoot_quadOwner (f : Boot → Boot) : (s.modBoot f).quadOwner = s.quadOwner := rfl
@[simp] theorem State.modBoot_thCtx (f : Boot → Boot) (th' : ThreadId) : (s.modBoot f).thCtx th' = s.thCtx th' := rfl
@[simp] theorem State.modBoot_quadCtx (f : Boot → Boot) (q' : Nat) : (s.modBoot f).quadCtx q' = s.quadCtx q' := rfl
@[simp] theorem State.modBoot_mem (f : Boot → Boot) : (s.modBoot f).mem = s.mem := rfl
@[simp] theorem State.modBoot_peek (f : Boot → Boot) (l' n' : Nat) : (s.modBoot f).peek l' n' = s.peek l' n' := rfl
@[simp] theorem State.modBoot_poison (f : Boot → Boot) : (s.modBoot f).poison = s.poison := rfl
@[simp] theorem State.modBoot_poisonIn (f : Boot → Boot) (l' n' : Nat) : (s.modBoot f).poisonIn l' n' = s.poisonIn l' n' := rfl
@[simp] theorem State.modBoot_fresh (f : Boot → Boot) : (s.modBoot f).fresh = s.fresh := rfl
@[simp] theorem State.modBoot_cfrac (f : Boot → Boot) : (s.modBoot f).cfrac = s.cfrac := rfl
@[simp] theorem State.modBoot_dies (f : Boot → Boot) : (s.modBoot f).dies = s.dies := rfl
@[simp] theorem State.modBoot_die (f : Boot → Boot) (d' : Nat) : (s.modBoot f).die d' = s.die d' := rfl
@[simp] theorem State.modBoot_grans (f : Boot → Boot) : (s.modBoot f).grans = s.grans := rfl
@[simp] theorem State.modBoot_gran (f : Boot → Boot) (n' : Nat) : (s.modBoot f).gran n' = s.gran n' := rfl
@[simp] theorem State.modBoot_sync (f : Boot → Boot) : (s.modBoot f).sync = s.sync := rfl
@[simp] theorem State.modBoot_tally (f : Boot → Boot) (i' : Nat) : (s.modBoot f).tally i' = s.tally i' := rfl
@[simp] theorem State.modBoot_bell (f : Boot → Boot) (j' : Nat) : (s.modBoot f).bell j' = s.bell j' := rfl
@[simp] theorem State.modBoot_ctxs (f : Boot → Boot) : (s.modBoot f).ctxs = s.ctxs := rfl
@[simp] theorem State.modBoot_ctx (f : Boot → Boot) (c' : CtxId) : (s.modBoot f).ctx c' = s.ctx c' := rfl
@[simp] theorem State.modBoot_gate (f : Boot → Boot) : (s.modBoot f).gate = s.gate := rfl
@[simp] theorem State.modBoot_seqr (f : Boot → Boot) : (s.modBoot f).seqr = s.seqr := rfl
@[simp] theorem State.modBoot_fab (f : Boot → Boot) : (s.modBoot f).fab = s.fab := rfl
@[simp] theorem State.modBoot_port (f : Boot → Boot) (p' : Nat) : (s.modBoot f).port p' = s.port p' := rfl
@[simp] theorem State.modBoot_rst (f : Boot → Boot) : (s.modBoot f).rst = s.rst := rfl
@[simp] theorem State.modBoot_strm (f : Boot → Boot) : (s.modBoot f).strm = s.strm := rfl
@[simp] theorem State.modBoot_engine (f : Boot → Boot) (q' : Nat) : (s.modBoot f).engine q' = s.engine q' := rfl
@[simp] theorem State.modBoot_chan (f : Boot → Boot) (q' ch' : Nat) : (s.modBoot f).chan q' ch' = s.chan q' ch' := rfl
@[simp] theorem State.modBoot_red (f : Boot → Boot) : (s.modBoot f).red = s.red := rfl
@[simp] theorem State.modBoot_redEng (f : Boot → Boot) (e' : Nat) : (s.modBoot f).redEng e' = s.redEng e' := rfl
@[simp] theorem State.modBoot_harv (f : Boot → Boot) : (s.modBoot f).harv = s.harv := rfl
@[simp] theorem State.modBoot_written (f : Boot → Boot) : (s.modBoot f).written = s.written := rfl
@[simp] theorem State.modBoot_fuses (f : Boot → Boot) : (s.modBoot f).fuses = s.fuses := rfl
@[simp] theorem State.modBoot_nvm (f : Boot → Boot) : (s.modBoot f).nvm = s.nvm := rfl
@[simp] theorem State.modBoot_vault (f : Boot → Boot) : (s.modBoot f).vault = s.vault := rfl
@[simp] theorem State.modBoot_pwr (f : Boot → Boot) : (s.modBoot f).pwr = s.pwr := rfl
@[simp] theorem State.modBoot_dieClk (f : Boot → Boot) (d' : Nat) : (s.modBoot f).dieClk d' = s.dieClk d' := rfl
@[simp] theorem State.modBoot_car (f : Boot → Boot) : (s.modBoot f).car = s.car := rfl
@[simp] theorem State.modVault_pending (f : Vault → Vault) : (s.modVault f).pending = s.pending := rfl
@[simp] theorem State.modVault_freeCtr (f : Vault → Vault) : (s.modVault f).freeCtr = s.freeCtr := rfl
@[simp] theorem State.modVault_clk (f : Vault → Vault) : (s.modVault f).clk = s.clk := rfl
@[simp] theorem State.modVault_count (f : Vault → Vault) (k' : Clk) : (s.modVault f).count k' = s.count k' := rfl
@[simp] theorem State.modVault_stampBase (f : Vault → Vault) : (s.modVault f).stampBase = s.stampBase := rfl
@[simp] theorem State.modVault_log (f : Vault → Vault) : (s.modVault f).log = s.log := rfl
@[simp] theorem State.modVault_out (f : Vault → Vault) : (s.modVault f).out = s.out := rfl
@[simp] theorem State.modVault_threads (f : Vault → Vault) : (s.modVault f).threads = s.threads := rfl
@[simp] theorem State.modVault_thr (f : Vault → Vault) (th' : ThreadId) : (s.modVault f).thr th' = s.thr th' := rfl
@[simp] theorem State.modVault_cores (f : Vault → Vault) : (s.modVault f).cores = s.cores := rfl
@[simp] theorem State.modVault_core (f : Vault → Vault) (g' : Nat) : (s.modVault f).core g' = s.core g' := rfl
@[simp] theorem State.modVault_quadOwner (f : Vault → Vault) : (s.modVault f).quadOwner = s.quadOwner := rfl
@[simp] theorem State.modVault_thCtx (f : Vault → Vault) (th' : ThreadId) : (s.modVault f).thCtx th' = s.thCtx th' := rfl
@[simp] theorem State.modVault_quadCtx (f : Vault → Vault) (q' : Nat) : (s.modVault f).quadCtx q' = s.quadCtx q' := rfl
@[simp] theorem State.modVault_mem (f : Vault → Vault) : (s.modVault f).mem = s.mem := rfl
@[simp] theorem State.modVault_peek (f : Vault → Vault) (l' n' : Nat) : (s.modVault f).peek l' n' = s.peek l' n' := rfl
@[simp] theorem State.modVault_poison (f : Vault → Vault) : (s.modVault f).poison = s.poison := rfl
@[simp] theorem State.modVault_poisonIn (f : Vault → Vault) (l' n' : Nat) : (s.modVault f).poisonIn l' n' = s.poisonIn l' n' := rfl
@[simp] theorem State.modVault_fresh (f : Vault → Vault) : (s.modVault f).fresh = s.fresh := rfl
@[simp] theorem State.modVault_cfrac (f : Vault → Vault) : (s.modVault f).cfrac = s.cfrac := rfl
@[simp] theorem State.modVault_dies (f : Vault → Vault) : (s.modVault f).dies = s.dies := rfl
@[simp] theorem State.modVault_die (f : Vault → Vault) (d' : Nat) : (s.modVault f).die d' = s.die d' := rfl
@[simp] theorem State.modVault_grans (f : Vault → Vault) : (s.modVault f).grans = s.grans := rfl
@[simp] theorem State.modVault_gran (f : Vault → Vault) (n' : Nat) : (s.modVault f).gran n' = s.gran n' := rfl
@[simp] theorem State.modVault_sync (f : Vault → Vault) : (s.modVault f).sync = s.sync := rfl
@[simp] theorem State.modVault_tally (f : Vault → Vault) (i' : Nat) : (s.modVault f).tally i' = s.tally i' := rfl
@[simp] theorem State.modVault_bell (f : Vault → Vault) (j' : Nat) : (s.modVault f).bell j' = s.bell j' := rfl
@[simp] theorem State.modVault_ctxs (f : Vault → Vault) : (s.modVault f).ctxs = s.ctxs := rfl
@[simp] theorem State.modVault_ctx (f : Vault → Vault) (c' : CtxId) : (s.modVault f).ctx c' = s.ctx c' := rfl
@[simp] theorem State.modVault_gate (f : Vault → Vault) : (s.modVault f).gate = s.gate := rfl
@[simp] theorem State.modVault_seqr (f : Vault → Vault) : (s.modVault f).seqr = s.seqr := rfl
@[simp] theorem State.modVault_fab (f : Vault → Vault) : (s.modVault f).fab = s.fab := rfl
@[simp] theorem State.modVault_port (f : Vault → Vault) (p' : Nat) : (s.modVault f).port p' = s.port p' := rfl
@[simp] theorem State.modVault_rst (f : Vault → Vault) : (s.modVault f).rst = s.rst := rfl
@[simp] theorem State.modVault_strm (f : Vault → Vault) : (s.modVault f).strm = s.strm := rfl
@[simp] theorem State.modVault_engine (f : Vault → Vault) (q' : Nat) : (s.modVault f).engine q' = s.engine q' := rfl
@[simp] theorem State.modVault_chan (f : Vault → Vault) (q' ch' : Nat) : (s.modVault f).chan q' ch' = s.chan q' ch' := rfl
@[simp] theorem State.modVault_red (f : Vault → Vault) : (s.modVault f).red = s.red := rfl
@[simp] theorem State.modVault_redEng (f : Vault → Vault) (e' : Nat) : (s.modVault f).redEng e' = s.redEng e' := rfl
@[simp] theorem State.modVault_harv (f : Vault → Vault) : (s.modVault f).harv = s.harv := rfl
@[simp] theorem State.modVault_written (f : Vault → Vault) : (s.modVault f).written = s.written := rfl
@[simp] theorem State.modVault_fuses (f : Vault → Vault) : (s.modVault f).fuses = s.fuses := rfl
@[simp] theorem State.modVault_nvm (f : Vault → Vault) : (s.modVault f).nvm = s.nvm := rfl
@[simp] theorem State.modVault_boot (f : Vault → Vault) : (s.modVault f).boot = s.boot := rfl
@[simp] theorem State.modVault_pwr (f : Vault → Vault) : (s.modVault f).pwr = s.pwr := rfl
@[simp] theorem State.modVault_dieClk (f : Vault → Vault) (d' : Nat) : (s.modVault f).dieClk d' = s.dieClk d' := rfl
@[simp] theorem State.modVault_car (f : Vault → Vault) : (s.modVault f).car = s.car := rfl
@[simp] theorem State.modPwr_pending (f : Power → Power) : (s.modPwr f).pending = s.pending := rfl
@[simp] theorem State.modPwr_freeCtr (f : Power → Power) : (s.modPwr f).freeCtr = s.freeCtr := rfl
@[simp] theorem State.modPwr_clk (f : Power → Power) : (s.modPwr f).clk = s.clk := rfl
@[simp] theorem State.modPwr_count (f : Power → Power) (k' : Clk) : (s.modPwr f).count k' = s.count k' := rfl
@[simp] theorem State.modPwr_stampBase (f : Power → Power) : (s.modPwr f).stampBase = s.stampBase := rfl
@[simp] theorem State.modPwr_log (f : Power → Power) : (s.modPwr f).log = s.log := rfl
@[simp] theorem State.modPwr_out (f : Power → Power) : (s.modPwr f).out = s.out := rfl
@[simp] theorem State.modPwr_threads (f : Power → Power) : (s.modPwr f).threads = s.threads := rfl
@[simp] theorem State.modPwr_thr (f : Power → Power) (th' : ThreadId) : (s.modPwr f).thr th' = s.thr th' := rfl
@[simp] theorem State.modPwr_cores (f : Power → Power) : (s.modPwr f).cores = s.cores := rfl
@[simp] theorem State.modPwr_core (f : Power → Power) (g' : Nat) : (s.modPwr f).core g' = s.core g' := rfl
@[simp] theorem State.modPwr_quadOwner (f : Power → Power) : (s.modPwr f).quadOwner = s.quadOwner := rfl
@[simp] theorem State.modPwr_thCtx (f : Power → Power) (th' : ThreadId) : (s.modPwr f).thCtx th' = s.thCtx th' := rfl
@[simp] theorem State.modPwr_quadCtx (f : Power → Power) (q' : Nat) : (s.modPwr f).quadCtx q' = s.quadCtx q' := rfl
@[simp] theorem State.modPwr_mem (f : Power → Power) : (s.modPwr f).mem = s.mem := rfl
@[simp] theorem State.modPwr_peek (f : Power → Power) (l' n' : Nat) : (s.modPwr f).peek l' n' = s.peek l' n' := rfl
@[simp] theorem State.modPwr_poison (f : Power → Power) : (s.modPwr f).poison = s.poison := rfl
@[simp] theorem State.modPwr_poisonIn (f : Power → Power) (l' n' : Nat) : (s.modPwr f).poisonIn l' n' = s.poisonIn l' n' := rfl
@[simp] theorem State.modPwr_fresh (f : Power → Power) : (s.modPwr f).fresh = s.fresh := rfl
@[simp] theorem State.modPwr_cfrac (f : Power → Power) : (s.modPwr f).cfrac = s.cfrac := rfl
@[simp] theorem State.modPwr_dies (f : Power → Power) : (s.modPwr f).dies = s.dies := rfl
@[simp] theorem State.modPwr_die (f : Power → Power) (d' : Nat) : (s.modPwr f).die d' = s.die d' := rfl
@[simp] theorem State.modPwr_grans (f : Power → Power) : (s.modPwr f).grans = s.grans := rfl
@[simp] theorem State.modPwr_gran (f : Power → Power) (n' : Nat) : (s.modPwr f).gran n' = s.gran n' := rfl
@[simp] theorem State.modPwr_sync (f : Power → Power) : (s.modPwr f).sync = s.sync := rfl
@[simp] theorem State.modPwr_tally (f : Power → Power) (i' : Nat) : (s.modPwr f).tally i' = s.tally i' := rfl
@[simp] theorem State.modPwr_bell (f : Power → Power) (j' : Nat) : (s.modPwr f).bell j' = s.bell j' := rfl
@[simp] theorem State.modPwr_ctxs (f : Power → Power) : (s.modPwr f).ctxs = s.ctxs := rfl
@[simp] theorem State.modPwr_ctx (f : Power → Power) (c' : CtxId) : (s.modPwr f).ctx c' = s.ctx c' := rfl
@[simp] theorem State.modPwr_gate (f : Power → Power) : (s.modPwr f).gate = s.gate := rfl
@[simp] theorem State.modPwr_seqr (f : Power → Power) : (s.modPwr f).seqr = s.seqr := rfl
@[simp] theorem State.modPwr_fab (f : Power → Power) : (s.modPwr f).fab = s.fab := rfl
@[simp] theorem State.modPwr_port (f : Power → Power) (p' : Nat) : (s.modPwr f).port p' = s.port p' := rfl
@[simp] theorem State.modPwr_rst (f : Power → Power) : (s.modPwr f).rst = s.rst := rfl
@[simp] theorem State.modPwr_strm (f : Power → Power) : (s.modPwr f).strm = s.strm := rfl
@[simp] theorem State.modPwr_engine (f : Power → Power) (q' : Nat) : (s.modPwr f).engine q' = s.engine q' := rfl
@[simp] theorem State.modPwr_chan (f : Power → Power) (q' ch' : Nat) : (s.modPwr f).chan q' ch' = s.chan q' ch' := rfl
@[simp] theorem State.modPwr_red (f : Power → Power) : (s.modPwr f).red = s.red := rfl
@[simp] theorem State.modPwr_redEng (f : Power → Power) (e' : Nat) : (s.modPwr f).redEng e' = s.redEng e' := rfl
@[simp] theorem State.modPwr_harv (f : Power → Power) : (s.modPwr f).harv = s.harv := rfl
@[simp] theorem State.modPwr_written (f : Power → Power) : (s.modPwr f).written = s.written := rfl
@[simp] theorem State.modPwr_fuses (f : Power → Power) : (s.modPwr f).fuses = s.fuses := rfl
@[simp] theorem State.modPwr_nvm (f : Power → Power) : (s.modPwr f).nvm = s.nvm := rfl
@[simp] theorem State.modPwr_boot (f : Power → Power) : (s.modPwr f).boot = s.boot := rfl
@[simp] theorem State.modPwr_vault (f : Power → Power) : (s.modPwr f).vault = s.vault := rfl
@[simp] theorem State.modPwr_car (f : Power → Power) : (s.modPwr f).car = s.car := rfl
@[simp] theorem State.modCar_pending (f : Carrier → Carrier) : (s.modCar f).pending = s.pending := rfl
@[simp] theorem State.modCar_freeCtr (f : Carrier → Carrier) : (s.modCar f).freeCtr = s.freeCtr := rfl
@[simp] theorem State.modCar_clk (f : Carrier → Carrier) : (s.modCar f).clk = s.clk := rfl
@[simp] theorem State.modCar_count (f : Carrier → Carrier) (k' : Clk) : (s.modCar f).count k' = s.count k' := rfl
@[simp] theorem State.modCar_stampBase (f : Carrier → Carrier) : (s.modCar f).stampBase = s.stampBase := rfl
@[simp] theorem State.modCar_log (f : Carrier → Carrier) : (s.modCar f).log = s.log := rfl
@[simp] theorem State.modCar_out (f : Carrier → Carrier) : (s.modCar f).out = s.out := rfl
@[simp] theorem State.modCar_threads (f : Carrier → Carrier) : (s.modCar f).threads = s.threads := rfl
@[simp] theorem State.modCar_thr (f : Carrier → Carrier) (th' : ThreadId) : (s.modCar f).thr th' = s.thr th' := rfl
@[simp] theorem State.modCar_cores (f : Carrier → Carrier) : (s.modCar f).cores = s.cores := rfl
@[simp] theorem State.modCar_core (f : Carrier → Carrier) (g' : Nat) : (s.modCar f).core g' = s.core g' := rfl
@[simp] theorem State.modCar_quadOwner (f : Carrier → Carrier) : (s.modCar f).quadOwner = s.quadOwner := rfl
@[simp] theorem State.modCar_thCtx (f : Carrier → Carrier) (th' : ThreadId) : (s.modCar f).thCtx th' = s.thCtx th' := rfl
@[simp] theorem State.modCar_quadCtx (f : Carrier → Carrier) (q' : Nat) : (s.modCar f).quadCtx q' = s.quadCtx q' := rfl
@[simp] theorem State.modCar_mem (f : Carrier → Carrier) : (s.modCar f).mem = s.mem := rfl
@[simp] theorem State.modCar_peek (f : Carrier → Carrier) (l' n' : Nat) : (s.modCar f).peek l' n' = s.peek l' n' := rfl
@[simp] theorem State.modCar_poison (f : Carrier → Carrier) : (s.modCar f).poison = s.poison := rfl
@[simp] theorem State.modCar_poisonIn (f : Carrier → Carrier) (l' n' : Nat) : (s.modCar f).poisonIn l' n' = s.poisonIn l' n' := rfl
@[simp] theorem State.modCar_fresh (f : Carrier → Carrier) : (s.modCar f).fresh = s.fresh := rfl
@[simp] theorem State.modCar_cfrac (f : Carrier → Carrier) : (s.modCar f).cfrac = s.cfrac := rfl
@[simp] theorem State.modCar_dies (f : Carrier → Carrier) : (s.modCar f).dies = s.dies := rfl
@[simp] theorem State.modCar_die (f : Carrier → Carrier) (d' : Nat) : (s.modCar f).die d' = s.die d' := rfl
@[simp] theorem State.modCar_grans (f : Carrier → Carrier) : (s.modCar f).grans = s.grans := rfl
@[simp] theorem State.modCar_gran (f : Carrier → Carrier) (n' : Nat) : (s.modCar f).gran n' = s.gran n' := rfl
@[simp] theorem State.modCar_sync (f : Carrier → Carrier) : (s.modCar f).sync = s.sync := rfl
@[simp] theorem State.modCar_tally (f : Carrier → Carrier) (i' : Nat) : (s.modCar f).tally i' = s.tally i' := rfl
@[simp] theorem State.modCar_bell (f : Carrier → Carrier) (j' : Nat) : (s.modCar f).bell j' = s.bell j' := rfl
@[simp] theorem State.modCar_ctxs (f : Carrier → Carrier) : (s.modCar f).ctxs = s.ctxs := rfl
@[simp] theorem State.modCar_ctx (f : Carrier → Carrier) (c' : CtxId) : (s.modCar f).ctx c' = s.ctx c' := rfl
@[simp] theorem State.modCar_gate (f : Carrier → Carrier) : (s.modCar f).gate = s.gate := rfl
@[simp] theorem State.modCar_seqr (f : Carrier → Carrier) : (s.modCar f).seqr = s.seqr := rfl
@[simp] theorem State.modCar_fab (f : Carrier → Carrier) : (s.modCar f).fab = s.fab := rfl
@[simp] theorem State.modCar_port (f : Carrier → Carrier) (p' : Nat) : (s.modCar f).port p' = s.port p' := rfl
@[simp] theorem State.modCar_rst (f : Carrier → Carrier) : (s.modCar f).rst = s.rst := rfl
@[simp] theorem State.modCar_strm (f : Carrier → Carrier) : (s.modCar f).strm = s.strm := rfl
@[simp] theorem State.modCar_engine (f : Carrier → Carrier) (q' : Nat) : (s.modCar f).engine q' = s.engine q' := rfl
@[simp] theorem State.modCar_chan (f : Carrier → Carrier) (q' ch' : Nat) : (s.modCar f).chan q' ch' = s.chan q' ch' := rfl
@[simp] theorem State.modCar_red (f : Carrier → Carrier) : (s.modCar f).red = s.red := rfl
@[simp] theorem State.modCar_redEng (f : Carrier → Carrier) (e' : Nat) : (s.modCar f).redEng e' = s.redEng e' := rfl
@[simp] theorem State.modCar_harv (f : Carrier → Carrier) : (s.modCar f).harv = s.harv := rfl
@[simp] theorem State.modCar_written (f : Carrier → Carrier) : (s.modCar f).written = s.written := rfl
@[simp] theorem State.modCar_fuses (f : Carrier → Carrier) : (s.modCar f).fuses = s.fuses := rfl
@[simp] theorem State.modCar_nvm (f : Carrier → Carrier) : (s.modCar f).nvm = s.nvm := rfl
@[simp] theorem State.modCar_boot (f : Carrier → Carrier) : (s.modCar f).boot = s.boot := rfl
@[simp] theorem State.modCar_vault (f : Carrier → Carrier) : (s.modCar f).vault = s.vault := rfl
@[simp] theorem State.modCar_pwr (f : Carrier → Carrier) : (s.modCar f).pwr = s.pwr := rfl
@[simp] theorem State.modCar_dieClk (f : Carrier → Carrier) (d' : Nat) : (s.modCar f).dieClk d' = s.dieClk d' := rfl
@[simp] theorem State.send_pending (o : Out) : (s.send o).pending = s.pending := rfl
@[simp] theorem State.send_freeCtr (o : Out) : (s.send o).freeCtr = s.freeCtr := rfl
@[simp] theorem State.send_clk (o : Out) : (s.send o).clk = s.clk := rfl
@[simp] theorem State.send_count (o : Out) (k' : Clk) : (s.send o).count k' = s.count k' := rfl
@[simp] theorem State.send_stampBase (o : Out) : (s.send o).stampBase = s.stampBase := rfl
@[simp] theorem State.send_log (o : Out) : (s.send o).log = s.log := rfl
@[simp] theorem State.send_threads (o : Out) : (s.send o).threads = s.threads := rfl
@[simp] theorem State.send_thr (o : Out) (th' : ThreadId) : (s.send o).thr th' = s.thr th' := rfl
@[simp] theorem State.send_cores (o : Out) : (s.send o).cores = s.cores := rfl
@[simp] theorem State.send_core (o : Out) (g' : Nat) : (s.send o).core g' = s.core g' := rfl
@[simp] theorem State.send_quadOwner (o : Out) : (s.send o).quadOwner = s.quadOwner := rfl
@[simp] theorem State.send_thCtx (o : Out) (th' : ThreadId) : (s.send o).thCtx th' = s.thCtx th' := rfl
@[simp] theorem State.send_quadCtx (o : Out) (q' : Nat) : (s.send o).quadCtx q' = s.quadCtx q' := rfl
@[simp] theorem State.send_mem (o : Out) : (s.send o).mem = s.mem := rfl
@[simp] theorem State.send_peek (o : Out) (l' n' : Nat) : (s.send o).peek l' n' = s.peek l' n' := rfl
@[simp] theorem State.send_poison (o : Out) : (s.send o).poison = s.poison := rfl
@[simp] theorem State.send_poisonIn (o : Out) (l' n' : Nat) : (s.send o).poisonIn l' n' = s.poisonIn l' n' := rfl
@[simp] theorem State.send_fresh (o : Out) : (s.send o).fresh = s.fresh := rfl
@[simp] theorem State.send_cfrac (o : Out) : (s.send o).cfrac = s.cfrac := rfl
@[simp] theorem State.send_dies (o : Out) : (s.send o).dies = s.dies := rfl
@[simp] theorem State.send_die (o : Out) (d' : Nat) : (s.send o).die d' = s.die d' := rfl
@[simp] theorem State.send_grans (o : Out) : (s.send o).grans = s.grans := rfl
@[simp] theorem State.send_gran (o : Out) (n' : Nat) : (s.send o).gran n' = s.gran n' := rfl
@[simp] theorem State.send_sync (o : Out) : (s.send o).sync = s.sync := rfl
@[simp] theorem State.send_tally (o : Out) (i' : Nat) : (s.send o).tally i' = s.tally i' := rfl
@[simp] theorem State.send_bell (o : Out) (j' : Nat) : (s.send o).bell j' = s.bell j' := rfl
@[simp] theorem State.send_ctxs (o : Out) : (s.send o).ctxs = s.ctxs := rfl
@[simp] theorem State.send_ctx (o : Out) (c' : CtxId) : (s.send o).ctx c' = s.ctx c' := rfl
@[simp] theorem State.send_gate (o : Out) : (s.send o).gate = s.gate := rfl
@[simp] theorem State.send_seqr (o : Out) : (s.send o).seqr = s.seqr := rfl
@[simp] theorem State.send_fab (o : Out) : (s.send o).fab = s.fab := rfl
@[simp] theorem State.send_port (o : Out) (p' : Nat) : (s.send o).port p' = s.port p' := rfl
@[simp] theorem State.send_rst (o : Out) : (s.send o).rst = s.rst := rfl
@[simp] theorem State.send_strm (o : Out) : (s.send o).strm = s.strm := rfl
@[simp] theorem State.send_engine (o : Out) (q' : Nat) : (s.send o).engine q' = s.engine q' := rfl
@[simp] theorem State.send_chan (o : Out) (q' ch' : Nat) : (s.send o).chan q' ch' = s.chan q' ch' := rfl
@[simp] theorem State.send_red (o : Out) : (s.send o).red = s.red := rfl
@[simp] theorem State.send_redEng (o : Out) (e' : Nat) : (s.send o).redEng e' = s.redEng e' := rfl
@[simp] theorem State.send_harv (o : Out) : (s.send o).harv = s.harv := rfl
@[simp] theorem State.send_written (o : Out) : (s.send o).written = s.written := rfl
@[simp] theorem State.send_fuses (o : Out) : (s.send o).fuses = s.fuses := rfl
@[simp] theorem State.send_nvm (o : Out) : (s.send o).nvm = s.nvm := rfl
@[simp] theorem State.send_boot (o : Out) : (s.send o).boot = s.boot := rfl
@[simp] theorem State.send_vault (o : Out) : (s.send o).vault = s.vault := rfl
@[simp] theorem State.send_pwr (o : Out) : (s.send o).pwr = s.pwr := rfl
@[simp] theorem State.send_dieClk (o : Out) (d' : Nat) : (s.send o).dieClk d' = s.dieClk d' := rfl
@[simp] theorem State.send_car (o : Out) : (s.send o).car = s.car := rfl
@[simp] theorem State.journal_pending (c : JChange) : (s.journal c).pending = s.pending := rfl
@[simp] theorem State.journal_freeCtr (c : JChange) : (s.journal c).freeCtr = s.freeCtr := rfl
@[simp] theorem State.journal_clk (c : JChange) : (s.journal c).clk = s.clk := rfl
@[simp] theorem State.journal_count (c : JChange) (k' : Clk) : (s.journal c).count k' = s.count k' := rfl
@[simp] theorem State.journal_stampBase (c : JChange) : (s.journal c).stampBase = s.stampBase := rfl
@[simp] theorem State.journal_log (c : JChange) : (s.journal c).log = s.log := rfl
@[simp] theorem State.journal_out (c : JChange) : (s.journal c).out = s.out := rfl
@[simp] theorem State.journal_threads (c : JChange) : (s.journal c).threads = s.threads := rfl
@[simp] theorem State.journal_thr (c : JChange) (th' : ThreadId) : (s.journal c).thr th' = s.thr th' := rfl
@[simp] theorem State.journal_cores (c : JChange) : (s.journal c).cores = s.cores := rfl
@[simp] theorem State.journal_core (c : JChange) (g' : Nat) : (s.journal c).core g' = s.core g' := rfl
@[simp] theorem State.journal_quadOwner (c : JChange) : (s.journal c).quadOwner = s.quadOwner := rfl
@[simp] theorem State.journal_thCtx (c : JChange) (th' : ThreadId) : (s.journal c).thCtx th' = s.thCtx th' := rfl
@[simp] theorem State.journal_quadCtx (c : JChange) (q' : Nat) : (s.journal c).quadCtx q' = s.quadCtx q' := rfl
@[simp] theorem State.journal_mem (c : JChange) : (s.journal c).mem = s.mem := rfl
@[simp] theorem State.journal_peek (c : JChange) (l' n' : Nat) : (s.journal c).peek l' n' = s.peek l' n' := rfl
@[simp] theorem State.journal_poison (c : JChange) : (s.journal c).poison = s.poison := rfl
@[simp] theorem State.journal_poisonIn (c : JChange) (l' n' : Nat) : (s.journal c).poisonIn l' n' = s.poisonIn l' n' := rfl
@[simp] theorem State.journal_fresh (c : JChange) : (s.journal c).fresh = s.fresh := rfl
@[simp] theorem State.journal_cfrac (c : JChange) : (s.journal c).cfrac = s.cfrac := rfl
@[simp] theorem State.journal_dies (c : JChange) : (s.journal c).dies = s.dies := rfl
@[simp] theorem State.journal_die (c : JChange) (d' : Nat) : (s.journal c).die d' = s.die d' := rfl
@[simp] theorem State.journal_grans (c : JChange) : (s.journal c).grans = s.grans := rfl
@[simp] theorem State.journal_gran (c : JChange) (n' : Nat) : (s.journal c).gran n' = s.gran n' := rfl
@[simp] theorem State.journal_sync (c : JChange) : (s.journal c).sync = s.sync := rfl
@[simp] theorem State.journal_tally (c : JChange) (i' : Nat) : (s.journal c).tally i' = s.tally i' := rfl
@[simp] theorem State.journal_bell (c : JChange) (j' : Nat) : (s.journal c).bell j' = s.bell j' := rfl
@[simp] theorem State.journal_ctxs (c : JChange) : (s.journal c).ctxs = s.ctxs := rfl
@[simp] theorem State.journal_ctx (c : JChange) (c' : CtxId) : (s.journal c).ctx c' = s.ctx c' := rfl
@[simp] theorem State.journal_gate (c : JChange) : (s.journal c).gate = s.gate := rfl
@[simp] theorem State.journal_seqr (c : JChange) : (s.journal c).seqr = s.seqr := rfl
@[simp] theorem State.journal_fab (c : JChange) : (s.journal c).fab = s.fab := rfl
@[simp] theorem State.journal_port (c : JChange) (p' : Nat) : (s.journal c).port p' = s.port p' := rfl
@[simp] theorem State.journal_rst (c : JChange) : (s.journal c).rst = s.rst := rfl
@[simp] theorem State.journal_strm (c : JChange) : (s.journal c).strm = s.strm := rfl
@[simp] theorem State.journal_engine (c : JChange) (q' : Nat) : (s.journal c).engine q' = s.engine q' := rfl
@[simp] theorem State.journal_chan (c : JChange) (q' ch' : Nat) : (s.journal c).chan q' ch' = s.chan q' ch' := rfl
@[simp] theorem State.journal_red (c : JChange) : (s.journal c).red = s.red := rfl
@[simp] theorem State.journal_redEng (c : JChange) (e' : Nat) : (s.journal c).redEng e' = s.redEng e' := rfl
@[simp] theorem State.journal_harv (c : JChange) : (s.journal c).harv = s.harv := rfl
@[simp] theorem State.journal_written (c : JChange) : (s.journal c).written = s.written := rfl
@[simp] theorem State.journal_fuses (c : JChange) : (s.journal c).fuses = s.fuses := rfl
@[simp] theorem State.journal_boot (c : JChange) : (s.journal c).boot = s.boot := rfl
@[simp] theorem State.journal_vault (c : JChange) : (s.journal c).vault = s.vault := rfl
@[simp] theorem State.journal_pwr (c : JChange) : (s.journal c).pwr = s.pwr := rfl
@[simp] theorem State.journal_dieClk (c : JChange) (d' : Nat) : (s.journal c).dieClk d' = s.dieClk d' := rfl
@[simp] theorem State.journal_car (c : JChange) : (s.journal c).car = s.car := rfl
@[simp] theorem State.poke_pending (l : Nat) (bs : List Byte) : (s.poke l bs).pending = s.pending := rfl
@[simp] theorem State.poke_freeCtr (l : Nat) (bs : List Byte) : (s.poke l bs).freeCtr = s.freeCtr := rfl
@[simp] theorem State.poke_clk (l : Nat) (bs : List Byte) : (s.poke l bs).clk = s.clk := rfl
@[simp] theorem State.poke_count (l : Nat) (bs : List Byte) (k' : Clk) : (s.poke l bs).count k' = s.count k' := rfl
@[simp] theorem State.poke_stampBase (l : Nat) (bs : List Byte) : (s.poke l bs).stampBase = s.stampBase := rfl
@[simp] theorem State.poke_log (l : Nat) (bs : List Byte) : (s.poke l bs).log = s.log := rfl
@[simp] theorem State.poke_out (l : Nat) (bs : List Byte) : (s.poke l bs).out = s.out := rfl
@[simp] theorem State.poke_threads (l : Nat) (bs : List Byte) : (s.poke l bs).threads = s.threads := rfl
@[simp] theorem State.poke_thr (l : Nat) (bs : List Byte) (th' : ThreadId) : (s.poke l bs).thr th' = s.thr th' := rfl
@[simp] theorem State.poke_cores (l : Nat) (bs : List Byte) : (s.poke l bs).cores = s.cores := rfl
@[simp] theorem State.poke_core (l : Nat) (bs : List Byte) (g' : Nat) : (s.poke l bs).core g' = s.core g' := rfl
@[simp] theorem State.poke_quadOwner (l : Nat) (bs : List Byte) : (s.poke l bs).quadOwner = s.quadOwner := rfl
@[simp] theorem State.poke_thCtx (l : Nat) (bs : List Byte) (th' : ThreadId) : (s.poke l bs).thCtx th' = s.thCtx th' := rfl
@[simp] theorem State.poke_quadCtx (l : Nat) (bs : List Byte) (q' : Nat) : (s.poke l bs).quadCtx q' = s.quadCtx q' := rfl
@[simp] theorem State.poke_fresh (l : Nat) (bs : List Byte) : (s.poke l bs).fresh = s.fresh := rfl
@[simp] theorem State.poke_cfrac (l : Nat) (bs : List Byte) : (s.poke l bs).cfrac = s.cfrac := rfl
@[simp] theorem State.poke_dies (l : Nat) (bs : List Byte) : (s.poke l bs).dies = s.dies := rfl
@[simp] theorem State.poke_die (l : Nat) (bs : List Byte) (d' : Nat) : (s.poke l bs).die d' = s.die d' := rfl
@[simp] theorem State.poke_grans (l : Nat) (bs : List Byte) : (s.poke l bs).grans = s.grans := rfl
@[simp] theorem State.poke_gran (l : Nat) (bs : List Byte) (n' : Nat) : (s.poke l bs).gran n' = s.gran n' := rfl
@[simp] theorem State.poke_sync (l : Nat) (bs : List Byte) : (s.poke l bs).sync = s.sync := rfl
@[simp] theorem State.poke_tally (l : Nat) (bs : List Byte) (i' : Nat) : (s.poke l bs).tally i' = s.tally i' := rfl
@[simp] theorem State.poke_bell (l : Nat) (bs : List Byte) (j' : Nat) : (s.poke l bs).bell j' = s.bell j' := rfl
@[simp] theorem State.poke_ctxs (l : Nat) (bs : List Byte) : (s.poke l bs).ctxs = s.ctxs := rfl
@[simp] theorem State.poke_ctx (l : Nat) (bs : List Byte) (c' : CtxId) : (s.poke l bs).ctx c' = s.ctx c' := rfl
@[simp] theorem State.poke_gate (l : Nat) (bs : List Byte) : (s.poke l bs).gate = s.gate := rfl
@[simp] theorem State.poke_seqr (l : Nat) (bs : List Byte) : (s.poke l bs).seqr = s.seqr := rfl
@[simp] theorem State.poke_fab (l : Nat) (bs : List Byte) : (s.poke l bs).fab = s.fab := rfl
@[simp] theorem State.poke_port (l : Nat) (bs : List Byte) (p' : Nat) : (s.poke l bs).port p' = s.port p' := rfl
@[simp] theorem State.poke_rst (l : Nat) (bs : List Byte) : (s.poke l bs).rst = s.rst := rfl
@[simp] theorem State.poke_strm (l : Nat) (bs : List Byte) : (s.poke l bs).strm = s.strm := rfl
@[simp] theorem State.poke_engine (l : Nat) (bs : List Byte) (q' : Nat) : (s.poke l bs).engine q' = s.engine q' := rfl
@[simp] theorem State.poke_chan (l : Nat) (bs : List Byte) (q' ch' : Nat) : (s.poke l bs).chan q' ch' = s.chan q' ch' := rfl
@[simp] theorem State.poke_red (l : Nat) (bs : List Byte) : (s.poke l bs).red = s.red := rfl
@[simp] theorem State.poke_redEng (l : Nat) (bs : List Byte) (e' : Nat) : (s.poke l bs).redEng e' = s.redEng e' := rfl
@[simp] theorem State.poke_harv (l : Nat) (bs : List Byte) : (s.poke l bs).harv = s.harv := rfl
@[simp] theorem State.poke_fuses (l : Nat) (bs : List Byte) : (s.poke l bs).fuses = s.fuses := rfl
@[simp] theorem State.poke_nvm (l : Nat) (bs : List Byte) : (s.poke l bs).nvm = s.nvm := rfl
@[simp] theorem State.poke_boot (l : Nat) (bs : List Byte) : (s.poke l bs).boot = s.boot := rfl
@[simp] theorem State.poke_vault (l : Nat) (bs : List Byte) : (s.poke l bs).vault = s.vault := rfl
@[simp] theorem State.poke_pwr (l : Nat) (bs : List Byte) : (s.poke l bs).pwr = s.pwr := rfl
@[simp] theorem State.poke_dieClk (l : Nat) (bs : List Byte) (d' : Nat) : (s.poke l bs).dieClk d' = s.dieClk d' := rfl
@[simp] theorem State.poke_car (l : Nat) (bs : List Byte) : (s.poke l bs).car = s.car := rfl
@[simp] theorem State.pokeCells_pending (cs : List (Nat × Byte)) : (s.pokeCells cs).pending = s.pending := rfl
@[simp] theorem State.pokeCells_freeCtr (cs : List (Nat × Byte)) : (s.pokeCells cs).freeCtr = s.freeCtr := rfl
@[simp] theorem State.pokeCells_clk (cs : List (Nat × Byte)) : (s.pokeCells cs).clk = s.clk := rfl
@[simp] theorem State.pokeCells_count (cs : List (Nat × Byte)) (k' : Clk) : (s.pokeCells cs).count k' = s.count k' := rfl
@[simp] theorem State.pokeCells_stampBase (cs : List (Nat × Byte)) : (s.pokeCells cs).stampBase = s.stampBase := rfl
@[simp] theorem State.pokeCells_log (cs : List (Nat × Byte)) : (s.pokeCells cs).log = s.log := rfl
@[simp] theorem State.pokeCells_out (cs : List (Nat × Byte)) : (s.pokeCells cs).out = s.out := rfl
@[simp] theorem State.pokeCells_threads (cs : List (Nat × Byte)) : (s.pokeCells cs).threads = s.threads := rfl
@[simp] theorem State.pokeCells_thr (cs : List (Nat × Byte)) (th' : ThreadId) : (s.pokeCells cs).thr th' = s.thr th' := rfl
@[simp] theorem State.pokeCells_cores (cs : List (Nat × Byte)) : (s.pokeCells cs).cores = s.cores := rfl
@[simp] theorem State.pokeCells_core (cs : List (Nat × Byte)) (g' : Nat) : (s.pokeCells cs).core g' = s.core g' := rfl
@[simp] theorem State.pokeCells_quadOwner (cs : List (Nat × Byte)) : (s.pokeCells cs).quadOwner = s.quadOwner := rfl
@[simp] theorem State.pokeCells_thCtx (cs : List (Nat × Byte)) (th' : ThreadId) : (s.pokeCells cs).thCtx th' = s.thCtx th' := rfl
@[simp] theorem State.pokeCells_quadCtx (cs : List (Nat × Byte)) (q' : Nat) : (s.pokeCells cs).quadCtx q' = s.quadCtx q' := rfl
@[simp] theorem State.pokeCells_fresh (cs : List (Nat × Byte)) : (s.pokeCells cs).fresh = s.fresh := rfl
@[simp] theorem State.pokeCells_cfrac (cs : List (Nat × Byte)) : (s.pokeCells cs).cfrac = s.cfrac := rfl
@[simp] theorem State.pokeCells_dies (cs : List (Nat × Byte)) : (s.pokeCells cs).dies = s.dies := rfl
@[simp] theorem State.pokeCells_die (cs : List (Nat × Byte)) (d' : Nat) : (s.pokeCells cs).die d' = s.die d' := rfl
@[simp] theorem State.pokeCells_grans (cs : List (Nat × Byte)) : (s.pokeCells cs).grans = s.grans := rfl
@[simp] theorem State.pokeCells_gran (cs : List (Nat × Byte)) (n' : Nat) : (s.pokeCells cs).gran n' = s.gran n' := rfl
@[simp] theorem State.pokeCells_sync (cs : List (Nat × Byte)) : (s.pokeCells cs).sync = s.sync := rfl
@[simp] theorem State.pokeCells_tally (cs : List (Nat × Byte)) (i' : Nat) : (s.pokeCells cs).tally i' = s.tally i' := rfl
@[simp] theorem State.pokeCells_bell (cs : List (Nat × Byte)) (j' : Nat) : (s.pokeCells cs).bell j' = s.bell j' := rfl
@[simp] theorem State.pokeCells_ctxs (cs : List (Nat × Byte)) : (s.pokeCells cs).ctxs = s.ctxs := rfl
@[simp] theorem State.pokeCells_ctx (cs : List (Nat × Byte)) (c' : CtxId) : (s.pokeCells cs).ctx c' = s.ctx c' := rfl
@[simp] theorem State.pokeCells_gate (cs : List (Nat × Byte)) : (s.pokeCells cs).gate = s.gate := rfl
@[simp] theorem State.pokeCells_seqr (cs : List (Nat × Byte)) : (s.pokeCells cs).seqr = s.seqr := rfl
@[simp] theorem State.pokeCells_fab (cs : List (Nat × Byte)) : (s.pokeCells cs).fab = s.fab := rfl
@[simp] theorem State.pokeCells_port (cs : List (Nat × Byte)) (p' : Nat) : (s.pokeCells cs).port p' = s.port p' := rfl
@[simp] theorem State.pokeCells_rst (cs : List (Nat × Byte)) : (s.pokeCells cs).rst = s.rst := rfl
@[simp] theorem State.pokeCells_strm (cs : List (Nat × Byte)) : (s.pokeCells cs).strm = s.strm := rfl
@[simp] theorem State.pokeCells_engine (cs : List (Nat × Byte)) (q' : Nat) : (s.pokeCells cs).engine q' = s.engine q' := rfl
@[simp] theorem State.pokeCells_chan (cs : List (Nat × Byte)) (q' ch' : Nat) : (s.pokeCells cs).chan q' ch' = s.chan q' ch' := rfl
@[simp] theorem State.pokeCells_red (cs : List (Nat × Byte)) : (s.pokeCells cs).red = s.red := rfl
@[simp] theorem State.pokeCells_redEng (cs : List (Nat × Byte)) (e' : Nat) : (s.pokeCells cs).redEng e' = s.redEng e' := rfl
@[simp] theorem State.pokeCells_harv (cs : List (Nat × Byte)) : (s.pokeCells cs).harv = s.harv := rfl
@[simp] theorem State.pokeCells_fuses (cs : List (Nat × Byte)) : (s.pokeCells cs).fuses = s.fuses := rfl
@[simp] theorem State.pokeCells_nvm (cs : List (Nat × Byte)) : (s.pokeCells cs).nvm = s.nvm := rfl
@[simp] theorem State.pokeCells_boot (cs : List (Nat × Byte)) : (s.pokeCells cs).boot = s.boot := rfl
@[simp] theorem State.pokeCells_vault (cs : List (Nat × Byte)) : (s.pokeCells cs).vault = s.vault := rfl
@[simp] theorem State.pokeCells_pwr (cs : List (Nat × Byte)) : (s.pokeCells cs).pwr = s.pwr := rfl
@[simp] theorem State.pokeCells_dieClk (cs : List (Nat × Byte)) (d' : Nat) : (s.pokeCells cs).dieClk d' = s.dieClk d' := rfl
@[simp] theorem State.pokeCells_car (cs : List (Nat × Byte)) : (s.pokeCells cs).car = s.car := rfl

end Sys2Proof.Machine
end

