-- ==== Sys2Proof/Laws/Cache.lean ====
section
/-!
SUPPORT. What the home caches' operations leave as it is: a read or a write through them changes their lines, the counters
of the controllers and the free-value counter, and nothing else (R207); a write through them then is the plain write.
-/

namespace Sys2Proof.Machine

/-- A predicate that every operation of a fold keeps holds after the fold. -/
theorem foldl_keeps {α : Type} (P : State → Prop) {f : State → α → State} (hf : ∀ s a, P s → P (f s a)) (l : List α) {s : State}
    (h : P s) : P (l.foldl f s) := by
  revert s
  induction l <;> simp_all

/-- The state with the dies' memory units, the Granary controllers and the free-value counter blanked: what no cache holds. -/
def State.offCaches (s : State) : State := { s with dies := [], grans := [], freeCtr := 0 }

variable (s : State)

@[simp] theorem State.offCaches_modDie (d : Nat) (f : DieMem → DieMem) : (s.modDie d f).offCaches = s.offCaches := rfl
@[simp] theorem State.offCaches_modGran (n : Nat) (f : Gran → Gran) : (s.modGran n f).offCaches = s.offCaches := rfl
@[simp] theorem State.offCaches_pickVictim (vs : List Nat) : (s.pickVictim vs).2.offCaches = s.offCaches := rfl
@[simp] theorem State.offCaches_countHome (gi h n : Nat) : (s.countHome gi h n).offCaches = s.offCaches := rfl
@[simp] theorem State.offCaches_countGran (gi n : Nat) : (s.countGran gi n).offCaches = s.offCaches := rfl
@[simp] theorem State.offCaches_setLine (gi : Nat) (l : CellLine) : (s.setLine gi l).offCaches = s.offCaches := rfl
@[simp] theorem State.offCaches_useLine (gi : Nat) : (s.useLine gi).offCaches = s.offCaches := rfl

@[simp] theorem State.offCaches_evictLine (gi : Nat) : (s.evictLine gi).offCaches = s.offCaches := by
  simp only [State.evictLine]; repeat' split
  all_goals simp

@[simp] theorem State.offCaches_makeRoom (gi : Nat) : (s.makeRoom gi).offCaches = s.offCaches := by
  simp only [State.makeRoom]; repeat' split
  all_goals simp

@[simp] theorem State.offCaches_readGranule (gi : Nat) (secs : List Nat) : (s.readGranule gi secs).offCaches = s.offCaches := by
  simp only [State.readGranule]; repeat' split
  all_goals simp

@[simp] theorem State.offCaches_writeSector (gi sec : Nat) (whole : Bool) : (s.writeSector gi sec whole).offCaches = s.offCaches := by
  simp only [State.writeSector]; repeat' split
  all_goals simp

/-- A fold of operations on the caches leaves the rest of the state. -/
theorem State.offCaches_foldl {α : Type} (f : State → α → State) (hf : ∀ (t : State) (a : α), (f t a).offCaches = t.offCaches)
    (l : List α) : (l.foldl f s).offCaches = s.offCaches :=
  foldl_keeps (·.offCaches = s.offCaches) (fun t a => (hf t a).trans) l rfl

/-- A read through the home caches changes only them. -/
@[simp] theorem State.offCaches_readVia (l n : Nat) : (s.readVia l n).offCaches = s.offCaches := by
  unfold State.readVia
  split
  · rfl
  · exact s.offCaches_foldl _ (fun t x => by split <;> simp) _

/-- A write's pass through the home caches changes only them: the bytes are written beside it. -/
@[simp] theorem State.offCaches_writeVia (l n : Nat) : (s.writeVia l n).offCaches = s.offCaches := by
  unfold State.writeVia
  split
  · rfl
  · exact s.offCaches_foldl _ (fun t x => by split <;> simp [State.offCaches_foldl]) _

@[simp] theorem State.offCaches_writeCellsVia (cs : List (Nat × Byte)) : (s.writeCellsVia cs).offCaches = s.offCaches :=
  s.offCaches_foldl _ (fun t x => by split <;> simp) _

/-- States that agree off the caches hold the same memory, the same marks and the same written blocks. -/
theorem State.memory_of_offCaches {t u : State} (h : t.offCaches = u.offCaches) :
    t.mem = u.mem ∧ t.poison = u.poison ∧ t.written = u.written := by
  simp only [State.offCaches, State.mk.injEq] at h
  simp only [h, and_self]

/-- With no part of the Cellars a cache, a read or write of anything but the Granary changes nothing. -/
theorem State.readVia_other (l n : Nat) (h : isGran l = false) : s.readVia l n = s := by simp [State.readVia, h]

theorem State.writeVia_other (l n : Nat) (h : isGran l = false) : s.writeVia l n = s := by simp [State.writeVia, h]

theorem State.pokeVia_other (l : Nat) (bs : List Byte) (h : isGran l = false) : s.pokeVia l bs = s.poke l bs := by
  simp [State.pokeVia, State.writeVia_other, h]

/-- A write through the home caches leaves the memory, the poison marks and the written blocks as the plain write does. -/
theorem State.pokeVia_mem (l : Nat) (bs : List Byte) :
    (s.pokeVia l bs).mem = (s.poke l bs).mem ∧ (s.pokeVia l bs).poison = (s.poke l bs).poison ∧
      (s.pokeVia l bs).written = (s.poke l bs).written := by
  obtain ⟨h, k, m⟩ := State.memory_of_offCaches (s.offCaches_writeVia l bs.length)
  simp [State.pokeVia, State.poke, h, k, m]

theorem State.pokeCellsVia_mem (cs : List (Nat × Byte)) :
    (s.pokeCellsVia cs).mem = (s.pokeCells cs).mem ∧ (s.pokeCellsVia cs).poison = (s.pokeCells cs).poison ∧
      (s.pokeCellsVia cs).written = (s.pokeCells cs).written := by
  obtain ⟨h, k, m⟩ := State.memory_of_offCaches (s.offCaches_writeCellsVia cs)
  simp [State.pokeCellsVia, State.pokeCells, h, k, m]

/-! ### Canonical form -/

theorem State.pokeVia_mem_wf (l : Nat) (bs : List Byte) (h : Memory.wf s.mem = true) :
    Memory.wf (s.pokeVia l bs).mem = true := by
  rw [(s.pokeVia_mem l bs).1]; exact memWrite_wf l bs s.mem h

theorem State.pokeCellsVia_mem_wf (cs : List (Nat × Byte)) (h : Memory.wf s.mem = true) :
    Memory.wf (s.pokeCellsVia cs).mem = true := by
  rw [(s.pokeCellsVia_mem cs).1]; exact memCells_wf cs s.mem h

theorem State.dropLine_mem_wf (gi : Nat) (h : Memory.wf s.mem = true) : Memory.wf (s.dropLine gi).mem = true := by
  unfold State.dropLine
  split
  · exact h
  · exact foldl_keeps (Memory.wf ·.mem = true) (fun _ _ => memWrite_wf _ _ _) _ h

theorem State.dropLines_mem_wf (ds : List Nat) (p : Nat → Bool) (h : Memory.wf s.mem = true) :
    Memory.wf (s.dropLines ds p).mem = true := by
  unfold State.dropLines
  exact foldl_keeps (Memory.wf ·.mem = true) (fun t _ h => foldl_keeps (Memory.wf ·.mem = true) (fun u _ => u.dropLine_mem_wf _) _ h) _ h

end Sys2Proof.Machine
end

