-- ==== Sys2Proof/Laws/Exec.lean ====
section
/-!
SUPPORT. The meaning of each command, one equation per constructor: a proof rewrites with the one it needs and does not
unfold `exec`.
-/

namespace Sys2Proof.Machine

variable (s : State)

theorem exec_add (th : ThreadId) (rd rs1 rs2 : Reg) : exec (.add th rd rs1 rs2) s = execAdd th rd rs1 rs2 s := rfl
theorem exec_sub (th : ThreadId) (rd rs1 rs2 : Reg) : exec (.sub th rd rs1 rs2) s = execSub th rd rs1 rs2 s := rfl
theorem exec_and (th : ThreadId) (rd rs1 rs2 : Reg) : exec (.and th rd rs1 rs2) s = execAnd th rd rs1 rs2 s := rfl
theorem exec_or (th : ThreadId) (rd rs1 rs2 : Reg) : exec (.or th rd rs1 rs2) s = execOr th rd rs1 rs2 s := rfl
theorem exec_xor (th : ThreadId) (rd rs1 rs2 : Reg) : exec (.xor th rd rs1 rs2) s = execXor th rd rs1 rs2 s := rfl
theorem exec_shl (th : ThreadId) (rd rs1 rs2 : Reg) : exec (.shl th rd rs1 rs2) s = execShl th rd rs1 rs2 s := rfl
theorem exec_shr (th : ThreadId) (rd rs1 rs2 : Reg) : exec (.shr th rd rs1 rs2) s = execShr th rd rs1 rs2 s := rfl
theorem exec_sra (th : ThreadId) (rd rs1 rs2 : Reg) : exec (.sra th rd rs1 rs2) s = execSra th rd rs1 rs2 s := rfl
theorem exec_slt (th : ThreadId) (rd rs1 rs2 : Reg) : exec (.slt th rd rs1 rs2) s = execSlt th rd rs1 rs2 s := rfl
theorem exec_sltu (th : ThreadId) (rd rs1 rs2 : Reg) : exec (.sltu th rd rs1 rs2) s = execSltu th rd rs1 rs2 s := rfl
theorem exec_mul (th : ThreadId) (rd rs1 rs2 : Reg) : exec (.mul th rd rs1 rs2) s = execMul th rd rs1 rs2 s := rfl
theorem exec_mulh (th : ThreadId) (rd rs1 rs2 : Reg) : exec (.mulh th rd rs1 rs2) s = execMulh th rd rs1 rs2 s := rfl
theorem exec_mulhu (th : ThreadId) (rd rs1 rs2 : Reg) : exec (.mulhu th rd rs1 rs2) s = execMulhu th rd rs1 rs2 s := rfl
theorem exec_div (th : ThreadId) (rd rs1 rs2 : Reg) : exec (.div th rd rs1 rs2) s = execDiv th rd rs1 rs2 s := rfl
theorem exec_divu (th : ThreadId) (rd rs1 rs2 : Reg) : exec (.divu th rd rs1 rs2) s = execDivu th rd rs1 rs2 s := rfl
theorem exec_rem (th : ThreadId) (rd rs1 rs2 : Reg) : exec (.rem th rd rs1 rs2) s = execRem th rd rs1 rs2 s := rfl
theorem exec_remu (th : ThreadId) (rd rs1 rs2 : Reg) : exec (.remu th rd rs1 rs2) s = execRemu th rd rs1 rs2 s := rfl
theorem exec_addi (th : ThreadId) (rd rs1 : Reg) (imm : BitVec 16) : exec (.addi th rd rs1 imm) s = execAddi th rd rs1 imm s := rfl
theorem exec_andi (th : ThreadId) (rd rs1 : Reg) (imm : BitVec 16) : exec (.andi th rd rs1 imm) s = execAndi th rd rs1 imm s := rfl
theorem exec_ori (th : ThreadId) (rd rs1 : Reg) (imm : BitVec 16) : exec (.ori th rd rs1 imm) s = execOri th rd rs1 imm s := rfl
theorem exec_xori (th : ThreadId) (rd rs1 : Reg) (imm : BitVec 16) : exec (.xori th rd rs1 imm) s = execXori th rd rs1 imm s := rfl
theorem exec_slti (th : ThreadId) (rd rs1 : Reg) (imm : BitVec 16) : exec (.slti th rd rs1 imm) s = execSlti th rd rs1 imm s := rfl
theorem exec_sltiu (th : ThreadId) (rd rs1 : Reg) (imm : BitVec 16) : exec (.sltiu th rd rs1 imm) s = execSltiu th rd rs1 imm s := rfl
theorem exec_shifti (th : ThreadId) (rd rs1 : Reg) (imm : BitVec 16) : exec (.shifti th rd rs1 imm) s = execShifti th rd rs1 imm s := rfl
theorem exec_lui (th : ThreadId) (rd : Reg) (imm : BitVec 21) : exec (.lui th rd imm) s = execLui th rd imm s := rfl
theorem exec_auipc (th : ThreadId) (rd : Reg) (imm : BitVec 21) : exec (.auipc th rd imm) s = execAuipc th rd imm s := rfl
theorem exec_ldb (th : ThreadId) (rd rs1 : Reg) (imm : BitVec 16) : exec (.ldb th rd rs1 imm) s = execLdb th rd rs1 imm s := rfl
theorem exec_ldbu (th : ThreadId) (rd rs1 : Reg) (imm : BitVec 16) : exec (.ldbu th rd rs1 imm) s = execLdbu th rd rs1 imm s := rfl
theorem exec_ldh (th : ThreadId) (rd rs1 : Reg) (imm : BitVec 16) : exec (.ldh th rd rs1 imm) s = execLdh th rd rs1 imm s := rfl
theorem exec_ldhu (th : ThreadId) (rd rs1 : Reg) (imm : BitVec 16) : exec (.ldhu th rd rs1 imm) s = execLdhu th rd rs1 imm s := rfl
theorem exec_ldw (th : ThreadId) (rd rs1 : Reg) (imm : BitVec 16) : exec (.ldw th rd rs1 imm) s = execLdw th rd rs1 imm s := rfl
theorem exec_ldwu (th : ThreadId) (rd rs1 : Reg) (imm : BitVec 16) : exec (.ldwu th rd rs1 imm) s = execLdwu th rd rs1 imm s := rfl
theorem exec_ldd (th : ThreadId) (rd rs1 : Reg) (imm : BitVec 16) : exec (.ldd th rd rs1 imm) s = execLdd th rd rs1 imm s := rfl
theorem exec_stb (th : ThreadId) (rs2 rs1 : Reg) (imm : BitVec 16) : exec (.stb th rs2 rs1 imm) s = execStb th rs2 rs1 imm s := rfl
theorem exec_sth (th : ThreadId) (rs2 rs1 : Reg) (imm : BitVec 16) : exec (.sth th rs2 rs1 imm) s = execSth th rs2 rs1 imm s := rfl
theorem exec_stw (th : ThreadId) (rs2 rs1 : Reg) (imm : BitVec 16) : exec (.stw th rs2 rs1 imm) s = execStw th rs2 rs1 imm s := rfl
theorem exec_std (th : ThreadId) (rs2 rs1 : Reg) (imm : BitVec 16) : exec (.std th rs2 rs1 imm) s = execStd th rs2 rs1 imm s := rfl
theorem exec_beq (th : ThreadId) (rs1 rs2 : Reg) (off : BitVec 16) : exec (.beq th rs1 rs2 off) s = execBeq th rs1 rs2 off s := rfl
theorem exec_bne (th : ThreadId) (rs1 rs2 : Reg) (off : BitVec 16) : exec (.bne th rs1 rs2 off) s = execBne th rs1 rs2 off s := rfl
theorem exec_blt (th : ThreadId) (rs1 rs2 : Reg) (off : BitVec 16) : exec (.blt th rs1 rs2 off) s = execBlt th rs1 rs2 off s := rfl
theorem exec_bge (th : ThreadId) (rs1 rs2 : Reg) (off : BitVec 16) : exec (.bge th rs1 rs2 off) s = execBge th rs1 rs2 off s := rfl
theorem exec_bltu (th : ThreadId) (rs1 rs2 : Reg) (off : BitVec 16) : exec (.bltu th rs1 rs2 off) s = execBltu th rs1 rs2 off s := rfl
theorem exec_bgeu (th : ThreadId) (rs1 rs2 : Reg) (off : BitVec 16) : exec (.bgeu th rs1 rs2 off) s = execBgeu th rs1 rs2 off s := rfl
theorem exec_jal (th : ThreadId) (rd : Reg) (imm : BitVec 21) : exec (.jal th rd imm) s = execJal th rd imm s := rfl
theorem exec_jalr (th : ThreadId) (rd rs1 : Reg) (imm : BitVec 16) : exec (.jalr th rd rs1 imm) s = execJalr th rd rs1 imm s := rfl
theorem exec_trap (th : ThreadId) (rd rs1 code : Reg) : exec (.trap th rd rs1 code) s = execTrap th rd rs1 code s := rfl
theorem exec_eret (th : ThreadId) (rd rs1 rs2 : Reg) : exec (.eret th rd rs1 rs2) s = execEret th rd rs1 rs2 s := rfl
theorem exec_halt (th : ThreadId) (rd rs1 rs2 : Reg) : exec (.halt th rd rs1 rs2) s = execHalt th rd rs1 rs2 s := rfl
theorem exec_iflush (th : ThreadId) (rd rs1 rs2 : Reg) : exec (.iflush th rd rs1 rs2) s = execIflush th rd rs1 rs2 s := rfl
theorem exec_csrr (th : ThreadId) (rd rs1 : Reg) (csr : BitVec 16) : exec (.csrr th rd rs1 csr) s = execCsrr th rd rs1 csr s := rfl
theorem exec_csrw (th : ThreadId) (rd rs1 : Reg) (csr : BitVec 16) : exec (.csrw th rd rs1 csr) s = execCsrw th rd rs1 csr s := rfl
theorem exec_fence (th : ThreadId) (rd rs1 rs2 : Reg) : exec (.fence th rd rs1 rs2) s = execFence th rd rs1 rs2 s := rfl
theorem exec_pginv (th : ThreadId) (rd rs1 rs2 : Reg) : exec (.pginv th rd rs1 rs2) s = execPginv th rd rs1 rs2 s := rfl
theorem exec_pginva (th : ThreadId) (rd rs1 rs2 : Reg) : exec (.pginva th rd rs1 rs2) s = execPginva th rd rs1 rs2 s := rfl
theorem exec_pginvComplete (th : ThreadId) : exec (.pginvComplete th) s = execPginvComplete th s := rfl
theorem exec_interruptTake (th : ThreadId) : exec (.interruptTake th) s = execInterruptTake th s := rfl
theorem exec_asyncMem (th : ThreadId) : exec (.asyncMem th) s = execAsyncMem th s := rfl
theorem exec_coreTimerExpiry (th : ThreadId) : exec (.coreTimerExpiry th) s = execCoreTimerExpiry th s := rfl
theorem exec_coreDoorbell (th : ThreadId) : exec (.coreDoorbell th) s = execCoreDoorbell th s := rfl
theorem exec_icacheFill (th : ThreadId) : exec (.icacheFill th) s = execIcacheFill th s := rfl
theorem exec_memReply (th : ThreadId) (k : Nat) : exec (.memReply th k) s = execMemReply th k s := rfl
theorem exec_storeAck (th : ThreadId) (k : Nat) : exec (.storeAck th k) s = execStoreAck th k s := rfl
theorem exec_memTimeout (th : ThreadId) (what : TimeoutOf) : exec (.memTimeout th what) s = execMemTimeout th what s := rfl
theorem exec_memMemtoWrite (c : CtxId) (v : Word) : exec (.memMemtoWrite c v) s = execMemMemtoWrite c v s := rfl
theorem exec_benchOutsidePromote (g : CoreId) (k : Nat) : exec (.benchOutsidePromote g k) s = execBenchOutsidePromote g k s := rfl
theorem exec_granHotBank (n : BitVec 4) (ch : BitVec 4) (bank : BitVec 4) (reqs : List (CtxId × Nat)) : exec (.granHotBank n ch bank reqs) s = execGranHotBank n ch bank reqs s := rfl
theorem exec_memScrub (loc : Nat) (ue : Bool) : exec (.memScrub loc ue) s = execMemScrub loc ue s := rfl
theorem exec_tld (th : ThreadId) (f : TMem) : exec (.tld th f) s = execTld th f s := rfl
theorem exec_tst (th : ThreadId) (f : TMem) : exec (.tst th f) s = execTst th f s := rfl
theorem exec_tldt (th : ThreadId) (f : TMem) : exec (.tldt th f) s = execTldt th f s := rfl
theorem exec_tald (th : ThreadId) (f : TAcc) : exec (.tald th f) s = execTald th f s := rfl
theorem exec_tast (th : ThreadId) (f : TAcc) : exec (.tast th f) s = execTast th f s := rfl
theorem exec_tazero (th : ThreadId) (a : BitVec 2) (mbz10 : BitVec 10) (int : Bool) (mbz11 : BitVec 11) : exec (.tazero th a mbz10 int mbz11) s = execTazero th a mbz10 int mbz11 s := rfl
theorem exec_tacvt (th : ThreadId) (f : TCvt) : exec (.tacvt th f) s = execTacvt th f s := rfl
theorem exec_tmma (th : ThreadId) (f : TMul) : exec (.tmma th f) s = execTmma th f s := rfl
theorem exec_tmmaz (th : ThreadId) (f : TMul) : exec (.tmmaz th f) s = execTmmaz th f s := rfl
theorem exec_tzero (th : ThreadId) (rd rs1 rs2 : Reg) : exec (.tzero th rd rs1 rs2) s = execTzero th rd rs1 rs2 s := rfl
theorem exec_tmov (th : ThreadId) (rd rs1 rs2 : Reg) : exec (.tmov th rd rs1 rs2) s = execTmov th rd rs1 rs2 s := rfl
theorem exec_tinv (th : ThreadId) (rd rs1 rs2 : Reg) : exec (.tinv th rd rs1 rs2) s = execTinv th rd rs1 rs2 s := rfl
theorem exec_ttag (th : ThreadId) (rd rs1 rs2 : Reg) : exec (.ttag th rd rs1 rs2) s = execTtag th rd rs1 rs2 s := rfl
theorem exec_tsetm (th : ThreadId) (rd rs1 rs2 : Reg) : exec (.tsetm th rd rs1 rs2) s = execTsetm th rd rs1 rs2 s := rfl
theorem exec_tgetm (th : ThreadId) (rd rs1 rs2 : Reg) : exec (.tgetm th rd rs1 rs2) s = execTgetm th rd rs1 rs2 s := rfl
theorem exec_tileRetire (th : ThreadId) : exec (.tileRetire th) s = execTileRetire th s := rfl
theorem exec_coalWindowExpiry (g : CoreId) (k : Nat) : exec (.coalWindowExpiry g k) s = execCoalWindowExpiry g k s := rfl
theorem exec_tileHoldExpiry (g : CoreId) : exec (.tileHoldExpiry g) s = execTileHoldExpiry g s := rfl
theorem exec_tileRampDownEnd (g : CoreId) : exec (.tileRampDownEnd g) s = execTileRampDownEnd g s := rfl
theorem exec_tileRampUpEnd (g : CoreId) : exec (.tileRampUpEnd g) s = execTileRampUpEnd g s := rfl
theorem exec_tileThrot (g : CoreId) (v : Word) : exec (.tileThrot g v) s = execTileThrot g v s := rfl
theorem exec_tileScrub (th : ThreadId) (acc : Bool) (n : BitVec 3) (row : BitVec 4) (ue : Bool) : exec (.tileScrub th acc n row ue) s = execTileScrub th acc n row ue s := rfl
theorem exec_vadd (th : ThreadId) (f : VInt) : exec (.vadd th f) s = execVadd th f s := rfl
theorem exec_vsub (th : ThreadId) (f : VInt) : exec (.vsub th f) s = execVsub th f s := rfl
theorem exec_vmul (th : ThreadId) (f : VInt) : exec (.vmul th f) s = execVmul th f s := rfl
theorem exec_vmulh (th : ThreadId) (f : VInt) : exec (.vmulh th f) s = execVmulh th f s := rfl
theorem exec_vmulhu (th : ThreadId) (f : VInt) : exec (.vmulhu th f) s = execVmulhu th f s := rfl
theorem exec_vand (th : ThreadId) (f : VInt) : exec (.vand th f) s = execVand th f s := rfl
theorem exec_vor (th : ThreadId) (f : VInt) : exec (.vor th f) s = execVor th f s := rfl
theorem exec_vxor (th : ThreadId) (f : VInt) : exec (.vxor th f) s = execVxor th f s := rfl
theorem exec_vshl (th : ThreadId) (f : VInt) : exec (.vshl th f) s = execVshl th f s := rfl
theorem exec_vshr (th : ThreadId) (f : VInt) : exec (.vshr th f) s = execVshr th f s := rfl
theorem exec_vsra (th : ThreadId) (f : VInt) : exec (.vsra th f) s = execVsra th f s := rfl
theorem exec_vmin (th : ThreadId) (f : VInt) : exec (.vmin th f) s = execVmin th f s := rfl
theorem exec_vmax (th : ThreadId) (f : VInt) : exec (.vmax th f) s = execVmax th f s := rfl
theorem exec_vminu (th : ThreadId) (f : VInt) : exec (.vminu th f) s = execVminu th f s := rfl
theorem exec_vmaxu (th : ThreadId) (f : VInt) : exec (.vmaxu th f) s = execVmaxu th f s := rfl
theorem exec_vadds (th : ThreadId) (f : VInt) : exec (.vadds th f) s = execVadds th f s := rfl
theorem exec_vsubs (th : ThreadId) (f : VInt) : exec (.vsubs th f) s = execVsubs th f s := rfl
theorem exec_vaddsu (th : ThreadId) (f : VInt) : exec (.vaddsu th f) s = execVaddsu th f s := rfl
theorem exec_vsubsu (th : ThreadId) (f : VInt) : exec (.vsubsu th f) s = execVsubsu th f s := rfl
theorem exec_vcmpeq (th : ThreadId) (f : VInt) : exec (.vcmpeq th f) s = execVcmpeq th f s := rfl
theorem exec_vcmplt (th : ThreadId) (f : VInt) : exec (.vcmplt th f) s = execVcmplt th f s := rfl
theorem exec_vcmpltu (th : ThreadId) (f : VInt) : exec (.vcmpltu th f) s = execVcmpltu th f s := rfl
theorem exec_vcmple (th : ThreadId) (f : VInt) : exec (.vcmple th f) s = execVcmple th f s := rfl
theorem exec_vcmpleu (th : ThreadId) (f : VInt) : exec (.vcmpleu th f) s = execVcmpleu th f s := rfl
theorem exec_vsel (th : ThreadId) (f : VInt) : exec (.vsel th f) s = execVsel th f s := rfl
theorem exec_vperm (th : ThreadId) (f : VInt) : exec (.vperm th f) s = execVperm th f s := rfl
theorem exec_vfadd (th : ThreadId) (f : VFlt) : exec (.vfadd th f) s = execVfadd th f s := rfl
theorem exec_vfsub (th : ThreadId) (f : VFlt) : exec (.vfsub th f) s = execVfsub th f s := rfl
theorem exec_vfmul (th : ThreadId) (f : VFlt) : exec (.vfmul th f) s = execVfmul th f s := rfl
theorem exec_vfdiv (th : ThreadId) (f : VFlt) : exec (.vfdiv th f) s = execVfdiv th f s := rfl
theorem exec_vfmax (th : ThreadId) (f : VFlt) : exec (.vfmax th f) s = execVfmax th f s := rfl
theorem exec_vfmin (th : ThreadId) (f : VFlt) : exec (.vfmin th f) s = execVfmin th f s := rfl
theorem exec_vfma (th : ThreadId) (f : VFlt) : exec (.vfma th f) s = execVfma th f s := rfl
theorem exec_vfnma (th : ThreadId) (f : VFlt) : exec (.vfnma th f) s = execVfnma th f s := rfl
theorem exec_vfsqrt (th : ThreadId) (f : VFlt) : exec (.vfsqrt th f) s = execVfsqrt th f s := rfl
theorem exec_vfabs (th : ThreadId) (f : VFlt) : exec (.vfabs th f) s = execVfabs th f s := rfl
theorem exec_vfneg (th : ThreadId) (f : VFlt) : exec (.vfneg th f) s = execVfneg th f s := rfl
theorem exec_vfcmpeq (th : ThreadId) (f : VFlt) : exec (.vfcmpeq th f) s = execVfcmpeq th f s := rfl
theorem exec_vfcmplt (th : ThreadId) (f : VFlt) : exec (.vfcmplt th f) s = execVfcmplt th f s := rfl
theorem exec_vfcmple (th : ThreadId) (f : VFlt) : exec (.vfcmple th f) s = execVfcmple th f s := rfl
theorem exec_vfcmpne (th : ThreadId) (f : VFlt) : exec (.vfcmpne th f) s = execVfcmpne th f s := rfl
theorem exec_vredSum (th : ThreadId) (f : VRed) : exec (.vredSum th f) s = execVredSum th f s := rfl
theorem exec_vredSumsq (th : ThreadId) (f : VRed) : exec (.vredSumsq th f) s = execVredSumsq th f s := rfl
theorem exec_vredMax (th : ThreadId) (f : VRed) : exec (.vredMax th f) s = execVredMax th f s := rfl
theorem exec_vredMin (th : ThreadId) (f : VRed) : exec (.vredMin th f) s = execVredMin th f s := rfl
theorem exec_vredAnd (th : ThreadId) (f : VRed) : exec (.vredAnd th f) s = execVredAnd th f s := rfl
theorem exec_vredOr (th : ThreadId) (f : VRed) : exec (.vredOr th f) s = execVredOr th f s := rfl
theorem exec_vredXor (th : ThreadId) (f : VRed) : exec (.vredXor th f) s = execVredXor th f s := rfl
theorem exec_vcvt (th : ThreadId) (f : VCvt) : exec (.vcvt th f) s = execVcvt th f s := rfl
theorem exec_vld (th : ThreadId) (f : VMem) : exec (.vld th f) s = execVld th f s := rfl
theorem exec_vlds (th : ThreadId) (f : VMem) : exec (.vlds th f) s = execVlds th f s := rfl
theorem exec_vgath (th : ThreadId) (f : VMem) : exec (.vgath th f) s = execVgath th f s := rfl
theorem exec_vldff (th : ThreadId) (f : VMem) : exec (.vldff th f) s = execVldff th f s := rfl
theorem exec_vgathff (th : ThreadId) (f : VMem) : exec (.vgathff th f) s = execVgathff th f s := rfl
theorem exec_vst (th : ThreadId) (f : VMem) : exec (.vst th f) s = execVst th f s := rfl
theorem exec_vsts (th : ThreadId) (f : VMem) : exec (.vsts th f) s = execVsts th f s := rfl
theorem exec_vscat (th : ThreadId) (f : VMem) : exec (.vscat th f) s = execVscat th f s := rfl
theorem exec_pand (th : ThreadId) (f : VMisc) : exec (.pand th f) s = execPand th f s := rfl
theorem exec_por (th : ThreadId) (f : VMisc) : exec (.por th f) s = execPor th f s := rfl
theorem exec_pxor (th : ThreadId) (f : VMisc) : exec (.pxor th f) s = execPxor th f s := rfl
theorem exec_pandn (th : ThreadId) (f : VMisc) : exec (.pandn th f) s = execPandn th f s := rfl
theorem exec_pset (th : ThreadId) (f : VMisc) : exec (.pset th f) s = execPset th f s := rfl
theorem exec_pclr (th : ThreadId) (f : VMisc) : exec (.pclr th f) s = execPclr th f s := rfl
theorem exec_plen (th : ThreadId) (f : VMisc) : exec (.plen th f) s = execPlen th f s := rfl
theorem exec_ppop (th : ThreadId) (f : VMisc) : exec (.ppop th f) s = execPpop th f s := rfl
theorem exec_plow (th : ThreadId) (f : VMisc) : exec (.plow th f) s = execPlow th f s := rfl
theorem exec_ffarm (th : ThreadId) (f : VMisc) : exec (.ffarm th f) s = execFfarm th f s := rfl
theorem exec_fftake (th : ThreadId) (f : VMisc) : exec (.fftake th f) s = execFftake th f s := rfl
theorem exec_ffput (th : ThreadId) (f : VMisc) : exec (.ffput th f) s = execFfput th f s := rfl
theorem exec_ffcut (th : ThreadId) (f : VMisc) : exec (.ffcut th f) s = execFfcut th f s := rfl
theorem exec_vdup (th : ThreadId) (f : VMisc) : exec (.vdup th f) s = execVdup th f s := rfl
theorem exec_vgetx (th : ThreadId) (f : VMisc) : exec (.vgetx th f) s = execVgetx th f s := rfl
theorem exec_viota (th : ThreadId) (f : VMisc) : exec (.viota th f) s = execViota th f s := rfl
theorem exec_fmvxf (th : ThreadId) (f : VMisc) : exec (.fmvxf th f) s = execFmvxf th f s := rfl
theorem exec_fmvfx (th : ThreadId) (f : VMisc) : exec (.fmvfx th f) s = execFmvfx th f s := rfl
theorem exec_fadd (th : ThreadId) (f : VMisc) : exec (.fadd th f) s = execFadd th f s := rfl
theorem exec_fsub (th : ThreadId) (f : VMisc) : exec (.fsub th f) s = execFsub th f s := rfl
theorem exec_fmul (th : ThreadId) (f : VMisc) : exec (.fmul th f) s = execFmul th f s := rfl
theorem exec_fdiv (th : ThreadId) (f : VMisc) : exec (.fdiv th f) s = execFdiv th f s := rfl
theorem exec_fsqrt (th : ThreadId) (f : VMisc) : exec (.fsqrt th f) s = execFsqrt th f s := rfl
theorem exec_fmax (th : ThreadId) (f : VMisc) : exec (.fmax th f) s = execFmax th f s := rfl
theorem exec_fmin (th : ThreadId) (f : VMisc) : exec (.fmin th f) s = execFmin th f s := rfl
theorem exec_fma (th : ThreadId) (f : VMisc) : exec (.fma th f) s = execFma th f s := rfl
theorem exec_feq (th : ThreadId) (f : VMisc) : exec (.feq th f) s = execFeq th f s := rfl
theorem exec_flt (th : ThreadId) (f : VMisc) : exec (.flt th f) s = execFlt th f s := rfl
theorem exec_fle (th : ThreadId) (f : VMisc) : exec (.fle th f) s = execFle th f s := rfl
theorem exec_fcvtxf (th : ThreadId) (f : VMisc) : exec (.fcvtxf th f) s = execFcvtxf th f s := rfl
theorem exec_fcvtfx (th : ThreadId) (f : VMisc) : exec (.fcvtfx th f) s = execFcvtfx th f s := rfl
theorem exec_gld (th : ThreadId) (f : VMisc) : exec (.gld th f) s = execGld th f s := rfl
theorem exec_gst (th : ThreadId) (f : VMisc) : exec (.gst th f) s = execGst th f s := rfl
theorem exec_gfill (th : ThreadId) (f : VMisc) : exec (.gfill th f) s = execGfill th f s := rfl
theorem exec_gchk (th : ThreadId) (f : VMisc) : exec (.gchk th f) s = execGchk th f s := rfl
theorem exec_vectorRetire (th : ThreadId) : exec (.vectorRetire th) s = execVectorRetire th s := rfl
theorem exec_vecPowerDown (g : CoreId) : exec (.vecPowerDown g) s = execVecPowerDown g s := rfl
theorem exec_vecWakeEnd (g : CoreId) : exec (.vecWakeEnd g) s = execVecWakeEnd g s := rfl
theorem exec_vecScrub (th : ThreadId) (reg : VRegName) (word : Nat) (ue : Bool) : exec (.vecScrub th reg word ue) s = execVecScrub th reg word ue s := rfl
theorem exec_tsig (th : ThreadId) (rd rs1 rs2 : Reg) : exec (.tsig th rd rs1 rs2) s = execTsig th rd rs1 rs2 s := rfl
theorem exec_tdec (th : ThreadId) (rd rs1 rs2 : Reg) : exec (.tdec th rd rs1 rs2) s = execTdec th rd rs1 rs2 s := rfl
theorem exec_tset (th : ThreadId) (rd rs1 rs2 : Reg) : exec (.tset th rd rs1 rs2) s = execTset th rd rs1 rs2 s := rfl
theorem exec_tread (th : ThreadId) (rd rs1 rs2 : Reg) : exec (.tread th rd rs1 rs2) s = execTread th rd rs1 rs2 s := rfl
theorem exec_twait (th : ThreadId) (rd rs1 rs2 : Reg) : exec (.twait th rd rs1 rs2) s = execTwait th rd rs1 rs2 s := rfl
theorem exec_barr (th : ThreadId) (rd rs1 rs2 : Reg) : exec (.barr th rd rs1 rs2) s = execBarr th rd rs1 rs2 s := rfl
theorem exec_bwait (th : ThreadId) (rd rs1 rs2 : Reg) : exec (.bwait th rd rs1 rs2) s = execBwait th rd rs1 rs2 s := rfl
theorem exec_bread (th : ThreadId) (rd rs1 rs2 : Reg) : exec (.bread th rd rs1 rs2) s = execBread th rd rs1 rs2 s := rfl
theorem exec_tsigr (th : ThreadId) (rd rs1 rs2 : Reg) : exec (.tsigr th rd rs1 rs2) s = execTsigr th rd rs1 rs2 s := rfl
theorem exec_tallySignal (k : Nat) : exec (.tallySignal k) s = execTallySignal k s := rfl
theorem exec_tallyDecrement (k : Nat) : exec (.tallyDecrement k) s = execTallyDecrement k s := rfl
theorem exec_tallySet (k : Nat) : exec (.tallySet k) s = execTallySet k s := rfl
theorem exec_tallyWait (k : Nat) : exec (.tallyWait k) s = execTallyWait k s := rfl
theorem exec_bellArrive (k : Nat) : exec (.bellArrive k) s = execBellArrive k s := rfl
theorem exec_bellWait (k : Nat) : exec (.bellWait k) s = execBellWait k s := rfl
theorem exec_syncTimeout (th : ThreadId) : exec (.syncTimeout th) s = execSyncTimeout th s := rfl
theorem exec_syncWithdraw (k : Nat) : exec (.syncWithdraw k) s = execSyncWithdraw k s := rfl
theorem exec_remoteSignal (k : Nat) : exec (.remoteSignal k) s = execRemoteSignal k s := rfl
theorem exec_remoteBellArrival (k : Nat) : exec (.remoteBellArrival k) s = execRemoteBellArrival k s := rfl
theorem exec_remoteBellRelease (k : Nat) : exec (.remoteBellRelease k) s = execRemoteBellRelease k s := rfl
theorem exec_strmStart (q : QuadId) (ch : BitVec 3) (w : Writer) : exec (.strmStart q ch w) s = execStrmStart q ch w s := rfl
theorem exec_strmRetry (q : QuadId) (ch : BitVec 3) (w : Writer) : exec (.strmRetry q ch w) s = execStrmRetry q ch w s := rfl
theorem exec_strmAbort (q : QuadId) (ch : BitVec 3) (w : Writer) : exec (.strmAbort q ch w) s = execStrmAbort q ch w s := rfl
theorem exec_strmDescReply (q : QuadId) (ch : BitVec 3) : exec (.strmDescReply q ch) s = execStrmDescReply q ch s := rfl
theorem exec_strmDescTimeout (q : QuadId) (ch : BitVec 3) : exec (.strmDescTimeout q ch) s = execStrmDescTimeout q ch s := rfl
theorem exec_strmIssue (q : QuadId) (ch : BitVec 3) : exec (.strmIssue q ch) s = execStrmIssue q ch s := rfl
theorem exec_strmReadReply (q : QuadId) (ch : BitVec 3) (k : Nat) : exec (.strmReadReply q ch k) s = execStrmReadReply q ch k s := rfl
theorem exec_strmWriteAck (q : QuadId) (ch : BitVec 3) (k : Nat) : exec (.strmWriteAck q ch k) s = execStrmWriteAck q ch k s := rfl
theorem exec_strmTimeout (q : QuadId) (ch : BitVec 3) : exec (.strmTimeout q ch) s = execStrmTimeout q ch s := rfl
theorem exec_strmWaitTimeout (q : QuadId) (ch : BitVec 3) : exec (.strmWaitTimeout q ch) s = execStrmWaitTimeout q ch s := rfl
theorem exec_registrationRead (c : CtxId) : exec (.registrationRead c) s = execRegistrationRead c s := rfl
theorem exec_announce (k : Nat) : exec (.announce k) s = execAnnounce k s := rfl
theorem exec_preroundGather (k : Nat) : exec (.preroundGather k) s = execPreroundGather k s := rfl
theorem exec_preroundSpread (k : Nat) : exec (.preroundSpread k) s = execPreroundSpread k s := rfl
theorem exec_reduceScatterFrame (k : Nat) : exec (.reduceScatterFrame k) s = execReduceScatterFrame k s := rfl
theorem exec_allGatherFrame (k : Nat) : exec (.allGatherFrame k) s = execAllGatherFrame k s := rfl
theorem exec_columnReduceScatter (k : Nat) : exec (.columnReduceScatter k) s = execColumnReduceScatter k s := rfl
theorem exec_columnAllGather (k : Nat) : exec (.columnAllGather k) s = execColumnAllGather k s := rfl
theorem exec_redDeadline (e : BitVec 3) (slot : Nat) : exec (.redDeadline e slot) s = execRedDeadline e slot s := rfl
theorem exec_redTimeout (e : BitVec 3) (slot : Nat) : exec (.redTimeout e slot) s = execRedTimeout e slot s := rfl
theorem exec_shadowRequest (k : Nat) : exec (.shadowRequest k) s = execShadowRequest k s := rfl
theorem exec_shadowCopy (k : Nat) : exec (.shadowCopy k) s = execShadowCopy k s := rfl
theorem exec_shadowAnswerTimeout (e : BitVec 3) (slot : Nat) : exec (.shadowAnswerTimeout e slot) s = execShadowAnswerTimeout e slot s := rfl
theorem exec_packetReceive (p : PortId) (pkt : Packet) : exec (.packetReceive p pkt) s = execPacketReceive p pkt s := rfl
theorem exec_packetExpiry (p : PortId) (k : Nat) : exec (.packetExpiry p k) s = execPacketExpiry p k s := rfl
theorem exec_routeHoldExpiry (dest : ModuleNo) : exec (.routeHoldExpiry dest) s = execRouteHoldExpiry dest s := rfl
theorem exec_generationNotice (k : Nat) : exec (.generationNotice k) s = execGenerationNotice k s := rfl
theorem exec_undeliverableNotice (k : Nat) : exec (.undeliverableNotice k) s = execUndeliverableNotice k s := rfl
theorem exec_flitReceive (p : Fin 17) (flit : Flit) : exec (.flitReceive p flit) s = execFlitReceive p flit s := rfl
theorem exec_flitAck (p : Fin 17) (seq : BitVec 12) : exec (.flitAck p seq) s = execFlitAck p seq s := rfl
theorem exec_nak (p : Fin 17) (seq : BitVec 12) : exec (.nak p seq) s = execNak p seq s := rfl
theorem exec_fabAcktoExpiry (p : Fin 17) : exec (.fabAcktoExpiry p) s = execFabAcktoExpiry p s := rfl
theorem exec_portSilence (p : Fin 17) : exec (.portSilence p) s = execPortSilence p s := rfl
theorem exec_laneLockLoss (p : Fin 17) (lanes : Byte) : exec (.laneLockLoss p lanes) s = execLaneLockLoss p lanes s := rfl
theorem exec_lanemap (p : Fin 17) (map : Byte) : exec (.lanemap p map) s = execLanemap p map s := rfl
theorem exec_reeveLaneDrop (p : Fin 17) (lane : BitVec 3) : exec (.reeveLaneDrop p lane) s = execReeveLaneDrop p lane s := rfl
theorem exec_laneRestore (p : Fin 17) (lane : BitVec 3) (ok : Bool) : exec (.laneRestore p lane ok) s = execLaneRestore p lane ok s := rfl
theorem exec_fabLanesAllowed (p : PortId) (v : Byte) : exec (.fabLanesAllowed p v) s = execFabLanesAllowed p v s := rfl
theorem exec_fabPortEnable (p : Fin 17) : exec (.fabPortEnable p) s = execFabPortEnable p s := rfl
theorem exec_trainingDone (p : Fin 17) (found : Training) : exec (.trainingDone p found) s = execTrainingDone p found s := rfl
theorem exec_trainLimitExpiry (p : Fin 17) : exec (.trainLimitExpiry p) s = execTrainLimitExpiry p s := rfl
theorem exec_fabRetrainExpiry (p : Fin 17) : exec (.fabRetrainExpiry p) s = execFabRetrainExpiry p s := rfl
theorem exec_laserLoss (m : BitVec 2) (why : LaserWhy) : exec (.laserLoss m why) s = execLaserLoss m why s := rfl
theorem exec_laserRestore (m : BitVec 2) : exec (.laserRestore m) s = execLaserRestore m s := rfl
theorem exec_fabLaserCtl (m : BitVec 2) (v : Word) : exec (.fabLaserCtl m v) s = execFabLaserCtl m v s := rfl
theorem exec_putRead (c : CtxId) : exec (.putRead c) s = execPutRead c s := rfl
theorem exec_putData (k : Nat) : exec (.putData k) s = execPutData k s := rfl
theorem exec_putReply (k : Nat) : exec (.putReply k) s = execPutReply k s := rfl
theorem exec_putTimeout (i : Nat) : exec (.putTimeout i) s = execPutTimeout i s := rfl
theorem exec_gateEnable : exec (.gateEnable) s = execGateEnable s := rfl
theorem exec_gateDad (linkLocal dup : Bool) : exec (.gateDad linkLocal dup) s = execGateDad linkLocal dup s := rfl
theorem exec_neighbourSolicitation (m : Solicitation) : exec (.neighbourSolicitation m) s = execNeighbourSolicitation m s := rfl
theorem exec_echoRequest (m : EchoReq) : exec (.echoRequest m) s = execEchoRequest m s := rfl
theorem exec_gateFrameDrop (why : DropWhy) : exec (.gateFrameDrop why) s = execGateFrameDrop why s := rfl
theorem exec_hello (h : Hello) : exec (.hello h) s = execHello h s := rfl
theorem exec_finish (hdr : BitVec 256) (sigOk : Bool) : exec (.finish hdr sigOk) s = execFinish hdr sigOk s := rfl
theorem exec_close (m : CloseMsg) : exec (.close m) s = execClose m s := rfl
theorem exec_handshakeTimeout (session : BitVec 32) : exec (.handshakeTimeout session) s = execHandshakeTimeout session s := rfl
theorem exec_load (r : ReqHdr) (offset length : Nat) (image : CtxImage) : exec (.load r offset length image) s = execLoad r offset length image s := rfl
theorem exec_start (r : ReqHdr) : exec (.start r) s = execStart r s := rfl
theorem exec_pause (r : ReqHdr) : exec (.pause r) s = execPause r s := rfl
theorem exec_pauseDone (c : CtxId) : exec (.pauseDone c) s = execPauseDone c s := rfl
theorem exec_resume (r : ReqHdr) : exec (.resume r) s = execResume r s := rfl
theorem exec_stop (r : ReqHdr) : exec (.stop r) s = execStop r s := rfl
theorem exec_drainDone (c : CtxId) : exec (.drainDone c) s = execDrainDone c s := rfl
theorem exec_resetCtx (r : ReqHdr) : exec (.resetCtx r) s = execResetCtx r s := rfl
theorem exec_snap (r : ReqHdr) (round : BitVec 32) (external : Bool) : exec (.snap r round external) s = execSnap r round external s := rfl
theorem exec_restore (r : ReqHdr) (round : BitVec 32) (source : Byte) (noFallback : Bool) (rsv : BitVec 7) : exec (.restore r round source noFallback rsv) s = execRestore r round source noFallback rsv s := rfl
theorem exec_queryContext (r : ReqHdr) : exec (.queryContext r) s = execQueryContext r s := rfl
theorem exec_queryEvents (r : ReqHdr) (first : Word) (count : Nat) : exec (.queryEvents r first count) s = execQueryEvents r first count s := rfl
theorem exec_queryRegister (r : ReqHdr) (addr : Word) : exec (.queryRegister r addr) s = execQueryRegister r addr s := rfl
theorem exec_queryDigest (r : ReqHdr) (ring : Byte) (bucket : BitVec 16) (step : BitVec 32) : exec (.queryDigest r ring bucket step) s = execQueryDigest r ring bucket step s := rfl
theorem exec_queryFeed (r : ReqHdr) : exec (.queryFeed r) s = execQueryFeed r s := rfl
theorem exec_queryRing (r : ReqHdr) (ring : Byte) : exec (.queryRing r ring) s = execQueryRing r ring s := rfl
theorem exec_telemSet (r : ReqHdr) : exec (.telemSet r) s = execTelemSet r s := rfl
theorem exec_telemPeriodic (r : ReqHdr) (periodUs : Nat) : exec (.telemPeriodic r periodUs) s = execTelemPeriodic r periodUs s := rfl
theorem exec_telemSubscribe (r : ReqHdr) (minSeverity : Byte) : exec (.telemSubscribe r minSeverity) s = execTelemSubscribe r minSeverity s := rfl
theorem exec_telemCancel (r : ReqHdr) (what : Byte) : exec (.telemCancel r what) s = execTelemCancel r what s := rfl
theorem exec_telemPeriodExpiry (session : BitVec 32) : exec (.telemPeriodExpiry session) s = execTelemPeriodExpiry session s := rfl
theorem exec_eventFlush (session : BitVec 32) : exec (.eventFlush session) s = execEventFlush session s := rfl
theorem exec_attestReport (r : ReqHdr) (nonce : BitVec 256) : exec (.attestReport r nonce) s = execAttestReport r nonce s := rfl
theorem exec_attestCert (r : ReqHdr) : exec (.attestCert r) s = execAttestCert r s := rfl
theorem exec_fwStage (r : ReqHdr) (offset length : Nat) (bundle : Bundle) : exec (.fwStage r offset length bundle) s = execFwStage r offset length bundle s := rfl
theorem exec_fwCommit (r : ReqHdr) : exec (.fwCommit r) s = execFwCommit r s := rfl
theorem exec_cmdTimeout (target : Option CtxId) : exec (.cmdTimeout target) s = execCmdTimeout target s := rfl
theorem exec_cmdLoadIdle (target : Option CtxId) : exec (.cmdLoadIdle target) s = execCmdLoadIdle target s := rfl
theorem exec_feedRequest (c : CtxId) : exec (.feedRequest c) s = execFeedRequest c s := rfl
theorem exec_feedData (c : CtxId) (f : FeedFragment) : exec (.feedData c f) s = execFeedData c f s := rfl
theorem exec_feedEnd (c : CtxId) (m : FeedEnd) (offset : Word) : exec (.feedEnd c m offset) s = execFeedEnd c m offset s := rfl
theorem exec_feedErr (c : CtxId) (m : FeedErr) : exec (.feedErr c m) s = execFeedErr c m s := rfl
theorem exec_feedRetryExpiry (c : CtxId) : exec (.feedRetryExpiry c) s = execFeedRetryExpiry c s := rfl
theorem exec_snapQuiesceDone (c : CtxId) : exec (.snapQuiesceDone c) s = execSnapQuiesceDone c s := rfl
theorem exec_snapQuiesce (c : CtxId) : exec (.snapQuiesce c) s = execSnapQuiesce c s := rfl
theorem exec_snapBlockRead (c : CtxId) : exec (.snapBlockRead c) s = execSnapBlockRead c s := rfl
theorem exec_snapStageDone (c : CtxId) : exec (.snapStageDone c) s = execSnapStageDone c s := rfl
theorem exec_snapPktData (k : Nat) : exec (.snapPktData k) s = execSnapPktData k s := rfl
theorem exec_snapPktDigest (k : Nat) : exec (.snapPktDigest k) s = execSnapPktDigest k s := rfl
theorem exec_snapPktAck (k : Nat) : exec (.snapPktAck k) s = execSnapPktAck k s := rfl
theorem exec_snapPktAskAgain (k : Nat) : exec (.snapPktAskAgain k) s = execSnapPktAskAgain k s := rfl
theorem exec_snapPktManifest (k : Nat) : exec (.snapPktManifest k) s = execSnapPktManifest k s := rfl
theorem exec_snapPktFetch (k : Nat) : exec (.snapPktFetch k) s = execSnapPktFetch k s := rfl
theorem exec_snapPktCatalogue (k : Nat) : exec (.snapPktCatalogue k) s = execSnapPktCatalogue k s := rfl
theorem exec_snapPairing : exec (.snapPairing) s = execSnapPairing s := rfl
theorem exec_snapTimeout (b : SnapBound) : exec (.snapTimeout b) s = execSnapTimeout b s := rfl
theorem exec_vaultSignDone (c : CtxId) : exec (.vaultSignDone c) s = execVaultSignDone c s := rfl
theorem exec_hostedCompaction (i : BitVec 2) : exec (.hostedCompaction i) s = execHostedCompaction i s := rfl
theorem exec_snapExternalCopy (c : CtxId) : exec (.snapExternalCopy c) s = execSnapExternalCopy c s := rfl
theorem exec_restoreBlock (c : CtxId) (f : StoreFrame) : exec (.restoreBlock c f) s = execRestoreBlock c f s := rfl
theorem exec_snapSchedEnable (c : CtxId) : exec (.snapSchedEnable c) s = execSnapSchedEnable c s := rfl
theorem exec_probeAnswer (u : UnitId) : exec (.probeAnswer u) s = execProbeAnswer u s := rfl
theorem exec_probeTimeout (u : UnitId) : exec (.probeTimeout u) s = execProbeTimeout u s := rfl
theorem exec_quiesceAck (c : CtxId) (u : UnitId) : exec (.quiesceAck c u) s = execQuiesceAck c u s := rfl
theorem exec_purgeBoundExpiry (c : CtxId) : exec (.purgeBoundExpiry c) s = execPurgeBoundExpiry c s := rfl
theorem exec_fenceTimeout (c : CtxId) (u : UnitId) : exec (.fenceTimeout c u) s = execFenceTimeout c u s := rfl
theorem exec_genGapExpiry (c : CtxId) : exec (.genGapExpiry c) s = execGenGapExpiry c s := rfl
theorem exec_rstQuiesceWrite (v : Word) : exec (.rstQuiesceWrite v) s = execRstQuiesceWrite v s := rfl
theorem exec_rstGenGapWrite (v : Word) : exec (.rstGenGapWrite v) s = execRstGenGapWrite v s := rfl
theorem exec_engineResetDone (u : UnitId) : exec (.engineResetDone u) s = execEngineResetDone u s := rfl
theorem exec_engineResetTimeout (u : UnitId) : exec (.engineResetTimeout u) s = execEngineResetTimeout u s := rfl
theorem exec_dieResetDone (d : Nat) : exec (.dieResetDone d) s = execDieResetDone d s := rfl
theorem exec_dieResetTimeout (d : Nat) : exec (.dieResetTimeout d) s = execDieResetTimeout d s := rfl
theorem exec_watchdogExpiry : exec (.watchdogExpiry) s = execWatchdogExpiry s := rfl
theorem exec_lockstepMismatch : exec (.lockstepMismatch) s = execLockstepMismatch s := rfl
theorem exec_carrierReset : exec (.carrierReset) s = execCarrierReset s := rfl
theorem exec_resetNRise : exec (.resetNRise) s = execResetNRise s := rfl
theorem exec_heartbeatSend : exec (.heartbeatSend) s = execHeartbeatSend s := rfl
theorem exec_heartbeat (k : Nat) : exec (.heartbeat k) s = execHeartbeat k s := rfl
theorem exec_peerDead (c : CtxId) (ring : BitVec 3) (m : ModuleNo) : exec (.peerDead c ring m) s = execPeerDead c ring m s := rfl
theorem exec_faultNotice (k : Nat) : exec (.faultNotice k) s = execFaultNotice k s := rfl
theorem exec_deadNotice (k : Nat) : exec (.deadNotice k) s = execDeadNotice k s := rfl
theorem exec_switch (k : Nat) : exec (.switch k) s = execSwitch k s := rfl
theorem exec_switchAck (k : Nat) : exec (.switchAck k) s = execSwitchAck k s := rfl
theorem exec_go (k : Nat) : exec (.go k) s = execGo k s := rfl
theorem exec_bucketCopy (k : Nat) : exec (.bucketCopy k) s = execBucketCopy k s := rfl
theorem exec_join (k : Nat) : exec (.join k) s = execJoin k s := rfl
theorem exec_joinHoldExpiry (c : CtxId) : exec (.joinHoldExpiry c) s = execJoinHoldExpiry c s := rfl
theorem exec_bootStart : exec (.bootStart) s = execBootStart s := rfl
theorem exec_fuse (found : FuseFind) : exec (.fuse found) s = execFuse found s := rfl
theorem exec_fwVerify (sigOk : Bool) : exec (.fwVerify sigOk) s = execFwVerify sigOk s := rfl
theorem exec_cfg (sigOk : Bool) : exec (.cfg sigOk) s = execCfg sigOk s := rfl
theorem exec_train (ok : Bool) : exec (.train ok) s = execTrain ok s := rfl
theorem exec_release : exec (.release) s = execRelease s := rfl
theorem exec_bootCtlEnable : exec (.bootCtlEnable) s = execBootCtlEnable s := rfl
theorem exec_journalReadback (ok : Bool) : exec (.journalReadback ok) s = execJournalReadback ok s := rfl
theorem exec_journalCompact : exec (.journalCompact) s = execJournalCompact s := rfl
theorem exec_journalCompactDone : exec (.journalCompactDone) s = execJournalCompactDone s := rfl
theorem exec_drbgReseed : exec (.drbgReseed) s = execDrbgReseed s := rfl
theorem exec_vaultHealthFail (selftest : Bool) : exec (.vaultHealthFail selftest) s = execVaultHealthFail selftest s := rfl
theorem exec_sample (x : Sample) : exec (.sample x) s = execSample x s := rfl
theorem exec_thermalCompare : exec (.thermalCompare) s = execThermalCompare s := rfl
theorem exec_linkMarginRead (ms : List Margin) : exec (.linkMarginRead ms) s = execLinkMarginRead ms s := rfl
theorem exec_settleExpiry (d : DieId) : exec (.settleExpiry d) s = execSettleExpiry d s := rfl
theorem exec_pwrLevelWindowEnd (d : DieId) (cause : BitVec 2) : exec (.pwrLevelWindowEnd d cause) s = execPwrLevelWindowEnd d cause s := rfl
theorem exec_comparatorTrip (d : Nat) : exec (.comparatorTrip d) s = execComparatorTrip d s := rfl
theorem exec_rootPllUnlock : exec (.rootPllUnlock) s = execRootPllUnlock s := rfl
theorem exec_phyPllUnlock (u : UnitId) : exec (.phyPllUnlock u) s = execPhyPllUnlock u s := rfl
theorem exec_vinLockout (mv : Int) : exec (.vinLockout mv) s = execVinLockout mv s := rfl
theorem exec_vinReturn : exec (.vinReturn) s = execVinReturn s := rfl
theorem exec_vstbyLoss : exec (.vstbyLoss) s = execVstbyLoss s := rfl
theorem exec_refclkLoss : exec (.refclkLoss) s = execRefclkLoss s := rfl
theorem exec_refclkReturn : exec (.refclkReturn) s = execRefclkReturn s := rfl
theorem exec_coreGate (g : CoreId) : exec (.coreGate g) s = execCoreGate g s := rfl
theorem exec_quadGate (q : QuadId) : exec (.quadGate q) s = execQuadGate q s := rfl
theorem exec_hubEngineGate (h : Fin 2) : exec (.hubEngineGate h) s = execHubEngineGate h s := rfl
theorem exec_registerWrite (addr : Word) (v : Word) (bytes : Nat) : exec (.registerWrite addr v bytes) s = execRegisterWrite addr v bytes s := rfl
theorem exec_illegalOpcode (th : ThreadId) (word : BitVec 32) : exec (.illegalOpcode th word) s = execIllegalOpcode th word s := rfl
theorem exec_externalStoreAck (a : StoreAck) : exec (.externalStoreAck a) s = execExternalStoreAck a s := rfl
theorem exec_switchoverBoundExpiry (c : CtxId) (ring : BitVec 3) : exec (.switchoverBoundExpiry c ring) s = execSwitchoverBoundExpiry c ring s := rfl
theorem exec_vstbyReturn : exec (.vstbyReturn) s = execVstbyReturn s := rfl
theorem exec_hostedCompactionEnd (i : BitVec 2) : exec (.hostedCompactionEnd i) s = execHostedCompactionEnd i s := rfl

end Sys2Proof.Machine
end

