-- ==== Sys2Proof/Laws/Records.lean ====
section
/-!
SUPPORT. What writing an event record leaves as it is: a record touches the log, the sessions that wait for events, and the
fault history with its journal; nothing else (R17, R369, R431).
-/

namespace Sys2Proof.Machine

variable (s : State)

/-- Everything that one record changes. -/
theorem State.fhAppend_frame (idx : Nat) (e : EventRec) :
    ∃ r n, s.fhAppend idx e = { s with rst := r, nvm := n } := by
  unfold State.fhAppend State.journal
  dsimp only
  split_ifs <;> exact ⟨_, _, rfl⟩

theorem State.record_frame (r : Rec) :
    ∃ l g x n, s.record r = { s with log := l, gate := g, rst := x, nvm := n } := by
  unfold State.record
  dsimp only
  obtain ⟨x, n, h⟩ := State.fhAppend_frame { s with log := _, gate := _ } s.log.next _
  exact ⟨_, _, x, n, h⟩

theorem State.coreRecord_frame (th : ThreadId) (code : Reason) (sev : Byte) (obj : BitVec 32) (d : BitVec 192) :
    ∃ l g x n, s.coreRecord th code sev obj d = { s with log := l, gate := g, rst := x, nvm := n } :=
  s.record_frame _

@[simp] theorem State.record_pending (r : Rec) : (s.record r).pending = s.pending := by
  obtain ⟨_, _, _, _, h⟩ := s.record_frame _; rw [h]
@[simp] theorem State.record_freeCtr (r : Rec) : (s.record r).freeCtr = s.freeCtr := by
  obtain ⟨_, _, _, _, h⟩ := s.record_frame _; rw [h]
@[simp] theorem State.record_clk (r : Rec) : (s.record r).clk = s.clk := by
  obtain ⟨_, _, _, _, h⟩ := s.record_frame _; rw [h]
@[simp] theorem State.record_stampBase (r : Rec) : (s.record r).stampBase = s.stampBase := by
  obtain ⟨_, _, _, _, h⟩ := s.record_frame _; rw [h]
@[simp] theorem State.record_out (r : Rec) : (s.record r).out = s.out := by
  obtain ⟨_, _, _, _, h⟩ := s.record_frame _; rw [h]
@[simp] theorem State.record_threads (r : Rec) : (s.record r).threads = s.threads := by
  obtain ⟨_, _, _, _, h⟩ := s.record_frame _; rw [h]
@[simp] theorem State.record_cores (r : Rec) : (s.record r).cores = s.cores := by
  obtain ⟨_, _, _, _, h⟩ := s.record_frame _; rw [h]
@[simp] theorem State.record_quadOwner (r : Rec) : (s.record r).quadOwner = s.quadOwner := by
  obtain ⟨_, _, _, _, h⟩ := s.record_frame _; rw [h]
@[simp] theorem State.record_mem (r : Rec) : (s.record r).mem = s.mem := by
  obtain ⟨_, _, _, _, h⟩ := s.record_frame _; rw [h]
@[simp] theorem State.record_poison (r : Rec) : (s.record r).poison = s.poison := by
  obtain ⟨_, _, _, _, h⟩ := s.record_frame _; rw [h]
@[simp] theorem State.record_cfrac (r : Rec) : (s.record r).cfrac = s.cfrac := by
  obtain ⟨_, _, _, _, h⟩ := s.record_frame _; rw [h]
@[simp] theorem State.record_dies (r : Rec) : (s.record r).dies = s.dies := by
  obtain ⟨_, _, _, _, h⟩ := s.record_frame _; rw [h]
@[simp] theorem State.record_grans (r : Rec) : (s.record r).grans = s.grans := by
  obtain ⟨_, _, _, _, h⟩ := s.record_frame _; rw [h]
@[simp] theorem State.record_sync (r : Rec) : (s.record r).sync = s.sync := by
  obtain ⟨_, _, _, _, h⟩ := s.record_frame _; rw [h]
@[simp] theorem State.record_ctxs (r : Rec) : (s.record r).ctxs = s.ctxs := by
  obtain ⟨_, _, _, _, h⟩ := s.record_frame _; rw [h]
@[simp] theorem State.record_seqr (r : Rec) : (s.record r).seqr = s.seqr := by
  obtain ⟨_, _, _, _, h⟩ := s.record_frame _; rw [h]
@[simp] theorem State.record_fab (r : Rec) : (s.record r).fab = s.fab := by
  obtain ⟨_, _, _, _, h⟩ := s.record_frame _; rw [h]
@[simp] theorem State.record_strm (r : Rec) : (s.record r).strm = s.strm := by
  obtain ⟨_, _, _, _, h⟩ := s.record_frame _; rw [h]
@[simp] theorem State.record_red (r : Rec) : (s.record r).red = s.red := by
  obtain ⟨_, _, _, _, h⟩ := s.record_frame _; rw [h]
@[simp] theorem State.record_harv (r : Rec) : (s.record r).harv = s.harv := by
  obtain ⟨_, _, _, _, h⟩ := s.record_frame _; rw [h]
@[simp] theorem State.record_written (r : Rec) : (s.record r).written = s.written := by
  obtain ⟨_, _, _, _, h⟩ := s.record_frame _; rw [h]
@[simp] theorem State.record_fuses (r : Rec) : (s.record r).fuses = s.fuses := by
  obtain ⟨_, _, _, _, h⟩ := s.record_frame _; rw [h]
@[simp] theorem State.record_boot (r : Rec) : (s.record r).boot = s.boot := by
  obtain ⟨_, _, _, _, h⟩ := s.record_frame _; rw [h]
@[simp] theorem State.record_vault (r : Rec) : (s.record r).vault = s.vault := by
  obtain ⟨_, _, _, _, h⟩ := s.record_frame _; rw [h]
@[simp] theorem State.record_pwr (r : Rec) : (s.record r).pwr = s.pwr := by
  obtain ⟨_, _, _, _, h⟩ := s.record_frame _; rw [h]
@[simp] theorem State.record_car (r : Rec) : (s.record r).car = s.car := by
  obtain ⟨_, _, _, _, h⟩ := s.record_frame _; rw [h]
@[simp] theorem State.record_thr (r : Rec) (th' : ThreadId) :
    (s.record r).thr th' = s.thr th' := by
  obtain ⟨_, _, _, _, h⟩ := s.record_frame _; rw [h]; rfl
@[simp] theorem State.record_core (r : Rec) (g : Nat) :
    (s.record r).core g = s.core g := by
  obtain ⟨_, _, _, _, h⟩ := s.record_frame _; rw [h]; rfl
@[simp] theorem State.record_ctx (r : Rec) (c : CtxId) :
    (s.record r).ctx c = s.ctx c := by
  obtain ⟨_, _, _, _, h⟩ := s.record_frame _; rw [h]; rfl
@[simp] theorem State.record_thCtx (r : Rec) (th' : ThreadId) :
    (s.record r).thCtx th' = s.thCtx th' := by
  obtain ⟨_, _, _, _, h⟩ := s.record_frame _; rw [h]; rfl
@[simp] theorem State.record_chan (r : Rec) (a b : Nat) :
    (s.record r).chan a b = s.chan a b := by
  obtain ⟨_, _, _, _, h⟩ := s.record_frame _; rw [h]; rfl
@[simp] theorem State.record_tally (r : Rec) (i : Nat) :
    (s.record r).tally i = s.tally i := by
  obtain ⟨_, _, _, _, h⟩ := s.record_frame _; rw [h]; rfl
@[simp] theorem State.record_bell (r : Rec) (j : Nat) :
    (s.record r).bell j = s.bell j := by
  obtain ⟨_, _, _, _, h⟩ := s.record_frame _; rw [h]; rfl
@[simp] theorem State.record_port (r : Rec) (p : Nat) :
    (s.record r).port p = s.port p := by
  obtain ⟨_, _, _, _, h⟩ := s.record_frame _; rw [h]; rfl
@[simp] theorem State.record_gran (r : Rec) (n : Nat) :
    (s.record r).gran n = s.gran n := by
  obtain ⟨_, _, _, _, h⟩ := s.record_frame _; rw [h]; rfl
@[simp] theorem State.record_redEng (r : Rec) (e : Nat) :
    (s.record r).redEng e = s.redEng e := by
  obtain ⟨_, _, _, _, h⟩ := s.record_frame _; rw [h]; rfl

@[simp] theorem State.coreRecord_pending (th : ThreadId) (code : Reason) (sev : Byte) (obj : BitVec 32) (d : BitVec 192) : (s.coreRecord th code sev obj d).pending = s.pending := by
  obtain ⟨_, _, _, _, h⟩ := s.coreRecord_frame _ _ _ _ _; rw [h]
@[simp] theorem State.coreRecord_freeCtr (th : ThreadId) (code : Reason) (sev : Byte) (obj : BitVec 32) (d : BitVec 192) : (s.coreRecord th code sev obj d).freeCtr = s.freeCtr := by
  obtain ⟨_, _, _, _, h⟩ := s.coreRecord_frame _ _ _ _ _; rw [h]
@[simp] theorem State.coreRecord_clk (th : ThreadId) (code : Reason) (sev : Byte) (obj : BitVec 32) (d : BitVec 192) : (s.coreRecord th code sev obj d).clk = s.clk := by
  obtain ⟨_, _, _, _, h⟩ := s.coreRecord_frame _ _ _ _ _; rw [h]
@[simp] theorem State.coreRecord_stampBase (th : ThreadId) (code : Reason) (sev : Byte) (obj : BitVec 32) (d : BitVec 192) : (s.coreRecord th code sev obj d).stampBase = s.stampBase := by
  obtain ⟨_, _, _, _, h⟩ := s.coreRecord_frame _ _ _ _ _; rw [h]
@[simp] theorem State.coreRecord_out (th : ThreadId) (code : Reason) (sev : Byte) (obj : BitVec 32) (d : BitVec 192) : (s.coreRecord th code sev obj d).out = s.out := by
  obtain ⟨_, _, _, _, h⟩ := s.coreRecord_frame _ _ _ _ _; rw [h]
@[simp] theorem State.coreRecord_threads (th : ThreadId) (code : Reason) (sev : Byte) (obj : BitVec 32) (d : BitVec 192) : (s.coreRecord th code sev obj d).threads = s.threads := by
  obtain ⟨_, _, _, _, h⟩ := s.coreRecord_frame _ _ _ _ _; rw [h]
@[simp] theorem State.coreRecord_cores (th : ThreadId) (code : Reason) (sev : Byte) (obj : BitVec 32) (d : BitVec 192) : (s.coreRecord th code sev obj d).cores = s.cores := by
  obtain ⟨_, _, _, _, h⟩ := s.coreRecord_frame _ _ _ _ _; rw [h]
@[simp] theorem State.coreRecord_quadOwner (th : ThreadId) (code : Reason) (sev : Byte) (obj : BitVec 32) (d : BitVec 192) : (s.coreRecord th code sev obj d).quadOwner = s.quadOwner := by
  obtain ⟨_, _, _, _, h⟩ := s.coreRecord_frame _ _ _ _ _; rw [h]
@[simp] theorem State.coreRecord_mem (th : ThreadId) (code : Reason) (sev : Byte) (obj : BitVec 32) (d : BitVec 192) : (s.coreRecord th code sev obj d).mem = s.mem := by
  obtain ⟨_, _, _, _, h⟩ := s.coreRecord_frame _ _ _ _ _; rw [h]
@[simp] theorem State.coreRecord_poison (th : ThreadId) (code : Reason) (sev : Byte) (obj : BitVec 32) (d : BitVec 192) : (s.coreRecord th code sev obj d).poison = s.poison := by
  obtain ⟨_, _, _, _, h⟩ := s.coreRecord_frame _ _ _ _ _; rw [h]
@[simp] theorem State.coreRecord_cfrac (th : ThreadId) (code : Reason) (sev : Byte) (obj : BitVec 32) (d : BitVec 192) : (s.coreRecord th code sev obj d).cfrac = s.cfrac := by
  obtain ⟨_, _, _, _, h⟩ := s.coreRecord_frame _ _ _ _ _; rw [h]
@[simp] theorem State.coreRecord_dies (th : ThreadId) (code : Reason) (sev : Byte) (obj : BitVec 32) (d : BitVec 192) : (s.coreRecord th code sev obj d).dies = s.dies := by
  obtain ⟨_, _, _, _, h⟩ := s.coreRecord_frame _ _ _ _ _; rw [h]
@[simp] theorem State.coreRecord_grans (th : ThreadId) (code : Reason) (sev : Byte) (obj : BitVec 32) (d : BitVec 192) : (s.coreRecord th code sev obj d).grans = s.grans := by
  obtain ⟨_, _, _, _, h⟩ := s.coreRecord_frame _ _ _ _ _; rw [h]
@[simp] theorem State.coreRecord_sync (th : ThreadId) (code : Reason) (sev : Byte) (obj : BitVec 32) (d : BitVec 192) : (s.coreRecord th code sev obj d).sync = s.sync := by
  obtain ⟨_, _, _, _, h⟩ := s.coreRecord_frame _ _ _ _ _; rw [h]
@[simp] theorem State.coreRecord_ctxs (th : ThreadId) (code : Reason) (sev : Byte) (obj : BitVec 32) (d : BitVec 192) : (s.coreRecord th code sev obj d).ctxs = s.ctxs := by
  obtain ⟨_, _, _, _, h⟩ := s.coreRecord_frame _ _ _ _ _; rw [h]
@[simp] theorem State.coreRecord_seqr (th : ThreadId) (code : Reason) (sev : Byte) (obj : BitVec 32) (d : BitVec 192) : (s.coreRecord th code sev obj d).seqr = s.seqr := by
  obtain ⟨_, _, _, _, h⟩ := s.coreRecord_frame _ _ _ _ _; rw [h]
@[simp] theorem State.coreRecord_fab (th : ThreadId) (code : Reason) (sev : Byte) (obj : BitVec 32) (d : BitVec 192) : (s.coreRecord th code sev obj d).fab = s.fab := by
  obtain ⟨_, _, _, _, h⟩ := s.coreRecord_frame _ _ _ _ _; rw [h]
@[simp] theorem State.coreRecord_strm (th : ThreadId) (code : Reason) (sev : Byte) (obj : BitVec 32) (d : BitVec 192) : (s.coreRecord th code sev obj d).strm = s.strm := by
  obtain ⟨_, _, _, _, h⟩ := s.coreRecord_frame _ _ _ _ _; rw [h]
@[simp] theorem State.coreRecord_red (th : ThreadId) (code : Reason) (sev : Byte) (obj : BitVec 32) (d : BitVec 192) : (s.coreRecord th code sev obj d).red = s.red := by
  obtain ⟨_, _, _, _, h⟩ := s.coreRecord_frame _ _ _ _ _; rw [h]
@[simp] theorem State.coreRecord_harv (th : ThreadId) (code : Reason) (sev : Byte) (obj : BitVec 32) (d : BitVec 192) : (s.coreRecord th code sev obj d).harv = s.harv := by
  obtain ⟨_, _, _, _, h⟩ := s.coreRecord_frame _ _ _ _ _; rw [h]
@[simp] theorem State.coreRecord_written (th : ThreadId) (code : Reason) (sev : Byte) (obj : BitVec 32) (d : BitVec 192) : (s.coreRecord th code sev obj d).written = s.written := by
  obtain ⟨_, _, _, _, h⟩ := s.coreRecord_frame _ _ _ _ _; rw [h]
@[simp] theorem State.coreRecord_fuses (th : ThreadId) (code : Reason) (sev : Byte) (obj : BitVec 32) (d : BitVec 192) : (s.coreRecord th code sev obj d).fuses = s.fuses := by
  obtain ⟨_, _, _, _, h⟩ := s.coreRecord_frame _ _ _ _ _; rw [h]
@[simp] theorem State.coreRecord_boot (th : ThreadId) (code : Reason) (sev : Byte) (obj : BitVec 32) (d : BitVec 192) : (s.coreRecord th code sev obj d).boot = s.boot := by
  obtain ⟨_, _, _, _, h⟩ := s.coreRecord_frame _ _ _ _ _; rw [h]
@[simp] theorem State.coreRecord_vault (th : ThreadId) (code : Reason) (sev : Byte) (obj : BitVec 32) (d : BitVec 192) : (s.coreRecord th code sev obj d).vault = s.vault := by
  obtain ⟨_, _, _, _, h⟩ := s.coreRecord_frame _ _ _ _ _; rw [h]
@[simp] theorem State.coreRecord_pwr (th : ThreadId) (code : Reason) (sev : Byte) (obj : BitVec 32) (d : BitVec 192) : (s.coreRecord th code sev obj d).pwr = s.pwr := by
  obtain ⟨_, _, _, _, h⟩ := s.coreRecord_frame _ _ _ _ _; rw [h]
@[simp] theorem State.coreRecord_car (th : ThreadId) (code : Reason) (sev : Byte) (obj : BitVec 32) (d : BitVec 192) : (s.coreRecord th code sev obj d).car = s.car := by
  obtain ⟨_, _, _, _, h⟩ := s.coreRecord_frame _ _ _ _ _; rw [h]
@[simp] theorem State.coreRecord_thr (th : ThreadId) (code : Reason) (sev : Byte) (obj : BitVec 32) (d : BitVec 192) (th' : ThreadId) :
    (s.coreRecord th code sev obj d).thr th' = s.thr th' := by
  obtain ⟨_, _, _, _, h⟩ := s.coreRecord_frame _ _ _ _ _; rw [h]; rfl
@[simp] theorem State.coreRecord_core (th : ThreadId) (code : Reason) (sev : Byte) (obj : BitVec 32) (d : BitVec 192) (g : Nat) :
    (s.coreRecord th code sev obj d).core g = s.core g := by
  obtain ⟨_, _, _, _, h⟩ := s.coreRecord_frame _ _ _ _ _; rw [h]; rfl
@[simp] theorem State.coreRecord_ctx (th : ThreadId) (code : Reason) (sev : Byte) (obj : BitVec 32) (d : BitVec 192) (c : CtxId) :
    (s.coreRecord th code sev obj d).ctx c = s.ctx c := by
  obtain ⟨_, _, _, _, h⟩ := s.coreRecord_frame _ _ _ _ _; rw [h]; rfl
@[simp] theorem State.coreRecord_thCtx (th : ThreadId) (code : Reason) (sev : Byte) (obj : BitVec 32) (d : BitVec 192) (th' : ThreadId) :
    (s.coreRecord th code sev obj d).thCtx th' = s.thCtx th' := by
  obtain ⟨_, _, _, _, h⟩ := s.coreRecord_frame _ _ _ _ _; rw [h]; rfl
@[simp] theorem State.coreRecord_chan (th : ThreadId) (code : Reason) (sev : Byte) (obj : BitVec 32) (d : BitVec 192) (a b : Nat) :
    (s.coreRecord th code sev obj d).chan a b = s.chan a b := by
  obtain ⟨_, _, _, _, h⟩ := s.coreRecord_frame _ _ _ _ _; rw [h]; rfl
@[simp] theorem State.coreRecord_tally (th : ThreadId) (code : Reason) (sev : Byte) (obj : BitVec 32) (d : BitVec 192) (i : Nat) :
    (s.coreRecord th code sev obj d).tally i = s.tally i := by
  obtain ⟨_, _, _, _, h⟩ := s.coreRecord_frame _ _ _ _ _; rw [h]; rfl
@[simp] theorem State.coreRecord_bell (th : ThreadId) (code : Reason) (sev : Byte) (obj : BitVec 32) (d : BitVec 192) (j : Nat) :
    (s.coreRecord th code sev obj d).bell j = s.bell j := by
  obtain ⟨_, _, _, _, h⟩ := s.coreRecord_frame _ _ _ _ _; rw [h]; rfl
@[simp] theorem State.coreRecord_port (th : ThreadId) (code : Reason) (sev : Byte) (obj : BitVec 32) (d : BitVec 192) (p : Nat) :
    (s.coreRecord th code sev obj d).port p = s.port p := by
  obtain ⟨_, _, _, _, h⟩ := s.coreRecord_frame _ _ _ _ _; rw [h]; rfl
@[simp] theorem State.coreRecord_gran (th : ThreadId) (code : Reason) (sev : Byte) (obj : BitVec 32) (d : BitVec 192) (n : Nat) :
    (s.coreRecord th code sev obj d).gran n = s.gran n := by
  obtain ⟨_, _, _, _, h⟩ := s.coreRecord_frame _ _ _ _ _; rw [h]; rfl
@[simp] theorem State.coreRecord_redEng (th : ThreadId) (code : Reason) (sev : Byte) (obj : BitVec 32) (d : BitVec 192) (e : Nat) :
    (s.coreRecord th code sev obj d).redEng e = s.redEng e := by
  obtain ⟨_, _, _, _, h⟩ := s.coreRecord_frame _ _ _ _ _; rw [h]; rfl

end Sys2Proof.Machine
end

