-- ==== Sys2Proof/Laws/Thread.lean ====
section
/-!
SUPPORT. What the shared operations of a thread do: issue, arrival at an instruction, retirement.
-/

namespace Sys2Proof.Machine

/-- An instruction issues where the thread may issue and its registers are free. -/
theorem issueWith_issues (s : State) (th : ThreadId) (regs : List Reg) (act : State → State) (h : s.issues th regs) :
    issueWith s th regs act = .next (act (s.noted th)) := by
  obtain ⟨h1, h2⟩ := h
  have h3 : (regs.all fun r => !(s.thr th).xBusy r) = true := by
    simp only [List.all_eq_true, Bool.not_eq_true']; exact h2
  simp [issueWith, h1, h3, State.noted, State.setCore, State.core, smod]

theorem canIssue_spec (s : State) (th : ThreadId) (h : s.canIssue th = true) :
    (s.thr th).st = .ready ∧ (s.thr th).pauseReq = false ∧ (s.thr th).stopReq = false ∧ (s.thr th).asyncDue = false ∧
      (s.thr th).interrupt = none ∧ ∃ c, s.thCtx th = some c ∧ s.ctxRuns c = true := by
  simp only [State.canIssue, Bool.and_eq_true, beq_iff_eq, Bool.not_eq_true', Option.isNone_iff_eq_none] at h
  obtain ⟨⟨⟨⟨⟨h1, h2⟩, h3⟩, h4⟩, h5⟩, h6⟩ := h
  refine ⟨h1, h2, h3, h4, h5, ?_⟩
  cases hc : s.thCtx th with
  | none => simp [hc] at h6
  | some c => exact ⟨c, rfl, by simpa [hc] using h6⟩

@[simp] theorem noted_thr (s : State) (th th' : ThreadId) : (s.noted th).thr th' = s.thr th' := rfl
@[simp] theorem noted_thCtx (s : State) (th th' : ThreadId) : (s.noted th).thCtx th' = s.thCtx th' := rfl
@[simp] theorem noted_ctx (s : State) (th : ThreadId) (c : CtxId) : (s.noted th).ctx c = s.ctx c := rfl
@[simp] theorem noted_fetchable (s : State) (th : ThreadId) (c : CtxId) (pc : Word) :
    (s.noted th).fetchable c pc = s.fetchable c pc := rfl
@[simp] theorem noted_window (s : State) (th : ThreadId) (c : CtxId) (va : Word) :
    (s.noted th).window c va = s.window c va := rfl
@[simp] theorem setThr_fetchable (s : State) (th : ThreadId) (t : Thread) (c : CtxId) (pc : Word) :
    (s.setThr th t).fetchable c pc = s.fetchable c pc := rfl
@[simp] theorem setThr_lineHeld (s : State) (th th' : ThreadId) (t : Thread) (pc : Word) :
    (s.setThr th t).lineHeld th' pc = s.lineHeld th' pc := rfl
@[simp] theorem noted_lineHeld (s : State) (th : ThreadId) (pc : Word) : (s.noted th).lineHeld th pc = s.lineHeld th pc := by
  simp [State.noted, State.lineHeld, State.core]

/-- With no order to pause or halt, an instruction boundary changes nothing. -/
theorem settle_idle (s : State) (th : ThreadId) (h1 : (s.thr th).pauseReq = false) (h2 : (s.thr th).stopReq = false) :
    s.settle th = s := by
  simp [State.settle, h1, h2]

/-- Arrival at an instruction whose line is at hand, with no order to pause or halt: READY there. -/
theorem fetchHere_held (s : State) (th : ThreadId) (c : CtxId) (hc : s.thCtx th = some c)
    (h : s.fetchCheck th c (s.thr th).pc = .held false) (h1 : (s.thr th).pauseReq = false) (h2 : (s.thr th).stopReq = false) :
    s.fetchHere th = s.setThr th { s.thr th with st := .ready, why := .none } := by
  simp only [State.fetchHere, hc, h, State.fetchNext, State.modThr_eq, Bool.false_eq_true, if_false]
  rw [settle_idle _ _ (by simpa using h1) (by simpa using h2)]

/-- Retirement is the count and the arrival at the next instruction. -/
theorem retireTo_goesTo (s : State) (th : ThreadId) (pc : Word) : s.retireTo th pc = s.goesTo th (s.thr th).counted pc := rfl

/-- What retirement leaves after an issued instruction has changed its thread to t. -/
theorem noted_retireTo (s : State) (th : ThreadId) (t : Thread) (pc : Word) :
    ((s.noted th).setThr th t).retireTo th pc = s.retires th t pc := by
  simp [retireTo_goesTo, State.retires, State.goesTo]

end Sys2Proof.Machine
end

