-- ==== Sys2Proof/Laws/Instr.lean ====
section
/-!
SUPPORT. What the shared shapes of the base instructions do: the registers, taking an exception, a result written to one
register, a branch.
-/

namespace Sys2Proof.Machine

/-! ### General registers (R38) -/

@[simp] theorem Thread.xr_zero (t : Thread) : t.xr 0 = 0 := rfl

theorem Thread.setX_xr (t : Thread) (rd : Reg) (v : Word) (r : Reg) :
    (t.setX rd v).xr r = if r = rd ∧ rd ≠ 0 then v else t.xr r := by
  have z : (0 : Reg) = 0#5 := rfl
  unfold Thread.setX Thread.xr
  rw [z]
  by_cases h : rd = 0#5 <;> by_cases hr : r = 0#5 <;> by_cases e : r = rd <;>
    simp_all [sget_sset, BitVec.toNat_inj]

/-- Writing a general register changes nothing of the thread but its X registers. -/
theorem Thread.setX_frame (t : Thread) (rd : Reg) (v : Word) : ∃ x, t.setX rd v = { t with x := x } := by
  unfold Thread.setX; split <;> exact ⟨_, rfl⟩

@[simp] theorem Thread.setX_pauseReq (t : Thread) (rd : Reg) (v : Word) : (t.setX rd v).pauseReq = t.pauseReq := by
  obtain ⟨x, h⟩ := t.setX_frame rd v; rw [h]
@[simp] theorem Thread.setX_stopReq (t : Thread) (rd : Reg) (v : Word) : (t.setX rd v).stopReq = t.stopReq := by
  obtain ⟨x, h⟩ := t.setX_frame rd v; rw [h]
@[simp] theorem Thread.setX_pc (t : Thread) (rd : Reg) (v : Word) : (t.setX rd v).pc = t.pc := by
  obtain ⟨x, h⟩ := t.setX_frame rd v; rw [h]
@[simp] theorem Thread.setX_csr (t : Thread) (rd : Reg) (v : Word) : (t.setX rd v).csr = t.csr := by
  obtain ⟨x, h⟩ := t.setX_frame rd v; rw [h]
@[simp] theorem Thread.setX_tile (t : Thread) (rd : Reg) (v : Word) : (t.setX rd v).tile = t.tile := by
  obtain ⟨x, h⟩ := t.setX_frame rd v; rw [h]
@[simp] theorem Thread.setX_vec (t : Thread) (rd : Reg) (v : Word) : (t.setX rd v).vec = t.vec := by
  obtain ⟨x, h⟩ := t.setX_frame rd v; rw [h]
@[simp] theorem Thread.setX_st (t : Thread) (rd : Reg) (v : Word) : (t.setX rd v).st = t.st := by
  obtain ⟨x, h⟩ := t.setX_frame rd v; rw [h]

/-! ### Results -/

/-- An instruction that has issued, writes v to rd and retires. -/
theorem write1_spec (s : State) (th : ThreadId) (rd : Reg) (v : Word) :
    (s.noted th).write1 th rd v = s.retires th ((s.thr th).setX rd v) ((s.thr th).pc + 4) := by
  unfold State.write1 State.setX State.retire
  simp only [State.modThr_eq, State.setThr_thr, Thread.setX_pc, noted_thr]
  exact noted_retireTo s th _ _

theorem alu2_spec (s : State) (th : ThreadId) (rd a b : Reg) (f : Word → Word → Word) (h : s.issues th [rd, a, b]) :
    alu2 th rd a b f s =
      .next (s.retires th ((s.thr th).setX rd (f ((s.thr th).xr a) ((s.thr th).xr b))) ((s.thr th).pc + 4)) := by
  unfold alu2
  rw [issueWith_issues _ _ _ _ h, noted_thr, write1_spec]

theorem alu1_spec (s : State) (th : ThreadId) (rd a : Reg) (f : Word → Word) (h : s.issues th [rd, a]) :
    alu1 th rd a f s = .next (s.retires th ((s.thr th).setX rd (f ((s.thr th).xr a))) ((s.thr th).pc + 4)) := by
  unfold alu1
  rw [issueWith_issues _ _ _ _ h, noted_thr, write1_spec]

theorem divide_spec (s : State) (th : ThreadId) (rd a b : Reg) (f : Word → Word → Word) (h : s.issues th [rd, a, b])
    (hy : (s.thr th).xr b ≠ 0) :
    divide th rd a b f s =
      .next (s.retires th ((s.thr th).setX rd (f ((s.thr th).xr a) ((s.thr th).xr b))) ((s.thr th).pc + 4)) := by
  unfold divide
  rw [issueWith_issues _ _ _ _ h]
  simp only [noted_thr, hy, if_false]
  rw [write1_spec]

theorem branch_spec (s : State) (th : ThreadId) (a b : Reg) (off : BitVec 16) (p : Word → Word → Bool)
    (h : s.issues th [a, b]) :
    branch th a b off p s = .next (s.retires th (s.thr th)
      (if p ((s.thr th).xr a) ((s.thr th).xr b) then branchTo (s.thr th).pc off else (s.thr th).pc + 4)) := by
  unfold branch
  rw [issueWith_issues _ _ _ _ h]
  simp only [noted_thr]
  rfl

/-! ### Exceptions (R55, R56) -/

/-- A thread whose handler may take it enters it. -/
theorem take_handles (s : State) (th : ThreadId) (c : Cause) (reason : Reason) (tval : Word) (intr : Bool)
    (h : s.handles th) : s.take th c reason tval intr = s.enters th (causeWord c reason intr) tval := by
  obtain ⟨_, hi, ht⟩ := h
  have e1 : (s.thr th).inexc = false := hi
  have e2 : ((s.thr th).csr.tvec == 0) = false := by simpa using ht
  have e3 : statusEnter (s.thr th).csr.status =
      ((s.thr th).csr.status &&& 0b100000) ||| 0b010001 ||| (((s.thr th).csr.status &&& 0b000011) <<< 2) := by
    generalize (s.thr th).csr.status = x
    revert x; decide
  have e4 : ∀ t, ((s.leaveSlots th).setThr th t).thCtx th = s.thCtx th := fun _ => rfl
  simp only [State.take, e1, e2, Bool.or_self, Bool.false_eq_true, if_false, e4, State.enters]
  rw [e3]
  rfl

theorem coreRecord_handles (s : State) (th : ThreadId) (code : Reason) (sev : Byte) (obj : BitVec 32) (d : BitVec 192)
    (h : s.handles th) : (s.coreRecord th code sev obj d).handles th := by
  obtain ⟨hf, hi, ht⟩ := h
  exact ⟨by simpa using hf, by simpa using hi, by simpa using ht⟩

theorem fhAppend_setThr (s : State) (th : ThreadId) (t : Thread) (i : Nat) (e : EventRec) :
    (s.setThr th t).fhAppend i e = (s.fhAppend i e).setThr th t := by
  unfold State.fhAppend State.setThr State.journal
  dsimp only
  by_cases h1 : (e.severity.toNat ≥ 3 || e.code.toNat / 256 == 0x0B) = true
  · simp only [h1, if_true]; repeat' (first | rfl | split)
  · simp only [h1, Bool.false_eq_true, if_false]

/-- A record does not look at the threads. -/
theorem coreRecord_setThr (s : State) (th th' : ThreadId) (t : Thread) (code : Reason) (sev : Byte) (obj : BitVec 32)
    (d : BitVec 192) : (s.setThr th' t).coreRecord th code sev obj d = (s.coreRecord th code sev obj d).setThr th' t := by
  unfold State.coreRecord State.record
  dsimp only
  refine Eq.trans ?_ (fhAppend_setThr _ _ _ _ _)
  rfl

theorem handles_pend (s : State) (th : ThreadId) (h : s.handles th) :
    (s.setThr th { s.thr th with pend := none }).handles th := by
  simpa [State.handles, Thread.flying] using h

/-- The handler's entry looks at the thread's registers, not at what it had pending. -/
theorem enters_pend (s : State) (th : ThreadId) (cause tval : Word) :
    (s.setThr th { s.thr th with pend := none }).enters th cause tval = s.enters th cause tval := by
  have e : ((s.setThr th { s.thr th with pend := none }).leaveSlots th).setThr th
      (({ s.thr th with pend := none } : Thread).entered cause tval) =
      (s.leaveSlots th).setThr th ((s.thr th).entered cause tval) := by
    simp [State.leaveSlots, State.setThr, State.setCore, State.core, Thread.entered, Thread.at_]
  simp only [State.enters, State.setThr_thr, State.setThr_thCtx, e]

/-- An exception that writes a record: the record, then the handler. -/
theorem raise_handles (s : State) (th : ThreadId) (c : Cause) (reason : Reason) (tval : Word) (obj : BitVec 32)
    (extra : BitVec 192) (h : s.handles th) :
    s.raise th c reason tval true obj extra =
      (s.coreRecord th reason 0x02 obj (coreDetail tval (s.thr th).pc ||| extra)).enters th
        (causeWord c reason false) tval := by
  simp only [State.raise, State.raiseExc, State.fire, h.1, Bool.false_eq_true, if_false, if_true, State.modThr_eq,
    List.foldl_nil, State.setThr_thr]
  rw [take_handles _ th _ _ _ _ (coreRecord_handles _ _ _ _ _ _ (handles_pend s th h)), coreRecord_setThr]
  have e : s.thr th = (s.coreRecord th reason 0x02 obj (coreDetail tval (s.thr th).pc ||| extra)).thr th := by simp
  rw [show ({ s.thr th with pend := none } : Thread) =
    { (s.coreRecord th reason 0x02 obj (coreDetail tval (s.thr th).pc ||| extra)).thr th with pend := none } by rw [← e]]
  exact enters_pend _ _ _ _

/-- An exception without a record of its own: the handler. -/
theorem raise_handles_bare (s : State) (th : ThreadId) (c : Cause) (reason : Reason) (tval : Word)
    (obj : BitVec 32) (extra : BitVec 192) (h : s.handles th) :
    s.raise th c reason tval false obj extra = s.enters th (causeWord c reason false) tval := by
  simp only [State.raise, State.raiseExc, State.fire, h.1, Bool.false_eq_true, if_false, State.modThr_eq, List.foldl_nil]
  rw [take_handles _ th _ _ _ _ (handles_pend s th h)]
  exact enters_pend _ _ _ _

end Sys2Proof.Machine
end

