-- ==== Sys2Proof/Laws/Memory.lean ====
section
/-!
SUPPORT. What the operations over memory do: every one keeps the canonical form, writes the bytes it names and no other,
and leaves the rest of the state but the bookkeeping of written blocks and poison marks.
-/

namespace Sys2Proof.Machine

/-! ### Canonical form -/

theorem reset_mem_wf : Memory.wf State.reset.mem = true := rfl

theorem State.poke_mem_wf (s : State) (l : Nat) (bs : List Byte) (h : Memory.wf s.mem = true) :
    Memory.wf (s.poke l bs).mem = true := memWrite_wf l bs s.mem h

theorem State.pokeCells_mem_wf (s : State) (cs : List (Nat × Byte)) (h : Memory.wf s.mem = true) :
    Memory.wf (s.pokeCells cs).mem = true := memCells_wf cs s.mem h

theorem State.wipe_mem_wf (s : State) (l n : Nat) (h : Memory.wf s.mem = true) : Memory.wf (s.wipe l n).mem = true :=
  memClear_wf l n s.mem h

theorem State.place_mem_wf (s : State) (img : CtxImage) (h : Memory.wf s.mem = true) :
    Memory.wf (s.place img).mem = true := by
  unfold State.place
  dsimp only
  exact foldl_keeps (Memory.wf ·.mem = true) (fun t _ => t.pokeCells_mem_wf _) _
    (foldl_keeps (Memory.wf ·.mem = true) (fun t (r : Nat × Nat) => t.wipe_mem_wf r.1 r.2) _ (s.dropLines_mem_wf _ _ h))

/-! ### Which bytes change -/

/-- A write of bytes at l: those bytes as given, every other byte as it was. -/
theorem State.memGet_poke (s : State) (l : Nat) (bs : List Byte) (h : Memory.wf s.mem = true) (a : Nat) :
    memGet (s.poke l bs).mem a = if l ≤ a ∧ a < l + bs.length then bs.getD (a - l) 0 else memGet s.mem a :=
  memGet_memWrite l bs s.mem h a

theorem memGet_memSet_self (a : Nat) (b : Byte) (m : List Host.Cell) (h : Memory.wf m = true) : memGet (memSet a b m) a = b := by
  rw [(memGet_memSet_le a b m h a)]; simp

theorem memGet_memSet_ne (a : Nat) (b : Byte) (m : List Host.Cell) (h : Memory.wf m = true) (j : Nat) (hj : j ≠ a) :
    memGet (memSet a b m) j = memGet m j := by
  rw [(memGet_memSet_le a b m h j)]; simp [hj]

/-- Cells written one by one leave every address that none of them names. -/
theorem memGet_memCells_ne (cs : List (Nat × Byte)) (m : List Host.Cell) (h : Memory.wf m = true) (a : Nat)
    (ha : ∀ c ∈ cs, c.1 ≠ a) : memGet (cs.foldl (fun m c => memSet c.1 c.2 m) m) a = memGet m a := by
  induction cs generalizing m with
  | nil => rfl
  | cons c cs ih =>
    rw [List.foldl_cons, ih _ (memSet_wf _ _ _ h) fun d hd => ha d (List.mem_cons_of_mem _ hd),
      memGet_memSet_ne _ _ _ h _ (fun e => ha c List.mem_cons_self e.symm)]

/-- Cells at different addresses read back as they were written. -/
theorem memGet_memCells (cs : List (Nat × Byte)) (m : List Host.Cell) (h : Memory.wf m = true)
    (hn : (cs.map Prod.fst).Nodup) : ∀ c ∈ cs, memGet (cs.foldl (fun m c => memSet c.1 c.2 m) m) c.1 = c.2 := by
  induction cs generalizing m with
  | nil => simp
  | cons d cs ih =>
    rw [List.map_cons, List.nodup_cons] at hn
    intro c hc
    rw [List.foldl_cons]
    rcases List.mem_cons.mp hc with rfl | hc
    · rw [memGet_memCells_ne _ _ (memSet_wf _ _ _ h) _ (fun e he hh => hn.1 (by rw [← hh]; exact List.mem_map_of_mem he)),
        memGet_memSet_self _ _ _ h]
    · exact ih _ (memSet_wf _ _ _ h) hn.2 c hc

theorem State.memGet_pokeCells_ne (s : State) (cs : List (Nat × Byte)) (h : Memory.wf s.mem = true) (a : Nat)
    (ha : ∀ c ∈ cs, c.1 ≠ a) : memGet (s.pokeCells cs).mem a = memGet s.mem a := memGet_memCells_ne cs s.mem h a ha

theorem State.memGet_pokeCells (s : State) (cs : List (Nat × Byte)) (h : Memory.wf s.mem = true)
    (hn : (cs.map Prod.fst).Nodup) : ∀ c ∈ cs, memGet (s.pokeCells cs).mem c.1 = c.2 := memGet_memCells cs s.mem h hn

theorem sget_filter {α : Type} (d : α) (p : Nat × α → Bool) (m : SMap α) (a : Nat) (hp : ∀ v, p (a, v) = true) :
    sget d (m.filter p) a = sget d m a := by
  induction m with
  | nil => rfl
  | cons c m ih =>
    obtain ⟨k, v⟩ := c
    by_cases hk : a = k
    · subst hk; simp [hp, sget_cons]
    · cases hc : p (k, v) <;> simp [hc, sget_cons, hk, ih]

theorem sget_filter_none {α : Type} (d : α) (p : Nat × α → Bool) (m : SMap α) (a : Nat) (hp : ∀ v, p (a, v) = false) :
    sget d (m.filter p) a = d := by
  induction m with
  | nil => rfl
  | cons c m ih =>
    obtain ⟨k, v⟩ := c
    by_cases hk : a = k
    · subst hk; simp [hp, ih]
    · cases hc : p (k, v) <;> simp [hc, sget_cons, hk, ih]

/-- A wipe makes its range 0 and leaves every other byte. -/
theorem State.memGet_wipe (s : State) (l n a : Nat) :
    memGet (s.wipe l n).mem a = if l ≤ a ∧ a < l + n then 0 else memGet s.mem a := by
  unfold State.wipe memClear memGet
  split
  · rename_i h; exact sget_filter_none _ _ _ _ (by simp [h.1, h.2])
  · rename_i h
    refine sget_filter _ _ _ _ fun v => ?_
    simp only [Bool.not_eq_true', Bool.and_eq_false_iff, decide_eq_false_iff_not]
    by_cases h1 : l ≤ a
    · exact .inr fun h2 => h ⟨h1, h2⟩
    · exact .inl h1

/-! ### What a memory operation leaves -/

section
variable (s : State)

@[simp] theorem State.wipe_thr (l n : Nat) (th : ThreadId) : (s.wipe l n).thr th = s.thr th := rfl
@[simp] theorem State.wipe_ctx (l n : Nat) (c : CtxId) : (s.wipe l n).ctx c = s.ctx c := rfl
@[simp] theorem State.wipe_log (l n : Nat) : (s.wipe l n).log = s.log := rfl
@[simp] theorem State.wipe_pending (l n : Nat) : (s.wipe l n).pending = s.pending := rfl
end

end Sys2Proof.Machine
end

