-- ==== Sys2Proof/Tests/Slice0.lean ====
section
/-!
SUPPORT. Tests of single steps, ill-formed commands, and for every statement with hypotheses a state and operands that meet
all of them, clause by clause.
-/

open Sys2Proof Sys2Proof.Machine
namespace Sys2Proof.Tests

set_option Elab.async false
set_option linter.unusedVariables false

/-! ### States that the tests and the witnesses share -/

def wReg (w : Byte) (die : Byte) (lim : Nat) : RegionEntry :=
  { win := w, die := die, base := 0, limit := lim, r := true, w := true, x := true, u := true, reservedZero := true }
def wCtx0 : Ctx := { st := .running, mem := { regions := [wReg 0 0 512, wReg 1 0 384] } }
def wThr : Thread :=
  { st := .ready, enabled := true, pc := 0x200000000, csr := { tvec := 0x200000100, epc := 0x200000020 },
    x := [(1, 24), (2, 0xFFFFFFFFFFFFFFF1), (3, 0x200000008), (4, 0x8000000000000000)] }
def w0 : State :=
  { quadOwner := [(0, 0)], ctxs := [(0, wCtx0)], threads := [(0, wThr), (1, { wThr with pc := 0x200000040 })],
    cores := [(0, { icache := [(0x8000000, 0)], gated := false })],
    mem := [(0x100000010, 0x81), (0x100000018, 0xF0), (0x100000019, 0x9A), (0x200000008, 0x93), (0x200000018, 3)] }
def wUser (s : State) : State := s.modThr 0 fun t => { t with csr := { t.csr with status := 0 } }
def wVec : VecRegs := { v := [(0, 0x3F8000004049), (1, 0x7FC00000BF800000), (2, 0x100000003), (3, 5)], p := [(0, 0xB5), (1, BitVec.ofNat 256 (2 ^ 256 - 1)), (2, 0xD5)], ffr := BitVec.ofNat 256 (2 ^ 256 - 1 - 2 ^ 37), key := 5, ctr := 77, step := 3 }
def wv : State := { (w0.modThr 0 fun t => { t with vec := wVec, x := [(1, 0x100), (2, 16), (3, 0xFFFFFFFFFFFFFFC0), (4, 0x2001)] }) with
  cores := [(0, { icache := [(0x8000000, 0)], gated := false, vpow := .on })]
  mem := [(0x100000000, 7), (0x100000101, 0x81), (0x100000140, 9), (0x10000017F, 0xFF), (0x1000001C5, 3)] }
def rcfg (twoD : Bool) (drop : Bool := false) : RingCfg := { kindOk := true, reservedZero := true, twoD := twoD, nrow := 3, ncol := 2, predict := false, drop := drop, pmargin := 1, deadline := 5, timeout := 9, h := 3, maxBuckets := 99, digestFrame := 0, digestLen := 0, members := (List.range 6).map fun i => ⟨BitVec.ofNat 16 i, false, i⟩ }
def mem6 : List Member := (List.range 6).map fun i => ⟨BitVec.ofNat 16 i, false, i⟩
def ringSt (twoD drop : Bool) : RingSt := { cfg := rcfg twoD drop, members := mem6 }
def reg0 : RegRec := { k := 1, id := 7, ring := 0, step := 4, src := 0x200000000, elems := 2560, bf16 := false, tensor := 1, doneTally := 5, res := 0x200010000, scale := 0, defer := 0 }
def fh (ph : Byte) (ch : Nat) : FrameHdr := { bucket := 7, ring := 0, step := 4, pass := 0, phase := ph, breach := false, nonfinite := false, srcfail := false, h := 3, e := -2, maxexp := -8, chunk := ch, offset := 0 }
def bk0 : Bucket := { ctx := 0, gen := 0, ring := 0, id := 7, step := 4 }
def hdr0 : ImgHdr := { magic := 0, format := 1, kind := 2, burnFloor := false, transfer := false, reservedZero := true, length := 0, svn := 0, build := 0, dir := [], digest := 0, signer := 0, sigOk := true }
def tens0 : List Byte := [1, 0, 1, 0x11] ++ List.replicate 4 0 ++ [0, 0, 0x10, 0, 2, 0, 0, 0] ++ [0, 0, 0x10, 0] ++ List.replicate 12 0
def img0 : CtxImage := { hdr := { hdr0 with dir := [⟨0x204, 0x400, 0x20, true⟩] }, header := { quads := [0], strict := false, cfrac := 0, reservedZero := true, window := 0, step := 0, threads := [] }, memory := { regions := [], salt := 0, memto := 9, ptroot := 0 }, sync := { grants := [], bells := [] }, tensors := { bytes := tens0 }, red := some { reservedZero := true, rings := [rcfg false true], queue := { base := 0x200001000, slots := 4, tally := 6 } }, putq := none, feed := none, snap := none, recovery := none, contents := [] }
def leB (n v : Nat) : List Byte := (List.range n).map fun i => BitVec.ofNat 8 (v / 256 ^ i)
def regRec0 (id elems fmt tensor : Nat) : List Byte := leB 2 id ++ leB 1 0 ++ leB 1 0 ++ leB 4 4 ++ leB 8 0x200100000 ++ leB 4 elems ++ leB 1 fmt ++ leB 3 0 ++ leB 2 tensor ++ leB 2 0 ++ leB 4 5 ++ leB 8 0x200300000 ++ leB 8 0 ++ leB 8 0 ++ leB 8 0
def putB (s : State) (a : Nat) (bs : List Byte) : State := s.pokeCells (bs.zipIdx.map fun z => (a + z.2, z.1))
def wr (rec : List Byte) (b : Bucket) : State := ((putB { w0 with sync := { tallies := [(5, { assigned := true }), (6, { assigned := true })] } } 0x200001040 rec).modCtx 0 fun c => { c with img := some img0, rings := [ringSt false true], red := { k := 1, ready := 2 } }).setBucket 0 3 b
def modImg0 : ModImage := { hdr := hdr0, fabric := { module := 0, fabricId := 4, reservedZero := true, ports := [⟨true, 1, 2, false⟩], life := 1, hopsMax := 3, hold := 9, weights := [1,1,1,1], snapcap := 0, routes := [⟨1, [0]⟩] }, gate := { addr := 7, prefixLen := 64, port := 9, keys := [⟨0, some .control, 5⟩] }, snap := none, keys := none, transfer := none, policy := none }
def gAddr : BitVec 128 := 0x20010db8000000000000000000000001
def gate0 : Gate := { enable := true, addr := gAddr, keys := [⟨0, some .control, 5⟩, ⟨0, some .feed, 6⟩], sessions := [{ num := 7, key := 0, role := .control, mac := 5, begun := true, last := 3 }], nextNum := 9 }
def wg : State := { w0 with gate := gate0, boot := { w0.boot with phase := .released }, vault := { w0.vault with st := .ready }, fab := { ports := [(16, { enable := true, st := .up })] } }
def rq (ctx : Byte) (fin : Bool := true) (op : Nat := 2) : ReqHdr := { raw := BitVec.ofNat 256 (0x0101 + op * 2 ^ 16 + ctx.toNat * 2 ^ 24 + 7 * 2 ^ 32 + 4 * 2 ^ 64 + fin.toNat * 2 ^ 144), pn := 1, bodyOk := true }
def dir3 : List DirEntry := [⟨0x201, 0x140, 0x80, true⟩, ⟨0x202, 0x200, 0x100, true⟩, ⟨0x203, 0x300, 0x100, true⟩, ⟨0x204, 0x400, 0x20, true⟩]
def img3 : CtxImage := { hdr := { magic := 0x4C5A3849, format := 1, kind := 3, burnFloor := false, transfer := false, reservedZero := true, length := 0x3000, svn := 0, build := 0, dir := dir3, digest := 0, signer := 0, sigOk := true }, header := { quads := [0], strict := false, cfrac := 0, reservedZero := true, window := 0, step := 0, threads := [⟨0, 0x200000000, 0x200000100, 0, 0⟩] }, memory := { regions := [wReg 0 0 512], salt := 0, memto := 100, ptroot := 0 }, sync := { grants := [], bells := [] }, tensors := { bytes := tens0 }, red := none, putq := none, feed := none, snap := none, recovery := none, contents := [] }
def snapS (stage : Nat) : SnapSection := { reservedZero := true, stepBell := 5, period := 0, phase := 0, extEvery := 0, quiesce := 0, sendLimit := 0, captureTally := 6, commitTally := 7, stageBase := 0x1000000, stageLen := stage, areas := [⟨0, 0, 0x400000, 0x400000⟩], signers := [5] }
def imgS (stage : Nat) : CtxImage := { img3 with snap := some (snapS stage) }
def mani : Manifest := { layout := 0, root := 7, signer := 0, module := 0, context := 0, round := 9, parent := none, paused := false, sig := 0, sigOk := true, key := 0, leaves := [1, 2] }
def ws (stage : Nat) (st : CtxState) (f : SnapSt → SnapSt) : State :=
  { wg with harv := { partner := 4, partnerFeed := 3 }, sync := { tallies := [(6, { assigned := true }), (7, { assigned := true })] }, ctxs := [(0, { wCtx0 with st := st, img := some (imgS stage), snap := f {} })], threads := (List.range 16).map fun i => (i, { wThr with st := .halted }) }
def sh (kind : Byte) (block : BitVec 32) (client : ModuleNo := 0) : SnapHdr := ⟨kind, 0, client, 9, block, 0⟩
def sp (kind : Byte) (block : BitVec 32) (client : ModuleNo := 0) (data : List Byte := []) : Packet := ⟨{ dest := 0, src := 4, vc := 4, cls := false, hops := 0, flow := 0, sctx := 0, sgen := 0, dctx := 0, typ := 0x30, unit := 0, tag := 0 }, .snap (sh kind block client) data, [], 0, 0, 1⟩
def inb (s : State) (p : Packet) : State := { s with fab := { s.fab with inbox := [p] } }
def fwH : ImgHdr := { magic := 0x4C5A3849, format := 1, kind := 1, burnFloor := false, transfer := false, reservedZero := true, length := 0x3000, svn := 0, build := 0, dir := [⟨1, 0x140, 0x40, true⟩, ⟨2, 0x200, 0x40, true⟩, ⟨3, 0x300, 0x40, true⟩, ⟨4, 0x400, 0x40, true⟩], digest := 0, signer := 0, sigOk := true }
def moH : ImgHdr := { fwH with kind := 2, dir := [⟨0x101, 0x140, 0x40, true⟩, ⟨0x102, 0x200, 0x40, true⟩] }
def prts : List PortCfg := ⟨true, 2, 3, false⟩ :: List.replicate 15 ⟨false, 0, 0, false⟩
def modI : ModImage := { hdr := moH, fabric := { module := 1, fabricId := 4, reservedZero := true, ports := prts, life := 0x1000, hopsMax := 3, hold := 0x4000, weights := [1,1,1,1], snapcap := 10, routes := [⟨2, [0]⟩] }, gate := { addr := gAddr, prefixLen := 64, port := 9, keys := [⟨0, some .control, 5⟩] }, snap := none, keys := none, transfer := none, policy := none }
def bun : Bundle := ⟨fwH, modI, 5⟩

theorem bex_of {α : Type} (l : List α) (P : α → Prop) [DecidablePred P] (h : l.any (fun x => decide (P x)) = true) :
    ∃ x, x ∈ l ∧ P x := by simpa using h
theorem ball_of {α : Type} (l : List α) (P : α → Prop) [DecidablePred P] (h : l.all (fun x => decide (P x)) = true) :
    ∀ x, x ∈ l → P x := by simpa using h
theorem not_ne {w : ℕ} (x : BitVec (w + 1)) : ~~~x ≠ x := fun h => by
  have := congrArg (fun y => y.getLsbD 0) h
  simp at this

/-! ### What WellFormed refuses -/

theorem test_wf_tile_scrub : Instr.wellFormed (.tileScrub 0 true 4 0 false) = false ∧
    Instr.wellFormed (.tileScrub 0 false 4 0 false) = true := by decide
theorem test_wf_vec_scrub : Instr.wellFormed (.vecScrub 0 (.p 3) 4 false) = false ∧
    Instr.wellFormed (.vecScrub 0 (.v 3) 31 false) = true := by decide
theorem test_wf_mem_scrub : Instr.wellFormed (.memScrub 0x200000004 true) = false ∧
    Instr.wellFormed (.memScrub 0x1000000008 true) = false ∧ Instr.wellFormed (.memScrub 0x200000008 true) = true := by
  decide
theorem test_wf_hot_bank : Instr.wellFormed (.granHotBank 12 0 0 []) = false ∧
    Instr.wellFormed (.granHotBank 11 0 0 [(0, 0)]) = false ∧ Instr.wellFormed (.granHotBank 11 0 0 [(0, 1)]) = true := by
  decide
theorem test_wf_register_write : Instr.wellFormed (.registerWrite 0xF000000004 0 8) = false ∧
    Instr.wellFormed (.registerWrite 0xF000000000 0 2) = false ∧
    Instr.wellFormed (.registerWrite 0xF000000004 0 4) = true := by decide
theorem test_wf_dies : Instr.wellFormed (.dieResetDone 9) = false ∧ Instr.wellFormed (.dieResetTimeout 9) = false ∧
    Instr.wellFormed (.comparatorTrip 10) = false ∧ Instr.wellFormed (.comparatorTrip 9) = true := by decide
theorem test_wf_packet : Instr.wellFormed (.packetReceive 0 { sp 4 9 with wire := [1] }) = false ∧
    Instr.wellFormed (.packetReceive 0 (sp 4 9)) = true := by decide
theorem test_wf_flit : Instr.wellFormed (.flitReceive 0 ⟨0, true, [], [1], 0, [], []⟩) = false := by decide
theorem test_wf_lanes : Instr.wellFormed (.laneLockLoss 0 0) = false ∧ Instr.wellFormed (.laneLockLoss 0 4) = true := by
  decide
theorem test_wf_feed :
    Instr.wellFormed (.feedData 0 ⟨0, 0, 0, 0, 0, 0, 0, 0, 0, List.replicate 8193 0⟩) = false := by decide +kernel

/-! ### Words of instructions, from Tables 2.4 to 2.6, 7.9, 9.8 and 4.4 -/

theorem test_word_fence : decodeInstr 0 0xB0000000 = some (.fence 0 0 0 0) := by decide
theorem test_word_pginv : decodeInstr 0 0xB0090001 = some (.pginv 0 0 9 0) := by decide
theorem test_word_twait : decodeInstr 0 0xB40A5804 = some (.twait 0 0 10 11) := by decide
theorem test_word_zero : decodeInstr 0 0 = none := by decide

/-! ### One step each -/

/-- The state after a command that goes on. -/
def after (i : Instr) (s : State) (p : State → Bool) : Bool :=
  match exec i s with
  | .next t => p t
  | _ => false

/-- 24 + (-15) = 9; the next instruction is at pc + 4 (Table 2.6). -/
theorem test_add : after (.add 0 5 1 2) w0 (fun t => (t.thr 0).xr 5 == 9 && (t.thr 0).pc == 0x200000004) = true := by
  decide +kernel
/-- A write to X0 is discarded (R38). -/
theorem test_add_x0 : after (.add 0 0 1 1) w0 (fun t => (t.thr 0).xr 0 == 0) = true := by decide +kernel
/-- The own Bench holds F0 9A at 24: sign-extended, and zero-extended (R51). -/
theorem test_ldh : after (.ldh 0 5 1 0) w0 (fun t => (t.thr 0).xr 5 == 0xFFFFFFFFFFFF9AF0) = true := by decide +kernel
theorem test_ldhu : after (.ldhu 0 5 1 0) w0 (fun t => (t.thr 0).xr 5 == 0x9AF0) = true := by decide +kernel
/-- X1 = 24 is not X2: the branch falls through; backwards by two instructions when it is taken (Table 2.6). -/
theorem test_beq_falls : after (.beq 0 1 2 4) w0 (fun t => (t.thr 0).pc == 0x200000004) = true := by decide +kernel
theorem test_beq_taken : after (.beq 0 1 1 2) w0 (fun t => (t.thr 0).pc == 0x200000008) = true := by decide +kernel
/-- With two commands queued the front one runs and the other stays. -/
theorem test_step_front : (match step { w0 with pending := [.add 0 5 1 2, .release] } with
    | .next t => t.pending == [Instr.release] && (t.thr 0).xr 5 == 9
    | _ => false) = true := by decide +kernel
/-- The check values of CRC-32C and of ECMA-182's CRC-64 over the nine digits, as published for the two polynomials. -/
theorem test_crc32c : crc32c [0x31, 0x32, 0x33, 0x34, 0x35, 0x36, 0x37, 0x38, 0x39] = 0xE3069283 := by decide +kernel
theorem test_crc64 : crc64 [0x31, 0x32, 0x33, 0x34, 0x35, 0x36, 0x37, 0x38, 0x39] = 0x6C40DF5F0B497347 := by
  decide +kernel
/-- A write-back removes a byte that reads as an unlisted one does. -/
theorem test_mem_canonical : memWrite 0x200000008 [0] w0.mem = w0.mem.filter (fun e => e.1 != 0x200000008) ∧
    Memory.wf (memWrite 0x200000009 [7] w0.mem) = true := by decide +kernel

/-! ### Witnesses: hypotheses of each statement that some state and operands meet -/

theorem witness_StepKeepsMemoryCanonical : ∃ s t : State, Memory.wf s.mem = true ∧ step s = .next t :=
  ⟨State.reset, _, by decide, rfl⟩

theorem witness_OnlyVinLockoutStops :
    (∃ c : Instr, ∀ mv, c = .vinLockout mv → -60000 ≤ mv ∧ mv ≤ 65000) ∧ ∃ mv : Int, mv < -60000 ∨ 65000 < mv :=
  ⟨⟨.vinLockout 48000, fun _ h => by cases h; decide⟩, 65001, by decide⟩

namespace WIntegerArithmeticResults

theorem witness_IntegerArithmeticResults :
    (∃ (s : State) (th : ThreadId) (rd rs1 rs2 : Reg) (imm : BitVec 16) (up : BitVec 21), s.issues th [rd, rs1, rs2]) ∧
    (∃ (s : State) (th : ThreadId) (rd rs1 rs2 : Reg) (imm : BitVec 16) (up : BitVec 21), s.issues th [rd, rs1, rs2]
      ∧ (s.thr th).xr rs2 ≠ 0) ∧
    (∃ (s : State) (th : ThreadId) (rd rs1 rs2 : Reg) (imm : BitVec 16) (up : BitVec 21), s.issues th [rd, rs1, rs2]
      ∧ imm.toNat / 64 = 0) ∧
    (∃ (s : State) (th : ThreadId) (rd rs1 rs2 : Reg) (imm : BitVec 16) (up : BitVec 21), s.issues th [rd, rs1, rs2]
      ∧ imm.toNat / 64 = 256) ∧
    (∃ (s : State) (th : ThreadId) (rd rs1 rs2 : Reg) (imm : BitVec 16) (up : BitVec 21), s.issues th [rd, rs1, rs2]
      ∧ imm.toNat / 64 = 512) :=
  ⟨⟨w0, 0, 0, 0, 0, 0, 0, ⟨by decide +kernel, by decide +kernel⟩⟩,
    ⟨w0, 0, 0, 0, 1, 0, 0, ⟨by decide +kernel, by decide +kernel⟩, by decide +kernel⟩,
    ⟨w0, 0, 0, 0, 0, 0, 0, ⟨by decide +kernel, by decide +kernel⟩, by decide +kernel⟩,
    ⟨w0, 0, 0, 0, 0, 16387, 0, ⟨by decide +kernel, by decide +kernel⟩, by decide +kernel⟩,
    ⟨w0, 0, 0, 0, 0, 32773, 0, ⟨by decide +kernel, by decide +kernel⟩, by decide +kernel⟩⟩

end WIntegerArithmeticResults

namespace WDivisionCorners

theorem witness_DivisionCorners :
    (∃ (s : State) (th : ThreadId) (rd rs1 rs2 : Reg), s.issues th [rd, rs1, rs2] ∧ ∃ (i : Instr), i ∈ [Instr.div th
      rd rs1 rs2, Instr.divu th rd rs1 rs2, Instr.rem th rd rs1 rs2, Instr.remu th rd rs1 rs2] ∧ s.handles th ∧
      (s.thr th).xr rs2 = 0) ∧
    (∃ (s : State) (th : ThreadId) (rd rs1 rs2 : Reg), s.issues th [rd, rs1, rs2] ∧ BitVec.toInt ((s.thr th).xr rs1)
      = -2 ^ 63 ∧ BitVec.toInt ((s.thr th).xr rs2) = -1) :=
  ⟨⟨(w0.modThr 0 (fun t => { t with x := [(1, 9223372036854775808), (2, 18446744073709551615)] })), 0, 0, 0, 0,
      ⟨by decide +kernel, by decide +kernel⟩, (Instr.div 0 0 0 0), by decide +kernel, ⟨by decide +kernel,
      by decide +kernel, by decide +kernel⟩, by decide +kernel⟩,
    ⟨(w0.modThr 0 (fun t => { t with x := [(1, 9223372036854775808), (2, 18446744073709551615)] })), 0, 0, 1, 2,
      ⟨by decide +kernel, by decide +kernel⟩, by decide +kernel⟩⟩

end WDivisionCorners

namespace WBranchAndJumpTargets

theorem witness_BranchAndJumpTargets :
    (∃ (s : State) (th : ThreadId) (rd rs1 rs2 : Reg) (off : BitVec 16) (far : BitVec 21), s.issues th [rd, rs1,
      rs2]) :=
  ⟨w0, 0, 0, 0, 0, 0, 0, ⟨by decide +kernel, by decide +kernel⟩⟩

end WBranchAndJumpTargets

namespace WSystemInstructionsTakeExceptions

theorem witness_SystemInstructionsTakeExceptions :
    (∃ (s : State) (th : ThreadId) (rd rs1 rs2 : Reg) (word : BitVec 32) (csr : BitVec 16), s.issues th [rd, rs1] ∧
      s.handles th ∧ decodeInstr th word = none) ∧
    (∃ (s : State) (th : ThreadId) (rd rs1 rs2 : Reg) (word : BitVec 32) (csr : BitVec 16), s.issues th [rd, rs1] ∧
      s.handles th ∧ (s.thr th).csr.status.getLsbD 0 = false ∧ csrAllocated csr.toNat = true ∧ csr ≠ 0 ∧ csr ≠ 9 ∧
      csr ≠ 128) :=
  ⟨⟨w0, 0, 0, 0, 0, 0, 0, ⟨by decide +kernel, by decide +kernel⟩, ⟨by decide +kernel, by decide +kernel,
      by decide +kernel⟩, by decide +kernel⟩,
    ⟨(wUser w0), 0, 0, 0, 0, 0, 8, ⟨by decide +kernel, by decide +kernel⟩, ⟨by decide +kernel, by decide +kernel,
      by decide +kernel⟩, by decide +kernel⟩⟩

end WSystemInstructionsTakeExceptions

namespace WSystemInstructionResults

theorem witness_SystemInstructionResults :
    (∃ (s : State) (th : ThreadId) (rd rs1 : Reg) (csr : BitVec 16), s.issues th [rd, rs1] ∧ (s.thr
      th).csr.status.getLsbD 0 = true ∧ csrAllocated csr.toNat = true ∧ (s.thr th).flying = false ∧ csr.toNat < 128) ∧
    (∃ (s : State) (th : ThreadId) (rd rs1 : Reg) (csr : BitVec 16), s.issues th [rd, rs1] ∧ (s.thr
      th).csr.status.getLsbD 0 = true ∧ csrAllocated csr.toNat = true ∧ (s.thr th).flying = false ∧ 128 ≤ csr.toNat) ∧
    (∃ (s : State) (th : ThreadId) (rd rs1 : Reg) (csr : BitVec 16), s.issues th [rd, rs1] ∧ ((s.thr
      th).csr.status.getLsbD 0 = true ∨ csr ∈ [0, 9, 128]) ∧ csrAllocated csr.toNat = true ∧ (s.thr th).flying =
      false) ∧
    (∃ (s : State) (th : ThreadId) (rd rs1 : Reg) (csr : BitVec 16), s.issues th [rd, rs1] ∧ ∃ (c : CtxId), ((s.thr
      th).flying = false ∧ (s.thr th).asyncQ = [] ∧ s.thCtx th = some c) ∧ (∃ th' ∈ s.threadsOf c, th' ≠ th ∧ (s.thr
      th').st ≠ TState.halted)) ∧
    (∃ (s : State) (th : ThreadId) (rd rs1 : Reg) (csr : BitVec 16), s.issues th [rd, rs1] ∧ ∃ (c : CtxId), ((s.thr
      th).flying = false ∧ (s.thr th).asyncQ = [] ∧ s.thCtx th = some c) ∧ (∀ th' ∈ s.threadsOf c, th' ≠ th → (s.thr
      th').st = TState.halted)) :=
  ⟨⟨w0, 0, 0, 0, 0, ⟨by decide +kernel, by decide +kernel⟩, by decide +kernel⟩,
    ⟨w0, 0, 0, 0, 128, ⟨by decide +kernel, by decide +kernel⟩, by decide +kernel⟩,
    ⟨w0, 0, 0, 0, 0, ⟨by decide +kernel, by decide +kernel⟩, by decide +kernel⟩,
    ⟨w0, 0, 0, 0, 0, ⟨by decide +kernel, by decide +kernel⟩, 0, by decide +kernel, (bex_of _ _ (by decide +kernel))⟩,
    ⟨(w0.modThr 1 (fun t => { t with st := TState.halted })), 0, 0, 0, 0, ⟨by decide +kernel, by decide +kernel⟩, 0,
      by decide +kernel, (ball_of _ _ (by decide +kernel))⟩⟩

end WSystemInstructionResults

namespace WArrivalAtAnInstruction

theorem witness_ArrivalAtAnInstruction_1 :
    (∃ (s : State) (th : ThreadId) (c : CtxId) (t : Thread) (pc : Word), (s.thCtx th = some c ∧ t.pauseReq = false ∧
      t.stopReq = false) ∧ ((s.setThr th (t.at_ pc)).leaveSlots th).hasLine th pc ∧ ∃ (th' : ThreadId), th' ≠ th) ∧
    (∃ (s : State) (th : ThreadId) (c : CtxId) (t : Thread) (pc : Word), (s.thCtx th = some c ∧ t.pauseReq = false ∧
      t.stopReq = false) ∧ ((s.setThr th (t.at_ pc)).leaveSlots th).hasLine th pc ∧ ∃ (g : ℕ), g ≠ thCore th) ∧
    (∃ (s : State) (th : ThreadId) (c : CtxId) (t : Thread) (pc : Word), (s.thCtx th = some c ∧ t.pauseReq = false ∧
      t.stopReq = false) ∧ ∃ (r : RegionEntry), (8589934592 ≤ BitVec.toNat pc ∧ BitVec.toNat pc < 12884901888 ∧
      (s.ctx c).mem.region 0 ((BitVec.toNat pc - 8589934592) / 536870912) (BitVec.toNat pc % 536870912 / 1048576) =
      some r ∧ r.x = true ∧ (t.super || r.u) = true ∧ ((s.setThr th (t.at_ pc)).leaveSlots th).lineHeld th pc = false
      ∧ ((t.fills.any fun p => BitVec.toNat p / 64 == BitVec.toNat pc / 64) = true)) ∧ ∃ (th' : ThreadId), th' ≠ th) ∧
    (∃ (s : State) (th : ThreadId) (c : CtxId) (t : Thread) (pc : Word), (s.thCtx th = some c ∧ t.pauseReq = false ∧
      t.stopReq = false) ∧ ∃ (r : RegionEntry), (8589934592 ≤ BitVec.toNat pc ∧ BitVec.toNat pc < 12884901888 ∧
      (s.ctx c).mem.region 0 ((BitVec.toNat pc - 8589934592) / 536870912) (BitVec.toNat pc % 536870912 / 1048576) =
      some r ∧ r.x = true ∧ (t.super || r.u) = true ∧ ((s.setThr th (t.at_ pc)).leaveSlots th).lineHeld th pc = false
      ∧ ((t.fills.any fun p => BitVec.toNat p / 64 == BitVec.toNat pc / 64) = true)) ∧ ∃ (g : ℕ), g ≠ thCore th) ∧
    (∃ (s : State) (th : ThreadId) (c : CtxId) (t : Thread) (pc : Word), (s.thCtx th = some c ∧ t.pauseReq = false ∧
      t.stopReq = false) ∧ ∃ (r : RegionEntry), (8589934592 ≤ BitVec.toNat pc ∧ BitVec.toNat pc < 12884901888 ∧
      (s.ctx c).mem.region 0 ((BitVec.toNat pc - 8589934592) / 536870912) (BitVec.toNat pc % 536870912 / 1048576) =
      some r ∧ r.x = true ∧ (t.super || r.u) = true ∧ ((s.setThr th (t.at_ pc)).leaveSlots th).lineHeld th pc = false
      ∧ ((t.fills.any fun p => BitVec.toNat p / 64 == BitVec.toNat pc / 64) = false) ∧ ((s.setThr th (t.at_
      pc)).leaveSlots th).slotFree th = true) ∧ ∃ (th' : ThreadId), th' ≠ th) ∧
    (∃ (s : State) (th : ThreadId) (c : CtxId) (t : Thread) (pc : Word), (s.thCtx th = some c ∧ t.pauseReq = false ∧
      t.stopReq = false) ∧ ∃ (r : RegionEntry), (8589934592 ≤ BitVec.toNat pc ∧ BitVec.toNat pc < 12884901888 ∧
      (s.ctx c).mem.region 0 ((BitVec.toNat pc - 8589934592) / 536870912) (BitVec.toNat pc % 536870912 / 1048576) =
      some r ∧ r.x = true ∧ (t.super || r.u) = true ∧ ((s.setThr th (t.at_ pc)).leaveSlots th).lineHeld th pc = false
      ∧ ((t.fills.any fun p => BitVec.toNat p / 64 == BitVec.toNat pc / 64) = false) ∧ ((s.setThr th (t.at_
      pc)).leaveSlots th).slotFree th = true) ∧ ∃ (g : ℕ), g ≠ thCore th) ∧
    (∃ (s : State) (th : ThreadId) (c : CtxId) (t : Thread) (pc : Word), (s.thCtx th = some c ∧ t.pauseReq = false ∧
      t.stopReq = false) ∧ ∃ (r : RegionEntry), (8589934592 ≤ BitVec.toNat pc ∧ BitVec.toNat pc < 12884901888 ∧
      (s.ctx c).mem.region 0 ((BitVec.toNat pc - 8589934592) / 536870912) (BitVec.toNat pc % 536870912 / 1048576) =
      some r ∧ r.x = true ∧ (t.super || r.u) = true ∧ ((s.setThr th (t.at_ pc)).leaveSlots th).lineHeld th pc = false
      ∧ ((t.fills.any fun p => BitVec.toNat p / 64 == BitVec.toNat pc / 64) = false) ∧ ((s.setThr th (t.at_
      pc)).leaveSlots th).slotFree th = false) ∧ ∃ (th' : ThreadId), th' ≠ th) ∧
    (∃ (s : State) (th : ThreadId) (c : CtxId) (t : Thread) (pc : Word), (s.thCtx th = some c ∧ t.pauseReq = false ∧
      t.stopReq = false) ∧ ∃ (r : RegionEntry), (8589934592 ≤ BitVec.toNat pc ∧ BitVec.toNat pc < 12884901888 ∧
      (s.ctx c).mem.region 0 ((BitVec.toNat pc - 8589934592) / 536870912) (BitVec.toNat pc % 536870912 / 1048576) =
      some r ∧ r.x = true ∧ (t.super || r.u) = true ∧ ((s.setThr th (t.at_ pc)).leaveSlots th).lineHeld th pc = false
      ∧ ((t.fills.any fun p => BitVec.toNat p / 64 == BitVec.toNat pc / 64) = false) ∧ ((s.setThr th (t.at_
      pc)).leaveSlots th).slotFree th = false) ∧ ∃ (g : ℕ), g ≠ thCore th) :=
  ⟨⟨w0, 0, 0, wThr, 8589934592, by decide +kernel, ⟨_, rfl, by decide +kernel⟩, 1, by decide +kernel⟩,
    ⟨w0, 0, 0, wThr, 8589934592, by decide +kernel, ⟨_, rfl, by decide +kernel⟩, 1, by decide +kernel⟩,
    ⟨w0, 0, 0, { wThr with fills := [8589934724] }, 8589934720, by decide +kernel, (wReg 0 0 512), by decide +kernel,
      1, by decide +kernel⟩,
    ⟨w0, 0, 0, { wThr with fills := [8589934724] }, 8589934720, by decide +kernel, (wReg 0 0 512), by decide +kernel,
      1, by decide +kernel⟩,
    ⟨w0, 0, 0, wThr, 8589934720, by decide +kernel, (wReg 0 0 512), by decide +kernel, 1, by decide +kernel⟩,
    ⟨w0, 0, 0, wThr, 8589934720, by decide +kernel, (wReg 0 0 512), by decide +kernel, 1, by decide +kernel⟩,
    ⟨(w0.modCore 0 (fun c => { c with slotQ := [1, 2, 3, 4, 5, 6, 7, 8, 9, 10, 11, 12, 13, 14, 15, 16, 17] })), 0, 0,
      { wThr with fills := [8589934660, 1000, 2000, 3000] }, 8589934720, by decide +kernel, (wReg 0 0 512),
      by decide +kernel, 1, by decide +kernel⟩,
    ⟨(w0.modCore 0 (fun c => { c with slotQ := [1, 2, 3, 4, 5, 6, 7, 8, 9, 10, 11, 12, 13, 14, 15, 16, 17] })), 0, 0,
      { wThr with fills := [8589934660, 1000, 2000, 3000] }, 8589934720, by decide +kernel, (wReg 0 0 512),
      by decide +kernel, 1, by decide +kernel⟩⟩

theorem witness_ArrivalAtAnInstruction_2 :
    (∃ (s : State) (th : ThreadId) (c : CtxId) (t : Thread) (pc : Word), s.thCtx th = some c ∧ t.pauseReq = false ∧
      t.stopReq = false ∧ s.fetchable c pc = false ∧ t.flying = false ∧ t.asyncQ = [] ∧ t.csr.status.getLsbD 4 =
      false ∧ t.csr.tvec ≠ 0) :=
  ⟨w0, 0, 0, wThr, 4294967296, by decide +kernel⟩

end WArrivalAtAnInstruction

namespace WOwnBenchLoadResults

theorem witness_OwnBenchLoadResults :
    (∃ (s : State) (th : ThreadId) (rd rs1 : Reg) (imm : BitVec 16), s.issues th [rd, rs1] ∧ (s.thr th).benchBusy =
      false ∧ (s.core (thCore th)).promised = false ∧ (BitVec.ofInt 64 (BitVec.toInt ((s.thr th).xr rs1) +
      imm.toInt)).toNat + 1 ≤ 1048576 ∧ (BitVec.ofInt 64 (BitVec.toInt ((s.thr th).xr rs1) + imm.toInt)).toNat % 1 =
      0 ∧ s.poisonIn (4294967296 + thCore th * 1048576 + (BitVec.ofInt 64 (BitVec.toInt ((s.thr th).xr rs1) +
      imm.toInt)).toNat) 1 = false ∧ (s.thr th).storesTo ((4294967296 + thCore th * 1048576 + (BitVec.ofInt 64
      (BitVec.toInt ((s.thr th).xr rs1) + imm.toInt)).toNat) / 64) = false) ∧
    (∃ (s : State) (th : ThreadId) (rd rs1 : Reg) (imm : BitVec 16), s.issues th [rd, rs1] ∧ (s.thr th).benchBusy =
      false ∧ (s.core (thCore th)).promised = false ∧ (BitVec.ofInt 64 (BitVec.toInt ((s.thr th).xr rs1) +
      imm.toInt)).toNat + 2 ≤ 1048576 ∧ (BitVec.ofInt 64 (BitVec.toInt ((s.thr th).xr rs1) + imm.toInt)).toNat % 2 =
      0 ∧ s.poisonIn (4294967296 + thCore th * 1048576 + (BitVec.ofInt 64 (BitVec.toInt ((s.thr th).xr rs1) +
      imm.toInt)).toNat) 2 = false ∧ (s.thr th).storesTo ((4294967296 + thCore th * 1048576 + (BitVec.ofInt 64
      (BitVec.toInt ((s.thr th).xr rs1) + imm.toInt)).toNat) / 64) = false) ∧
    (∃ (s : State) (th : ThreadId) (rd rs1 : Reg) (imm : BitVec 16), s.issues th [rd, rs1] ∧ (s.thr th).benchBusy =
      false ∧ (s.core (thCore th)).promised = false ∧ (BitVec.ofInt 64 (BitVec.toInt ((s.thr th).xr rs1) +
      imm.toInt)).toNat + 4 ≤ 1048576 ∧ (BitVec.ofInt 64 (BitVec.toInt ((s.thr th).xr rs1) + imm.toInt)).toNat % 4 =
      0 ∧ s.poisonIn (4294967296 + thCore th * 1048576 + (BitVec.ofInt 64 (BitVec.toInt ((s.thr th).xr rs1) +
      imm.toInt)).toNat) 4 = false ∧ (s.thr th).storesTo ((4294967296 + thCore th * 1048576 + (BitVec.ofInt 64
      (BitVec.toInt ((s.thr th).xr rs1) + imm.toInt)).toNat) / 64) = false) ∧
    (∃ (s : State) (th : ThreadId) (rd rs1 : Reg) (imm : BitVec 16), s.issues th [rd, rs1] ∧ (s.thr th).benchBusy =
      false ∧ (s.core (thCore th)).promised = false ∧ (BitVec.ofInt 64 (BitVec.toInt ((s.thr th).xr rs1) +
      imm.toInt)).toNat + 8 ≤ 1048576 ∧ (BitVec.ofInt 64 (BitVec.toInt ((s.thr th).xr rs1) + imm.toInt)).toNat % 8 =
      0 ∧ s.poisonIn (4294967296 + thCore th * 1048576 + (BitVec.ofInt 64 (BitVec.toInt ((s.thr th).xr rs1) +
      imm.toInt)).toNat) 8 = false ∧ (s.thr th).storesTo ((4294967296 + thCore th * 1048576 + (BitVec.ofInt 64
      (BitVec.toInt ((s.thr th).xr rs1) + imm.toInt)).toNat) / 64) = false) :=
  ⟨⟨w0, 0, 0, 0, 0, ⟨by decide +kernel, by decide +kernel⟩, by decide +kernel⟩,
    ⟨w0, 0, 0, 0, 0, ⟨by decide +kernel, by decide +kernel⟩, by decide +kernel⟩,
    ⟨w0, 0, 0, 0, 0, ⟨by decide +kernel, by decide +kernel⟩, by decide +kernel⟩,
    ⟨w0, 0, 0, 0, 0, ⟨by decide +kernel, by decide +kernel⟩, by decide +kernel⟩⟩

end WOwnBenchLoadResults

namespace WOwnBenchStoreFrame

theorem witness_OwnBenchStoreFrame :
    (∃ (s : State) (th : ThreadId) (rs2 rs1 : Reg) (imm : BitVec 16), s.issues th [rs2, rs1] ∧ (s.thr th).benchBusy =
      false ∧ (s.core (thCore th)).promised = false ∧ Memory.wf s.mem = true ∧ (BitVec.ofInt 64 (BitVec.toInt ((s.thr
      th).xr rs1) + imm.toInt)).toNat + 1 ≤ 1048576 ∧ (BitVec.ofInt 64 (BitVec.toInt ((s.thr th).xr rs1) +
      imm.toInt)).toNat % 1 = 0 ∧ (s.poisonIn (4294967296 + thCore th * 1048576 + (BitVec.ofInt 64 (BitVec.toInt
      ((s.thr th).xr rs1) + imm.toInt)).toNat) 1 = false ∨ 1 = 8) ∧ (s.thr th).storesTo ((4294967296 + thCore th *
      1048576 + (BitVec.ofInt 64 (BitVec.toInt ((s.thr th).xr rs1) + imm.toInt)).toNat) / 64) = false) ∧
    (∃ (s : State) (th : ThreadId) (rs2 rs1 : Reg) (imm : BitVec 16), s.issues th [rs2, rs1] ∧ (s.thr th).benchBusy =
      false ∧ (s.core (thCore th)).promised = false ∧ Memory.wf s.mem = true ∧ (BitVec.ofInt 64 (BitVec.toInt ((s.thr
      th).xr rs1) + imm.toInt)).toNat + 2 ≤ 1048576 ∧ (BitVec.ofInt 64 (BitVec.toInt ((s.thr th).xr rs1) +
      imm.toInt)).toNat % 2 = 0 ∧ (s.poisonIn (4294967296 + thCore th * 1048576 + (BitVec.ofInt 64 (BitVec.toInt
      ((s.thr th).xr rs1) + imm.toInt)).toNat) 2 = false ∨ 2 = 8) ∧ (s.thr th).storesTo ((4294967296 + thCore th *
      1048576 + (BitVec.ofInt 64 (BitVec.toInt ((s.thr th).xr rs1) + imm.toInt)).toNat) / 64) = false) ∧
    (∃ (s : State) (th : ThreadId) (rs2 rs1 : Reg) (imm : BitVec 16), s.issues th [rs2, rs1] ∧ (s.thr th).benchBusy =
      false ∧ (s.core (thCore th)).promised = false ∧ Memory.wf s.mem = true ∧ (BitVec.ofInt 64 (BitVec.toInt ((s.thr
      th).xr rs1) + imm.toInt)).toNat + 4 ≤ 1048576 ∧ (BitVec.ofInt 64 (BitVec.toInt ((s.thr th).xr rs1) +
      imm.toInt)).toNat % 4 = 0 ∧ (s.poisonIn (4294967296 + thCore th * 1048576 + (BitVec.ofInt 64 (BitVec.toInt
      ((s.thr th).xr rs1) + imm.toInt)).toNat) 4 = false ∨ 4 = 8) ∧ (s.thr th).storesTo ((4294967296 + thCore th *
      1048576 + (BitVec.ofInt 64 (BitVec.toInt ((s.thr th).xr rs1) + imm.toInt)).toNat) / 64) = false) ∧
    (∃ (s : State) (th : ThreadId) (rs2 rs1 : Reg) (imm : BitVec 16), s.issues th [rs2, rs1] ∧ (s.thr th).benchBusy =
      false ∧ (s.core (thCore th)).promised = false ∧ Memory.wf s.mem = true ∧ (BitVec.ofInt 64 (BitVec.toInt ((s.thr
      th).xr rs1) + imm.toInt)).toNat + 8 ≤ 1048576 ∧ (BitVec.ofInt 64 (BitVec.toInt ((s.thr th).xr rs1) +
      imm.toInt)).toNat % 8 = 0 ∧ (s.poisonIn (4294967296 + thCore th * 1048576 + (BitVec.ofInt 64 (BitVec.toInt
      ((s.thr th).xr rs1) + imm.toInt)).toNat) 8 = false ∨ 8 = 8) ∧ (s.thr th).storesTo ((4294967296 + thCore th *
      1048576 + (BitVec.ofInt 64 (BitVec.toInt ((s.thr th).xr rs1) + imm.toInt)).toNat) / 64) = false) :=
  ⟨⟨w0, 0, 0, 0, 0, ⟨by decide +kernel, by decide +kernel⟩, by decide +kernel⟩,
    ⟨w0, 0, 0, 0, 0, ⟨by decide +kernel, by decide +kernel⟩, by decide +kernel⟩,
    ⟨w0, 0, 0, 0, 0, ⟨by decide +kernel, by decide +kernel⟩, by decide +kernel⟩,
    ⟨w0, 0, 0, 0, 0, ⟨by decide +kernel, by decide +kernel⟩, by decide +kernel⟩⟩

end WOwnBenchStoreFrame

namespace WMisalignedAccessTakesMemory

theorem witness_MisalignedAccessTakesMemory :
    (∃ (s : State) (th : ThreadId) (rd rs1 : Reg) (imm : BitVec 16), s.issues th [rd, rs1] ∧ s.handles th ∧
      (BitVec.toNat ((s.thr th).xr rs1 + BitVec.signExtend 64 imm) < 1030792151040 ∨ 1035087118336 ≤ BitVec.toNat
      ((s.thr th).xr rs1 + BitVec.signExtend 64 imm)) ∧ BitVec.toNat ((s.thr th).xr rs1 + BitVec.signExtend 64 imm) %
      2 ≠ 0) ∧
    (∃ (s : State) (th : ThreadId) (rd rs1 : Reg) (imm : BitVec 16), s.issues th [rd, rs1] ∧ s.handles th ∧
      (BitVec.toNat ((s.thr th).xr rs1 + BitVec.signExtend 64 imm) < 1030792151040 ∨ 1035087118336 ≤ BitVec.toNat
      ((s.thr th).xr rs1 + BitVec.signExtend 64 imm)) ∧ BitVec.toNat ((s.thr th).xr rs1 + BitVec.signExtend 64 imm) %
      4 ≠ 0) ∧
    (∃ (s : State) (th : ThreadId) (rd rs1 : Reg) (imm : BitVec 16), s.issues th [rd, rs1] ∧ s.handles th ∧
      (BitVec.toNat ((s.thr th).xr rs1 + BitVec.signExtend 64 imm) < 1030792151040 ∨ 1035087118336 ≤ BitVec.toNat
      ((s.thr th).xr rs1 + BitVec.signExtend 64 imm)) ∧ BitVec.toNat ((s.thr th).xr rs1 + BitVec.signExtend 64 imm) %
      8 ≠ 0) :=
  ⟨⟨w0, 0, 0, 0, 3, ⟨by decide +kernel, by decide +kernel⟩, ⟨by decide +kernel, by decide +kernel,
      by decide +kernel⟩, by decide +kernel⟩,
    ⟨w0, 0, 0, 0, 3, ⟨by decide +kernel, by decide +kernel⟩, ⟨by decide +kernel, by decide +kernel,
      by decide +kernel⟩, by decide +kernel⟩,
    ⟨w0, 0, 0, 0, 3, ⟨by decide +kernel, by decide +kernel⟩, ⟨by decide +kernel, by decide +kernel,
      by decide +kernel⟩, by decide +kernel⟩⟩

end WMisalignedAccessTakesMemory

namespace WLarderAccessesAreSent

theorem witness_LarderAccessesAreSent :
    (∃ (s : State) (th : ThreadId) (rd rs1 : Reg) (imm : BitVec 16) (c : CtxId) (r : RegionEntry), s.issues th [rd,
      rs1] ∧ s.thCtx th = some c ∧ s.slotFree th = true ∧ 8589934592 ≤ BitVec.toNat ((s.thr th).xr rs1 +
      BitVec.signExtend 64 imm) ∧ BitVec.toNat ((s.thr th).xr rs1 + BitVec.signExtend 64 imm) < 12884901888 ∧ (s.ctx
      c).mem.region 0 ((BitVec.toNat ((s.thr th).xr rs1 + BitVec.signExtend 64 imm) - 8589934592) / 536870912)
      (BitVec.toNat ((s.thr th).xr rs1 + BitVec.signExtend 64 imm) % 536870912 / 1048576) = some r ∧ ((s.thr
      th).super || r.u) = true ∧ BitVec.toNat ((s.thr th).xr rs1 + BitVec.signExtend 64 imm) % 1 = 0 ∧ r.r = true) ∧
    (∃ (s : State) (th : ThreadId) (rd rs1 : Reg) (imm : BitVec 16) (c : CtxId) (r : RegionEntry), s.issues th [rd,
      rs1] ∧ s.thCtx th = some c ∧ s.slotFree th = true ∧ 8589934592 ≤ BitVec.toNat ((s.thr th).xr rs1 +
      BitVec.signExtend 64 imm) ∧ BitVec.toNat ((s.thr th).xr rs1 + BitVec.signExtend 64 imm) < 12884901888 ∧ (s.ctx
      c).mem.region 0 ((BitVec.toNat ((s.thr th).xr rs1 + BitVec.signExtend 64 imm) - 8589934592) / 536870912)
      (BitVec.toNat ((s.thr th).xr rs1 + BitVec.signExtend 64 imm) % 536870912 / 1048576) = some r ∧ ((s.thr
      th).super || r.u) = true ∧ BitVec.toNat ((s.thr th).xr rs1 + BitVec.signExtend 64 imm) % 2 = 0 ∧ r.r = true) ∧
    (∃ (s : State) (th : ThreadId) (rd rs1 : Reg) (imm : BitVec 16) (c : CtxId) (r : RegionEntry), s.issues th [rd,
      rs1] ∧ s.thCtx th = some c ∧ s.slotFree th = true ∧ 8589934592 ≤ BitVec.toNat ((s.thr th).xr rs1 +
      BitVec.signExtend 64 imm) ∧ BitVec.toNat ((s.thr th).xr rs1 + BitVec.signExtend 64 imm) < 12884901888 ∧ (s.ctx
      c).mem.region 0 ((BitVec.toNat ((s.thr th).xr rs1 + BitVec.signExtend 64 imm) - 8589934592) / 536870912)
      (BitVec.toNat ((s.thr th).xr rs1 + BitVec.signExtend 64 imm) % 536870912 / 1048576) = some r ∧ ((s.thr
      th).super || r.u) = true ∧ BitVec.toNat ((s.thr th).xr rs1 + BitVec.signExtend 64 imm) % 4 = 0 ∧ r.r = true) ∧
    (∃ (s : State) (th : ThreadId) (rd rs1 : Reg) (imm : BitVec 16) (c : CtxId) (r : RegionEntry), s.issues th [rd,
      rs1] ∧ s.thCtx th = some c ∧ s.slotFree th = true ∧ 8589934592 ≤ BitVec.toNat ((s.thr th).xr rs1 +
      BitVec.signExtend 64 imm) ∧ BitVec.toNat ((s.thr th).xr rs1 + BitVec.signExtend 64 imm) < 12884901888 ∧ (s.ctx
      c).mem.region 0 ((BitVec.toNat ((s.thr th).xr rs1 + BitVec.signExtend 64 imm) - 8589934592) / 536870912)
      (BitVec.toNat ((s.thr th).xr rs1 + BitVec.signExtend 64 imm) % 536870912 / 1048576) = some r ∧ ((s.thr
      th).super || r.u) = true ∧ BitVec.toNat ((s.thr th).xr rs1 + BitVec.signExtend 64 imm) % 8 = 0 ∧ r.r = true) ∧
    (∃ (s : State) (th : ThreadId) (rd rs1 : Reg) (imm : BitVec 16) (c : CtxId) (r : RegionEntry), s.issues th [rd,
      rs1] ∧ s.thCtx th = some c ∧ s.slotFree th = true ∧ 8589934592 ≤ BitVec.toNat ((s.thr th).xr rs1 +
      BitVec.signExtend 64 imm) ∧ BitVec.toNat ((s.thr th).xr rs1 + BitVec.signExtend 64 imm) < 12884901888 ∧ (s.ctx
      c).mem.region 0 ((BitVec.toNat ((s.thr th).xr rs1 + BitVec.signExtend 64 imm) - 8589934592) / 536870912)
      (BitVec.toNat ((s.thr th).xr rs1 + BitVec.signExtend 64 imm) % 536870912 / 1048576) = some r ∧ ((s.thr
      th).super || r.u) = true ∧ BitVec.toNat ((s.thr th).xr rs1 + BitVec.signExtend 64 imm) % 1 = 0 ∧ r.w = true) ∧
    (∃ (s : State) (th : ThreadId) (rd rs1 : Reg) (imm : BitVec 16) (c : CtxId) (r : RegionEntry), s.issues th [rd,
      rs1] ∧ s.thCtx th = some c ∧ s.slotFree th = true ∧ 8589934592 ≤ BitVec.toNat ((s.thr th).xr rs1 +
      BitVec.signExtend 64 imm) ∧ BitVec.toNat ((s.thr th).xr rs1 + BitVec.signExtend 64 imm) < 12884901888 ∧ (s.ctx
      c).mem.region 0 ((BitVec.toNat ((s.thr th).xr rs1 + BitVec.signExtend 64 imm) - 8589934592) / 536870912)
      (BitVec.toNat ((s.thr th).xr rs1 + BitVec.signExtend 64 imm) % 536870912 / 1048576) = some r ∧ ((s.thr
      th).super || r.u) = true ∧ BitVec.toNat ((s.thr th).xr rs1 + BitVec.signExtend 64 imm) % 2 = 0 ∧ r.w = true) ∧
    (∃ (s : State) (th : ThreadId) (rd rs1 : Reg) (imm : BitVec 16) (c : CtxId) (r : RegionEntry), s.issues th [rd,
      rs1] ∧ s.thCtx th = some c ∧ s.slotFree th = true ∧ 8589934592 ≤ BitVec.toNat ((s.thr th).xr rs1 +
      BitVec.signExtend 64 imm) ∧ BitVec.toNat ((s.thr th).xr rs1 + BitVec.signExtend 64 imm) < 12884901888 ∧ (s.ctx
      c).mem.region 0 ((BitVec.toNat ((s.thr th).xr rs1 + BitVec.signExtend 64 imm) - 8589934592) / 536870912)
      (BitVec.toNat ((s.thr th).xr rs1 + BitVec.signExtend 64 imm) % 536870912 / 1048576) = some r ∧ ((s.thr
      th).super || r.u) = true ∧ BitVec.toNat ((s.thr th).xr rs1 + BitVec.signExtend 64 imm) % 4 = 0 ∧ r.w = true) ∧
    (∃ (s : State) (th : ThreadId) (rd rs1 : Reg) (imm : BitVec 16) (c : CtxId) (r : RegionEntry), s.issues th [rd,
      rs1] ∧ s.thCtx th = some c ∧ s.slotFree th = true ∧ 8589934592 ≤ BitVec.toNat ((s.thr th).xr rs1 +
      BitVec.signExtend 64 imm) ∧ BitVec.toNat ((s.thr th).xr rs1 + BitVec.signExtend 64 imm) < 12884901888 ∧ (s.ctx
      c).mem.region 0 ((BitVec.toNat ((s.thr th).xr rs1 + BitVec.signExtend 64 imm) - 8589934592) / 536870912)
      (BitVec.toNat ((s.thr th).xr rs1 + BitVec.signExtend 64 imm) % 536870912 / 1048576) = some r ∧ ((s.thr
      th).super || r.u) = true ∧ BitVec.toNat ((s.thr th).xr rs1 + BitVec.signExtend 64 imm) % 8 = 0 ∧ r.w = true) :=
  ⟨⟨w0, 0, 0, 3, 0, 0, (wReg 0 0 512), ⟨by decide +kernel, by decide +kernel⟩, by decide +kernel⟩,
    ⟨w0, 0, 0, 3, 0, 0, (wReg 0 0 512), ⟨by decide +kernel, by decide +kernel⟩, by decide +kernel⟩,
    ⟨w0, 0, 0, 3, 0, 0, (wReg 0 0 512), ⟨by decide +kernel, by decide +kernel⟩, by decide +kernel⟩,
    ⟨w0, 0, 0, 3, 0, 0, (wReg 0 0 512), ⟨by decide +kernel, by decide +kernel⟩, by decide +kernel⟩,
    ⟨w0, 0, 0, 3, 0, 0, (wReg 0 0 512), ⟨by decide +kernel, by decide +kernel⟩, by decide +kernel⟩,
    ⟨w0, 0, 0, 3, 0, 0, (wReg 0 0 512), ⟨by decide +kernel, by decide +kernel⟩, by decide +kernel⟩,
    ⟨w0, 0, 0, 3, 0, 0, (wReg 0 0 512), ⟨by decide +kernel, by decide +kernel⟩, by decide +kernel⟩,
    ⟨w0, 0, 0, 3, 0, 0, (wReg 0 0 512), ⟨by decide +kernel, by decide +kernel⟩, by decide +kernel⟩⟩

end WLarderAccessesAreSent

namespace WRepliesAndAcknowledgements

def wReq : Req := { line := 0x8000000, parts := [0], sent := true }
def wAcc : Access := { kind := .load, parts := [{ va := 0x200000008, len := 4, idx := 0 }], fin := .ld 5 4 false }
def wPost : Posted := { id := 0, va := 0x200000008, pc := 0x200000000, gen := 0, what := .cells [(0x200000008, 1), (0x200000009, 2)] }

theorem witness_RepliesAndAcknowledgements :
    (∃ (s : State) (th : ThreadId) (c : CtxId) (rd : Reg) (va : Word) (len : ℕ) (r : Req), s.thCtx th = some c ∧
      s.ctxServes c = true ∧ s.fetchable c ((s.thr th).pc + 4) = true ∧ (s.thr th).pend = some (Pend.access
      { kind := AKind.load, parts := [{ va := va, len := len, idx := 0, data := [] }], fin := AccEnd.ld rd len false }
      none [r]) ∧ r.parts = [0] ∧ r.sent = true ∧ r.got = none ∧ r.err = none ∧ s.poisonIn (r.line * 64 +
      BitVec.toNat va % 64) len = false) ∧
    (∃ (s : State) (th : ThreadId) (k : ℕ) (p : Posted) (cs : List (ℕ × Byte)), s.thServes th = true ∧ (s.thr
      th).posted[k]? = some p ∧ p.what = PostWhat.cells cs ∧ (((List.take k (s.thr th).posted).any fun q =>
      q.sameLine p) = false) ∧ s.subPoison cs = false ∧ Memory.wf s.mem = true) :=
  ⟨⟨(w0.modThr 0 (fun t => { t with st := TState.waitMem, pend := (some (Pend.access wAcc none [wReq])) })), 0, 0,
      5, 8589934600, 4, wReq, by decide +kernel⟩,
    ⟨(w0.modThr 0 (fun t => { t with posted := [wPost] })), 0, 0, wPost, [(8589934600, 1), (8589934601, 2)],
      by decide +kernel⟩⟩

end WRepliesAndAcknowledgements

namespace WFenceAndInvalidation

def wPost : Posted := { id := 0, va := 0x200000008, pc := 0x200000000, gen := 0, what := .cells [(0x200000008, 1), (0x200000009, 2)] }

theorem witness_FenceAndInvalidation :
    (∃ (s : State) (th : ThreadId) (rs1 : Reg) (c : CtxId), s.issues th [rs1] ∧ s.thCtx th = some c ∧ (s.thr
      th).flying = false ∧ (s.thr th).posted = []) ∧
    (∃ (s : State) (th : ThreadId) (rs1 : Reg) (c : CtxId), s.issues th [rs1] ∧ s.thCtx th = some c ∧ (s.thr
      th).flying = false ∧ (s.thr th).posted ≠ []) ∧
    (∃ (s : State) (th : ThreadId) (rs1 : Reg) (c : CtxId), s.issues th [rs1] ∧ s.thCtx th = some c ∧ (s.thr
      th).flying = false ∧ (s.thr th).super = true ∧ s.slotFree th = true ∧ (s.ctx c).mem.hasGran = true ∧
      17592186044416 ≤ BitVec.toNat ((s.thr th).xr rs1) ∧ BitVec.toNat ((s.thr th).xr rs1) < 35184372088832) ∧
    (∃ (s : State) (th : ThreadId) (c : CtxId) (a : Option Word), s.thCtx th = some c ∧ (s.thr th).pend = some
      (Pend.pginv a) ∧ s.ctxServes c = true ∧ s.fetchable c ((s.thr th).pc + 4) = true ∧ (s.pageBusy c (Option.map
      (fun v => (BitVec.toNat v - 17592186044416) / 65536) a) = false)) :=
  ⟨⟨w0, 0, 0, 0, ⟨by decide +kernel, by decide +kernel⟩, by decide +kernel⟩,
    ⟨(w0.modThr 0 (fun t => { t with posted := [wPost] })), 0, 0, 0, ⟨by decide +kernel, by decide +kernel⟩,
      by decide +kernel⟩,
    ⟨{ (w0.modThr 0 (fun t => { t with x := [(1, 17592186241024)] })) with ctxs := [(0, { wCtx0 with mem := { regions := [(wReg 2 0 100)] } })] },
      0, 1, 0, ⟨by decide +kernel, by decide +kernel⟩, by decide +kernel⟩,
    ⟨{ (w0.modThr 0 (fun t => { t with st := TState.waitMem, pend := (some (Pend.pginv none)) })) with cores := [(0, { tlb := [(3, { ppn := 5, r := true, w := true, x := true, u := true })] })] },
      0, 0, none, by decide +kernel⟩⟩

end WFenceAndInvalidation

namespace WInterruptsAndPendingErrors

theorem witness_InterruptsAndPendingErrors :
    (∃ (s : State) (th : ThreadId) (c : CtxId), (s.thCtx th = some c ∧ s.ctxRuns c = true) ∧ s.handles th ∧ (s.thr
      th).pauseReq = false ∧ (s.thr th).stopReq = false ∧ (s.thr th).asyncQ = [] ∧ (s.thr th).pend = none ∧ ((s.thr
      th).st = TState.ready ∨ (s.thr th).st = TState.waitFetch ∨ (s.thr th).st = TState.waitUnit) ∧ (s.thr
      th).csr.status.getLsbD 1 = true ∧ (s.thr th).csr.status.getLsbD 5 = false ∧ (s.thr th).csr.ipend.getLsbD 1 =
      true ∧ (s.thr th).csr.ien.getLsbD 1 = true) ∧
    (∃ (s : State) (th : ThreadId) (c : CtxId), (s.thCtx th = some c ∧ s.ctxRuns c = true) ∧ s.handles th ∧ (s.thr
      th).pauseReq = false ∧ (s.thr th).stopReq = false ∧ (s.thr th).asyncQ = [] ∧ (s.thr th).pend = none ∧ ((s.thr
      th).st = TState.ready ∨ (s.thr th).st = TState.waitFetch ∨ (s.thr th).st = TState.waitUnit) ∧ (s.thr
      th).csr.status.getLsbD 1 = true ∧ (s.thr th).csr.status.getLsbD 5 = false ∧ (s.thr th).csr.ipend &&& (s.thr
      th).csr.ien = 1) ∧
    (∃ (s : State) (th : ThreadId) (c : CtxId), s.thCtx th = some c ∧ ∃ (code : Reason) (va : Word) (rest : List
      (Reason × Word)), s.thServes th = true ∧ s.handles th ∧ (s.thr th).pauseReq = false ∧ (s.thr th).stopReq =
      false ∧ (s.thr th).pend = none ∧ ((s.thr th).st = TState.ready ∨ (s.thr th).st = TState.waitFetch ∨ (s.thr
      th).st = TState.waitUnit) ∧ (s.thr th).asyncQ = (code, va) :: rest) ∧
    (∃ (s : State) (th : ThreadId) (c : CtxId), s.thCtx th = some c ∧ (s.thr th).csr.timer ≠ 0 ∧ (s.thr th).st ≠
      TState.paused ∧ (s.thr th).st ≠ TState.halted) :=
  ⟨⟨(w0.modThr 0 (fun t => { t with csr := { t.csr with status := 3, ien := 3, ipend := 3, timer := 5 } })), 0, 0,
      by decide +kernel, ⟨by decide +kernel, by decide +kernel, by decide +kernel⟩, by decide +kernel⟩,
    ⟨(w0.modThr 0 (fun t => { t with csr := { t.csr with status := 3, ien := 1, ipend := 3 } })), 0, 0,
      by decide +kernel, ⟨by decide +kernel, by decide +kernel, by decide +kernel⟩, by decide +kernel⟩,
    ⟨(w0.modThr 0 (fun t => { t with csr := { t.csr with status := 3, ipend := 3 }, asyncQ := [(1026, 5)] })), 0, 0,
      by decide +kernel, 1026, 5, [], by decide +kernel, ⟨by decide +kernel, by decide +kernel, by decide +kernel⟩,
      by decide +kernel⟩,
    ⟨(w0.modThr 0 (fun t => { t with csr := { t.csr with status := 3, ien := 3, ipend := 3, timer := 5 } })), 0, 0,
      by decide +kernel⟩⟩

end WInterruptsAndPendingErrors

namespace WMemoryUnitEvents

def wReq : Req := { line := 0x8000000, parts := [0], sent := true }
def wAcc : Access := { kind := .load, parts := [{ va := 0x200000008, len := 4, idx := 0 }], fin := .ld 5 4 false }
def wPost : Posted := { id := 0, va := 0x200000008, pc := 0x200000000, gen := 0, what := .cells [(0x200000008, 1), (0x200000009, 2)] }

theorem witness_MemoryUnitEvents :
    (∃ (s : State) (th : ThreadId) (c : CtxId) (r : RegionEntry) (rest : List Word), s.thCtx th = some c ∧ s.thServes
      th = true ∧ (s.thr th).fills = (s.thr th).pc :: rest ∧ (s.thr th).st = TState.waitFetch ∧ (s.thr th).pend =
      none ∧ (s.thr th).flying = false ∧ (s.thr th).pauseReq = false ∧ (s.thr th).stopReq = false ∧ 8589934592 ≤
      BitVec.toNat (s.thr th).pc ∧ BitVec.toNat (s.thr th).pc < 12884901888 ∧ BitVec.toNat (s.thr th).pc % 4 = 0 ∧
      (s.ctx c).mem.region 0 ((BitVec.toNat (s.thr th).pc - 8589934592) / 536870912) (BitVec.toNat (s.thr th).pc %
      536870912 / 1048576) = some r ∧ r.x = true ∧ ((s.thr th).super || r.u) = true ∧ s.poisonIn (BitVec.toNat (s.thr
      th).pc / 64 * 64) 64 = false) ∧
    (∃ (s : State) (th : ThreadId) (k : ℕ) (p : Posted), s.thServes th = true ∧ (s.thr th).posted[k]? = some p ∧
      (s.thr th).pend = none ∧ (s.thr th).st = TState.ready) ∧
    (∃ (s : State) (g : CoreId) (k : ℕ), k < s.outside (BitVec.toNat g)) ∧
    (∃ (s : State) (n ch bank : BitVec 4) (c : CtxId) (m : ℕ), 32 ≤ m ∧ (s.gran n.toNat).episode = []) ∧
    (∃ (s : State) (l : ℕ), scrubLocOk l = true ∧ s.boot.phase ≠ BootPhase.resetEntry) :=
  ⟨⟨(w0.modThr 0 (fun t => { t with st := TState.waitFetch, fills := [8589934592, 8589935104] })), 0, 0, (wReg 0 0
      512), [8589935104], by decide +kernel⟩,
    ⟨(w0.modThr 0 (fun t => { t with posted := [wPost] })), 0, 0, wPost, by decide +kernel⟩,
    ⟨(w0.modThr 0 (fun t =>
      { t with st := TState.waitMem, pend := (some (Pend.access { wAcc with parts := [{ va := 4294967312, len := 4, idx := 0 }] } none [{ wReq with line := (4294967312 / 64) }])) })),
      0, 0, by decide +kernel⟩,
    ⟨w0, 0, 0, 0, 0, 32, by decide +kernel⟩,
    ⟨{ w0 with boot := { w0.boot with phase := BootPhase.released } }, 8589934600, by decide +kernel⟩⟩

end WMemoryUnitEvents

namespace WTileHousekeepingResults

def wTile : TileRegs :=
  { t := [(0, { fmt := 0x1, rows := 4, data := BitVec.ofNat 8192 (0x3F803F80 + 2 ^ 520 + 2 ^ 1100), side := 5 }),
      (1, { fmt := 0x1, data := BitVec.ofNat 8192 (0x40003F80 + 2 ^ 513 * 0x1fc0) }),
      (2, { fmt := 0xB, data := BitVec.ofNat 8192 0x01020304FE }), (3, { fmt := 0x0, data := 7 }), (4, { fmt := 0x1, rows := 16 })]
    a := [(0, { fmt := 0x0, data := BitVec.ofNat 8192 (0x3F800000 + 2 ^ 40 + 2 ^ 1000 * 0x4049) }),
      (1, { fmt := 0xD, data := BitVec.ofNat 8192 (0xFFFFFF81 + 2 ^ 8000) }), (2, { fmt := 0x0, data := 0x40490FDB }),
      (3, { fmt := 0x0, poison := true })]
    trm := 0xFFFF, key := 7, ctr := 4095 }
def wt : State := (w0.modThr 0 fun t => { t with tile := wTile, x := [(1, 0x100), (2, 64), (3, 0xFFFFFFC0), (4, 0x2001)] })

theorem witness_TileHousekeepingResults :
    (∃ (s : State) (th : ThreadId) (rd rs1 : Reg) (a : BitVec 2) (int : Bool), s.issues th [rd, rs1] ∧ s.mayFetch th
      ((s.thr th).pc + 4) ∧ (s.thr th).tfly = none ∧ BitVec.toNat rd < 8 ∧ BitVec.toNat rs1 ≤ 12) ∧
    (∃ (s : State) (th : ThreadId) (rd rs1 : Reg) (a : BitVec 2) (int : Bool), s.issues th [rd, rs1] ∧ s.mayFetch th
      ((s.thr th).pc + 4) ∧ (s.thr th).tfly = none ∧ BitVec.toNat rd < 8 ∧ BitVec.toNat rs1 < 8 ∧ ((s.thr th).treg
      (BitVec.toNat rs1)).fmt ≠ 15 ∧ ((s.thr th).treg (BitVec.toNat rs1)).bad = false) ∧
    (∃ (s : State) (th : ThreadId) (rd rs1 : Reg) (a : BitVec 2) (int : Bool), s.issues th [rd, rs1] ∧ s.mayFetch th
      ((s.thr th).pc + 4) ∧ (s.thr th).tfly = none ∧ 8 ≤ BitVec.toNat rd ∧ BitVec.toNat rd < 12) ∧
    (∃ (s : State) (th : ThreadId) (rd rs1 : Reg) (a : BitVec 2) (int : Bool), s.issues th [rd, rs1] ∧ s.mayFetch th
      ((s.thr th).pc + 4) ∧ (s.thr th).tfly = none ∧ BitVec.toNat rs1 < 8) ∧
    (∃ (s : State) (th : ThreadId) (rd rs1 : Reg) (a : BitVec 2) (int : Bool), s.issues th [rd, rs1] ∧ s.mayFetch th
      ((s.thr th).pc + 4) ∧ (s.thr th).tfly = none ∧ 8 ≤ BitVec.toNat rs1 ∧ BitVec.toNat rs1 < 12) :=
  ⟨⟨wt, 0, 0, 0, 0, false, ⟨by decide +kernel, by decide +kernel⟩, ⟨_, rfl, by decide +kernel⟩, by decide +kernel⟩,
    ⟨wt, 0, 0, 0, 0, false, ⟨by decide +kernel, by decide +kernel⟩, ⟨_, rfl, by decide +kernel⟩, by decide +kernel⟩,
    ⟨wt, 0, 8, 0, 0, false, ⟨by decide +kernel, by decide +kernel⟩, ⟨_, rfl, by decide +kernel⟩, by decide +kernel⟩,
    ⟨wt, 0, 0, 0, 0, false, ⟨by decide +kernel, by decide +kernel⟩, ⟨_, rfl, by decide +kernel⟩, by decide +kernel⟩,
    ⟨wt, 0, 0, 8, 0, false, ⟨by decide +kernel, by decide +kernel⟩, ⟨_, rfl, by decide +kernel⟩, by decide +kernel⟩⟩

end WTileHousekeepingResults

namespace WTileLoadsFromOwnBench

def wTile : TileRegs :=
  { t := [(0, { fmt := 0x1, rows := 4, data := BitVec.ofNat 8192 (0x3F803F80 + 2 ^ 520 + 2 ^ 1100), side := 5 }),
      (1, { fmt := 0x1, data := BitVec.ofNat 8192 (0x40003F80 + 2 ^ 513 * 0x1fc0) }),
      (2, { fmt := 0xB, data := BitVec.ofNat 8192 0x01020304FE }), (3, { fmt := 0x0, data := 7 }), (4, { fmt := 0x1, rows := 16 })]
    a := [(0, { fmt := 0x0, data := BitVec.ofNat 8192 (0x3F800000 + 2 ^ 40 + 2 ^ 1000 * 0x4049) }),
      (1, { fmt := 0xD, data := BitVec.ofNat 8192 (0xFFFFFF81 + 2 ^ 8000) }), (2, { fmt := 0x0, data := 0x40490FDB }),
      (3, { fmt := 0x0, poison := true })]
    trm := 0xFFFF, key := 7, ctr := 4095 }
def wt : State := (w0.modThr 0 fun t => { t with tile := wTile, x := [(1, 0x100), (2, 64), (3, 0xFFFFFFC0), (4, 0x2001)] })

theorem witness_TileLoadsFromOwnBench :
    (∃ (s : State) (th : ThreadId) (f : TMem) (g : TAcc) (i : ℕ), s.issues th [f.rb, f.rs, f.rsc, g.rb, g.rs] ∧
      s.mayFetch th ((s.thr th).pc + 4) ∧ (s.thr th).flying = false ∧ (s.core (thCore th)).promised = false ∧
      tileFmtOk f.fmt = true ∧ isMx f.fmt = false ∧ f.rsc = 0 ∧ (∀ r ≤ f.n.toNat, (BitVec.ofInt 64 (BitVec.toInt
      ((s.thr th).xr f.rb) + ↑r * (BitVec.setWidth 32 ((s.thr th).xr f.rs)).toInt)).toNat + 64 ≤ 1048576 ∧
      (BitVec.ofInt 64 (BitVec.toInt ((s.thr th).xr f.rb) + ↑r * (BitVec.setWidth 32 ((s.thr th).xr
      f.rs)).toInt)).toNat % 64 = 0 ∧ s.poisonIn (4294967296 + thCore th * 1048576 + (BitVec.ofInt 64 (BitVec.toInt
      ((s.thr th).xr f.rb) + ↑r * (BitVec.setWidth 32 ((s.thr th).xr f.rs)).toInt)).toNat) 64 = false ∧ (s.thr
      th).storesTo ((4294967296 + thCore th * 1048576 + (BitVec.ofInt 64 (BitVec.toInt ((s.thr th).xr f.rb) + ↑r *
      (BitVec.setWidth 32 ((s.thr th).xr f.rs)).toInt)).toNat) / 64) = false)) ∧
    (∃ (s : State) (th : ThreadId) (f : TMem) (g : TAcc) (i : ℕ), s.issues th [f.rb, f.rs, f.rsc, g.rb, g.rs] ∧
      s.mayFetch th ((s.thr th).pc + 4) ∧ (s.thr th).flying = false ∧ (s.core (thCore th)).promised = false ∧
      tileFmtOk f.fmt = true ∧ isMx f.fmt = false ∧ f.rsc = 0 ∧ (∀ r < tileK f.fmt, (BitVec.ofInt 64 (BitVec.toInt
      ((s.thr th).xr f.rb) + ↑r * (BitVec.setWidth 32 ((s.thr th).xr f.rs)).toInt)).toNat + 64 ≤ 1048576 ∧
      (BitVec.ofInt 64 (BitVec.toInt ((s.thr th).xr f.rb) + ↑r * (BitVec.setWidth 32 ((s.thr th).xr
      f.rs)).toInt)).toNat % 64 = 0 ∧ s.poisonIn (4294967296 + thCore th * 1048576 + (BitVec.ofInt 64 (BitVec.toInt
      ((s.thr th).xr f.rb) + ↑r * (BitVec.setWidth 32 ((s.thr th).xr f.rs)).toInt)).toNat) 64 = false ∧ (s.thr
      th).storesTo ((4294967296 + thCore th * 1048576 + (BitVec.ofInt 64 (BitVec.toInt ((s.thr th).xr f.rb) + ↑r *
      (BitVec.setWidth 32 ((s.thr th).xr f.rs)).toInt)).toNat) / 64) = false)) ∧
    (∃ (s : State) (th : ThreadId) (f : TMem) (g : TAcc) (i : ℕ), s.issues th [f.rb, f.rs, f.rsc, g.rb, g.rs] ∧
      s.mayFetch th ((s.thr th).pc + 4) ∧ (s.thr th).flying = false ∧ (s.core (thCore th)).promised = false ∧ g.mbz =
      0 ∧ (∀ r < (16 : ℕ), (BitVec.ofInt 64 (BitVec.toInt ((s.thr th).xr g.rb) + ↑r * (BitVec.setWidth 32 ((s.thr
      th).xr g.rs)).toInt)).toNat + 64 ≤ 1048576 ∧ (BitVec.ofInt 64 (BitVec.toInt ((s.thr th).xr g.rb) + ↑r *
      (BitVec.setWidth 32 ((s.thr th).xr g.rs)).toInt)).toNat % 64 = 0 ∧ s.poisonIn (4294967296 + thCore th * 1048576
      + (BitVec.ofInt 64 (BitVec.toInt ((s.thr th).xr g.rb) + ↑r * (BitVec.setWidth 32 ((s.thr th).xr
      g.rs)).toInt)).toNat) 64 = false ∧ (s.thr th).storesTo ((4294967296 + thCore th * 1048576 + (BitVec.ofInt 64
      (BitVec.toInt ((s.thr th).xr g.rb) + ↑r * (BitVec.setWidth 32 ((s.thr th).xr g.rs)).toInt)).toNat) / 64) =
      false)) :=
  ⟨⟨wt, 0, { t := 0, rb := 1, rs := 2, rsc := 0, fmt := 1, n := 3 },
      { a := 0, rb := 1, rs := 2, int := false, mbz := 0 }, 0, ⟨by decide +kernel, by decide +kernel⟩, ⟨_, rfl,
      by decide +kernel⟩, by decide +kernel⟩,
    ⟨wt, 0, { t := 0, rb := 1, rs := 2, rsc := 0, fmt := 1, n := 3 },
      { a := 0, rb := 1, rs := 2, int := false, mbz := 0 }, 0, ⟨by decide +kernel, by decide +kernel⟩, ⟨_, rfl,
      by decide +kernel⟩, by decide +kernel⟩,
    ⟨wt, 0, { t := 0, rb := 1, rs := 2, rsc := 0, fmt := 1, n := 3 },
      { a := 0, rb := 1, rs := 2, int := false, mbz := 0 }, 0, ⟨by decide +kernel, by decide +kernel⟩, ⟨_, rfl,
      by decide +kernel⟩, by decide +kernel⟩⟩

end WTileLoadsFromOwnBench

namespace WTileStoresToOwnBench

def wTile : TileRegs :=
  { t := [(0, { fmt := 0x1, rows := 4, data := BitVec.ofNat 8192 (0x3F803F80 + 2 ^ 520 + 2 ^ 1100), side := 5 }),
      (1, { fmt := 0x1, data := BitVec.ofNat 8192 (0x40003F80 + 2 ^ 513 * 0x1fc0) }),
      (2, { fmt := 0xB, data := BitVec.ofNat 8192 0x01020304FE }), (3, { fmt := 0x0, data := 7 }), (4, { fmt := 0x1, rows := 16 })]
    a := [(0, { fmt := 0x0, data := BitVec.ofNat 8192 (0x3F800000 + 2 ^ 40 + 2 ^ 1000 * 0x4049) }),
      (1, { fmt := 0xD, data := BitVec.ofNat 8192 (0xFFFFFF81 + 2 ^ 8000) }), (2, { fmt := 0x0, data := 0x40490FDB }),
      (3, { fmt := 0x0, poison := true })]
    trm := 0xFFFF, key := 7, ctr := 4095 }
def wt : State := (w0.modThr 0 fun t => { t with tile := wTile, x := [(1, 0x100), (2, 64), (3, 0xFFFFFFC0), (4, 0x2001)] })

theorem witness_TileStoresToOwnBench :
    (∃ (s : State) (th : ThreadId) (f : TMem) (g : TAcc), s.issues th [f.rb, f.rs, f.rsc, g.rb, g.rs] ∧ s.mayFetch th
      ((s.thr th).pc + 4) ∧ (s.thr th).flying = false ∧ (s.core (thCore th)).promised = false ∧ Memory.wf s.mem =
      true ∧ tileFmtOk f.fmt = true ∧ isMx f.fmt = false ∧ f.rsc = 0 ∧ ((s.thr th).treg f.t.toNat).fmt = f.fmt ∧
      ((s.thr th).treg f.t.toNat).bad = false ∧ (∀ r < f.n.toNat + 1, (BitVec.ofInt 64 (BitVec.toInt ((s.thr th).xr
      f.rb) + ↑r * (BitVec.setWidth 32 ((s.thr th).xr f.rs)).toInt)).toNat + 64 ≤ 1048576 ∧ (BitVec.ofInt 64
      (BitVec.toInt ((s.thr th).xr f.rb) + ↑r * (BitVec.setWidth 32 ((s.thr th).xr f.rs)).toInt)).toNat % 64 = 0 ∧
      (s.thr th).storesTo ((4294967296 + thCore th * 1048576 + (BitVec.ofInt 64 (BitVec.toInt ((s.thr th).xr f.rb) +
      ↑r * (BitVec.setWidth 32 ((s.thr th).xr f.rs)).toInt)).toNat) / 64) = false)) ∧
    (∃ (s : State) (th : ThreadId) (f : TMem) (g : TAcc), s.issues th [f.rb, f.rs, f.rsc, g.rb, g.rs] ∧ s.mayFetch th
      ((s.thr th).pc + 4) ∧ (s.thr th).flying = false ∧ (s.core (thCore th)).promised = false ∧ Memory.wf s.mem =
      true ∧ g.mbz = 0 ∧ (((s.thr th).areg g.a.toNat).fmt = if g.int = true then 13 else 0) ∧ ((s.thr th).areg
      g.a.toNat).poison = false ∧ ((s.thr th).areg g.a.toNat).bad = false ∧ (∀ r < (16 : ℕ), (BitVec.ofInt 64
      (BitVec.toInt ((s.thr th).xr g.rb) + ↑r * (BitVec.setWidth 32 ((s.thr th).xr g.rs)).toInt)).toNat + 64 ≤
      1048576 ∧ (BitVec.ofInt 64 (BitVec.toInt ((s.thr th).xr g.rb) + ↑r * (BitVec.setWidth 32 ((s.thr th).xr
      g.rs)).toInt)).toNat % 64 = 0 ∧ (s.thr th).storesTo ((4294967296 + thCore th * 1048576 + (BitVec.ofInt 64
      (BitVec.toInt ((s.thr th).xr g.rb) + ↑r * (BitVec.setWidth 32 ((s.thr th).xr g.rs)).toInt)).toNat) / 64) =
      false)) :=
  ⟨⟨wt, 0, { t := 0, rb := 1, rs := 2, rsc := 0, fmt := 1, n := 3 },
      { a := 0, rb := 1, rs := 2, int := false, mbz := 0 }, ⟨by decide +kernel, by decide +kernel⟩, ⟨_, rfl,
      by decide +kernel⟩, by decide +kernel⟩,
    ⟨wt, 0, { t := 0, rb := 1, rs := 2, rsc := 0, fmt := 1, n := 3 },
      { a := 0, rb := 1, rs := 2, int := false, mbz := 0 }, ⟨by decide +kernel, by decide +kernel⟩, ⟨_, rfl,
      by decide +kernel⟩, by decide +kernel⟩⟩

end WTileStoresToOwnBench

namespace WAccumulatorConversion

def wTile : TileRegs :=
  { t := [(0, { fmt := 0x1, rows := 4, data := BitVec.ofNat 8192 (0x3F803F80 + 2 ^ 520 + 2 ^ 1100), side := 5 }),
      (1, { fmt := 0x1, data := BitVec.ofNat 8192 (0x40003F80 + 2 ^ 513 * 0x1fc0) }),
      (2, { fmt := 0xB, data := BitVec.ofNat 8192 0x01020304FE }), (3, { fmt := 0x0, data := 7 }), (4, { fmt := 0x1, rows := 16 })]
    a := [(0, { fmt := 0x0, data := BitVec.ofNat 8192 (0x3F800000 + 2 ^ 40 + 2 ^ 1000 * 0x4049) }),
      (1, { fmt := 0xD, data := BitVec.ofNat 8192 (0xFFFFFF81 + 2 ^ 8000) }), (2, { fmt := 0x0, data := 0x40490FDB }),
      (3, { fmt := 0x0, poison := true })]
    trm := 0xFFFF, key := 7, ctr := 4095 }
def wt : State := (w0.modThr 0 fun t => { t with tile := wTile, x := [(1, 0x100), (2, 64), (3, 0xFFFFFFC0), (4, 0x2001)] })

theorem witness_AccumulatorConversion :
    (∃ (s : State) (th : ThreadId) (f : TCvt), s.issues th [] ∧ s.mayFetch th ((s.thr th).pc + 4) ∧ (s.thr th).tfly =
      none ∧ f.mbz = 0 ∧ f.rm ≠ 3 ∧ ((s.thr th).areg f.as.toNat).poison = false ∧ ((s.thr th).areg f.as.toNat).bad =
      false ∧ (f.cg ≠ 0 → ((s.thr th).treg f.td.toNat).fmt = f.fmt ∧ ((s.thr th).treg f.td.toNat).bad = false) ∧
      (((s.thr th).areg f.as.toNat).fmt = 0 ∧ f.fmt ∈ [0, 1, 2, 3, 4] ∨ ((s.thr th).areg f.as.toNat).fmt = 13 ∧ f.rm
      = 0 ∧ f.fmt ∈ [11, 12] ∨ ((s.thr th).areg f.as.toNat).fmt = 0 ∧ isMx f.fmt = true ∧ f.as ∈ [0, 2] ∧ ((s.thr
      th).areg (f.as.toNat + 1)).fmt = 0 ∧ ((s.thr th).areg (f.as.toNat + 1)).poison = false ∧ ((s.thr th).areg
      (f.as.toNat + 1)).bad = false) ∧ (f.cg.toNat < if f.fmt = 0 then 1 else if f.fmt ∈ [1, 2] then 2 else if f.fmt
      ∈ [3, 4, 11, 9] then 4 else if f.fmt = 12 then 8 else 2) ∧ f.fmt = 0) :=
  ⟨wt, 0, { as := 0, td := 4, fmt := 0, rm := 0, cg := 0, mbz := 0 }, ⟨by decide +kernel, by decide +kernel⟩, ⟨_,
    rfl, by decide +kernel⟩, by decide +kernel⟩

end WAccumulatorConversion

namespace WProductsThroughTheArrays

def wTile : TileRegs :=
  { t := [(0, { fmt := 0x1, rows := 4, data := BitVec.ofNat 8192 (0x3F803F80 + 2 ^ 520 + 2 ^ 1100), side := 5 }),
      (1, { fmt := 0x1, data := BitVec.ofNat 8192 (0x40003F80 + 2 ^ 513 * 0x1fc0) }),
      (2, { fmt := 0xB, data := BitVec.ofNat 8192 0x01020304FE }), (3, { fmt := 0x0, data := 7 }), (4, { fmt := 0x1, rows := 16 })]
    a := [(0, { fmt := 0x0, data := BitVec.ofNat 8192 (0x3F800000 + 2 ^ 40 + 2 ^ 1000 * 0x4049) }),
      (1, { fmt := 0xD, data := BitVec.ofNat 8192 (0xFFFFFF81 + 2 ^ 8000) }), (2, { fmt := 0x0, data := 0x40490FDB }),
      (3, { fmt := 0x0, poison := true })]
    trm := 0xFFFF, key := 7, ctr := 4095 }
def wt : State := (w0.modThr 0 fun t => { t with tile := wTile, x := [(1, 0x100), (2, 64), (3, 0xFFFFFFC0), (4, 0x2001)] })
def mul0 : TMul := ⟨0, 0, 1, 1, 1, 0⟩

theorem witness_ProductsThroughTheArrays :
    (∃ (s : State) (th : ThreadId) (f : TMul) (zero : Bool) (acc : BitVec 4), s.issues th [] ∧ s.mayFetch th ((s.thr
      th).pc + 4) ∧ (s.thr th).tfly = none ∧ f.mbz = 0 ∧ tileFmtOk f.tfmt = true ∧ tileFmtOk f.ufmt = true ∧ ((s.thr
      th).treg f.t.toNat).fmt = f.tfmt ∧ ((s.thr th).treg f.u.toNat).fmt = f.ufmt ∧ pairAcc f.tfmt f.ufmt = some acc
      ∧ (zero = false → ((s.thr th).areg f.a.toNat).fmt = acc ∧ ((s.thr th).areg f.a.toNat).poison = false) ∧ (s.thr
      th).tile.tkm = 0) ∧
    (∃ (s : State) (th : ThreadId) (f : TMul) (zero : Bool) (acc : BitVec 4), s.issues th [] ∧ s.mayFetch th ((s.thr
      th).pc + 4) ∧ (s.thr th).tfly = none ∧ f.mbz = 0 ∧ tileFmtOk f.tfmt = true ∧ tileFmtOk f.ufmt = true ∧ ((s.thr
      th).treg f.t.toNat).fmt = f.tfmt ∧ ((s.thr th).treg f.u.toNat).fmt = f.ufmt ∧ pairAcc f.tfmt f.ufmt = some acc
      ∧ (zero = false → ((s.thr th).areg f.a.toNat).fmt = acc ∧ ((s.thr th).areg f.a.toNat).poison = false) ∧ (s.thr
      th).tile.tkm ≠ 0 ∧ (s.core (thCore th)).window = 0 ∧ (s.core (thCore th)).arr = Arr.off ∧ (s.thr th).pauseReq =
      false) ∧
    (∃ (s : State) (th : ThreadId) (f : TMul) (zero : Bool) (acc : BitVec 4), s.issues th [] ∧ s.mayFetch th ((s.thr
      th).pc + 4) ∧ (s.thr th).tfly = none ∧ f.mbz = 0 ∧ tileFmtOk f.tfmt = true ∧ tileFmtOk f.ufmt = true ∧ ((s.thr
      th).treg f.t.toNat).fmt = f.tfmt ∧ ((s.thr th).treg f.u.toNat).fmt = f.ufmt ∧ pairAcc f.tfmt f.ufmt = some acc
      ∧ (zero = false → ((s.thr th).areg f.a.toNat).fmt = acc ∧ ((s.thr th).areg f.a.toNat).poison = false) ∧ (s.thr
      th).tile.tkm ≠ 0 ∧ (s.core (thCore th)).window ≠ 0 ∧ (s.core (thCore th)).groups = [] ∧ (s.thr th).tile.tbm ≠ 0
      ∧ 0 < activeRows ((s.thr th).treg f.t.toNat) (s.thr th).tile.trm ∧ activeRows ((s.thr th).treg f.t.toNat)
      (s.thr th).tile.trm < 16) ∧
    (∃ (s : State) (th : ThreadId) (g : CoreId) (m : Mma), (thCore th = BitVec.toNat g ∧ m.th = th ∧ (s.core
      (BitVec.toNat g)).arr = Arr.rampUp ∧ (s.core (BitVec.toNat g)).ready = [[m]]) ∧ s.mayFetch th ((s.thr th).pc +
      4) ∧ (∀ (th' : ThreadId), thCore th' = BitVec.toNat g → (s.thr th').tfly = none) ∧ (s.thr th).pauseReq = false
      ∧ (s.thr th).stopReq = false ∧ ((s.thr th).treg m.f.t.toNat).bad = false ∧ ((s.thr th).treg m.f.u.toNat).bad =
      false ∧ ((s.thr th).areg m.f.a.toNat).bad = false) :=
  ⟨⟨(wt.modThr 0 (fun t => { t with tile := { t.tile with tkm := 0 } })), 0, mul0, false, 0, ⟨by decide +kernel,
      by decide +kernel⟩, ⟨_, rfl, by decide +kernel⟩, by decide +kernel⟩,
    ⟨(wt.modCore 0 (fun c => { c with window := 0 })), 0, mul0, false, 0, ⟨by decide +kernel, by decide +kernel⟩, ⟨_,
      rfl, by decide +kernel⟩, by decide +kernel⟩,
    ⟨wt, 0, mul0, false, 0, ⟨by decide +kernel, by decide +kernel⟩, ⟨_, rfl, by decide +kernel⟩, by decide +kernel⟩,
    ⟨(wt.modCore 0 (fun c => { c with arr := Arr.rampUp, ready := [[{ th := 0, zero := false, f := mul0 }]] })), 0,
      0, { th := 0, zero := false, f := mul0 }, by decide +kernel, ⟨_, rfl, by decide +kernel⟩, by decide +kernel⟩⟩

end WProductsThroughTheArrays

namespace WTileEngineEvents

def wTile : TileRegs :=
  { t := [(0, { fmt := 0x1, rows := 4, data := BitVec.ofNat 8192 (0x3F803F80 + 2 ^ 520 + 2 ^ 1100), side := 5 }),
      (1, { fmt := 0x1, data := BitVec.ofNat 8192 (0x40003F80 + 2 ^ 513 * 0x1fc0) }),
      (2, { fmt := 0xB, data := BitVec.ofNat 8192 0x01020304FE }), (3, { fmt := 0x0, data := 7 }), (4, { fmt := 0x1, rows := 16 })]
    a := [(0, { fmt := 0x0, data := BitVec.ofNat 8192 (0x3F800000 + 2 ^ 40 + 2 ^ 1000 * 0x4049) }),
      (1, { fmt := 0xD, data := BitVec.ofNat 8192 (0xFFFFFF81 + 2 ^ 8000) }), (2, { fmt := 0x0, data := 0x40490FDB }),
      (3, { fmt := 0x0, poison := true })]
    trm := 0xFFFF, key := 7, ctr := 4095 }
def wt : State := (w0.modThr 0 fun t => { t with tile := wTile, x := [(1, 0x100), (2, 64), (3, 0xFFFFFFC0), (4, 0x2001)] })
def mul0 : TMul := ⟨0, 0, 1, 1, 1, 0⟩

theorem witness_TileEngineEvents :
    (∃ (s : State) (g : CoreId) (k : ℕ) (x : Machine.Group), (s.core (BitVec.toNat g)).groups[k]? = some x ∧ (s.core
      (BitVec.toNat g)).arr = Arr.off) ∧
    (∃ (s : State) (g : CoreId), (s.core (BitVec.toNat g)).arr = Arr.hold) ∧
    (∃ (s : State) (g : CoreId), (s.core (BitVec.toNat g)).arr = Arr.rampDown) ∧
    (∃ (s : State) (g : CoreId) (v : Word), (s.core (BitVec.toNat g)).idle.toNat ≤ 8) ∧
    (∃ (s : State) (g : CoreId) (th : ThreadId) (n : BitVec 3) (row : BitVec 4), thCore th = BitVec.toNat g ∧ n.toNat
      < 4) :=
  ⟨⟨(wt.modCore 0 (fun c =>
      { c with groups := [{ members := [{ th := 0, zero := false, f := mul0 }], window := 48 }] })), 0, 0, _, rfl,
      by decide +kernel⟩,
    ⟨(wt.modCore 0 (fun c => { c with idle := 8, arr := Arr.hold })), 0, by decide +kernel⟩,
    ⟨(wt.modCore 0 (fun c => { c with idle := 3, tEccC := 4294967295, tEccU := 4294967295, arr := Arr.rampDown })),
      0, by decide +kernel⟩,
    ⟨wt, 0, 0, by decide +kernel⟩,
    ⟨wt, 0, 0, 0, 0, by decide +kernel⟩⟩

end WTileEngineEvents

namespace WVectorIntegerResults

theorem witness_VectorIntegerResults :
    (∃ (s : State) (th : ThreadId) (f : VInt), vectorReady s th [] ∧ f.z = false) :=
  ⟨wv, 0, { vd := 3, vs1 := 0, vs2 := 4, pg := 0, z := false, esz := 0 }, ⟨⟨by decide +kernel, by decide +kernel⟩,
    ⟨⟨_, rfl, by decide +kernel⟩, by decide +kernel⟩⟩, by decide +kernel⟩

end WVectorIntegerResults

namespace WVectorCompareResults

theorem witness_VectorCompareResults :
    (∃ (s : State) (th : ThreadId) (f : VInt) (g : VFlt) (sp : FSpec), vectorReady s th [] ∧ BitVec.toNat f.vd < 16) ∧
    (∃ (s : State) (th : ThreadId) (f : VInt) (g : VFlt) (sp : FSpec), vectorReady s th [] ∧ arithFmt g.fmt = some sp
      ∧ BitVec.toNat g.vd < 16) :=
  ⟨⟨wv, 0, { vd := 3, vs1 := 1, vs2 := 2, pg := 1, z := true, esz := 2 },
      { vd := 3, vs1 := 1, vs2 := 2, pg := 1, z := true, fmt := 0 }, fp32, ⟨⟨by decide +kernel, by decide +kernel⟩,
      ⟨⟨_, rfl, by decide +kernel⟩, by decide +kernel⟩⟩, by decide +kernel⟩,
    ⟨wv, 0, { vd := 3, vs1 := 1, vs2 := 2, pg := 1, z := true, esz := 2 },
      { vd := 3, vs1 := 1, vs2 := 2, pg := 1, z := true, fmt := 0 }, fp32, ⟨⟨by decide +kernel, by decide +kernel⟩,
      ⟨⟨_, rfl, by decide +kernel⟩, by decide +kernel⟩⟩, by decide +kernel⟩⟩

end WVectorCompareResults

namespace WVectorFloatResults

theorem witness_VectorFloatResults :
    (∃ (s : State) (th : ThreadId) (f : VFlt) (sp : FSpec), vectorReady s th [] ∧ arithFmt f.fmt = some sp ∧ f.vs2 =
      0) :=
  ⟨wv, 0, { vd := 9, vs1 := 0, vs2 := 0, pg := 0, z := false, fmt := 14 }, fp64, ⟨⟨by decide +kernel,
    by decide +kernel⟩, ⟨⟨_, rfl, by decide +kernel⟩, by decide +kernel⟩⟩, by decide +kernel⟩

end WVectorFloatResults

namespace WReductionResults

theorem witness_ReductionResults :
    (∃ (s : State) (th : ThreadId) (f : VRed), vectorReady s th [] ∧ f.mbz = 0 ∧ f.int = true ∧ f.sub.toNat % 4 = 0) ∧
    (∃ (s : State) (th : ThreadId) (f : VRed), vectorReady s th [] ∧ f.mbz = 0 ∧ f.int = true ∧ f.sub.toNat % 4 = 1) ∧
    (∃ (s : State) (th : ThreadId) (f : VRed), vectorReady s th [] ∧ f.mbz = 0 ∧ ∃ (sp : FSpec), f.int = false ∧
      arithFmt f.sub = some sp) :=
  ⟨⟨wv, 0, { vd := 3, vs := 1, mbz := 0, pg := 1, int := true, sub := 0 }, ⟨⟨by decide +kernel, by decide +kernel⟩,
      ⟨⟨_, rfl, by decide +kernel⟩, by decide +kernel⟩⟩, by decide +kernel⟩,
    ⟨wv, 0, { vd := 3, vs := 4, mbz := 0, pg := 0, int := true, sub := 5 }, ⟨⟨by decide +kernel, by decide +kernel⟩,
      ⟨⟨_, rfl, by decide +kernel⟩, by decide +kernel⟩⟩, by decide +kernel⟩,
    ⟨wv, 0, { vd := 3, vs := 1, mbz := 0, pg := 1, int := false, sub := 0 }, ⟨⟨by decide +kernel, by decide +kernel⟩,
      ⟨⟨_, rfl, by decide +kernel⟩, by decide +kernel⟩⟩, by decide +kernel, fp32, by decide +kernel⟩⟩

end WReductionResults

namespace WConversionResults

theorem witness_ConversionResults :
    (∃ (s : State) (th : ThreadId) (f : VCvt), vectorReady s th [] ∧ vcvtLegal f = true) ∧
    (∃ (s : State) (th : ThreadId) (f : VMisc) (sp : FSpec), vectorReady s th [f.rd, f.rs1] ∧ f.rs2 = 0 ∧ arithFmt
      (BitVec.setWidth 4 f.sub) = some sp ∧ f.sub.toNat / 16 ≠ 3) :=
  ⟨⟨wv, 0, { vd := 3, vs := 1, dfmt := 1, sfmt := 0, pg := 1, rm := 0, part := 0 }, ⟨⟨by decide +kernel,
      by decide +kernel⟩, ⟨⟨_, rfl, by decide +kernel⟩, by decide +kernel⟩⟩, by decide +kernel⟩,
    ⟨wv, 0, { rd := 3, rs1 := 1, rs2 := 0, sub := 0 }, fp32, ⟨⟨by decide +kernel, by decide +kernel⟩, ⟨⟨_, rfl,
      by decide +kernel⟩, by decide +kernel⟩⟩, by decide +kernel⟩⟩

end WConversionResults

namespace WVectorMemoryOwnBench

theorem witness_VectorMemoryOwnBench :
    (∃ (s : State) (th : ThreadId) (f : VMem), vectorReady s th [f.rb, f.rx] ∧ (s.thr th).tfly = none ∧ (s.core
      (thCore th)).promised = false ∧ Memory.wf s.mem = true ∧ f.rx = 0 ∧ f.sc = 0 ∧ (∀ j < 256 / 2 ^ f.esz.toNat,
      ((s.thr th).pred f.pg.toNat).getLsbD j = true → BitVec.toNat ((s.thr th).xr f.rb + BitVec.ofNat 64 (j * 2 ^
      f.esz.toNat)) + 2 ^ f.esz.toNat ≤ 1048576 ∧ BitVec.toNat ((s.thr th).xr f.rb + BitVec.ofNat 64 (j * 2 ^
      f.esz.toNat)) % 2 ^ f.esz.toNat = 0 ∧ (s.thr th).storesTo ((4294967296 + thCore th * 1048576 + BitVec.toNat
      ((s.thr th).xr f.rb + BitVec.ofNat 64 (j * 2 ^ f.esz.toNat))) / 64) = false) ∧ (∀ j < 256 / 2 ^ f.esz.toNat,
      ((s.thr th).pred f.pg.toNat).getLsbD j = true → s.poisonIn (4294967296 + thCore th * 1048576 + BitVec.toNat
      ((s.thr th).xr f.rb + BitVec.ofNat 64 (j * 2 ^ f.esz.toNat))) (2 ^ f.esz.toNat) = false)) ∧
    (∃ (s : State) (th : ThreadId) (f : VMem), vectorReady s th [f.rb, f.rx] ∧ (s.thr th).tfly = none ∧ (s.core
      (thCore th)).promised = false ∧ Memory.wf s.mem = true ∧ f.rx = 0 ∧ f.sc = 0 ∧ (∀ j < 256 / 2 ^ f.esz.toNat,
      ((s.thr th).pred f.pg.toNat).getLsbD j = true → BitVec.toNat ((s.thr th).xr f.rb + BitVec.ofNat 64 (j * 2 ^
      f.esz.toNat)) + 2 ^ f.esz.toNat ≤ 1048576 ∧ BitVec.toNat ((s.thr th).xr f.rb + BitVec.ofNat 64 (j * 2 ^
      f.esz.toNat)) % 2 ^ f.esz.toNat = 0 ∧ (s.thr th).storesTo ((4294967296 + thCore th * 1048576 + BitVec.toNat
      ((s.thr th).xr f.rb + BitVec.ofNat 64 (j * 2 ^ f.esz.toNat))) / 64) = false) ∧ s.poison = [] ∧ f.z = false) ∧
    (∃ (s : State) (th : ThreadId) (f : VMem), vectorReady s th [f.rb, f.rx] ∧ (s.thr th).tfly = none ∧ (s.core
      (thCore th)).promised = false ∧ Memory.wf s.mem = true ∧ f.sc = 0 ∧ (∀ j < 256 / 2 ^ f.esz.toNat, ((s.thr
      th).pred f.pg.toNat).getLsbD j = true → BitVec.toNat ((s.thr th).xr f.rb + BitVec.ofNat 64 j * (s.thr th).xr
      f.rx) + 2 ^ f.esz.toNat ≤ 1048576 ∧ BitVec.toNat ((s.thr th).xr f.rb + BitVec.ofNat 64 j * (s.thr th).xr f.rx)
      % 2 ^ f.esz.toNat = 0 ∧ (s.thr th).storesTo ((4294967296 + thCore th * 1048576 + BitVec.toNat ((s.thr th).xr
      f.rb + BitVec.ofNat 64 j * (s.thr th).xr f.rx)) / 64) = false) ∧ (∀ j < 256 / 2 ^ f.esz.toNat, ((s.thr th).pred
      f.pg.toNat).getLsbD j = true → s.poisonIn (4294967296 + thCore th * 1048576 + BitVec.toNat ((s.thr th).xr f.rb
      + BitVec.ofNat 64 j * (s.thr th).xr f.rx)) (2 ^ f.esz.toNat) = false)) ∧
    (∃ (s : State) (th : ThreadId) (f : VMem), vectorReady s th [f.rb, f.rx] ∧ (s.thr th).tfly = none ∧ (s.core
      (thCore th)).promised = false ∧ Memory.wf s.mem = true ∧ f.sc = 0 ∧ (∀ j < 256 / 2 ^ f.esz.toNat, ((s.thr
      th).pred f.pg.toNat).getLsbD j = true → BitVec.toNat ((s.thr th).xr f.rb + BitVec.ofNat 64 j * (s.thr th).xr
      f.rx) + 2 ^ f.esz.toNat ≤ 1048576 ∧ BitVec.toNat ((s.thr th).xr f.rb + BitVec.ofNat 64 j * (s.thr th).xr f.rx)
      % 2 ^ f.esz.toNat = 0 ∧ (s.thr th).storesTo ((4294967296 + thCore th * 1048576 + BitVec.toNat ((s.thr th).xr
      f.rb + BitVec.ofNat 64 j * (s.thr th).xr f.rx)) / 64) = false) ∧ s.poison = [] ∧ f.z = false) ∧
    (∃ (s : State) (th : ThreadId) (f : VMem), vectorReady s th [f.rb, f.rx] ∧ (s.thr th).tfly = none ∧ (s.core
      (thCore th)).promised = false ∧ Memory.wf s.mem = true ∧ (f.esz = 2 ∨ f.esz = 3) ∧ (∀ j < 256 / 2 ^
      f.esz.toNat, ((s.thr th).pred f.pg.toNat).getLsbD j = true → BitVec.toNat ((s.thr th).xr f.rb + BitVec.ofInt 64
      (signedVal (8 * 2 ^ f.esz.toNat) (vget ((s.thr th).vr f.rx) (2 ^ f.esz.toNat) j) * 2 ^ f.sc.toNat)) + 2 ^
      f.esz.toNat ≤ 1048576 ∧ BitVec.toNat ((s.thr th).xr f.rb + BitVec.ofInt 64 (signedVal (8 * 2 ^ f.esz.toNat)
      (vget ((s.thr th).vr f.rx) (2 ^ f.esz.toNat) j) * 2 ^ f.sc.toNat)) % 2 ^ f.esz.toNat = 0 ∧ (s.thr th).storesTo
      ((4294967296 + thCore th * 1048576 + BitVec.toNat ((s.thr th).xr f.rb + BitVec.ofInt 64 (signedVal (8 * 2 ^
      f.esz.toNat) (vget ((s.thr th).vr f.rx) (2 ^ f.esz.toNat) j) * 2 ^ f.sc.toNat))) / 64) = false) ∧ (∀ j < 256 /
      2 ^ f.esz.toNat, ((s.thr th).pred f.pg.toNat).getLsbD j = true → s.poisonIn (4294967296 + thCore th * 1048576 +
      BitVec.toNat ((s.thr th).xr f.rb + BitVec.ofInt 64 (signedVal (8 * 2 ^ f.esz.toNat) (vget ((s.thr th).vr f.rx)
      (2 ^ f.esz.toNat) j) * 2 ^ f.sc.toNat))) (2 ^ f.esz.toNat) = false)) ∧
    (∃ (s : State) (th : ThreadId) (f : VMem), vectorReady s th [f.rb, f.rx] ∧ (s.thr th).tfly = none ∧ (s.core
      (thCore th)).promised = false ∧ Memory.wf s.mem = true ∧ (f.esz = 2 ∨ f.esz = 3) ∧ (∀ j < 256 / 2 ^
      f.esz.toNat, ((s.thr th).pred f.pg.toNat).getLsbD j = true → BitVec.toNat ((s.thr th).xr f.rb + BitVec.ofInt 64
      (signedVal (8 * 2 ^ f.esz.toNat) (vget ((s.thr th).vr f.rx) (2 ^ f.esz.toNat) j) * 2 ^ f.sc.toNat)) + 2 ^
      f.esz.toNat ≤ 1048576 ∧ BitVec.toNat ((s.thr th).xr f.rb + BitVec.ofInt 64 (signedVal (8 * 2 ^ f.esz.toNat)
      (vget ((s.thr th).vr f.rx) (2 ^ f.esz.toNat) j) * 2 ^ f.sc.toNat)) % 2 ^ f.esz.toNat = 0 ∧ (s.thr th).storesTo
      ((4294967296 + thCore th * 1048576 + BitVec.toNat ((s.thr th).xr f.rb + BitVec.ofInt 64 (signedVal (8 * 2 ^
      f.esz.toNat) (vget ((s.thr th).vr f.rx) (2 ^ f.esz.toNat) j) * 2 ^ f.sc.toNat))) / 64) = false) ∧ s.poison = []
      ∧ f.z = false) :=
  ⟨⟨wv, 0, { v := 3, rb := 1, rx := 0, pg := 1, esz := 2, sc := 0, z := true }, ⟨⟨by decide +kernel,
      by decide +kernel⟩, ⟨⟨_, rfl, by decide +kernel⟩, by decide +kernel⟩⟩, by decide +kernel⟩,
    ⟨wv, 0, { v := 3, rb := 1, rx := 0, pg := 0, esz := 3, sc := 0, z := false }, ⟨⟨by decide +kernel,
      by decide +kernel⟩, ⟨⟨_, rfl, by decide +kernel⟩, by decide +kernel⟩⟩, by decide +kernel⟩,
    ⟨wv, 0, { v := 3, rb := 1, rx := 0, pg := 1, esz := 2, sc := 0, z := true }, ⟨⟨by decide +kernel,
      by decide +kernel⟩, ⟨⟨_, rfl, by decide +kernel⟩, by decide +kernel⟩⟩, by decide +kernel⟩,
    ⟨wv, 0, { v := 3, rb := 1, rx := 0, pg := 0, esz := 3, sc := 0, z := false }, ⟨⟨by decide +kernel,
      by decide +kernel⟩, ⟨⟨_, rfl, by decide +kernel⟩, by decide +kernel⟩⟩, by decide +kernel⟩,
    ⟨wv, 0, { v := 3, rb := 1, rx := 2, pg := 1, esz := 2, sc := 2, z := true }, ⟨⟨by decide +kernel,
      by decide +kernel⟩, ⟨⟨_, rfl, by decide +kernel⟩, by decide +kernel⟩⟩, by decide +kernel⟩,
    ⟨wv, 0, { v := 4, rb := 1, rx := 2, pg := 1, esz := 2, sc := 2, z := false }, ⟨⟨by decide +kernel,
      by decide +kernel⟩, ⟨⟨_, rfl, by decide +kernel⟩, by decide +kernel⟩⟩, by decide +kernel⟩⟩

end WVectorMemoryOwnBench

namespace WPredicateAndMoveResults

theorem witness_PredicateAndMoveResults_1 :
    (∃ (s : State) (th : ThreadId) (f : VMisc), vectorReady s th [f.rd, f.rs1, f.rs2] ∧ BitVec.toNat f.rd < 16 ∧
      BitVec.toNat f.rs1 < 16 ∧ BitVec.toNat f.rs2 < 16) ∧
    (∃ (s : State) (th : ThreadId) (f : VMisc), vectorReady s th [f.rd, f.rs1, f.rs2] ∧ BitVec.toNat f.rd < 16 ∧
      f.rs1 = 0 ∧ f.rs2 = 0) ∧
    (∃ (s : State) (th : ThreadId) (f : VMisc), vectorReady s th [f.rd, f.rs1, f.rs2] ∧ BitVec.toNat f.rd < 16 ∧
      f.rs2 = 0) ∧
    (∃ (s : State) (th : ThreadId) (f : VMisc), vectorReady s th [f.rd, f.rs1, f.rs2] ∧ BitVec.toNat f.rs1 < 16 ∧
      f.rs2 = 0) ∧
    (∃ (s : State) (th : ThreadId) (f : VMisc), vectorReady s th [f.rd, f.rs1, f.rs2] ∧ f.rs1 = 0 ∧ f.rs2 = 0) ∧
    (∃ (s : State) (th : ThreadId) (f : VMisc), vectorReady s th [f.rd, f.rs1, f.rs2] ∧ f.rd = 0 ∧ f.rs1 = 0 ∧ f.rs2
      = 0) ∧
    (∃ (s : State) (th : ThreadId) (f : VMisc), vectorReady s th [f.rd, f.rs1, f.rs2] ∧ BitVec.toNat f.rd < 16 ∧
      BitVec.toNat f.rs1 < 16 ∧ f.rs2 = 0) ∧
    (∃ (s : State) (th : ThreadId) (f : VMisc), vectorReady s th [f.rd, f.rs1, f.rs2] ∧ f.rd = 0 ∧ BitVec.toNat f.rs1
      < 16 ∧ f.rs2 = 0) :=
  ⟨⟨wv, 0, { rd := 3, rs1 := 1, rs2 := 0, sub := 0 }, ⟨⟨by decide +kernel, by decide +kernel⟩, ⟨⟨_, rfl,
      by decide +kernel⟩, by decide +kernel⟩⟩, by decide +kernel⟩,
    ⟨wv, 0, { rd := 4, rs1 := 0, rs2 := 0, sub := 3 }, ⟨⟨by decide +kernel, by decide +kernel⟩, ⟨⟨_, rfl,
      by decide +kernel⟩, by decide +kernel⟩⟩, by decide +kernel⟩,
    ⟨wv, 0, { rd := 3, rs1 := 1, rs2 := 0, sub := 0 }, ⟨⟨by decide +kernel, by decide +kernel⟩, ⟨⟨_, rfl,
      by decide +kernel⟩, by decide +kernel⟩⟩, by decide +kernel⟩,
    ⟨wv, 0, { rd := 3, rs1 := 1, rs2 := 0, sub := 0 }, ⟨⟨by decide +kernel, by decide +kernel⟩, ⟨⟨_, rfl,
      by decide +kernel⟩, by decide +kernel⟩⟩, by decide +kernel⟩,
    ⟨wv, 0, { rd := 4, rs1 := 0, rs2 := 0, sub := 3 }, ⟨⟨by decide +kernel, by decide +kernel⟩, ⟨⟨_, rfl,
      by decide +kernel⟩, by decide +kernel⟩⟩, by decide +kernel⟩,
    ⟨wv, 0, { rd := 0, rs1 := 0, rs2 := 0, sub := 0 }, ⟨⟨by decide +kernel, by decide +kernel⟩, ⟨⟨_, rfl,
      by decide +kernel⟩, by decide +kernel⟩⟩, by decide +kernel⟩,
    ⟨wv, 0, { rd := 3, rs1 := 1, rs2 := 0, sub := 0 }, ⟨⟨by decide +kernel, by decide +kernel⟩, ⟨⟨_, rfl,
      by decide +kernel⟩, by decide +kernel⟩⟩, by decide +kernel⟩,
    ⟨wv, 0, { rd := 0, rs1 := 0, rs2 := 0, sub := 0 }, ⟨⟨by decide +kernel, by decide +kernel⟩, ⟨⟨_, rfl,
      by decide +kernel⟩, by decide +kernel⟩⟩, by decide +kernel⟩⟩

theorem witness_PredicateAndMoveResults_2 :
    (∃ (s : State) (th : ThreadId) (f : VMisc), vectorReady s th [f.rd, f.rs1, f.rs2] ∧ f.rs2 = 0) :=
  ⟨wv, 0, { rd := 3, rs1 := 1, rs2 := 0, sub := 0 }, ⟨⟨by decide +kernel, by decide +kernel⟩, ⟨⟨_, rfl,
    by decide +kernel⟩, by decide +kernel⟩⟩, by decide +kernel⟩

end WPredicateAndMoveResults

namespace WScalarFloatResults

theorem witness_ScalarFloatResults :
    (∃ (s : State) (th : ThreadId) (f : VMisc) (sp : FSpec), vectorReady s th [f.rd] ∧ arithFmt (BitVec.setWidth 4
      f.sub) = some sp ∧ f.rs2 = 0) :=
  ⟨wv, 0, { rd := 3, rs1 := 1, rs2 := 0, sub := 0 }, fp32, ⟨⟨by decide +kernel, by decide +kernel⟩, ⟨⟨_, rfl,
    by decide +kernel⟩, by decide +kernel⟩⟩, by decide +kernel⟩

end WScalarFloatResults

namespace WGViewResults

theorem witness_GViewResults :
    (∃ (s : State) (th : ThreadId) (f : VMisc), vectorReady s th [f.rd, f.rs1] ∧ (s.thr th).tfly = none ∧ (s.core
      (thCore th)).promised = false ∧ Memory.wf s.mem = true ∧ s.poison = [] ∧ (s.thr th).csr.status.getLsbD 0 = true
      ∧ (s.thr th).csr.status.getLsbD 5 = true ∧ BitVec.toNat f.rd < 4 ∧ f.rs2 = 0 ∧ BitVec.toNat ((s.thr th).xr
      f.rs1) % 64 = 0 ∧ BitVec.toNat ((s.thr th).xr f.rs1) + 2048 ≤ 1048576 ∧ (∀ k < (32 : ℕ), (s.thr th).storesTo
      ((4294967296 + thCore th * 1048576 + BitVec.toNat ((s.thr th).xr f.rs1)) / 64 + k) = false)) ∧
    (∃ (s : State) (th : ThreadId) (f : VMisc), vectorReady s th [f.rd, f.rs1] ∧ (s.thr th).tfly = none ∧ (s.core
      (thCore th)).promised = false ∧ Memory.wf s.mem = true ∧ s.poison = [] ∧ (s.thr th).csr.status.getLsbD 0 = true
      ∧ (s.thr th).csr.status.getLsbD 5 = true ∧ BitVec.toNat f.rs2 < 4 ∧ BitVec.toNat ((s.thr th).xr f.rs1) % 64 = 0
      ∧ BitVec.toNat ((s.thr th).xr f.rs1) + 2048 ≤ 1048576 ∧ (∀ k < (32 : ℕ), (s.thr th).storesTo ((4294967296 +
      thCore th * 1048576 + BitVec.toNat ((s.thr th).xr f.rs1)) / 64 + k) = false)) :=
  ⟨⟨(wv.modThr 0 (fun t =>
      { t with x := [(1, 256), (2, 1044480)], csr := { t.csr with status := 33 }, vec := { t.vec with v := ((List.range 32).map (fun i => (i, (sget 0 t.vec.v (i % 8) ^^^ BitVec.ofNat 2048 (i * 77))))) } })),
      0, { rd := 3, rs1 := 1, rs2 := 0, sub := 0 }, ⟨⟨by decide +kernel, by decide +kernel⟩, ⟨⟨_, rfl,
      by decide +kernel⟩, by decide +kernel⟩⟩, by decide +kernel⟩,
    ⟨(wv.modThr 0 (fun t =>
      { t with x := [(1, 256), (2, 1044480)], csr := { t.csr with status := 33 }, vec := { t.vec with v := ((List.range 32).map (fun i => (i, (sget 0 t.vec.v (i % 8) ^^^ BitVec.ofNat 2048 (i * 77))))) } })),
      0, { rd := 3, rs1 := 1, rs2 := 0, sub := 0 }, ⟨⟨by decide +kernel, by decide +kernel⟩, ⟨⟨_, rfl,
      by decide +kernel⟩, by decide +kernel⟩⟩, by decide +kernel⟩⟩

end WGViewResults

namespace WVectorUnitEvents

theorem witness_VectorUnitEvents :
    (∃ (s : State) (g : CoreId), (s.core (BitVec.toNat g)).vpow = VPow.on ∧ (s.core (BitVec.toNat g)).thresh ≠ 0 ∧
      s.vecIdle (BitVec.toNat g) = true) ∧
    (∃ (s : State) (g : CoreId), (s.core (BitVec.toNat g)).vpow = VPow.waking false) ∧
    (∃ (s : State) (g : CoreId) (th : ThreadId), (thCore th = BitVec.toNat g ∧ (s.core (BitVec.toNat g)).vpow =
      VPow.waking false ∧ (s.thr th).st = TState.waitUnit ∧ (s.thr th).why = Why.wake ∧ (s.thr th).pend = none ∧
      (s.thr th).exc = none ∧ (s.thr th).pauseReq = false ∧ (s.thr th).stopReq = false) ∧ s.hasLine th (s.thr th).pc
      ∧ (∀ (th' : ThreadId), thCore th' = BitVec.toNat g → th' ≠ th → (s.thr th').why ≠ Why.wake)) ∧
    (∃ (s : State) (g : CoreId) (th : ThreadId) (f : VInt), thCore th = BitVec.toNat g ∧ s.issues th [] ∧ (s.thr
      th).vfly = none ∧ (s.core (BitVec.toNat g)).vpow = VPow.off) ∧
    (∃ (s : State) (g : CoreId) (th : ThreadId) (n : Reg) (word : ℕ), thCore th = BitVec.toNat g) :=
  ⟨⟨(wv.modThr 0 (fun t =>
      { t with x := [(1, 256), (2, 1044480)], csr := { t.csr with status := 33 }, vec := { t.vec with v := ((List.range 32).map (fun i => (i, (sget 0 t.vec.v (i % 8) ^^^ BitVec.ofNat 2048 (i * 77))))) } })),
      0, by decide +kernel⟩,
    ⟨{ ((wv.modThr 0 (fun t => { t with st := TState.waitUnit, why := Why.wake })).modCore 0 (fun c => { c with vpow := (VPow.waking false) })) with pending := [] },
      0, by decide +kernel⟩,
    ⟨{ ((wv.modThr 0 (fun t => { t with st := TState.waitUnit, why := Why.wake })).modCore 0 (fun c => { c with vpow := (VPow.waking false) })) with pending := [] },
      0, 0, by decide +kernel, ⟨_, rfl, by decide +kernel⟩, by decide +kernel⟩,
    ⟨(wv.modCore 0 (fun c => { c with vpow := VPow.off, vEccC := 4294967295, vEccU := 4294967295 })), 0, 0,
      { vd := 3, vs1 := 1, vs2 := 2, pg := 1, z := true, esz := 2 }, by decide +kernel, ⟨by decide +kernel,
      by decide +kernel⟩, by decide +kernel⟩,
    ⟨{ ((wv.modThr 0 (fun t => { t with st := TState.waitUnit, why := Why.wake })).modCore 0 (fun c => { c with vpow := (VPow.waking false) })) with pending := [] },
      0, 0, 0, 4294967552, by decide +kernel⟩⟩

end WVectorUnitEvents

namespace WSyncInstructionResults

def ws : State := w0.modThr 0 fun t => { t with x := [(1, 5), (2, 3), (3, 0x500000003), (4, 0x8001), (6, 0xFFFF00000005), (7, 0x900000005), (8, 0x100000000)] }

theorem witness_SyncInstructionResults_1 :
    (∃ (s : State) (th : ThreadId) (c : CtxId) (rd rs1 rs2 : Reg), s.issues th [rd, rs1, rs2] ∧ s.thCtx th = some c ∧
      s.fetchable c ((s.thr th).pc + 4) = true ∧ (s.thr th).flying = false ∧ s.slotFree th = true ∧ (∀ m ∈
      s.sync.msgs, m.src = Src.thread th → m.dest = none) ∧ BitVec.toNat ((s.thr th).xr rs1) < 2 ^ 15 ∧ 1 ≤
      BitVec.toNat ((s.thr th).xr rs2) ∧ BitVec.toNat ((s.thr th).xr rs2) < 2 ^ 32 ∧ rd = 0) ∧
    (∃ (s : State) (th : ThreadId) (c : CtxId) (rd rs1 rs2 : Reg), s.issues th [rd, rs1, rs2] ∧ s.thCtx th = some c ∧
      s.fetchable c ((s.thr th).pc + 4) = true ∧ (s.thr th).flying = false ∧ s.slotFree th = true ∧ (∀ m ∈
      s.sync.msgs, m.src = Src.thread th → m.dest = none) ∧ BitVec.toNat ((s.thr th).xr rs1) < 2 ^ 15 ∧ BitVec.toNat
      ((s.thr th).xr rs2) < 2 ^ 32 ∧ rd = 0) ∧
    (∃ (s : State) (th : ThreadId) (c : CtxId) (rd rs1 rs2 : Reg), s.issues th [rd, rs1, rs2] ∧ s.thCtx th = some c ∧
      s.fetchable c ((s.thr th).pc + 4) = true ∧ (s.thr th).flying = false ∧ s.slotFree th = true ∧ (∀ m ∈
      s.sync.msgs, m.src = Src.thread th → m.dest = none) ∧ BitVec.toNat ((s.thr th).xr rs1) < 2 ^ 15 ∧ rs2 = 0) ∧
    (∃ (s : State) (th : ThreadId) (c : CtxId) (rd rs1 rs2 : Reg), s.issues th [rd, rs1, rs2] ∧ s.thCtx th = some c ∧
      s.fetchable c ((s.thr th).pc + 4) = true ∧ (s.thr th).flying = false ∧ s.slotFree th = true ∧ (∀ m ∈
      s.sync.msgs, m.src = Src.thread th → m.dest = none) ∧ BitVec.toNat ((s.thr th).xr rs1) < 2 ^ 12 ∧ rs2 = 0) ∧
    (∃ (s : State) (th : ThreadId) (c : CtxId) (rd rs1 rs2 : Reg), s.issues th [rd, rs1, rs2] ∧ s.thCtx th = some c ∧
      s.fetchable c ((s.thr th).pc + 4) = true ∧ (s.thr th).flying = false ∧ s.slotFree th = true ∧ (∀ m ∈
      s.sync.msgs, m.src = Src.thread th → m.dest = none) ∧ BitVec.toNat ((s.thr th).xr rs1) < 2 ^ 12 ∧ BitVec.toNat
      ((s.thr th).xr rs2) < 2 ^ 12) ∧
    (∃ (s : State) (th : ThreadId) (c : CtxId) (rd rs1 rs2 : Reg), s.issues th [rd, rs1, rs2] ∧ s.thCtx th = some c ∧
      s.fetchable c ((s.thr th).pc + 4) = true ∧ (s.thr th).flying = false ∧ s.slotFree th = true ∧ (∀ m ∈
      s.sync.msgs, m.src = Src.thread th → m.dest = none) ∧ BitVec.toNat ((s.thr th).xr rs1) < 2 ^ 15 ∧ BitVec.toNat
      ((s.thr th).xr rs2) % 2 ^ 31 ≠ 0 ∧ 2 ^ 32 ≤ BitVec.toNat ((s.thr th).xr rs2) ∧ rd = 0) ∧
    (∃ (s : State) (th : ThreadId) (c : CtxId) (rd rs1 rs2 : Reg), s.issues th [rd, rs1, rs2] ∧ s.thCtx th = some c ∧
      s.fetchable c ((s.thr th).pc + 4) = true ∧ (s.thr th).flying = false ∧ s.slotFree th = true ∧ (∀ m ∈
      s.sync.msgs, m.src = Src.thread th → m.dest = none) ∧ BitVec.toNat ((s.thr th).xr rs1) < 2 ^ 12 ∧ 2 ^ 32 ≤
      BitVec.toNat ((s.thr th).xr rs2) ∧ rd = 0) ∧
    (∃ (s : State) (th : ThreadId) (c : CtxId) (rd rs1 rs2 : Reg), s.issues th [rd, rs1, rs2] ∧ s.thCtx th = some c ∧
      s.fetchable c ((s.thr th).pc + 4) = true ∧ (s.thr th).flying = false ∧ s.slotFree th = true ∧ (∀ m ∈
      s.sync.msgs, m.src = Src.thread th → m.dest = none) ∧ BitVec.toNat ((s.thr th).xr rs1) % 2 ^ 32 < 2 ^ 15 ∧
      BitVec.toNat ((s.thr th).xr rs1) / 2 ^ 48 = 0 ∧ 1 ≤ BitVec.toNat ((s.thr th).xr rs2) ∧ BitVec.toNat ((s.thr
      th).xr rs2) < 2 ^ 32 ∧ rd = 0 ∧ ((BitVec.toNat ((s.thr th).xr rs1) / 2 ^ 32 = 65535 ∨ BitVec.toNat ((s.thr
      th).xr rs1) / 2 ^ 32 = BitVec.toNat s.fab.module) ∨ ∃ p ∈ (s.thr th).posted, p.id < (s.thr th).nextId)) :=
  ⟨⟨ws, 0, 0, 0, 0, 1, ⟨by decide +kernel, by decide +kernel⟩, by decide +kernel⟩,
    ⟨ws, 0, 0, 0, 0, 0, ⟨by decide +kernel, by decide +kernel⟩, by decide +kernel⟩,
    ⟨ws, 0, 0, 0, 0, 0, ⟨by decide +kernel, by decide +kernel⟩, by decide +kernel⟩,
    ⟨ws, 0, 0, 0, 0, 0, ⟨by decide +kernel, by decide +kernel⟩, by decide +kernel⟩,
    ⟨ws, 0, 0, 0, 0, 0, ⟨by decide +kernel, by decide +kernel⟩, by decide +kernel⟩,
    ⟨ws, 0, 0, 0, 0, 3, ⟨by decide +kernel, by decide +kernel⟩, by decide +kernel⟩,
    ⟨ws, 0, 0, 0, 0, 3, ⟨by decide +kernel, by decide +kernel⟩, by decide +kernel⟩,
    ⟨ws, 0, 0, 0, 0, 1, ⟨by decide +kernel, by decide +kernel⟩, by decide +kernel⟩⟩

theorem witness_SyncInstructionResults_2 :
    (∃ (s : State) (th : ThreadId) (c : CtxId) (rd rs1 rs2 : Reg), s.issues th [rd, rs1, rs2] ∧ (s.thCtx th = some c
      ∧ s.fetchable c ((s.thr th).pc + 4) = true ∧ (s.thr th).flying = false ∧ s.slotFree th = true ∧ (∀ m ∈
      s.sync.msgs, m.src = Src.thread th → m.dest = none)) ∧ s.handles th ∧ rd = 0 ∧ 2 ^ 15 ≤ BitVec.toNat ((s.thr
      th).xr rs1)) ∧
    (∃ (s : State) (th : ThreadId) (c : CtxId) (rd rs1 rs2 : Reg), s.issues th [rd, rs1, rs2] ∧ (s.thCtx th = some c
      ∧ s.fetchable c ((s.thr th).pc + 4) = true ∧ (s.thr th).flying = false ∧ s.slotFree th = true ∧ (∀ m ∈
      s.sync.msgs, m.src = Src.thread th → m.dest = none)) ∧ s.handles th ∧ rd = 0 ∧ BitVec.toNat ((s.thr th).xr rs1)
      < 2 ^ 15 ∧ (BitVec.toNat ((s.thr th).xr rs2) = 0 ∨ 2 ^ 32 ≤ BitVec.toNat ((s.thr th).xr rs2))) :=
  ⟨⟨ws, 0, 0, 0, 3, 0, ⟨by decide +kernel, by decide +kernel⟩, by decide +kernel, ⟨by decide +kernel,
      by decide +kernel, by decide +kernel⟩, by decide +kernel⟩,
    ⟨ws, 0, 0, 0, 0, 0, ⟨by decide +kernel, by decide +kernel⟩, by decide +kernel, ⟨by decide +kernel,
      by decide +kernel, by decide +kernel⟩, by decide +kernel⟩⟩

end WSyncInstructionResults

namespace WTallyOperations

def wait1 : Waiter := { src := .thread 1, ctx := 0, n := 6 }

theorem witness_TallyOperations :
    (∃ (s : State) (k : ℕ) (m : SyncMsg) (th : ThreadId) (c : CtxId), (m.bell = false ∧ m.src = Src.thread th ∧ m.gen
      = (s.ctx m.ctx).gen ∧ s.objOk m = true) ∧ noSlotWaits s th ∧ (s.tally m.obj).q = [] ∧ (s.tally m.obj).latch =
      false ∧ s.msgReady k [SyncOp.signal] = some m) ∧
    (∃ (s : State) (k : ℕ) (m : SyncMsg) (th : ThreadId) (c : CtxId), (m.bell = false ∧ m.src = Src.thread th ∧ m.gen
      = (s.ctx m.ctx).gen ∧ s.objOk m = true) ∧ noSlotWaits s th ∧ (s.tally m.obj).q = [] ∧ (s.tally m.obj).latch =
      true ∧ s.msgReady k [SyncOp.signal] = some m) ∧
    (∃ (s : State) (k : ℕ) (m : SyncMsg) (th : ThreadId) (c : CtxId), (m.bell = false ∧ m.src = Src.thread th ∧ m.gen
      = (s.ctx m.ctx).gen ∧ s.objOk m = true) ∧ noSlotWaits s th ∧ (s.tally m.obj).q = [] ∧ ((s.tally m.obj).latch =
      false ∨ m.arg.toNat ≤ 1) ∧ s.msgReady k [SyncOp.set] = some m) ∧
    (∃ (s : State) (k : ℕ) (m : SyncMsg) (th : ThreadId) (c : CtxId), (m.bell = false ∧ m.src = Src.thread th ∧ m.gen
      = (s.ctx m.ctx).gen ∧ s.objOk m = true) ∧ noSlotWaits s th ∧ s.msgReady k [SyncOp.decrement] = some m) ∧
    (∃ (s : State) (k : ℕ) (m : SyncMsg) (th : ThreadId) (c : CtxId), (m.bell = false ∧ m.src = Src.thread th ∧ m.gen
      = (s.ctx m.ctx).gen ∧ s.objOk m = true) ∧ noSlotWaits s th ∧ ∃ (w : ThreadId) (wait : Waiter), (s.tally
      m.obj).latch = false ∧ (s.tally m.obj).q = [wait] ∧ wait.src = Src.thread w ∧ wait.n ≤ (s.tally
      m.obj).value.toNat + m.arg.toNat ∧ (s.tally m.obj).value.toNat + m.arg.toNat < 2 ^ 32 ∧ (s.thr w).st =
      TState.waitSync ∧ s.thCtx w = some c ∧ s.fetchable c ((s.thr w).pc + 4) = true ∧ s.msgReady k [SyncOp.signal] =
      some m) ∧
    (∃ (s : State) (k : ℕ) (m : SyncMsg) (th : ThreadId) (c : CtxId), (m.bell = false ∧ m.src = Src.thread th ∧ m.gen
      = (s.ctx m.ctx).gen ∧ s.objOk m = true) ∧ noSlotWaits s th ∧ m.arg.toNat % 2 ^ 31 ≠ 0 ∧ ((s.tally m.obj).latch
      = true → m.arg.toNat % 2 ^ 31 = 1) ∧ (s.tally m.obj).q = [] ∧ m.arg.toNat % 2 ^ 31 ≤ (s.tally
      m.obj).value.toNat ∧ (s.thr th).st = TState.waitSync ∧ s.thCtx th = some c ∧ s.fetchable c ((s.thr th).pc + 4)
      = true ∧ s.msgReady k [SyncOp.wait] = some m) ∧
    (∃ (s : State) (k : ℕ) (m : SyncMsg) (th : ThreadId) (c : CtxId), (m.bell = false ∧ m.src = Src.thread th ∧ m.gen
      = (s.ctx m.ctx).gen ∧ s.objOk m = true) ∧ noSlotWaits s th ∧ m.arg.toNat % 2 ^ 31 ≠ 0 ∧ ((s.tally m.obj).latch
      = true → m.arg.toNat % 2 ^ 31 = 1) ∧ (∀ (h : Waiter), ((s.tally m.obj).q ++
      [({ src := m.src, ctx := m.ctx, n := m.arg.toNat % 2 ^ 31, peek := decide (2 ^ 31 ≤ m.arg.toNat), timeout := m.timeout, arg := m.arg }
      : Waiter)]).head? = some h → (s.tally m.obj).value.toNat < h.n) ∧ s.msgReady k [SyncOp.wait] = some m) :=
  ⟨⟨{ (w0.modThr 0 (fun t => { t with st := TState.waitSync, wait := (some (false, 5)) })) with sync := { tallies := [(5, { value := 4, assigned := true }), (6, {  })], msgs := [{ op := SyncOp.signal, obj := 5, src := (Src.thread 0), ctx := 0, gen := 0, arg := 3 }] } },
      0, { op := SyncOp.signal, obj := 5, src := (Src.thread 0), ctx := 0, gen := 0, arg := 3 }, 0, 0,
      by decide +kernel, (by unfold noSlotWaits; decide +kernel), by decide +kernel⟩,
    ⟨{ (w0.modThr 0 (fun t => { t with st := TState.waitSync, wait := (some (false, 5)) })) with sync := { tallies := [(5, { latch := true, assigned := true }), (6, {  })], msgs := [{ op := SyncOp.signal, obj := 5, src := (Src.thread 0), ctx := 0, gen := 0, arg := 3 }] } },
      0, { op := SyncOp.signal, obj := 5, src := (Src.thread 0), ctx := 0, gen := 0, arg := 3 }, 0, 0,
      by decide +kernel, (by unfold noSlotWaits; decide +kernel), by decide +kernel⟩,
    ⟨{ (w0.modThr 0 (fun t => { t with st := TState.waitSync, wait := (some (false, 5)) })) with sync := { tallies := [(5, { value := 4, assigned := true }), (6, {  })], msgs := [{ op := SyncOp.set, obj := 5, src := (Src.thread 0), ctx := 0, gen := 0, arg := 1 }] } },
      0, { op := SyncOp.set, obj := 5, src := (Src.thread 0), ctx := 0, gen := 0, arg := 1 }, 0, 0,
      by decide +kernel, (by unfold noSlotWaits; decide +kernel), by decide +kernel⟩,
    ⟨{ (w0.modThr 0 (fun t => { t with st := TState.waitSync, wait := (some (false, 5)) })) with sync := { tallies := [(5, { value := 4, assigned := true }), (6, {  })], msgs := [{ op := SyncOp.decrement, obj := 5, src := (Src.thread 0), ctx := 0, gen := 0, arg := 3 }] } },
      0, { op := SyncOp.decrement, obj := 5, src := (Src.thread 0), ctx := 0, gen := 0, arg := 3 }, 0, 0,
      by decide +kernel, (by unfold noSlotWaits; decide +kernel), by decide +kernel⟩,
    ⟨{ (w0.modThr 1 (fun t => { t with st := TState.waitSync, wait := (some (false, 5)) })) with sync := { tallies := [(5, { value := 4, assigned := true, q := [wait1] }), (6, {  })], msgs := [{ op := SyncOp.signal, obj := 5, src := (Src.thread 0), ctx := 0, gen := 0, arg := 3 }] } },
      0, { op := SyncOp.signal, obj := 5, src := (Src.thread 0), ctx := 0, gen := 0, arg := 3 }, 0, 0,
      by decide +kernel, (by unfold noSlotWaits; decide +kernel), 1, wait1, by decide +kernel⟩,
    ⟨{ (w0.modThr 0 (fun t => { t with st := TState.waitSync, wait := (some (false, 5)) })) with sync := { tallies := [(5, { value := 4, assigned := true }), (6, {  })], msgs := [{ op := SyncOp.wait, obj := 5, src := (Src.thread 0), ctx := 0, gen := 0, arg := 3 }] } },
      0, { op := SyncOp.wait, obj := 5, src := (Src.thread 0), ctx := 0, gen := 0, arg := 3 }, 0, 0,
      by decide +kernel, (by unfold noSlotWaits; decide +kernel), by decide +kernel⟩,
    ⟨{ (w0.modThr 0 (fun t => { t with st := TState.waitSync, wait := (some (false, 5)) })) with sync := { tallies := [(5, { value := 4, assigned := true, q := [wait1] }), (6, {  })], msgs := [{ op := SyncOp.wait, obj := 5, src := (Src.thread 0), ctx := 0, gen := 0, arg := 3 }] } },
      0, { op := SyncOp.wait, obj := 5, src := (Src.thread 0), ctx := 0, gen := 0, arg := 3 }, 0, 0,
      by decide +kernel, (by unfold noSlotWaits; decide +kernel), by decide +kernel⟩⟩

end WTallyOperations

namespace WBellOperations

theorem witness_BellOperations :
    (∃ (s : State) (k : ℕ) (m : SyncMsg) (th : ThreadId) (c : CtxId), m.bell = true ∧ m.src = Src.thread th ∧ m.gen =
      (s.ctx m.ctx).gen ∧ s.objOk m = true ∧ m.arg.toNat < (s.bell m.obj).count - (s.bell m.obj).rchild ∧ m.arg.toNat
      ∉ (s.bell m.obj).arr ∧ (∀ e ∈ s.children m.obj, e.1 ≠ m.arg.toNat) ∧
      { (s.bell m.obj) with arr := (s.bell m.obj).arr ++ [m.arg.toNat] }.full = false ∧ s.msgReady k [SyncOp.arrive]
      = some m) ∧
    (∃ (s : State) (k : ℕ) (m : SyncMsg) (th : ThreadId) (c : CtxId), m.bell = true ∧ m.src = Src.thread th ∧ m.gen =
      (s.ctx m.ctx).gen ∧ s.objOk m = true ∧ m.arg.toNat < (s.bell m.obj).count - (s.bell m.obj).rchild ∧ m.arg.toNat
      ∉ (s.bell m.obj).arr ∧ (∀ e ∈ s.children m.obj, e.1 ≠ m.arg.toNat) ∧
      { (s.bell m.obj) with arr := (s.bell m.obj).arr ++ [m.arg.toNat] }.full = true ∧ (s.bell m.obj).held = false ∧
      (s.bell m.obj).snapHold = false ∧ (s.bell m.obj).parent = none ∧ (s.bell m.obj).q = [] ∧ (s.bell m.obj).remote
      = [] ∧ (s.bell m.obj).early = [] ∧ (s.bell m.obj).absent.length < (s.bell m.obj).count ∧ (∀ e ∈ s.children
      m.obj, (s.bell e.2).held = false) ∧ (((s.ctx (s.bell m.obj).ctx).img.bind fun x => x.snap) = none) ∧ s.msgReady
      k [SyncOp.arrive] = some m) ∧
    (∃ (s : State) (k : ℕ) (m : SyncMsg) (th : ThreadId) (c : CtxId), m.bell = true ∧ m.src = Src.thread th ∧ m.gen =
      (s.ctx m.ctx).gen ∧ s.objOk m = true ∧ m.arg.toNat < (s.bell m.obj).count - (s.bell m.obj).rchild ∧ m.arg.toNat
      ∈ (s.bell m.obj).arr ∧ m.arg.toNat ∉ (s.bell m.obj).early ∧ (∀ e ∈ s.children m.obj, e.1 ≠ m.arg.toNat) ∧
      (s.bell m.obj).full = false ∧ s.msgReady k [SyncOp.arrive] = some m) ∧
    (∃ (s : State) (k : ℕ) (m : SyncMsg) (th : ThreadId) (c : CtxId), m.bell = true ∧ m.src = Src.thread th ∧ m.gen =
      (s.ctx m.ctx).gen ∧ s.objOk m = true ∧ (s.thr th).st = TState.waitSync ∧ s.thCtx th = some c ∧ s.fetchable c
      ((s.thr th).pc + 4) = true ∧ 1 ≤ ((s.bell m.obj).done - m.arg).toNat ∧ ((s.bell m.obj).done - m.arg).toNat < 2
      ^ 31 ∧ s.msgReady k [SyncOp.bellWait] = some m) ∧
    (∃ (s : State) (k : ℕ) (m : SyncMsg) (th : ThreadId) (c : CtxId), m.bell = true ∧ m.src = Src.thread th ∧ m.gen =
      (s.ctx m.ctx).gen ∧ s.objOk m = true ∧ (m.arg = (s.bell m.obj).done ∨ m.arg = (s.bell m.obj).done + 1) ∧
      s.msgReady k [SyncOp.bellWait] = some m) :=
  ⟨⟨{ (w0.modThr 0 (fun t => { t with st := TState.waitMem, pend := (some (Pend.sync SyncOp.arrive 5 2 none)) })) with sync := { bells := [(5, { count := 3, arr := [0], done := 7, assigned := true }), (6, {  })], msgs := [{ op := SyncOp.arrive, bell := true, obj := 5, src := (Src.thread 0), ctx := 0, gen := 0, arg := 1 }] } },
      0, { op := SyncOp.arrive, bell := true, obj := 5, src := (Src.thread 0), ctx := 0, gen := 0, arg := 1 }, 0, 0,
      by decide +kernel⟩,
    ⟨{ (w0.modThr 0 (fun t => { t with st := TState.waitMem, pend := (some (Pend.sync SyncOp.arrive 5 2 none)) })) with sync := { bells := [(5, { count := 2, arr := [0], done := 7, assigned := true }), (6, {  })], msgs := [{ op := SyncOp.arrive, bell := true, obj := 5, src := (Src.thread 0), ctx := 0, gen := 0, arg := 1 }] } },
      0, { op := SyncOp.arrive, bell := true, obj := 5, src := (Src.thread 0), ctx := 0, gen := 0, arg := 1 }, 0, 0,
      by decide +kernel⟩,
    ⟨{ (w0.modThr 0 (fun t => { t with st := TState.waitMem, pend := (some (Pend.sync SyncOp.arrive 5 2 none)) })) with sync := { bells := [(5, { count := 3, arr := [0], done := 7, assigned := true }), (6, {  })], msgs := [{ op := SyncOp.arrive, bell := true, obj := 5, src := (Src.thread 0), ctx := 0, gen := 0 }] } },
      0, { op := SyncOp.arrive, bell := true, obj := 5, src := (Src.thread 0), ctx := 0, gen := 0 }, 0, 0,
      by decide +kernel⟩,
    ⟨{ (w0.modThr 0 (fun t => { t with st := TState.waitSync, wait := (some (true, 5)) })) with sync := { bells := [(5, { count := 3, arr := [0], done := 7, assigned := true }), (6, {  })], msgs := [{ op := SyncOp.bellWait, bell := true, obj := 5, src := (Src.thread 0), ctx := 0, gen := 0, arg := 6 }] } },
      0, { op := SyncOp.bellWait, bell := true, obj := 5, src := (Src.thread 0), ctx := 0, gen := 0, arg := 6 }, 0,
      0, by decide +kernel⟩,
    ⟨{ (w0.modThr 0 (fun t => { t with st := TState.waitMem, pend := (some (Pend.sync SyncOp.arrive 5 2 none)) })) with sync := { bells := [(5, { count := 3, arr := [0], done := 7, assigned := true }), (6, {  })], msgs := [{ op := SyncOp.bellWait, bell := true, obj := 5, src := (Src.thread 0), ctx := 0, gen := 0, arg := 7 }] } },
      0, { op := SyncOp.bellWait, bell := true, obj := 5, src := (Src.thread 0), ctx := 0, gen := 0, arg := 7 }, 0,
      0, by decide +kernel⟩⟩

end WBellOperations

namespace WSyncTimeoutsAndRemote

def wt0 : Waiter := { src := .thread 0, ctx := 0, n := 6, timeout := 5 }
def wd (b : Bool) : SyncMsg := { op := .withdraw, bell := b, obj := 5, src := .thread 0, ctx := 0, gen := 0 }
def pk (b : Payload) (typ : Byte) : Packet := ⟨{ dest := 0, src := 9, vc := 1, cls := false, hops := 0, flow := 0, sctx := 0, sgen := 0, dctx := 0, typ := typ, unit := 0, tag := 0 }, b, [], 0, 0, 1⟩

theorem witness_SyncTimeoutsAndRemote :
    (∃ (s : State) (th : ThreadId) (bell : Bool) (id : ℕ) (w : Waiter), (s.thr th).wait = some (bell, id) ∧ s.handles
      th ∧ w.src = Src.thread th ∧ ((if bell = true then (s.bell id).q else (s.tally id).q) = [w])) ∧
    (∃ (s : State) (k : ℕ) (m : SyncMsg) (th : ThreadId) (w : Waiter), s.msgReady k [SyncOp.withdraw] = some m ∧
      m.gen = (s.ctx m.ctx).gen ∧ m.src = Src.thread th ∧ w.src = Src.thread th ∧ ((if m.bell = true then (s.bell
      m.obj).q else (s.tally m.obj).q) = [w]) ∧ (∃ c, s.thCtx th = some c ∧ (s.fetchCheck th c (s.thr th).pc).stops =
      false) ∧ (s.thr th).st = TState.waitSync ∧ (s.thr th).pauseReq = true ∧ (s.thr th).stopReq = false ∧ (s.thr
      th).asyncQ = [] ∧ (s.thr th).pend = none ∧ (s.thr th).flying = false) ∧
    (∃ (s : State) (k : ℕ) (p : Packet) (id : ℕ) (n : BitVec 32) (th : ThreadId), s.inboxAt k [1] = some p ∧ p.body =
      Payload.signal id n th ∧ (s.tally id).assigned = true ∧ (s.tally id).remote = true ∧ (s.tally id).latch = false
      ∧ (s.tally id).q = []) ∧
    (∃ (s : State) (k : ℕ) (p : Packet) (id : ℕ) (n : BitVec 32) (th : ThreadId), s.inboxAt k [1] = some p ∧ p.body =
      Payload.signal id n th ∧ ((s.tally id).assigned && (s.tally id).remote) = false) ∧
    (∃ (s : State) (k : ℕ) (p : Packet) (child b slot : ℕ), s.inboxAt k [2] = some p ∧ p.body = Payload.bellArrival
      child b slot ∧ (s.bell b).assigned = true ∧ (s.bell b).count - (s.bell b).rchild ≤ slot ∧ slot < (s.bell
      b).count ∧ slot ∉ (s.bell b).arr ∧
      ({ (s.bell b) with arr := (s.bell b).arr ++ [slot], remote := (s.bell b).remote.filter (fun (e : Nat × ModuleNo × Nat) => e.1 != slot) ++ [(slot, p.hdr.src, child)] }.full
      = false)) ∧
    (∃ (s : State) (k : ℕ) (p : Packet) (b pb slot : ℕ), s.inboxAt k [3] = some p ∧ p.body = Payload.bellRelease b ∧
      (s.bell b).held = true ∧ (s.bell b).snapHold = false ∧ (s.bell b).parent = some (pb, slot, p.hdr.src) ∧ (s.bell
      b).q = [] ∧ (s.bell b).early = [] ∧ (s.bell b).remote = [] ∧ (s.bell b).absent.length ≠ (s.bell b).count ∧ (∀ e
      ∈ s.children b, e.2 ≠ b → (s.bell e.2).held = false) ∧ (((s.ctx (s.bell b).ctx).img.bind fun x => x.snap) =
      none)) :=
  ⟨⟨{ (w0.modThr 0 (fun t => { t with st := TState.waitSync, wait := (some (false, 5)) })) with sync := { tallies := [(5, { assigned := true, q := [wt0] })] }, fab := {  } },
      0, false, 5, wt0, by decide +kernel, ⟨by decide +kernel, by decide +kernel, by decide +kernel⟩,
      by decide +kernel⟩,
    ⟨{ (w0.modThr 0 (fun t => { t with st := TState.waitSync, pauseReq := true, wait := (some (true, 5)) })) with sync := { tallies := [(5, { assigned := true, q := [wt0] })], msgs := [(wd false)] }, fab := {  } },
      0, (wd false), 0, wt0, by decide +kernel⟩,
    ⟨{ (w0.modThr 0 (fun t => { t with st := TState.waitSync, wait := (some (false, 5)) })) with sync := { tallies := [(5, { remote := true, assigned := true })], bells := [(5, { count := 3, rchild := 1, assigned := true })] }, fab := { inbox := [(pk (Payload.signal 5 3 1) 1)] } },
      0, (pk (Payload.signal 5 3 1) 1), 5, 3, 1, by decide +kernel⟩,
    ⟨{ (w0.modThr 0 (fun t => { t with st := TState.waitSync, wait := (some (false, 5)) })) with sync := { tallies := [(5, { assigned := true, q := [wt0] })] }, fab := { inbox := [(pk (Payload.signal 5 3 1) 1)] } },
      0, (pk (Payload.signal 5 3 1) 1), 5, 3, 1, by decide +kernel⟩,
    ⟨{ (w0.modThr 0 (fun t => { t with st := TState.waitSync, wait := (some (false, 5)) })) with sync := { tallies := [(5, { remote := true, assigned := true })], bells := [(5, { count := 3, rchild := 1, assigned := true })] }, fab := { inbox := [(pk (Payload.bellArrival 2 5 2) 2)] } },
      0, (pk (Payload.bellArrival 2 5 2) 2), 2, 5, 2, by decide +kernel⟩,
    ⟨{ (w0.modThr 0 (fun t => { t with st := TState.waitSync, wait := (some (false, 5)) })) with sync := { tallies := [(5, { value := 4294967294, remote := true, assigned := true })], bells := [(5, { count := 3, arr := [0, 1, 2], held := true, parent := (some (7, (2, 9))), assigned := true })] }, fab := { inbox := [(pk (Payload.bellRelease 5) 3)] } },
      0, (pk (Payload.bellRelease 5) 3), 5, 7, 2, by decide +kernel⟩⟩

end WSyncTimeoutsAndRemote

namespace WStreamChannelControl

def le (n v : Nat) : List Byte := (List.range n).map fun i => BitVec.ofNat 8 (v / 256 ^ i)
def enc (op fl esz tt src dst cols rows ss ds wt wa sg rep srs drs : Nat) : List Byte :=
  le 1 op ++ le 1 fl ++ le 1 esz ++ le 1 0 ++ le 4 tt ++ le 8 src ++ le 8 dst ++ le 4 cols ++ le 4 rows ++ le 4 ss ++ le 4 ds ++ le 4 wt ++ le 4 wa ++ le 4 sg ++ le 4 rep ++ le 4 srs ++ le 4 drs
def put (s : State) (a : Nat) (bs : List Byte) : State := s.pokeCells (bs.zipIdx.map fun z => (a + z.2, z.1))
def base : Word := 0x200001000
def dcs : List (List Byte) := [
  enc 5 0 0 7 0 0 0 0 0 0 0 0 0 0 0 0, enc 5 3 0 7 0 0 0 0 0 0 5 1 6 0 0 0, enc 15 0 0 7 0 0 0 0 0 0 0 0 0 0 0 0,
  enc 1 0 0 7 0x200002000 0x200003000 24 1 0 0 0 0 0 0 0 0, enc 1 0 0 7 0x200002004 0x200003000 24 1 0 0 0 0 0 0 0 0, enc 9 0 0 7 0 0 0 0 0 0 0 0 0 0 0 0 ]
def d0 : List Desc := dcs.map descOf
def rd (i : Nat) : SRead := { loc := (base + BitVec.ofNat 64 (64 * i)).toNat, va := base + BitVec.ofNat 64 (64*i), len := 64, desc := some i }
def dx (o : Bool) : List SRead := if o then [{ loc := 0x200002000, va := 0x200002000, len := 24, dests := [(0x200003000, 0x200003000, 24)] }] else []
def stt (k : Nat) : State := (List.range 6).foldl (fun s i => put s (base.toNat + 64 * i) (dcs.getD ((i + k) % 6) [])) { w0 with sync := { tallies := [(5, { assigned := true }), (6, { assigned := true })] } }

theorem witness_StreamChannelControl_1 :
    (∃ (s : State) (q : QuadId) (ch : BitVec 3) (w : Sys2Proof.Writer) (c : CtxId) (r : RegionEntry), s.strmWriter q
      w = true ∧ s.quadCtx (BitVec.toNat q) = some c ∧ (s.chan (BitVec.toNat q) ch.toNat).st = ChSt.idle ∧ (s.chan
      (BitVec.toNat q) ch.toNat).notify.getLsbD 31 = false ∧ 8589934592 ≤ BitVec.toNat (s.chan (BitVec.toNat q)
      ch.toNat).base ∧ BitVec.toNat (s.chan (BitVec.toNat q) ch.toNat).base < 12884901888 ∧ (s.ctx c).mem.region 0
      ((BitVec.toNat (s.chan (BitVec.toNat q) ch.toNat).base - 8589934592) / 536870912) (BitVec.toNat (s.chan
      (BitVec.toNat q) ch.toNat).base % 536870912 / 1048576) = some r ∧ r.r = true ∧ s.strmPausing c = false) ∧
    (∃ (s : State) (q : QuadId) (ch : BitVec 3) (w : Sys2Proof.Writer) (c : CtxId) (r : RegionEntry), s.strmWriter q
      w = true ∧ s.quadCtx (BitVec.toNat q) = some c ∧ (s.chan (BitVec.toNat q) ch.toNat).st = ChSt.idle ∧ (s.chan
      (BitVec.toNat q) ch.toNat).notify.getLsbD 31 = false ∧ 8589934592 ≤ BitVec.toNat (s.chan (BitVec.toNat q)
      ch.toNat).base ∧ BitVec.toNat (s.chan (BitVec.toNat q) ch.toNat).base < 12884901888 ∧ (s.ctx c).mem.region 0
      ((BitVec.toNat (s.chan (BitVec.toNat q) ch.toNat).base - 8589934592) / 536870912) (BitVec.toNat (s.chan
      (BitVec.toNat q) ch.toNat).base % 536870912 / 1048576) = some r ∧ r.r = true ∧ s.strmPausing c = true) ∧
    (∃ (s : State) (q : QuadId) (ch : BitVec 3) (w : Sys2Proof.Writer) (c : CtxId) (r : RegionEntry), s.strmWriter q
      w = true ∧ (s.chan (BitVec.toNat q) ch.toNat).st ≠ ChSt.idle) ∧
    (∃ (s : State) (q : QuadId) (ch : BitVec 3) (w : Sys2Proof.Writer) (c : CtxId) (r : RegionEntry), s.strmWriter q
      w = true ∧ ∃ (d : Desc), (s.chan (BitVec.toNat q) ch.toNat).st = ChSt.faulted ∧ (s.chan (BitVec.toNat q)
      ch.toNat).badDesc = false ∧ (s.chan (BitVec.toNat q) ch.toNat).waited = true ∧ (s.chan (BitVec.toNat q)
      ch.toNat).desc = some d ∧ d.moves = false ∧ s.strmPausing (s.chan (BitVec.toNat q) ch.toNat).ctx = false) ∧
    (∃ (s : State) (q : QuadId) (ch : BitVec 3) (w : Sys2Proof.Writer) (c : CtxId) (r : RegionEntry), s.strmWriter q
      w = true ∧ ∃ (d : Desc), (s.chan (BitVec.toNat q) ch.toNat).st = ChSt.faulted ∧ (s.chan (BitVec.toNat q)
      ch.toNat).badDesc = false ∧ (s.chan (BitVec.toNat q) ch.toNat).waited = true ∧ (s.chan (BitVec.toNat q)
      ch.toNat).desc = some d ∧ d.moves = false ∧ s.strmPausing (s.chan (BitVec.toNat q) ch.toNat).ctx = true) ∧
    (∃ (s : State) (q : QuadId) (ch : BitVec 3) (w : Sys2Proof.Writer) (c : CtxId) (r : RegionEntry), s.strmWriter q
      w = true ∧ (s.chan (BitVec.toNat q) ch.toNat).st ≠ ChSt.faulted) ∧
    (∃ (s : State) (q : QuadId) (ch : BitVec 3) (w : Sys2Proof.Writer) (c : CtxId) (r : RegionEntry), s.strmWriter q
      w = true ∧ ((s.chan (BitVec.toNat q) ch.toNat).st = ChSt.running ∨ (s.chan (BitVec.toNat q) ch.toNat).st =
      ChSt.faulted ∨ (s.chan (BitVec.toNat q) ch.toNat).st = ChSt.paused)) ∧
    (∃ (s : State) (q : QuadId) (ch : BitVec 3) (w : Sys2Proof.Writer) (c : CtxId) (r : RegionEntry) (rd : SRead)
      (idx : ℕ), (s.chan (BitVec.toNat q) ch.toNat).st = ChSt.running ∧ (s.chan (BitVec.toNat q) ch.toNat).reads =
      [rd] ∧ rd.desc = some idx ∧ rd.live = true ∧ (s.chan (BitVec.toNat q) ch.toNat).want = some idx ∧ s.poisonIn
      rd.loc 64 = false ∧ descBad (memBytes s.mem rd.loc 64) idx = true) :=
  ⟨⟨((stt 0).modChan 0 2 (fun x => { base := base })), 0, 2, Writer.reeve, 0, (wReg 0 0 512), by decide +kernel⟩,
    ⟨(((stt 0).modChan 0 2 (fun x => { base := base })).modCtx 0 (fun c => { c with st := CtxState.paused })), 0, 2,
      Writer.reeve, 0, (wReg 0 0 512), by decide +kernel⟩,
    ⟨((stt 0).modChan 0 2 (fun x => { base := base, st := ChSt.running, want := (some 0), reads := [(rd 0)] })), 0,
      2, Writer.reeve, 0, (wReg 0 0 512), by decide +kernel⟩,
    ⟨((stt 0).modChan 0 2 (fun x =>
      { base := base, st := ChSt.faulted, waited := true, desc := (some (descOf (enc 5 0 0 7 0 0 0 0 0 0 0 0 0 0 0 0))) })),
      0, 2, Writer.reeve, 0, (wReg 0 0 512), by decide +kernel, (descOf (enc 5 0 0 7 0 0 0 0 0 0 0 0 0 0 0 0)),
      by decide +kernel⟩,
    ⟨(((stt 0).modChan 0 2 (fun x =>
      { base := base, st := ChSt.faulted, waited := true, desc := (some (descOf (enc 5 0 0 7 0 0 0 0 0 0 0 0 0 0 0 0))) })).modCtx
      0 (fun c => { c with st := CtxState.paused })), 0, 2, Writer.reeve, 0, (wReg 0 0 512), by decide +kernel,
      (descOf (enc 5 0 0 7 0 0 0 0 0 0 0 0 0 0 0 0)), by decide +kernel⟩,
    ⟨((stt 0).modChan 0 2 (fun x => { base := base })), 0, 2, Writer.reeve, 0, (wReg 0 0 512), by decide +kernel⟩,
    ⟨((stt 0).modChan 0 2 (fun x => { base := base, st := ChSt.running, want := (some 0), reads := [(rd 0)] })), 0,
      2, Writer.reeve, 0, (wReg 0 0 512), by decide +kernel⟩,
    ⟨((stt 5).modChan 0 2 (fun x => { base := base, st := ChSt.running, want := (some 0), reads := [(rd 0)] })), 0,
      2, Writer.reeve, 0, (wReg 0 0 512), (rd 0), 0, by decide +kernel⟩⟩

theorem witness_StreamChannelControl_2 :
    (∃ (s : State) (q : QuadId) (ch : BitVec 3) (w : Sys2Proof.Writer) (c : CtxId) (r : RegionEntry) (rd : SRead)
      (idx : ℕ), (s.chan (BitVec.toNat q) ch.toNat).st = ChSt.running ∧ (s.chan (BitVec.toNat q) ch.toNat).reads =
      [rd] ∧ rd.desc = some idx ∧ rd.live = true ∧ (s.chan (BitVec.toNat q) ch.toNat).want = some idx ∧ s.poisonIn
      rd.loc 64 = false ∧ descBad (memBytes s.mem rd.loc 64) idx = false ∧ descMisaligned (descOf (memBytes s.mem
      rd.loc 64)) = true) ∧
    (∃ (s : State) (q : QuadId) (ch : BitVec 3) (w : Sys2Proof.Writer) (c : CtxId) (r : RegionEntry) (rd : SRead)
      (idx : ℕ), (s.chan (BitVec.toNat q) ch.toNat).st = ChSt.running ∧ (s.chan (BitVec.toNat q) ch.toNat).reads =
      [rd] ∧ rd.desc = some idx ∧ rd.live = true ∧ (s.chan (BitVec.toNat q) ch.toNat).want = some idx ∧ s.poisonIn
      rd.loc 64 = false ∧ descBad (memBytes s.mem rd.loc 64) idx = false ∧ descMisaligned (descOf (memBytes s.mem
      rd.loc 64)) = false ∧ (descOf (memBytes s.mem rd.loc 64)).waits = false ∧ (descOf (memBytes s.mem rd.loc
      64)).moves = false) ∧
    (∃ (s : State) (q : QuadId) (ch : BitVec 3) (w : Sys2Proof.Writer) (c : CtxId) (r : RegionEntry) (rd : SRead)
      (idx : ℕ), (s.chan (BitVec.toNat q) ch.toNat).st = ChSt.running ∧ (s.chan (BitVec.toNat q) ch.toNat).reads =
      [rd] ∧ rd.desc = some idx ∧ rd.live = true ∧ (s.chan (BitVec.toNat q) ch.toNat).want = some idx ∧ s.poisonIn
      rd.loc 64 = false ∧ descBad (memBytes s.mem rd.loc 64) idx = false ∧ descMisaligned (descOf (memBytes s.mem
      rd.loc 64)) = false ∧ (descOf (memBytes s.mem rd.loc 64)).waits = true ∧ (s.chan (BitVec.toNat q)
      ch.toNat).waited = false ∧ s.strmTallyOk (s.chan (BitVec.toNat q) ch.toNat).ctx (descOf (memBytes s.mem rd.loc
      64)).waitTally = true) ∧
    (∃ (s : State) (q : QuadId) (ch : BitVec 3) (w : Sys2Proof.Writer) (c : CtxId) (r : RegionEntry), (s.chan
      (BitVec.toNat q) ch.toNat).st = ChSt.running ∧ (s.chan (BitVec.toNat q) ch.toNat).inData = true ∧ (s.chan
      (BitVec.toNat q) ch.toNat).cut = none) ∧
    (∃ (s : State) (q : QuadId) (ch : BitVec 3) (w : Sys2Proof.Writer) (c : CtxId) (r : RegionEntry) (d : Desc),
      (s.chan (BitVec.toNat q) ch.toNat).st = ChSt.waiting ∧ (s.chan (BitVec.toNat q) ch.toNat).desc = some d ∧ (∀ m
      ∈ s.sync.msgs, m.src = Src.chan q ch → m.op ≠ SyncOp.withdraw)) :=
  ⟨⟨((stt 4).modChan 0 2 (fun x => { base := base, st := ChSt.running, want := (some 0), reads := [(rd 0)] })), 0,
      2, Writer.reeve, 0, (wReg 0 0 512), (rd 0), 0, by decide +kernel⟩,
    ⟨((stt 0).modChan 0 2 (fun x => { base := base, st := ChSt.running, want := (some 0), reads := [(rd 0)] })), 0,
      2, Writer.reeve, 0, (wReg 0 0 512), (rd 0), 0, by decide +kernel⟩,
    ⟨((stt 1).modChan 0 2 (fun x => { base := base, st := ChSt.running, want := (some 0), reads := [(rd 0)] })), 0,
      2, Writer.reeve, 0, (wReg 0 0 512), (rd 0), 0, by decide +kernel⟩,
    ⟨((stt 0).modChan 0 2 (fun x =>
      { base := base, st := ChSt.running, desc := d0[3]?, inData := true, reads := (dx true) })), 0, 2, Writer.reeve,
      0, (wReg 0 0 512), by decide +kernel⟩,
    ⟨((stt 0).modChan 0 2 (fun x => { base := base, st := ChSt.waiting, desc := d0[1]? })), 0, 2, Writer.reeve, 0,
      (wReg 0 0 512), (descOf (enc 5 3 0 7 0 0 0 0 0 0 5 1 6 0 0 0)), by decide +kernel⟩⟩

end WStreamChannelControl

namespace WStreamChannelData

def le (n v : Nat) : List Byte := (List.range n).map fun i => BitVec.ofNat 8 (v / 256 ^ i)
def enc (op fl esz tt src dst cols rows ss ds wt wa sg rep srs drs : Nat) : List Byte :=
  le 1 op ++ le 1 fl ++ le 1 esz ++ le 1 0 ++ le 4 tt ++ le 8 src ++ le 8 dst ++ le 4 cols ++ le 4 rows ++ le 4 ss ++ le 4 ds ++ le 4 wt ++ le 4 wa ++ le 4 sg ++ le 4 rep ++ le 4 srs ++ le 4 drs
def put (s : State) (a : Nat) (bs : List Byte) : State := s.pokeCells (bs.zipIdx.map fun z => (a + z.2, z.1))
def base : Word := 0x200001000
def dcs : List (List Byte) := [
  enc 5 0 0 7 0 0 0 0 0 0 0 0 0 0 0 0, enc 5 3 0 7 0 0 0 0 0 0 5 1 6 0 0 0, enc 15 0 0 7 0 0 0 0 0 0 0 0 0 0 0 0,
  enc 1 0 0 7 0x200002000 0x200003000 24 1 0 0 0 0 0 0 0 0, enc 1 0 0 7 0x200002004 0x200003000 24 1 0 0 0 0 0 0 0 0, enc 9 0 0 7 0 0 0 0 0 0 0 0 0 0 0 0 ]
def stt (k : Nat) : State := (List.range 6).foldl (fun s i => put s (base.toNat + 64 * i) (dcs.getD ((i + k) % 6) [])) { w0 with sync := { tallies := [(5, { assigned := true }), (6, { assigned := true })] } }
def ws : List SWrite := [{ va := 0x200003000, cells := [(0x200003000, 9), (0x200003001, 8)] }, { va := 0x200003040, cells := [(0x200003040, 9)] }]
def dr : SRead := { loc := 0x200002000, va := 0x200002000, len := 24, dests := [(0x200003000, 0x200003000, 24)] }

theorem witness_StreamChannelData :
    (∃ (s : State) (q : QuadId) (ch : BitVec 3) (d : Desc), ((s.chan (BitVec.toNat q) ch.toNat).st = ChSt.running ∧
      (s.chan (BitVec.toNat q) ch.toNat).inData = true ∧ (s.chan (BitVec.toNat q) ch.toNat).desc = some d ∧ (s.chan
      (BitVec.toNat q) ch.toNat).cut = none ∧ s.ctxServes (s.chan (BitVec.toNat q) ch.toNat).ctx = true ∧ (s.engine
      (BitVec.toNat q)).outstanding < 512 ∧ (s.chan (BitVec.toNat q) ch.toNat).row < d.rows ∧ (s.chan (BitVec.toNat
      q) ch.toNat).off < d.cols) ∧ (∀ (o : ℕ), s.window (s.chan (BitVec.toNat q) ch.toNat).ctx (BitVec.ofInt 64
      (BitVec.toInt d.dst + d.drs * ↑(s.chan (BitVec.toNat q) ch.toNat).rep + d.ds * ↑(s.chan (BitVec.toNat q)
      ch.toNat).row + ↑(s.chan (BitVec.toNat q) ch.toNat).off)) ≠ some (Window.granary o)) ∧ (d.op = 1 ∨ d.op = 2) ∧
      (∀ (o : ℕ), s.window (s.chan (BitVec.toNat q) ch.toNat).ctx (BitVec.ofInt 64 (BitVec.toInt d.src + d.srs *
      ↑(s.chan (BitVec.toNat q) ch.toNat).rep + d.ss * ↑(s.chan (BitVec.toNat q) ch.toNat).row + ↑(s.chan
      (BitVec.toNat q) ch.toNat).off)) ≠ some (Window.granary o)) ∧ min (64 - (BitVec.ofInt 64 (BitVec.toInt d.src +
      d.srs * ↑(s.chan (BitVec.toNat q) ch.toNat).rep + d.ss * ↑(s.chan (BitVec.toNat q) ch.toNat).row + ↑(s.chan
      (BitVec.toNat q) ch.toNat).off)).toNat % 64) (d.cols - (s.chan (BitVec.toNat q) ch.toNat).off) ≤ 64 -
      (BitVec.ofInt 64 (BitVec.toInt d.dst + d.drs * ↑(s.chan (BitVec.toNat q) ch.toNat).rep + d.ds * ↑(s.chan
      (BitVec.toNat q) ch.toNat).row + ↑(s.chan (BitVec.toNat q) ch.toNat).off)).toNat % 64) ∧
    (∃ (s : State) (q : QuadId) (ch : BitVec 3) (d : Desc), ((s.chan (BitVec.toNat q) ch.toNat).st = ChSt.running ∧
      (s.chan (BitVec.toNat q) ch.toNat).inData = true ∧ (s.chan (BitVec.toNat q) ch.toNat).desc = some d ∧ (s.chan
      (BitVec.toNat q) ch.toNat).cut = none ∧ s.ctxServes (s.chan (BitVec.toNat q) ch.toNat).ctx = true ∧ (s.engine
      (BitVec.toNat q)).outstanding < 512 ∧ (s.chan (BitVec.toNat q) ch.toNat).row < d.rows ∧ (s.chan (BitVec.toNat
      q) ch.toNat).off < d.cols) ∧ (∀ (o : ℕ), s.window (s.chan (BitVec.toNat q) ch.toNat).ctx (BitVec.ofInt 64
      (BitVec.toInt d.dst + d.drs * ↑(s.chan (BitVec.toNat q) ch.toNat).rep + d.ds * ↑(s.chan (BitVec.toNat q)
      ch.toNat).row + ↑(s.chan (BitVec.toNat q) ch.toNat).off)) ≠ some (Window.granary o)) ∧ d.op = 4) ∧
    (∃ (s : State) (q : QuadId) (ch : BitVec 3) (d : Desc), ((s.chan (BitVec.toNat q) ch.toNat).st = ChSt.running ∧
      (s.chan (BitVec.toNat q) ch.toNat).inData = true ∧ (s.chan (BitVec.toNat q) ch.toNat).desc = some d ∧ (s.chan
      (BitVec.toNat q) ch.toNat).cut = none) ∧ ∃ (r : SRead) (dva : Word) (dl : ℕ), (s.chan (BitVec.toNat q)
      ch.toNat).reads = [r] ∧ r.desc = none ∧ r.live = true ∧ r.dests = [(dva, dl, r.len)] ∧ 0 < r.len ∧ (d.op = 1 ∨
      d.op = 2) ∧ isBench r.loc = false ∧ s.poisonIn r.loc r.len = false ∧ (s.chan (BitVec.toNat q) ch.toNat).dq =
      none) ∧
    (∃ (s : State) (q : QuadId) (ch : BitVec 3) (d : Desc), ((s.chan (BitVec.toNat q) ch.toNat).st = ChSt.running ∧
      (s.chan (BitVec.toNat q) ch.toNat).inData = true ∧ (s.chan (BitVec.toNat q) ch.toNat).desc = some d ∧ (s.chan
      (BitVec.toNat q) ch.toNat).cut = none) ∧ ∃ (k : ℕ) (w : SWrite), (s.chan (BitVec.toNat q) ch.toNat).dq = none ∧
      (s.chan (BitVec.toNat q) ch.toNat).writes[k]? = some w ∧ w.live = true ∧ w.half = none ∧ (∀ v ∈ List.take k
      (s.chan (BitVec.toNat q) ch.toNat).writes, ∀ a ∈ w.cells, ∀ b ∈ v.cells, a.1 / 64 ≠ b.1 / 64) ∧ s.subPoison
      w.cells = false ∧ (s.chan (BitVec.toNat q) ch.toNat).row < d.rows ∧ 1 ≤ d.op ∧ d.op ≤ 4) ∧
    (∃ (s : State) (q : QuadId) (ch : BitVec 3) (d : Desc), (s.chan (BitVec.toNat q) ch.toNat).st = ChSt.running ∧
      (s.chan (BitVec.toNat q) ch.toNat).inData = true ∧ (s.chan (BitVec.toNat q) ch.toNat).desc = some d ∧ (s.chan
      (BitVec.toNat q) ch.toNat).cut = none ∧ s.ctxServes (s.chan (BitVec.toNat q) ch.toNat).ctx = true ∧ d.op = 15 ∧
      d.rep ≤ (s.chan (BitVec.toNat q) ch.toNat).pass ∧ (s.chan (BitVec.toNat q) ch.toNat).reads = [] ∧ (s.chan
      (BitVec.toNat q) ch.toNat).writes = [] ∧ (s.chan (BitVec.toNat q) ch.toNat).wq = [] ∧ (s.chan (BitVec.toNat q)
      ch.toNat).notify.getLsbD 29 = false ∧ (d.signals = false ∨ s.strmTallyOk (s.chan (BitVec.toNat q) ch.toNat).ctx
      d.sigTally = true)) :=
  ⟨⟨((stt 0).modChan 0 2 (fun x =>
      { base := base, st := ChSt.running, desc := (some { op := 1, flags := 0, esz := 0, timeout := 1, src := 8589942816, dst := 8589946896, cols := 24, rows := 1, ss := 0, ds := 0, waitTally := 0, waitArg := 0, sigTally := 6, rep := 0, srs := 0, drs := 0 }), inData := true })),
      0, 2,
      { op := 1, flags := 0, esz := 0, timeout := 1, src := 8589942816, dst := 8589946896, cols := 24, rows := 1, ss := 0, ds := 0, waitTally := 0, waitArg := 0, sigTally := 6, rep := 0, srs := 0, drs := 0 },
      by decide +kernel, nofun, by decide +kernel, nofun, by decide +kernel⟩,
    ⟨((stt 0).modChan 0 2 (fun x =>
      { base := base, st := ChSt.running, desc := (some { op := 4, flags := 0, esz := 0, timeout := 1, src := 1234605616436508552, dst := 8589946928, cols := 24, rows := 3, ss := 64, ds := -32, waitTally := 0, waitArg := 0, sigTally := 6, rep := 2, srs := 8, drs := 256 }), inData := true })),
      0, 2,
      { op := 4, flags := 0, esz := 0, timeout := 1, src := 1234605616436508552, dst := 8589946928, cols := 24, rows := 3, ss := 64, ds := -32, waitTally := 0, waitArg := 0, sigTally := 6, rep := 2, srs := 8, drs := 256 },
      by decide +kernel, nofun, by decide +kernel⟩,
    ⟨((stt 0).modChan 0 2 (fun x =>
      { base := base, st := ChSt.running, desc := (some { op := 1, flags := 0, esz := 0, timeout := 1, src := 8589942816, dst := 8589946896, cols := 24, rows := 1, ss := 0, ds := 0, waitTally := 0, waitArg := 0, sigTally := 6, rep := 0, srs := 0, drs := 0 }), inData := true, reads := [dr] })),
      0, 2,
      { op := 1, flags := 0, esz := 0, timeout := 1, src := 8589942816, dst := 8589946896, cols := 24, rows := 1, ss := 0, ds := 0, waitTally := 0, waitArg := 0, sigTally := 6, rep := 0, srs := 0, drs := 0 },
      by decide +kernel, dr, 8589946880, 8589946880, by decide +kernel⟩,
    ⟨((stt 0).modChan 0 2 (fun x =>
      { base := base, st := ChSt.running, rep := 1, desc := (some { op := 2, flags := 0, esz := 0, timeout := 1, src := 8589942816, dst := 8589946896, cols := 24, rows := 3, ss := 64, ds := -32, waitTally := 0, waitArg := 0, sigTally := 6, rep := 2, srs := 8, drs := 256 }), inData := true, row := 1, off := 16, writes := ws })),
      0, 2,
      { op := 2, flags := 0, esz := 0, timeout := 1, src := 8589942816, dst := 8589946896, cols := 24, rows := 3, ss := 64, ds := -32, waitTally := 0, waitArg := 0, sigTally := 6, rep := 2, srs := 8, drs := 256 },
      by decide +kernel, 0, { va := 8589946880, cells := [(8589946880, 9), (8589946881, 8)] }, by decide +kernel⟩,
    ⟨((stt 0).modChan 0 2 (fun x =>
      { base := base, st := ChSt.running, desc := (some { op := 15, flags := 2, esz := 0, timeout := 1, src := 0, dst := 0, cols := 0, rows := 0, ss := 0, ds := 0, waitTally := 0, waitArg := 0, sigTally := 6, rep := 0, srs := 0, drs := 0 }), inData := true })),
      0, 2,
      { op := 15, flags := 2, esz := 0, timeout := 1, src := 0, dst := 0, cols := 0, rows := 0, ss := 0, ds := 0, waitTally := 0, waitArg := 0, sigTally := 6, rep := 0, srs := 0, drs := 0 },
      by decide +kernel⟩⟩

end WStreamChannelData

namespace WReductionFrameHops

def regF : RegRec := { reg0 with elems := 192 }
def rolls : List (List (BitVec 2)) := [[], [0,1,2,3,0,0]]
def wss : List Int := [5, -7, 2147483640, 0]
def rowF (k : Nat) : List Frame := [⟨fh 3 k, List.replicate 128 3, [0,0,0,2,1,0]⟩]
def bks : List Bucket := [ { bk0 with reg := some regF, outcome := some 0, pre := true, origin := true }, { bk0 with reg := some regF, outcome := some 0, e := some (-2), begun := true },
  { bk0 with reg := some regF, outcome := some 0, e := some (-2), begun := true, rows := (rowF 0).map (fun f => (2, f)) }, { bk0 with pre := true, origin := true } ]
def pkf (tag : Nat) (ph : Byte) (ch : Nat) (roll : List (BitVec 2)) : Packet := ⟨{ dest := 2, src := 1, vc := 1, cls := false, hops := 0, flow := 0, sctx := 0, sgen := 0, dctx := 0, typ := 0x10, unit := 0x0600, tag := BitVec.ofNat 64 tag }, .frame (fh ph ch) wss roll, [], 0, 0, 1⟩
def sbase (two : Bool) (b : Bucket) (p : Packet) : State := ({ w0 with fab := { module := 2, inbox := [p] } }.modCtx 0 fun c => { c with rings := [ringSt two false] }).setBucket 0 3 b
def thePk_1 : Packet := pkf 2 5 1 (rolls.getD 1 [])
def theB_1 : Bucket := bks.getD 2 bk0
def thePk_2 : Packet := pkf 2 6 1 (rolls.getD 0 [])
def theB_2 : Bucket := bks.getD 2 bk0
def thePk_4 : Packet := pkf 2 3 0 (rolls.getD 0 [])
def theB_4 : Bucket := bks.getD 1 bk0
def thePk_5 : Packet := pkf 2 4 1 (rolls.getD 1 [])
def theB_5 : Bucket := bks.getD 1 bk0
def thePk_a : Packet := pkf 2 2 0 (rolls.getD 1 [])
def theB_a : Bucket := bks.getD 3 bk0
def thePk_b : Packet := pkf 2 1 0 (rolls.getD 1 [])
def theB_b : Bucket := bks.getD 0 bk0
def thePk_c : Packet := pkf 2 3 3 (rolls.getD 1 [])
def theB_c : Bucket := bks.getD 1 bk0

theorem witness_ReductionFrameHops :
    (∃ (s : State) (k : ℕ) (p : Packet) (h : FrameHdr) (ws : List ℤ) (roll : List (BitVec 2)) (e j : ℕ) (b : Bucket)
      (r : RingSt), (s.inboxAt k [16, 17] = some p ∧ p.body = Payload.frame h ws roll ∧ s.ctxServes p.hdr.dctx = true
      ∧ s.ring p.hdr.dctx h.ring.toNat = some r ∧ s.findBucket p.hdr.dctx h.ring.toNat h.bucket h.step = some (e, j)
      ∧ s.bucket e j = some b ∧ b.ctx = p.hdr.dctx ∧ b.ring = h.ring.toNat ∧ b.frozen = false ∧ b.ended = false ∧
      b.waiting = [] ∧ b.totals = [] ∧ h.pass = b.pass ∧ h.srcfail = false ∧ 2 ≤ r.ncol ∧ BitVec.toNat p.hdr.tag %
      1024 = r.pos s.fab.module ∧ r.host (r.pos s.fab.module) = r.pos s.fab.module) ∧ ∃ (g : RegRec) (ce : ℤ),
      ({ b with phase := BitVec.toNat h.phase } : Bucket).reg = some g ∧ ({ b with phase := BitVec.toNat h.phase } :
      Bucket).outcome = some 0 ∧ ({ b with phase := BitVec.toNat h.phase } : Bucket).srcfail = false ∧ s.myShadow r =
      false ∧ s.contribExp ({ b with phase := BitVec.toNat h.phase } : Bucket) = some ce ∧
      ({ b with phase := BitVec.toNat h.phase } : Bucket).e.isSome = true ∧ ({ b with phase := BitVec.toNat h.phase }
      : Bucket).begun = true ∧ h.phase = 5 ∧ covers (({ b with phase := BitVec.toNat h.phase } : Bucket).rowTotal
      (r.pos s.fab.module)) ((r.chunkRange g.elems (h.chunk / r.nrow)).2 - (r.chunkRange g.elems (h.chunk /
      r.nrow)).1) = true ∧ modDiff (r.pos s.fab.module / r.ncol) (h.chunk % r.nrow) r.nrow ≠ r.nrow - 1 ∧ r.host
      (r.colNext (r.pos s.fab.module)) ≠ r.pos s.fab.module) ∧
    (∃ (s : State) (k : ℕ) (p : Packet) (h : FrameHdr) (ws : List ℤ) (roll : List (BitVec 2)) (e j : ℕ) (b : Bucket)
      (r : RingSt), (s.inboxAt k [16, 17] = some p ∧ p.body = Payload.frame h ws roll ∧ s.ctxServes p.hdr.dctx = true
      ∧ s.ring p.hdr.dctx h.ring.toNat = some r ∧ s.findBucket p.hdr.dctx h.ring.toNat h.bucket h.step = some (e, j)
      ∧ s.bucket e j = some b ∧ b.ctx = p.hdr.dctx ∧ b.ring = h.ring.toNat ∧ b.frozen = false ∧ b.ended = false ∧
      b.waiting = [] ∧ b.totals = [] ∧ h.pass = b.pass ∧ h.srcfail = false ∧ 2 ≤ r.ncol ∧ BitVec.toNat p.hdr.tag %
      1024 = r.pos s.fab.module ∧ r.host (r.pos s.fab.module) = r.pos s.fab.module) ∧ ∃ (g : RegRec) (ce : ℤ),
      ({ b with phase := BitVec.toNat h.phase } : Bucket).reg = some g ∧ ({ b with phase := BitVec.toNat h.phase } :
      Bucket).outcome = some 0 ∧ ({ b with phase := BitVec.toNat h.phase } : Bucket).srcfail = false ∧ s.myShadow r =
      false ∧ s.contribExp ({ b with phase := BitVec.toNat h.phase } : Bucket) = some ce ∧
      ({ b with phase := BitVec.toNat h.phase } : Bucket).e.isSome = true ∧ ({ b with phase := BitVec.toNat h.phase }
      : Bucket).begun = true ∧ h.phase = 6 ∧ modDiff (r.pos s.fab.module / r.ncol) (h.chunk % r.nrow) r.nrow ≠ (2 *
      r.nrow - 2) % r.nrow ∧ (∃ n < r.nrow, covers
      (({ ({ b with phase := BitVec.toNat h.phase } : Bucket) with rows := ({ b with phase := BitVec.toNat h.phase } : Bucket).rows ++ [(r.pos s.fab.module, { hdr := h, words := ws, roll := roll })] }
      : Bucket).partTotal (r.pos s.fab.module) ((r.pos s.fab.module % r.ncol + 1) % r.ncol * r.nrow + n))
      ((r.partRange g.elems ((r.pos s.fab.module % r.ncol + 1) % r.ncol) n).2 - (r.partRange g.elems ((r.pos
      s.fab.module % r.ncol + 1) % r.ncol) n).1) = false) ∧ r.host (r.colNext (r.pos s.fab.module)) ≠ r.pos
      s.fab.module) ∧
    (∃ (s : State) (k : ℕ) (p : Packet) (h : FrameHdr) (ws : List ℤ) (roll : List (BitVec 2)) (e j : ℕ) (b : Bucket)
      (r : RingSt), (s.inboxAt k [16, 17] = some p ∧ p.body = Payload.frame h ws roll ∧ s.ctxServes p.hdr.dctx = true
      ∧ s.ring p.hdr.dctx h.ring.toNat = some r ∧ s.findBucket p.hdr.dctx h.ring.toNat h.bucket h.step = some (e, j)
      ∧ s.bucket e j = some b ∧ b.ctx = p.hdr.dctx ∧ b.ring = h.ring.toNat ∧ b.frozen = false ∧ b.ended = false ∧
      b.waiting = [] ∧ b.totals = [] ∧ h.pass = b.pass ∧ h.srcfail = false ∧ 2 ≤ r.ncol ∧ BitVec.toNat p.hdr.tag %
      1024 = r.pos s.fab.module ∧ r.host (r.pos s.fab.module) = r.pos s.fab.module) ∧ ∃ (g : RegRec) (ce : ℤ),
      (({ b with phase := BitVec.toNat h.phase } : Bucket).reg = some g ∧ ({ b with phase := BitVec.toNat h.phase } :
      Bucket).outcome = some 0 ∧ ({ b with phase := BitVec.toNat h.phase } : Bucket).srcfail = false ∧ s.myShadow r =
      false ∧ s.contribExp ({ b with phase := BitVec.toNat h.phase } : Bucket) = some ce ∧
      ({ b with phase := BitVec.toNat h.phase } : Bucket).e.isSome = true ∧ ({ b with phase := BitVec.toNat h.phase }
      : Bucket).begun = true) ∧ ∃ (vs : List FVal), h.phase = 3 ∧ s.contrib ({ b with phase := BitVec.toNat h.phase }
      : Bucket) ((r.chunkRange g.elems h.chunk).1 + h.offset) ws.length = some vs ∧ modDiff (r.pos s.fab.module %
      r.ncol) h.chunk r.ncol ≠ r.ncol - 1 ∧ r.host (r.rowNext (r.pos s.fab.module)) ≠ r.pos s.fab.module) ∧
    (∃ (s : State) (k : ℕ) (p : Packet) (h : FrameHdr) (ws : List ℤ) (roll : List (BitVec 2)) (e j : ℕ) (b : Bucket)
      (r : RingSt), (s.inboxAt k [16, 17] = some p ∧ p.body = Payload.frame h ws roll ∧ s.ctxServes p.hdr.dctx = true
      ∧ s.ring p.hdr.dctx h.ring.toNat = some r ∧ s.findBucket p.hdr.dctx h.ring.toNat h.bucket h.step = some (e, j)
      ∧ s.bucket e j = some b ∧ b.ctx = p.hdr.dctx ∧ b.ring = h.ring.toNat ∧ b.frozen = false ∧ b.ended = false ∧
      b.waiting = [] ∧ b.totals = [] ∧ h.pass = b.pass ∧ h.srcfail = false ∧ 2 ≤ r.ncol ∧ BitVec.toNat p.hdr.tag %
      1024 = r.pos s.fab.module ∧ r.host (r.pos s.fab.module) = r.pos s.fab.module) ∧ ∃ (g : RegRec) (ce : ℤ),
      ({ b with phase := BitVec.toNat h.phase } : Bucket).reg = some g ∧ ({ b with phase := BitVec.toNat h.phase } :
      Bucket).outcome = some 0 ∧ ({ b with phase := BitVec.toNat h.phase } : Bucket).srcfail = false ∧ s.myShadow r =
      false ∧ s.contribExp ({ b with phase := BitVec.toNat h.phase } : Bucket) = some ce ∧
      ({ b with phase := BitVec.toNat h.phase } : Bucket).e.isSome = true ∧ ({ b with phase := BitVec.toNat h.phase }
      : Bucket).begun = true ∧ h.phase = 4 ∧ modDiff (r.pos s.fab.module % r.ncol) h.chunk r.ncol ≠ (2 * r.ncol - 2)
      % r.ncol ∧ r.host (r.rowNext (r.pos s.fab.module)) ≠ r.pos s.fab.module) ∧
    (∃ (s : State) (k : ℕ) (p : Packet) (h : FrameHdr) (ws : List ℤ) (roll : List (BitVec 2)) (e j : ℕ) (b : Bucket)
      (r : RingSt), s.inboxAt k [16, 17] = some p ∧ p.body = Payload.frame h ws roll ∧ s.ctxServes p.hdr.dctx = true
      ∧ s.ring p.hdr.dctx h.ring.toNat = some r ∧ s.findBucket p.hdr.dctx h.ring.toNat h.bucket h.step = some (e, j)
      ∧ s.bucket e j = some b ∧ b.ctx = p.hdr.dctx ∧ b.ring = h.ring.toNat ∧ b.frozen = false ∧ b.ended = false ∧
      b.waiting = [] ∧ b.totals = [] ∧ h.pass = b.pass ∧ h.srcfail = false ∧ 2 ≤ r.ncol ∧ BitVec.toNat p.hdr.tag %
      1024 = r.pos s.fab.module ∧ r.host (r.pos s.fab.module) = r.pos s.fab.module ∧ h.phase = 2 ∧ h.chunk ≠ 1 ∧
      r.cfg.twoD = false ∧ ({ b with phase := BitVec.toNat h.phase } : Bucket).ready (s.myShadow r) = false ∧ r.pos
      s.fab.module % r.ncol ≠ (2 * r.ncol - 2) % r.ncol ∧ r.host (r.rowNext (r.pos s.fab.module)) ≠ r.pos
      s.fab.module) ∧
    (∃ (s : State) (k : ℕ) (p : Packet) (h : FrameHdr) (ws : List ℤ) (roll : List (BitVec 2)) (e j : ℕ) (b : Bucket)
      (r : RingSt), (s.inboxAt k [16, 17] = some p ∧ p.body = Payload.frame h ws roll ∧ s.ctxServes p.hdr.dctx = true
      ∧ s.ring p.hdr.dctx h.ring.toNat = some r ∧ s.findBucket p.hdr.dctx h.ring.toNat h.bucket h.step = some (e, j)
      ∧ s.bucket e j = some b ∧ b.ctx = p.hdr.dctx ∧ b.ring = h.ring.toNat ∧ b.frozen = false ∧ b.ended = false ∧
      b.waiting = [] ∧ b.totals = [] ∧ h.pass = b.pass ∧ h.srcfail = false ∧ 2 ≤ r.ncol ∧ BitVec.toNat p.hdr.tag %
      1024 = r.pos s.fab.module ∧ r.host (r.pos s.fab.module) = r.pos s.fab.module) ∧ ∃ (g : RegRec) (ce : ℤ),
      ({ b with phase := BitVec.toNat h.phase } : Bucket).reg = some g ∧ ({ b with phase := BitVec.toNat h.phase } :
      Bucket).outcome = some 0 ∧ ({ b with phase := BitVec.toNat h.phase } : Bucket).srcfail = false ∧ s.myShadow r =
      false ∧ s.contribExp ({ b with phase := BitVec.toNat h.phase } : Bucket) = some ce ∧ h.phase = 1 ∧ h.chunk ≠ 1
      ∧ r.cfg.twoD = false ∧ ({ b with phase := BitVec.toNat h.phase } : Bucket).pre = true ∧
      ({ b with phase := BitVec.toNat h.phase } : Bucket).e = none ∧ ({ b with phase := BitVec.toNat h.phase } :
      Bucket).origin = true ∧ r.pos s.fab.module % r.ncol ≠ r.ncol - 1 ∧ r.host (r.rowNext (r.pos s.fab.module)) ≠
      r.pos s.fab.module) ∧
    (∃ (s : State) (k : ℕ) (p : Packet) (h : FrameHdr) (ws : List ℤ) (roll : List (BitVec 2)) (e j : ℕ) (b : Bucket)
      (r : RingSt), (s.inboxAt k [16, 17] = some p ∧ p.body = Payload.frame h ws roll ∧ s.ctxServes p.hdr.dctx = true
      ∧ s.ring p.hdr.dctx h.ring.toNat = some r ∧ s.findBucket p.hdr.dctx h.ring.toNat h.bucket h.step = some (e, j)
      ∧ s.bucket e j = some b ∧ b.ctx = p.hdr.dctx ∧ b.ring = h.ring.toNat ∧ b.frozen = false ∧ b.ended = false ∧
      b.waiting = [] ∧ b.totals = [] ∧ h.pass = b.pass ∧ h.srcfail = false ∧ 2 ≤ r.ncol ∧ BitVec.toNat p.hdr.tag %
      1024 = r.pos s.fab.module ∧ r.host (r.pos s.fab.module) = r.pos s.fab.module) ∧ ∃ (g : RegRec) (ce : ℤ),
      (({ b with phase := BitVec.toNat h.phase } : Bucket).reg = some g ∧ ({ b with phase := BitVec.toNat h.phase } :
      Bucket).outcome = some 0 ∧ ({ b with phase := BitVec.toNat h.phase } : Bucket).srcfail = false ∧ s.myShadow r =
      false ∧ s.contribExp ({ b with phase := BitVec.toNat h.phase } : Bucket) = some ce ∧
      ({ b with phase := BitVec.toNat h.phase } : Bucket).e.isSome = true ∧ ({ b with phase := BitVec.toNat h.phase }
      : Bucket).begun = true) ∧ ∃ (vs : List FVal), h.phase = 3 ∧ s.contrib ({ b with phase := BitVec.toNat h.phase }
      : Bucket) ((r.chunkRange g.elems h.chunk).1 + h.offset) ws.length = some vs ∧ modDiff (r.pos s.fab.module %
      r.ncol) h.chunk r.ncol = r.ncol - 1 ∧ r.cfg.twoD = false ∧ r.host (r.rowNext (r.pos s.fab.module)) ≠ r.pos
      s.fab.module) :=
  ⟨⟨(sbase true theB_1 thePk_1), 0, thePk_1, (fh 5 1), wss, (rolls.getD 1 []), 0, 3, theB_1, (ringSt true false),
      by decide +kernel, regF, -126, by decide +kernel⟩,
    ⟨(sbase true theB_2 thePk_2), 0, thePk_2, (fh 6 1), wss, (rolls.getD 0 []), 0, 3, theB_2, (ringSt true false),
      by decide +kernel, regF, -126, by decide +kernel⟩,
    ⟨(sbase true theB_4 thePk_4), 0, thePk_4, (fh 3 0), wss, (rolls.getD 0 []), 0, 3, theB_4, (ringSt true false),
      by decide +kernel, regF, -126, by decide +kernel, ((w0.contrib { bk0 with reg := some regF, outcome := some 0 }
      0 4).getD []), by decide +kernel⟩,
    ⟨(sbase true theB_5 thePk_5), 0, thePk_5, (fh 4 1), wss, (rolls.getD 1 []), 0, 3, theB_5, (ringSt true false),
      by decide +kernel, regF, -126, by decide +kernel⟩,
    ⟨(sbase false theB_a thePk_a), 0, thePk_a, (fh 2 0), wss, (rolls.getD 1 []), 0, 3, theB_a, (ringSt false false),
      by decide +kernel⟩,
    ⟨(sbase false theB_b thePk_b), 0, thePk_b, (fh 1 0), wss, (rolls.getD 1 []), 0, 3, theB_b, (ringSt false false),
      by decide +kernel, regF, -126, by decide +kernel⟩,
    ⟨(sbase false theB_c thePk_c), 0, thePk_c, (fh 3 3), wss, (rolls.getD 1 []), 0, 3, theB_c, (ringSt false false),
      by decide +kernel, regF, -126, by decide +kernel, ((w0.contrib { bk0 with reg := some regF, outcome := some 0 }
      0 4).getD []), by decide +kernel⟩⟩

end WReductionFrameHops

namespace WReductionBuckets

def gpk (b : Payload) (typ : Byte) : Packet := ⟨{ dest := 0, src := 1, vc := 1, cls := false, hops := 0, flow := 0, sctx := 0, sgen := 0, dctx := 0, typ := typ, unit := 0x0600, tag := 0 }, b, [], 0, 0, 1⟩
def cp0 : List Byte × Bool × Int × BitVec 256 := ([1,2,3,4], false, 3, 9)
def b1 : Bucket := { bk0 with pre := true, origin := true }
def mem2 (s : State) : State := s.modCtx 0 fun c => { c with rings := c.rings.map fun r => { r with members := [⟨0,false,0⟩, ⟨5, true, 0⟩, ⟨6, false, 1⟩] } }
def regS : RegRec := { reg0 with src := 0x200000000, elems := 4 }

theorem witness_ReductionBuckets :
    (∃ (s : State) (c : CtxId) (sec : RedSection), ((s.ctx c).img.bind fun x => x.red) = some sec ∧ (s.ctxServes c =
      true ∧ 0 < (s.ctx c).red.ready ∧ s.poisonIn (BitVec.toNat sec.queue.base + (s.ctx c).red.k % sec.queue.slots *
      64) 64 = false) ∧ ∃ (r : RingSt) (e k : ℕ) (b : Bucket), (s.regCheck c (regBytes (memBytes s.mem (BitVec.toNat
      sec.queue.base + (s.ctx c).red.k % sec.queue.slots * 64) 64)) = none ∧ s.ring c (regBytes (memBytes s.mem
      (BitVec.toNat sec.queue.base + (s.ctx c).red.k % sec.queue.slots * 64) 64)).ring = some r ∧ s.findBucket c
      (regBytes (memBytes s.mem (BitVec.toNat sec.queue.base + (s.ctx c).red.k % sec.queue.slots * 64) 64)).ring
      (regBytes (memBytes s.mem (BitVec.toNat sec.queue.base + (s.ctx c).red.k % sec.queue.slots * 64) 64)).id
      (regBytes (memBytes s.mem (BitVec.toNat sec.queue.base + (s.ctx c).red.k % sec.queue.slots * 64) 64)).step =
      some (e, k) ∧ s.bucket e k = some b ∧ b.ctx = c ∧ b.ring = (regBytes (memBytes s.mem (BitVec.toNat
      sec.queue.base + (s.ctx c).red.k % sec.queue.slots * 64) 64)).ring ∧ b.late = false) ∧ awaitsExponent s r b ∧
      s.myShadow r = false ∧ r.pos s.fab.module % r.ncol = 0 ∧ r.host (r.pos s.fab.module) = r.pos s.fab.module ∧
      Memory.wf s.mem = true ∧ (s.firstPoison (regBytes (memBytes s.mem (BitVec.toNat sec.queue.base + (s.ctx
      c).red.k % sec.queue.slots * 64) 64)).src ((regBytes (memBytes s.mem (BitVec.toNat sec.queue.base + (s.ctx
      c).red.k % sec.queue.slots * 64) 64)).elems * if (regBytes (memBytes s.mem (BitVec.toNat sec.queue.base +
      (s.ctx c).red.k % sec.queue.slots * 64) 64)).fmt = 1 then 2 else 4) = none)) ∧
    (∃ (s : State) (c : CtxId) (sec : RedSection), ((s.ctx c).img.bind fun x => x.red) = some sec ∧ (s.ctxServes c =
      true ∧ 0 < (s.ctx c).red.ready ∧ s.poisonIn (BitVec.toNat sec.queue.base + (s.ctx c).red.k % sec.queue.slots *
      64) 64 = false) ∧ ∃ (code : Reason), s.regCheck c (regBytes (memBytes s.mem (BitVec.toNat sec.queue.base +
      (s.ctx c).red.k % sec.queue.slots * 64) 64)) = some code ∧ Memory.wf s.mem = true ∧ (s.tally (regBytes
      (memBytes s.mem (BitVec.toNat sec.queue.base + (s.ctx c).red.k % sec.queue.slots * 64) 64)).done).q = []) ∧
    (∃ (s : State) (k : ℕ) (p : Packet) (h : FrameHdr) (ws : List ℤ) (roll : List (BitVec 2)) (e j : ℕ) (b : Bucket)
      (r : RingSt), s.inboxAt k [16, 17] = some p ∧ p.body = Payload.frame h ws roll ∧ h.phase = 7 ∧ s.ring
      p.hdr.dctx h.ring.toNat = some r ∧ s.findBucket p.hdr.dctx h.ring.toNat h.bucket h.step = some (e, j) ∧
      s.bucket e j = some b ∧ b.reg = none ∧ b.outcome = none ∧ b.origin = false ∧ s.myShadow r = false) ∧
    (∃ (s : State) (e : BitVec 3) (slot : ℕ) (b : Bucket) (r : RingSt), (s.bucket e.toNat slot = some b ∧ s.ring
      b.ctx b.ring = some r ∧ b.outcome = none ∧ b.frozen = false ∧ b.timing = true ∧ b.reg = none ∧ b.asked = false
      ∧ s.myShadow r = false) ∧ ∃ (m : ModuleNo), r.shadowOf (s.myShard r) = some m) ∧
    (∃ (s : State) (e : BitVec 3) (slot : ℕ) (b : Bucket) (r : RingSt), (s.bucket e.toNat slot = some b ∧ s.ring
      b.ctx b.ring = some r ∧ b.outcome = none ∧ b.frozen = false ∧ b.timing = true ∧ b.reg = none ∧ b.asked = false
      ∧ s.myShadow r = false ∧ r.shadowOf (s.myShard r) = none) ∧ awaitsExponent s r b) ∧
    (∃ (s : State) (e : BitVec 3) (slot : ℕ) (b : Bucket) (r : RingSt), (s.bucket e.toNat slot = some b ∧ s.ring
      b.ctx b.ring = some r ∧ b.outcome = none ∧ b.frozen = false ∧ b.asked = true ∧ b.reg = none) ∧ awaitsExponent s
      r b ∧ ∃ (k : ℕ) (p : Packet) (copy : List Byte × Bool × ℤ × BitVec 256), s.inboxAt k [19] = some p ∧ p.hdr.dctx
      = b.ctx ∧ p.body = Payload.shadowCopy (BitVec.ofNat 3 b.ring) b.id b.step (some copy) false ∧ b.ring < 8 ∧
      s.findBucket b.ctx b.ring b.id b.step = some (e.toNat, slot)) ∧
    (∃ (s : State) (k : ℕ) (p : Packet) (ring : BitVec 3) (id : BitVec 16) (step : BitVec 32) (e j : ℕ) (b : Bucket)
      (g : RegRec), s.inboxAt k [18] = some p ∧ p.body = Payload.shadowRequest ring id step ∧ s.findBucket p.hdr.dctx
      ring.toNat id step = some (e, j) ∧ s.bucket e j = some b ∧ b.reg = some g ∧ (s.poisonIn g.src (g.elems * if
      g.bf16 = true then 2 else 4) = false)) ∧
    (∃ (s : State) (e : BitVec 3) (slot : ℕ) (b : Bucket) (g : RegRec), s.bucket e.toNat slot = some b ∧ b.reg = some
      g ∧ (s.ctx b.ctx).st = CtxState.running ∧ (s.tally g.doneTally).q = []) :=
  ⟨⟨(wr (regRec0 7 262144 0 1) b1), 0, _, rfl, by decide +kernel, (ringSt false true), 0, 3, b1, by decide +kernel,
      (by unfold awaitsExponent; decide +kernel), by decide +kernel⟩,
    ⟨{ (wr [] { b1 with timing := true }) with fab := {  } }, 0, _, rfl, by decide +kernel, _, rfl,
      by decide +kernel⟩,
    ⟨{ (wr [] { b1 with origin := false }) with fab := { inbox := [(gpk (Payload.frame (fh 7 0) [] []) 16)] } }, 0,
      (gpk (Payload.frame (fh 7 0) [] []) 16), (fh 7 0), [], [], 0, 3, { b1 with origin := false }, (ringSt false
      true), by decide +kernel⟩,
    ⟨{ (mem2 (wr [] { b1 with timing := true })) with fab := {  } }, 0, 3, { b1 with timing := true },
      { (ringSt false true) with members := [{ module := 0, shadow := false, shard := 0 }, { module := 5, shadow := true, shard := 0 }, { module := 6, shadow := false, shard := 1 }] },
      by decide +kernel, 5, by decide +kernel⟩,
    ⟨{ (wr [] { b1 with timing := true }) with fab := {  } }, 0, 3, { b1 with timing := true }, (ringSt false true),
      by decide +kernel, (by unfold awaitsExponent; decide +kernel)⟩,
    ⟨{ (wr [] { b1 with late := true, asked := true }) with fab := { inbox := [(gpk (Payload.shadowCopy 0 7 4 (some cp0) false) 19)] } },
      0, 3, { b1 with late := true, asked := true }, (ringSt false true), by decide +kernel,
      (by unfold awaitsExponent; decide +kernel), 0, (gpk (Payload.shadowCopy 0 7 4 (some cp0) false) 19), cp0,
      by decide +kernel⟩,
    ⟨{ (wr [] { b1 with reg := (some regS) }) with fab := { inbox := [(gpk (Payload.shadowRequest 0 7 4) 18)] } }, 0,
      (gpk (Payload.shadowRequest 0 7 4) 18), 0, 7, 4, 0, 3, { b1 with reg := (some regS) }, regS, by decide +kernel⟩,
    ⟨{ (wr [] { b1 with reg := (some regS) }) with fab := {  } }, 0, 3, { b1 with reg := (some regS) }, regS,
      by decide +kernel⟩⟩

end WReductionBuckets

namespace WLinkLayer

def rts : List RouteEntry := [⟨1, [0, 1]⟩, ⟨2, [1]⟩, ⟨3, [3]⟩, ⟨9, [0]⟩]
def hp (dest src : ModuleNo) (typ : Byte) (sgen : Byte := 0) : PktHdr := { dest := dest, src := src, vc := 1, cls := false, hops := 0, flow := 0, sctx := 0, sgen := sgen, dctx := 0, typ := typ, unit := 0x0600, tag := 0 }
def qp (dest src : ModuleNo) (b : Payload) (sgen : Byte := 0) : Packet := let h := hp dest src (payloadTyp b) sgen; ⟨h, b, [], h.e2e [], 0, 1⟩
def fl (q : BitVec 12) (idle : Bool) (cr : List (BitVec 3 × Bool × Nat)) : Flit := ⟨q, idle, cr, [1, 2, 3], crc64 [1, 2, 3], [], []⟩
def upP : Port := { enable := true, st := .up, txWidth := 8, rxWidth := 8, txGood := 0xFF, rxGood := 0xFF, peerMap := 0xFF, peer := 1, peerPort := 2, expected := 5 }
def dnP : Port := { enable := true, st := .down, peer := 1, peerPort := 2 }
def trP : Port := { dnP with st := .training }
def fs : Fab := { module := 0, fabricId := 4, hopsMax := 3, routes := rts, lasers := (List.range 4).map fun i => (i, { seen := true }) }
def ports : List Port := [upP, dnP, trP, { upP with replay := [⟨3, [1], none⟩, ⟨4, [2], none⟩] }, { upP with replay := [⟨3, [1], none⟩, ⟨4, [2], none⟩], replayFrom := 3, replays := 15 }, { upP with discard := true }, { upP with rxGood := 0xF7 }, { upP with rxGood := 0x0F, rxWidth := 4 }, { upP with queue := [qp 9 1 .heartbeat], used := [(2,32),(0,16)] } ]

theorem witness_LinkLayer_1 :
    (∃ (s : State) (p : Fin 17), ((s.port ↑p).st = PortState.up ∧ ↑p ≠ 16) ∧ ∃ (f : Flit), f.ok = true ∧ f.idle =
      false ∧ f.seq = (s.port ↑p).expected ∧ (s.port ↑p).queue = []) ∧
    (∃ (s : State) (p : Fin 17), ((s.port ↑p).st = PortState.up ∧ ↑p ≠ 16) ∧ ∃ (f : Flit), (f.fecOk = false ∨ f.crcOk
      = false ∨ f.idle = false ∧ f.seq ≠ (s.port ↑p).expected) ∧ (s.port ↑p).discard = false) ∧
    (∃ (s : State) (p : Fin 17), (s.port ↑p).st = PortState.up ∧ ↑p ≠ 16 ∧ (s.port ↑p).queue = [] ∧ (s.port
      ↑p).replay = []) ∧
    (∃ (s : State) (p : Fin 17), (s.port ↑p).st = PortState.up ∧ ∃ (seq : BitVec 12) (i : ℕ), (List.findIdx? (fun f
      => f.seq == seq) (s.port ↑p).replay) = some i ∧ (s.port ↑p).queue = []) ∧
    (∃ (s : State) (p : Fin 17), (s.port ↑p).st = PortState.up ∧ ∃ (seq : BitVec 12), (∃ f ∈ (s.port ↑p).replay,
      f.seq = seq) ∧ ((if (s.port ↑p).replayFrom = seq then (s.port ↑p).replays + 1 else 1) < 16)) ∧
    (∃ (s : State) (p : Fin 17), (s.port ↑p).st = PortState.up ∧ ∃ (seq : BitVec 12), (∃ f ∈ (s.port ↑p).replay,
      f.seq = seq) ∧ (16 ≤ if (s.port ↑p).replayFrom = seq then (s.port ↑p).replays + 1 else 1) ∧ ↑p ≠ 16 ∧ (s.port
      ↑p).queue = [] ∧ (∀ f ∈ (s.port ↑p).replay, f.pkt = none)) ∧
    (∃ (s : State) (p : Fin 17), (s.port ↑p).st = PortState.up ∧ ∃ (f : SentFlit) (rest : List SentFlit), (s.port
      ↑p).replay = f :: rest ∧ ((if (s.port ↑p).replayFrom = f.seq then (s.port ↑p).replays + 1 else 1) < 16)) ∧
    (∃ (s : State) (p : Fin 17), (s.port ↑p).st = PortState.up ∧ ∃ (f : SentFlit) (rest : List SentFlit), (s.port
      ↑p).replay = f :: rest ∧ (16 ≤ if (s.port ↑p).replayFrom = f.seq then (s.port ↑p).replays + 1 else 1) ∧ ↑p ≠ 16
      ∧ (s.port ↑p).queue = [] ∧ (∀ f ∈ (s.port ↑p).replay, f.pkt = none)) :=
  ⟨⟨{ w0 with fab := { fs with ports := [(0, upP)] } }, 0, by decide +kernel, (fl 5 false []), by decide +kernel⟩,
    ⟨{ w0 with fab := { fs with ports := [(0, upP)] } }, 0, by decide +kernel, (fl 6 false []), by decide +kernel⟩,
    ⟨{ w0 with fab := { fs with ports := [(0, upP)] } }, 0, by decide +kernel⟩,
    ⟨{ w0 with fab := { fs with ports := [(0, { upP with replay := [{ seq := 3, data := [1], pkt := none }, { seq := 4, data := [2], pkt := none }] })] } },
      0, by decide +kernel, 3, _, rfl, by decide +kernel⟩,
    ⟨{ w0 with fab := { fs with ports := [(0, { upP with replay := [{ seq := 3, data := [1], pkt := none }, { seq := 4, data := [2], pkt := none }] })] } },
      0, by decide +kernel, 3, by decide +kernel⟩,
    ⟨{ w0 with fab := { fs with ports := [(0, { upP with replay := [{ seq := 3, data := [1], pkt := none }, { seq := 4, data := [2], pkt := none }], replayFrom := 3, replays := 15 })] } },
      0, by decide +kernel, 3, by decide +kernel⟩,
    ⟨{ w0 with fab := { fs with ports := [(0, { upP with replay := [{ seq := 3, data := [1], pkt := none }, { seq := 4, data := [2], pkt := none }] })] } },
      0, by decide +kernel, { seq := 3, data := [1], pkt := none }, [{ seq := 4, data := [2], pkt := none }],
      by decide +kernel⟩,
    ⟨{ w0 with fab := { fs with ports := [(0, { upP with replay := [{ seq := 3, data := [1], pkt := none }, { seq := 4, data := [2], pkt := none }], replayFrom := 3, replays := 15 })] } },
      0, by decide +kernel, { seq := 3, data := [1], pkt := none }, [{ seq := 4, data := [2], pkt := none }],
      by decide +kernel⟩⟩

theorem witness_LinkLayer_2 :
    (∃ (s : State) (p : Fin 17), (s.port ↑p).st = PortState.training ∧ ∃ (t : Training), ↑p ≠ 16 ∧ t.peer = (s.port
      ↑p).peer ∧ t.peerPort = (s.port ↑p).peerPort ∧ t.fabricId = s.fab.fabricId ∧ 4 ≤ laneCount (BitVec.toNat
      (t.txGood &&& (s.port ↑p).allowed &&& BitVec.ofNat 8 (drivable (s.laserInputs ↑p)))) ∧ 4 ≤ laneCount
      (BitVec.toNat t.rxGood)) ∧
    (∃ (s : State) (p : Fin 17), (s.port ↑p).st = PortState.training ∧ ∃ (t : Training), ↑p ≠ 16 ∧ (t.peer ≠ (s.port
      ↑p).peer ∨ t.peerPort ≠ (s.port ↑p).peerPort ∨ t.fabricId ≠ s.fab.fabricId)) ∧
    (∃ (s : State) (p : Fin 17), (s.port ↑p).st = PortState.training ∧ ∃ (t : Training), ↑p = 16 ∧ t.txGood = 255 ∧
      t.rxGood = 255 ∧ (s.port ↑p).allowed = 255 ∧ 2 ≤ s.laserInputs 16) ∧
    (∃ (s : State) (p : Fin 17), (s.port ↑p).st = PortState.down) ∧
    (∃ (s : State) (p : Fin 17) (m : ModImage) (cfg : PortCfg), ↑p ≠ 16 ∧ s.boot.mod = some m ∧ m.fabric.ports[↑p]? =
      some cfg ∧ cfg.enable = true ∧ (s.port ↑p).enable = false ∧ portBad s.fab.module cfg = false ∧ 0 <
      s.laserInputs ↑p) :=
  ⟨⟨{ w0 with fab := { fs with ports := [(0, trP)] } }, 0, by decide +kernel,
      { rxGood := 255, txGood := 255, peer := 1, peerPort := 2, fabricId := 4 }, by decide +kernel⟩,
    ⟨{ w0 with fab := { fs with ports := [(0, trP)] } }, 0, by decide +kernel,
      { rxGood := 255, txGood := 255, peer := 1, peerPort := 3, fabricId := 4 }, by decide +kernel⟩,
    ⟨{ w0 with fab := { fs with ports := [(16, trP)] } }, 16, by decide +kernel,
      { rxGood := 255, txGood := 255, peer := 1, peerPort := 2, fabricId := 4 }, by decide +kernel⟩,
    ⟨{ w0 with fab := { fs with ports := [(0, dnP)] } }, 0, by decide +kernel⟩,
    ⟨{ w0 with fab := fs, boot := { w0.boot with mod := (some modImg0) } }, 0, modImg0,
      { enable := true, peer := 1, peerPort := 2, dateline := false }, by decide +kernel⟩⟩

end WLinkLayer

namespace WLanesAndLasers

def rts : List RouteEntry := [⟨1, [0, 1]⟩, ⟨2, [1]⟩, ⟨3, [3]⟩, ⟨9, [0]⟩]
def hp (dest src : ModuleNo) (typ : Byte) (sgen : Byte := 0) : PktHdr := { dest := dest, src := src, vc := 1, cls := false, hops := 0, flow := 0, sctx := 0, sgen := sgen, dctx := 0, typ := typ, unit := 0x0600, tag := 0 }
def qp (dest src : ModuleNo) (b : Payload) (sgen : Byte := 0) : Packet := let h := hp dest src (payloadTyp b) sgen; ⟨h, b, [], h.e2e [], 0, 1⟩
def upP : Port := { enable := true, st := .up, txWidth := 8, rxWidth := 8, txGood := 0xFF, rxGood := 0xFF, peerMap := 0xFF, peer := 1, peerPort := 2, expected := 5 }
def dnP : Port := { enable := true, st := .down, peer := 1, peerPort := 2 }
def trP : Port := { dnP with st := .training }
def fs : Fab := { module := 0, fabricId := 4, hopsMax := 3, routes := rts, lasers := (List.range 4).map fun i => (i, { seen := true }) }
def ports : List Port := [upP, dnP, trP, { upP with replay := [⟨3, [1], none⟩, ⟨4, [2], none⟩] }, { upP with replay := [⟨3, [1], none⟩, ⟨4, [2], none⟩], replayFrom := 3, replays := 15 }, { upP with discard := true }, { upP with rxGood := 0xF7 }, { upP with rxGood := 0x0F, rxWidth := 4 }, { upP with queue := [qp 9 1 .heartbeat], used := [(2,32),(0,16)] } ]

theorem witness_LanesAndLasers_1 :
    (∃ (s : State) (p : Fin 17) (lane : BitVec 3), ((s.port ↑p).st = PortState.up ∧ ↑p ≠ 16) ∧ ∃ (lanes : Byte),
      (s.port ↑p).rxGood &&& lanes ≠ 0 ∧ 4 ≤ laneCount (BitVec.toNat ((s.port ↑p).rxGood &&& ~~~lanes))) ∧
    (∃ (s : State) (p : Fin 17) (lane : BitVec 3), (s.port ↑p).st = PortState.up ∧ ↑p ≠ 16 ∧ BitVec.getLsbD (s.port
      ↑p).rxGood lane.toNat = true ∧ 4 ≤ laneCount (BitVec.toNat ((s.port ↑p).rxGood &&& ~~~BitVec.ofNat 8 (2 ^
      lane.toNat)))) ∧
    (∃ (s : State) (p : Fin 17) (lane : BitVec 3), (s.port ↑p).st = PortState.up ∧ ↑p ≠ 16 ∧ BitVec.getLsbD (s.port
      ↑p).rxGood lane.toNat = false ∧ 4 ≤ laneCount (BitVec.toNat ((s.port ↑p).rxGood ||| BitVec.ofNat 8 (2 ^
      lane.toNat)))) ∧
    (∃ (s : State) (p : PortId) (map : Byte) (q : Fin 17), ↑q = BitVec.toNat p ∧ (s.port (BitVec.toNat p)).st =
      PortState.up ∧ 4 ≤ laneCount (BitVec.toNat (map &&& (s.port (BitVec.toNat p)).allowed &&& BitVec.ofNat 8
      (drivable (s.laserInputs (BitVec.toNat p))))) ∧ (s.port (BitVec.toNat p)).replays = 0) ∧
    (∃ (s : State) (p : PortId) (map : Byte) (q : Fin 17), ↑q = BitVec.toNat p ∧ (s.port (BitVec.toNat p)).st =
      PortState.up ∧ 4 ≤ laneCount (BitVec.toNat ((s.port (BitVec.toNat p)).peerMap &&& map &&& BitVec.ofNat 8
      (drivable (s.laserInputs (BitVec.toNat p))))) ∧ (s.port (BitVec.toNat p)).replays = 0) ∧
    (∃ (s : State) (m : BitVec 2) (v : Word), (∀ p < (17 : ℕ), (s.port p).st ≠ PortState.up) ∧ s.boot.phase ≠
      BootPhase.resetEntry ∧ (s.laser m.toNat).healthy = true ∧ { (s.laser m.toNat) with present := false }.healthy =
      false) ∧
    (∃ (s : State) (m : BitVec 2) (v : Word), (∀ p < (17 : ℕ), (s.port p).st ≠ PortState.up) ∧ s.boot.phase ≠
      BootPhase.resetEntry ∧ (s.laser m.toNat).healthy = true ∧ { (s.laser m.toNat) with enabled := false }.healthy =
      false) ∧
    (∃ (s : State) (m : BitVec 2) (v : Word), (∀ p < (17 : ℕ), (s.port p).st ≠ PortState.up) ∧ s.boot.phase ≠
      BootPhase.resetEntry ∧ (s.laser m.toNat).healthy = true ∧ { (s.laser m.toNat) with fault := true }.healthy =
      false) :=
  ⟨⟨{ w0 with fab := { fs with ports := [(0, upP)] }, boot := { ({ w0 with fab := { fs with ports := [(0, upP)] } }.boot) with phase := BootPhase.released } },
      0, 0, by decide +kernel, 15, by decide +kernel⟩,
    ⟨{ w0 with fab := { fs with ports := [(0, upP)] }, boot := { ({ w0 with fab := { fs with ports := [(0, upP)] } }.boot) with phase := BootPhase.released } },
      0, 0, by decide +kernel⟩,
    ⟨{ w0 with fab := { fs with ports := [(0, { upP with rxGood := 247 })] }, boot := { ({ w0 with fab := { fs with ports := [(0, { upP with rxGood := 247 })] } }.boot) with phase := BootPhase.released } },
      0, 3, by decide +kernel⟩,
    ⟨{ w0 with fab := { fs with ports := [(0, upP)] }, boot := { ({ w0 with fab := { fs with ports := [(0, upP)] } }.boot) with phase := BootPhase.released } },
      0, 255, 0, by decide +kernel⟩,
    ⟨{ w0 with fab := { fs with ports := [(0, upP)] }, boot := { ({ w0 with fab := { fs with ports := [(0, upP)] } }.boot) with phase := BootPhase.released } },
      0, 255, 0, by decide +kernel⟩,
    ⟨{ w0 with fab := fs, boot := { w0.boot with phase := BootPhase.released, mod := (some modImg0) } }, 0, 0,
      by decide +kernel⟩,
    ⟨{ w0 with fab := fs, boot := { w0.boot with phase := BootPhase.released, mod := (some modImg0) } }, 0, 0,
      by decide +kernel⟩,
    ⟨{ w0 with fab := fs, boot := { w0.boot with phase := BootPhase.released, mod := (some modImg0) } }, 0, 0,
      by decide +kernel⟩⟩

theorem witness_LanesAndLasers_2 :
    (∃ (s : State) (m : BitVec 2) (v : Word), (∀ p < (17 : ℕ), (s.port p).st ≠ PortState.up) ∧ s.boot.phase ≠
      BootPhase.resetEntry ∧ (s.laser m.toNat).healthy = true ∧ { (s.laser m.toNat) with lowPower := true }.healthy =
      false) ∧
    (∃ (s : State) (m : BitVec 2) (v : Word), (∀ p < (17 : ℕ), (s.port p).st ≠ PortState.up) ∧ s.boot.phase ≠
      BootPhase.resetEntry ∧ (s.laser m.toNat).healthy = true ∧
      { (s.laser m.toNat) with enabled := BitVec.getLsbD v 0 }.healthy = false) :=
  ⟨⟨{ w0 with fab := fs, boot := { w0.boot with phase := BootPhase.released, mod := (some modImg0) } }, 0, 0,
      by decide +kernel⟩,
    ⟨{ w0 with fab := fs, boot := { w0.boot with phase := BootPhase.released, mod := (some modImg0) } }, 0, 0,
      by decide +kernel⟩⟩

end WLanesAndLasers

namespace WPacketsAndRoutes

def rts : List RouteEntry := [⟨1, [0, 1]⟩, ⟨2, [1]⟩, ⟨3, [3]⟩, ⟨9, [0]⟩]
def hp (dest src : ModuleNo) (typ : Byte) (sgen : Byte := 0) : PktHdr := { dest := dest, src := src, vc := 1, cls := false, hops := 0, flow := 0, sctx := 0, sgen := sgen, dctx := 0, typ := typ, unit := 0x0600, tag := 0 }
def qp (dest src : ModuleNo) (b : Payload) (sgen : Byte := 0) : Packet := let h := hp dest src (payloadTyp b) sgen; ⟨h, b, [], h.e2e [], 0, 1⟩
def upP : Port := { enable := true, st := .up, txWidth := 8, rxWidth := 8, txGood := 0xFF, rxGood := 0xFF, peerMap := 0xFF, peer := 1, peerPort := 2, expected := 5 }
def dnP : Port := { enable := true, st := .down, peer := 1, peerPort := 2 }
def trP : Port := { dnP with st := .training }
def fs : Fab := { module := 0, fabricId := 4, hopsMax := 3, routes := rts, lasers := (List.range 4).map fun i => (i, { seen := true }) }
def ports : List Port := [upP, dnP, trP, { upP with replay := [⟨3, [1], none⟩, ⟨4, [2], none⟩] }, { upP with replay := [⟨3, [1], none⟩, ⟨4, [2], none⟩], replayFrom := 3, replays := 15 }, { upP with discard := true }, { upP with rxGood := 0xF7 }, { upP with rxGood := 0x0F, rxWidth := 4 }, { upP with queue := [qp 9 1 .heartbeat], used := [(2,32),(0,16)] } ]
def gn : Packet := qp 0 1 (.genNotice 0 7) 7
def withRx (s : State) (q : Packet) : State := { s with fab := { s.fab with ports := s.fab.ports.map fun e => (e.1, { e.2 with rxPkts := [q.bytes] }) } }

theorem witness_PacketsAndRoutes :
    (∃ (s : State) (p : PortId) (pkt : Packet), (s.port (BitVec.toNat p)).st = PortState.up ∧ pkt.hdr.vc.toNat < 6 ∧
      (pkt.hdr.src ∈ List.map (fun x => x.dest) s.fab.routes) ∧ (s.port (BitVec.toNat p)).holds pkt = true ∧
      (pkt.hdr.dest = s.fab.module ∨ pkt.hdr.dest = 65535) ∧ pkt.crcOk = true ∧ (¬∃ g, List.find? (fun e => e.1 ==
      BitVec.toNat pkt.hdr.src * 16 + BitVec.toNat pkt.hdr.sctx) s.fab.kept = some (BitVec.toNat pkt.hdr.src * 16 +
      BitVec.toNat pkt.hdr.sctx, g) ∧ 1 ≤ BitVec.toNat (g - pkt.hdr.sgen) ∧ BitVec.toNat (g - pkt.hdr.sgen) ≤ 127)) ∧
    (∃ (s : State) (p : PortId) (pkt : Packet), (s.port (BitVec.toNat p)).st = PortState.up ∧ pkt.hdr.vc.toNat < 6 ∧
      (pkt.hdr.src ∈ List.map (fun x => x.dest) s.fab.routes) ∧ (s.port (BitVec.toNat p)).holds pkt = true ∧
      (pkt.hdr.dest = s.fab.module ∨ pkt.hdr.dest = 65535) ∧ pkt.crcOk = false) ∧
    (∃ (s : State) (p : PortId) (pkt : Packet), (s.port (BitVec.toNat p)).st = PortState.up ∧ pkt.hdr.vc.toNat < 6 ∧
      (pkt.hdr.src ∈ List.map (fun x => x.dest) s.fab.routes) ∧ (s.port (BitVec.toNat p)).holds pkt = true ∧ (∃ g,
      List.find? (fun e => e.1 == BitVec.toNat pkt.hdr.src * 16 + BitVec.toNat pkt.hdr.sctx) s.fab.kept = some
      (BitVec.toNat pkt.hdr.src * 16 + BitVec.toNat pkt.hdr.sctx, g) ∧ 1 ≤ BitVec.toNat (g - pkt.hdr.sgen) ∧
      BitVec.toNat (g - pkt.hdr.sgen) ≤ 127) ∧ ((pkt.hdr.dest = s.fab.module ∨ pkt.hdr.dest = 65535) ∧ pkt.crcOk =
      true ∨ ¬(pkt.hdr.dest = s.fab.module ∨ pkt.hdr.dest = 65535))) ∧
    (∃ (s : State) (p : PortId) (pkt : Packet), ((s.port (BitVec.toNat p)).st = PortState.up ∧ pkt.hdr.vc.toNat < 6 ∧
      (pkt.hdr.src ∈ List.map (fun x => x.dest) s.fab.routes) ∧ (s.port (BitVec.toNat p)).holds pkt = true) ∧ ∃ (out
      : ℕ), (¬(pkt.hdr.dest = s.fab.module ∨ pkt.hdr.dest = 65535)) ∧ (¬∃ g, List.find? (fun e => e.1 == BitVec.toNat
      pkt.hdr.src * 16 + BitVec.toNat pkt.hdr.sctx) s.fab.kept = some (BitVec.toNat pkt.hdr.src * 16 + BitVec.toNat
      pkt.hdr.sctx, g) ∧ 1 ≤ BitVec.toNat (g - pkt.hdr.sgen) ∧ BitVec.toNat (g - pkt.hdr.sgen) ≤ 127) ∧
      pkt.hdr.hops.toNat + 1 ≤ s.fab.hopsMax.toNat ∧ pkt.hdr.dest ∉ s.fab.holds ∧ s.choosePort
      { pkt.hdr with hops := pkt.hdr.hops + 1 } = some out) ∧
    (∃ (s : State) (p : PortId) (k : ℕ) (q : Packet), (s.port (BitVec.toNat p)).queue[k]? = some q) ∧
    (∃ (s : State) (dest : ModuleNo), dest ∈ s.fab.holds) ∧
    (∃ (s : State) (k : ℕ) (p : Packet) (c : CtxId) (g : Byte), s.inboxAt k [65] = some p ∧ p.body =
      Payload.genNotice c g ∧ s.staleGen p.hdr.src c g = false) :=
  ⟨⟨(withRx { w0 with fab := { fs with ports := [(0, upP)] } } (qp 0 1 Payload.heartbeat 0)), 0, (qp 0 1
      Payload.heartbeat 0), by decide +kernel⟩,
    ⟨(withRx { w0 with fab := { fs with ports := [(0, upP)] } } { (qp 0 1 Payload.heartbeat 0) with crc := 9 }), 0,
      { (qp 0 1 Payload.heartbeat 0) with crc := 9 }, by decide +kernel⟩,
    ⟨(withRx { w0 with fab := { fs with ports := [(0, upP)], kept := [(16, 3)] } } (qp 0 1 Payload.heartbeat 0)), 0,
      (qp 0 1 Payload.heartbeat 0), by decide +kernel⟩,
    ⟨(withRx { w0 with fab := { fs with ports := [(0, upP), (1, upP)] } } (qp 2 1 Payload.heartbeat 0)), 0, (qp 2 1
      Payload.heartbeat 0), by decide +kernel, 1, by decide +kernel⟩,
    ⟨(withRx
      { w0 with fab := { fs with ports := [(0, { upP with used := [(2, 32), (0, 16)], queue := [(qp 9 1 Payload.heartbeat 0), (qp 9 1 (Payload.undeliverable (hp 9 1 1 0) 3) 0)] })] } }
      { (qp 0 1 Payload.heartbeat 0) with crc := 9 }), 0, 0, _, rfl⟩,
    ⟨(withRx
      { w0 with fab := { fs with ports := [(0, upP)], holds := [3], held := [(qp 3 1 Payload.heartbeat 0), (qp 2 1 Payload.heartbeat 0)] } }
      { (qp 0 1 Payload.heartbeat 0) with crc := 9 }), 3, by decide +kernel⟩,
    ⟨(withRx { w0 with fab := { fs with ports := [(0, upP)], inbox := [gn, (qp 0 1 Payload.heartbeat 6)] } }
      { (qp 0 1 Payload.heartbeat 0) with crc := 9 }), 0, gn, 0, 7, by decide +kernel⟩⟩

end WPacketsAndRoutes

namespace WPuts

def rts : List RouteEntry := [⟨1, [0, 1]⟩, ⟨2, [1]⟩, ⟨3, [3]⟩, ⟨9, [0]⟩]
def hp (dest src : ModuleNo) (typ : Byte) (sgen : Byte := 0) : PktHdr := { dest := dest, src := src, vc := 1, cls := false, hops := 0, flow := 0, sctx := 0, sgen := sgen, dctx := 0, typ := typ, unit := 0x0600, tag := 0 }
def qp (dest src : ModuleNo) (b : Payload) (sgen : Byte := 0) : Packet := let h := hp dest src (payloadTyp b) sgen; ⟨h, b, [], h.e2e [], 0, 1⟩
def upP : Port := { enable := true, st := .up, txWidth := 8, rxWidth := 8, txGood := 0xFF, rxGood := 0xFF, peerMap := 0xFF, peer := 1, peerPort := 2, expected := 5 }
def dnP : Port := { enable := true, st := .down, peer := 1, peerPort := 2 }
def trP : Port := { dnP with st := .training }
def fs : Fab := { module := 0, fabricId := 4, hopsMax := 3, routes := rts, lasers := (List.range 4).map fun i => (i, { seen := true }) }
def ports : List Port := [upP, dnP, trP, { upP with replay := [⟨3, [1], none⟩, ⟨4, [2], none⟩] }, { upP with replay := [⟨3, [1], none⟩, ⟨4, [2], none⟩], replayFrom := 3, replays := 15 }, { upP with discard := true }, { upP with rxGood := 0xF7 }, { upP with rxGood := 0x0F, rxWidth := 4 }, { upP with queue := [qp 9 1 .heartbeat], used := [(2,32),(0,16)] } ]
def pr (len flags : Nat) : List Byte := leB 2 1 ++ leB 1 0 ++ leB 1 flags ++ leB 4 len ++ leB 8 0x200100000 ++ leB 8 0x200200000 ++ leB 4 0 ++ leB 4 5 ++ leB 2 0 ++ leB 2 0 ++ leB 4 9 ++ leB 8 0 ++ leB 16 0
def pq : QueueCfg := { base := 0x200001000, slots := 4, tally := 6 }
def spp (len flags : Nat) : State := ((putB { w0 with fab := { fs with ports := [(0, upP)] }, sync := { tallies := [(5, { assigned := true }), (6, { assigned := true })] } } 0x200001040 (pr len flags)).modCtx 0 fun c => { c with img := some { img0 with putq := some pq }, putK := 1, putReady := 1 })
def p0 : PutSt := { ctx := 0, gen := 0, id := 7, slot := 0x200001040, dest := 1, done := 5 }

theorem witness_Puts :
    (∃ (s : State) (c : CtxId) (q : QueueCfg), ((s.ctx c).img.bind fun x => x.putq) = some q ∧ s.ctxServes c = true ∧
      0 < (s.ctx c).putReady ∧ s.poisonIn (BitVec.toNat q.base + (s.ctx c).putK % q.slots * 64) 64 = false ∧ s.putOk
      c (putRec (memBytes s.mem (BitVec.toNat q.base + (s.ctx c).putK % q.slots * 64) 64)) = true) ∧
    (∃ (s : State) (c : CtxId) (q : QueueCfg), ((s.ctx c).img.bind fun x => x.putq) = some q ∧ s.ctxServes c = true ∧
      0 < (s.ctx c).putReady ∧ s.poisonIn (BitVec.toNat q.base + (s.ctx c).putK % q.slots * 64) 64 = false ∧ s.putOk
      c (putRec (memBytes s.mem (BitVec.toNat q.base + (s.ctx c).putK % q.slots * 64) 64)) = false ∧ (s.tally (putRec
      (memBytes s.mem (BitVec.toNat q.base + (s.ctx c).putK % q.slots * 64) 64)).done).q = [] ∧ Memory.wf s.mem =
      true) ∧
    (∃ (s : State) (k : ℕ) (p : Packet) (id len off : ℕ) (daddr : Word) (last : Bool) (data : List Byte), s.inboxAt k
      [32] = some p ∧ p.body = Payload.putData id len off daddr false none last data ∧ (s.ctx p.hdr.dctx).st =
      CtxState.running ∧ s.ctxServes p.hdr.dctx = true ∧ Memory.wf s.mem = true ∧ data.length ≤ 4096 ∧ (isLarder
      (BitVec.toNat daddr) || isCellar (BitVec.toNat daddr)) = true ∧ s.hubRange p.hdr.dctx true (BitVec.toNat daddr)
      data.length = true ∧ (∀ y ∈ s.fab.putsIn, y.src = p.hdr.src → y.id = id → y.refused = false ∧ y.gen = (s.ctx
      p.hdr.dctx).gen)) ∧
    (∃ (s : State) (x : PutSt), ((List.find? (fun y => y.id == x.id) s.fab.puts = some x) ∧ x.gen = (s.ctx x.ctx).gen
      ∧ Memory.wf s.mem = true ∧ (s.tally x.done).assigned = true ∧ (s.tally x.done).ctx = x.ctx ∧ (s.tally
      x.done).latch = false ∧ (s.tally x.done).q = [] ∧ (s.tally x.done).value.toNat < 2 ^ 32 - 1) ∧ ∃ (k : ℕ) (p :
      Packet) (code : Reason) (part : Bool), s.inboxAt k [33] = some p ∧ p.body = Payload.putReply x.id code part) ∧
    (∃ (s : State) (x : PutSt), ((List.find? (fun y => y.id == x.id) s.fab.puts = some x) ∧ x.gen = (s.ctx x.ctx).gen
      ∧ Memory.wf s.mem = true ∧ (s.tally x.done).assigned = true ∧ (s.tally x.done).ctx = x.ctx ∧ (s.tally
      x.done).latch = false ∧ (s.tally x.done).q = [] ∧ (s.tally x.done).value.toNat < 2 ^ 32 - 1) ∧ ∃ (k : ℕ) (p :
      Packet) (h : PktHdr) (code : Reason), s.inboxAt k [64] = some p ∧ p.body = Payload.undeliverable h code ∧ h.typ
      = 32 ∧ BitVec.toNat h.tag = x.id ∧ h.sgen = (s.ctx h.sctx).gen) ∧
    (∃ (s : State) (x : PutSt), ((List.find? (fun y => y.id == x.id) s.fab.puts = some x) ∧ x.gen = (s.ctx x.ctx).gen
      ∧ Memory.wf s.mem = true ∧ (s.tally x.done).assigned = true ∧ (s.tally x.done).ctx = x.ctx ∧ (s.tally
      x.done).latch = false ∧ (s.tally x.done).q = [] ∧ (s.tally x.done).value.toNat < 2 ^ 32 - 1) ∧ ∃ (i : ℕ),
      s.fab.puts[i]? = some x) :=
  ⟨⟨(spp 64 0), 0, _, rfl, by decide +kernel⟩,
    ⟨(spp 63 0), 0, _, rfl, by decide +kernel⟩,
    ⟨{ (spp 64 0) with fab := { ((spp 64 0).fab) with inbox := [(qp 0 1 (Payload.putData 3 64 0 8593080320 false none true [1, 2, 3]) 0)], puts := [p0] } },
      0, (qp 0 1 (Payload.putData 3 64 0 8593080320 false none true [1, 2, 3]) 0), 3, 64, 0, 8593080320, true, [1, 2,
      3], by decide +kernel⟩,
    ⟨{ (spp 64 0) with fab := { ((spp 64 0).fab) with inbox := [(qp 0 1 (Payload.putReply 7 0 false) 0)], puts := [p0] } },
      p0, by decide +kernel, 0, (qp 0 1 (Payload.putReply 7 0 false) 0), 0, false, by decide +kernel⟩,
    ⟨{ (spp 64 0) with fab := { ((spp 64 0).fab) with inbox := [{ hdr := { (hp 0 1 64 0) with tag := 7 }, body := (Payload.undeliverable { (hp 1 0 32 0) with tag := 7 } 1799), wire := [], crc := 0 }], puts := [p0] } },
      p0, by decide +kernel, 0,
      { hdr := { (hp 0 1 64 0) with tag := 7 }, body := (Payload.undeliverable { (hp 1 0 32 0) with tag := 7 } 1799), wire := [], crc := 0 },
      { (hp 1 0 32 0) with tag := 7 }, 1799, by decide +kernel⟩,
    ⟨{ (spp 64 0) with fab := { ((spp 64 0).fab) with inbox := [(qp 0 1 (Payload.putData 3 64 0 8593080320 false none true [1, 2, 3]) 0)], puts := [p0] } },
      p0, by decide +kernel, 0, by decide +kernel⟩⟩

end WPuts

namespace WGateAndSessions

def hd10 : BitVec 256 := headerOf 0x10 0 0 0 0 0 0 0 1604
def hdFin (n : BitVec 32) : BitVec 256 := headerOf 0x12 0 0 n 0 0 0 0 4627
def hdClose (n : BitVec 32) : BitVec 256 := headerOf 0x13 0 0 n 0 0 0 0 0
def mi : ModImage := { modImg0 with gate := { modImg0.gate with addr := gAddr } }
def hd : Handshake := { num := 8, key := 0, mac := 5, shared := 7, transcript := 9 }
def x9 : Session := { num := 7, key := 0, role := .control, mac := 5, last := 3, rxTop := 5, rxSeen := 3 }

theorem witness_GateAndSessions_1 :
    (∃ (s : State) (m : ModImage), s.gate.enable = false ∧ s.boot.mod = some m ∧ s.gateErr m.gate true = none ∧
      (s.port 16).st = PortState.disabled) ∧
    (∃ (s : State) (dst : BitVec 48) (hop : Byte) (target : BitVec 128) (n : BitVec 32) (pn : Word), s.gateUp = true
      ∧ (¬(dst = s.fuses.mac ∨ dst = 56294136348673 ∨ dst = 3355647#24 ++ BitVec.setWidth 24 (linkLocalOf
      s.fuses.mac) ∨ (s.boot.mod.isSome = true ∧ s.gate.linkLocalOnly = false) ∧ dst = 3355647#24 ++ BitVec.setWidth
      24 s.gate.addr))) ∧
    (∃ (s : State) (dst : BitVec 48) (hop : Byte) (target : BitVec 128) (n : BitVec 32) (pn : Word), s.gateUp = true
      ∧ (dst = s.fuses.mac ∨ dst = 56294136348673 ∨ dst = 3355647#24 ++ BitVec.setWidth 24 (linkLocalOf s.fuses.mac)
      ∨ (s.boot.mod.isSome = true ∧ s.gate.linkLocalOnly = false) ∧ dst = 3355647#24 ++ BitVec.setWidth 24
      s.gate.addr) ∧ hop = 255 ∧ (target = linkLocalOf s.fuses.mac ∧ s.gate.llOk = true ∨ (s.boot.mod.isSome = true ∧
      s.gate.linkLocalOnly = false) ∧ target = s.gate.addr ∧ s.gate.dadOk = true)) ∧
    (∃ (s : State) (dst : BitVec 48) (hop : Byte) (target : BitVec 128) (n : BitVec 32) (pn : Word), s.gateUp = true
      ∧ (dst = s.fuses.mac ∨ dst = 56294136348673 ∨ dst = 3355647#24 ++ BitVec.setWidth 24 (linkLocalOf s.fuses.mac)
      ∨ (s.boot.mod.isSome = true ∧ s.gate.linkLocalOnly = false) ∧ dst = 3355647#24 ++ BitVec.setWidth 24
      s.gate.addr) ∧ (hop ≠ 255 ∨ ¬(target = linkLocalOf s.fuses.mac ∧ s.gate.llOk = true ∨ (s.boot.mod.isSome = true
      ∧ s.gate.linkLocalOnly = false) ∧ target = s.gate.addr ∧ s.gate.dadOk = true))) ∧
    (∃ (s : State) (dst : BitVec 48) (hop : Byte) (target : BitVec 128) (n : BitVec 32) (pn : Word), s.gateUp = true
      ∧ (dst = s.fuses.mac ∨ dst = 56294136348673 ∨ dst = 3355647#24 ++ BitVec.setWidth 24 (linkLocalOf s.fuses.mac)
      ∨ (s.boot.mod.isSome = true ∧ s.gate.linkLocalOnly = false) ∧ dst = 3355647#24 ++ BitVec.setWidth 24
      s.gate.addr) ∧ ((if target = 338963523518870617245727861364146307073 then linkLocalOf s.fuses.mac else target)
      = linkLocalOf s.fuses.mac ∧ s.gate.llOk = true ∨ (s.boot.mod.isSome = true ∧ s.gate.linkLocalOnly = false) ∧
      (if target = 338963523518870617245727861364146307073 then linkLocalOf s.fuses.mac else target) = s.gate.addr ∧
      s.gate.dadOk = true) ∧ ((if s.gate.echoWindow = s.clk.reeve / 212500000 then s.gate.echoes else 0) < 1000)) ∧
    (∃ (s : State) (dst : BitVec 48) (hop : Byte) (target : BitVec 128) (n : BitVec 32) (pn : Word), s.gateUp = true
      ∧ (dst = s.fuses.mac ∨ dst = 56294136348673 ∨ dst = 3355647#24 ++ BitVec.setWidth 24 (linkLocalOf s.fuses.mac)
      ∨ (s.boot.mod.isSome = true ∧ s.gate.linkLocalOnly = false) ∧ dst = 3355647#24 ++ BitVec.setWidth 24
      s.gate.addr) ∧ (¬((if target = 338963523518870617245727861364146307073 then linkLocalOf s.fuses.mac else
      target) = linkLocalOf s.fuses.mac ∧ s.gate.llOk = true ∨ (s.boot.mod.isSome = true ∧ s.gate.linkLocalOnly =
      false) ∧ (if target = 338963523518870617245727861364146307073 then linkLocalOf s.fuses.mac else target) =
      s.gate.addr ∧ s.gate.dadOk = true) ∨ 1000 ≤ if s.gate.echoWindow = s.clk.reeve / 212500000 then s.gate.echoes
      else 0)) ∧
    (∃ (s : State) (dst : BitVec 48) (hop : Byte) (target : BitVec 128) (n : BitVec 32) (pn : Word), s.gateUp = true
      ∧ ∃ (x : Session) (hdr : BitVec 256), (List.find? (fun y => y.num == n) s.gate.sessions = some x) ∧ x.replayed
      pn = true) ∧
    (∃ (s : State) (dst : BitVec 48) (hop : Byte) (target : BitVec 128) (n : BitVec 32) (pn : Word), s.gateUp = true
      ∧ ∃ (x : Session) (hdr : BitVec 256), (List.find? (fun y => y.num == n) s.gate.sessions = some x) ∧ x.replayed
      pn = false ∧ headerOk hdr 19 0 = true ∧ headerSession hdr = n) :=
  ⟨⟨{ w0 with fab := { lasers := ((List.range 4).map (fun i => (i, { seen := true }))) }, boot := { w0.boot with mod := (some mi) } },
      mi, by decide +kernel⟩,
    ⟨{ wg with gate := { gate0 with dadOk := true, llOk := true, sessions := [x9] } }, 5, 255, gAddr, 7, 0,
      by decide +kernel⟩,
    ⟨{ wg with gate := { gate0 with dadOk := true, llOk := true, sessions := [x9] } }, 0, 255, (linkLocalOf 0), 7, 0,
      by decide +kernel⟩,
    ⟨{ wg with gate := { gate0 with dadOk := true, llOk := true, sessions := [x9] } }, 0, 255, gAddr, 7, 0,
      by decide +kernel⟩,
    ⟨{ wg with gate := { gate0 with dadOk := true, llOk := true, sessions := [x9] } }, 0, 255, (linkLocalOf 0), 7, 0,
      by decide +kernel⟩,
    ⟨{ wg with gate := { gate0 with dadOk := true, llOk := true, sessions := [x9] } }, 0, 255, gAddr, 7, 0,
      by decide +kernel⟩,
    ⟨{ wg with gate := { gate0 with dadOk := true, llOk := true, sessions := [x9] } }, 0, 255, gAddr, 7, 0,
      by decide +kernel, x9, 0, by decide +kernel⟩,
    ⟨{ wg with gate := { gate0 with dadOk := true, llOk := true, sessions := [x9] } }, 0, 255, gAddr, 7, 1,
      by decide +kernel, x9, (hdClose 7), by decide +kernel⟩⟩

theorem witness_GateAndSessions_2 :
    (∃ (s : State) (h : Hello) (k : GateKey), s.gateUp = true ∧ s.boot.phase = BootPhase.released ∧
      s.gate.keys[h.key.toNat]? = some k ∧ s.sessionRoom h.mac = true ∧ s.vault.st = VaultState.ready ∧ k.mac = h.mac
      ∧ k.role.isSome = true ∧ h.bodyOk = true ∧ h.rsv = 0 ∧ (headerOk h.hdr 16 1604 = true ∧ headerSession h.hdr =
      0)) ∧
    (∃ (s : State) (h : Hello) (k : GateKey), s.gateUp = true ∧ s.boot.phase = BootPhase.released ∧
      s.gate.keys[h.key.toNat]? = some k ∧ s.sessionRoom h.mac = true ∧ s.vault.st = VaultState.ready ∧ (k.mac ≠
      h.mac ∨ h.bodyOk = false ∨ h.rsv ≠ 0 ∨ ¬(headerOk h.hdr 16 1604 = true ∧ headerSession h.hdr = 0))) ∧
    (∃ (s : State) (h : Hello) (k : GateKey), (s.gateUp = true ∧ s.boot.phase = BootPhase.released ∧
      s.gate.keys[h.key.toNat]? = some k ∧ s.sessionRoom h.mac = true ∧ s.vault.st = VaultState.ready) ∧ ∃ (d :
      Handshake) (role : Role) (hdr : BitVec 256), (List.find? (fun x => x.num == d.num) s.gate.hands = some d) ∧
      d.key = h.key.toNat ∧ d.mac = h.mac ∧ k.mac = h.mac ∧ k.role = some role ∧ headerSession hdr = d.num ∧ headerOk
      hdr 18 4627 = true) ∧
    (∃ (s : State) (x : Session), (s.port 16).st = PortState.up ∧ x.period.isSome = true ∧ (List.find? (fun y =>
      y.num == x.num && y.period.isSome) s.gate.sessions = some x)) ∧
    (∃ (s : State) (x : Session), (s.port 16).st = PortState.up ∧ ∃ (i : ℕ) (rest : List ℕ), x.waiting = i :: rest ∧
      (List.find? (fun y => y.num == x.num && !y.waiting.isEmpty) s.gate.sessions = some x)) ∧
    (∃ (x : Session) (p q : Word), p ≠ 0) ∧
    (∃ (x : Session) (p q : Word), x.replayed q = true) ∧
    (∃ (x : Session) (p q : Word), BitVec.toNat x.rxTop < BitVec.toNat q) :=
  ⟨⟨{ wg with gate := { gate0 with dadOk := true, llOk := true, sessions := [x9] } },
      { hdr := hd10, mac := 5, key := 0, rsv := 0, nonce := 1, ek := 0, bodyOk := true },
      { pk := 0, role := (some Role.control), mac := 5 }, by decide +kernel⟩,
    ⟨{ wg with gate := { gate0 with dadOk := true, llOk := true, sessions := [x9] } },
      { hdr := hd10, mac := 6, key := 0, rsv := 0, nonce := 1, ek := 0, bodyOk := true },
      { pk := 0, role := (some Role.control), mac := 5 }, by decide +kernel⟩,
    ⟨{ wg with gate := { gate0 with hands := [hd] } },
      { hdr := hd10, mac := 5, key := 0, rsv := 0, nonce := 1, ek := 0, bodyOk := true },
      { pk := 0, role := (some Role.control), mac := 5 }, by decide +kernel, hd, Role.control, (hdFin 8),
      by decide +kernel⟩,
    ⟨{ wg with gate := { gate0 with sessions := (gate0.sessions.map (fun x => { x with period := (some 1000), minSev := (some 1), waiting := [0, 1] })) } },
      { num := 7, key := 0, role := Role.control, mac := 5, begun := true, last := 3, period := (some 1000), minSev := (some 1), waiting := [0, 1] },
      by decide +kernel⟩,
    ⟨{ wg with gate := { gate0 with sessions := (gate0.sessions.map (fun x => { x with period := (some 1000), minSev := (some 1), waiting := [0, 1] })) } },
      { num := 7, key := 0, role := Role.control, mac := 5, begun := true, last := 3, period := (some 1000), minSev := (some 1), waiting := [0, 1] },
      by decide +kernel, 0, [1], by decide +kernel⟩,
    ⟨x9, 1, 0, by decide +kernel⟩,
    ⟨x9, 0, 0, by decide +kernel⟩,
    ⟨x9, 0, 70, by decide +kernel⟩⟩

theorem witness_GateAndSessions_3 :
    (∃ (x : Session) (p q : Word), q ≠ p ∧ x.replayed q = false ∧ BitVec.toNat p < BitVec.toNat q + 64) :=
  ⟨x9, 0, 1, by decide +kernel⟩

end WGateAndSessions

namespace WQueriesAndTelemetry

def hd : Handshake := { num := 8, key := 0, mac := 5, shared := 7, transcript := 9 }
def wdg : State := (wg.modCtx 0 fun c => { c with rings := [ringSt false false] }).putDigest 0 0 7 4 fun d => { d with sent := 3, recv := 4, roll := [1] }

theorem witness_QueriesAndTelemetry_1 :
    (∃ (s : State) (r : ReqHdr), (BitVec.toNat r.context < 16 ∧ (s.ctx (BitVec.setWidth 4 r.context)).cmd = none) ∧
      admitted s r (opNum CmdOp.query)) ∧
    (∃ (s : State) (r : ReqHdr), (BitVec.toNat r.context < 16 ∧ (s.ctx (BitVec.setWidth 4 r.context)).cmd = none) ∧ ∃
      (ring : Byte) (bucket : BitVec 16) (step : BitVec 32) (d : DigEntry), s.digEntry (BitVec.setWidth 4 r.context)
      (BitVec.toNat ring) bucket step = some d ∧ admitted s r (opNum CmdOp.query)) ∧
    (∃ (s : State) (r : ReqHdr), (BitVec.toNat r.context < 16 ∧ (s.ctx (BitVec.setWidth 4 r.context)).cmd = none) ∧ ∃
      (ring : Byte) (g : RingSt), (s.ctx (BitVec.setWidth 4 r.context)).rings[BitVec.toNat ring]? = some g ∧ admitted
      s r (opNum CmdOp.query)) ∧
    (∃ (s : State) (r : ReqHdr), r.context = 255 ∧ ∃ (first : Word) (count : ℕ), (1 ≤ count ∧ count ≤ 128) ∧ admitted
      s r (opNum CmdOp.query)) ∧
    (∃ (s : State) (r : ReqHdr), r.context = 255 ∧ ∃ (g n : ℕ) (v : Word), (g < 2048 ∧ n < 8 ∧ s.regRead (4096 + g)
      (8 * n) = some v) ∧ admitted s r (opNum CmdOp.query)) ∧
    (∃ (s : State) (r : ReqHdr), r.context = 255 ∧ admitted s r (opNum CmdOp.telem)) ∧
    (∃ (s : State) (r : ReqHdr), r.context = 255 ∧ ∃ (us : ℕ), (1000 ≤ us ∧ us < 2 ^ 32) ∧ admitted s r 10) ∧
    (∃ (s : State) (r : ReqHdr), r.context = 255 ∧ ∃ (sev : Byte), BitVec.toNat sev ≤ 5 ∧ admitted s r 10) :=
  ⟨⟨wg, (rq 0 true 9), by decide +kernel, (by unfold admitted; decide +kernel)⟩,
    ⟨wdg, (rq 0 true 9), by decide +kernel, 0, 7, 4, (Option.isSome_iff_exists.mp (by decide +kernel)).imp fun _ hd
      => ⟨hd, (by unfold admitted; decide +kernel)⟩⟩,
    ⟨wdg, (rq 0 true 9), by decide +kernel, 0, (Option.isSome_iff_exists.mp (by decide +kernel)).imp fun _ hd => ⟨hd,
      (by unfold admitted; decide +kernel)⟩⟩,
    ⟨wg, (rq 255 true 9), by decide +kernel, 0, 1, by decide +kernel, (by unfold admitted; decide +kernel)⟩,
    ⟨wg, (rq 255 true 9), by decide +kernel, 0, 0, 0, by decide +kernel, (by unfold admitted; decide +kernel)⟩,
    ⟨wg, (rq 255 true 10), by decide +kernel, (by unfold admitted; decide +kernel)⟩,
    ⟨wg, (rq 255 true 10), by decide +kernel, 1000, by decide +kernel, (by unfold admitted; decide +kernel)⟩,
    ⟨wg, (rq 255 true 10), by decide +kernel, 0, by decide +kernel, (by unfold admitted; decide +kernel)⟩⟩

theorem witness_QueriesAndTelemetry_2 :
    (∃ (s : State) (r : ReqHdr), r.context = 255 ∧ admitted s r 10) ∧
    (∃ (s : State) (r : ReqHdr), r.context = 255 ∧ s.vault.st = VaultState.ready) :=
  ⟨⟨wg, (rq 255 true 10), by decide +kernel, (by unfold admitted; decide +kernel)⟩,
    ⟨wg, (rq 255 true 9), by decide +kernel⟩⟩

end WQueriesAndTelemetry

namespace WContextCommands

def dir3b : List DirEntry := [⟨0x201, 0x140, 0x80, true⟩, ⟨0x202, 0x200, 0x100, true⟩, ⟨0x203, 0x300, 0x100, true⟩, ⟨0x204, 0x400, 0x20, true⟩]
def img3b : CtxImage := { hdr := { magic := 0x4C5A3849, format := 1, kind := 3, burnFloor := false, transfer := false, reservedZero := true, length := 0x3000, svn := 0, build := 0, dir := dir3b, digest := 0, signer := 0, sigOk := true }, header := { quads := [0], strict := false, cfrac := 0, reservedZero := true, window := 0, step := 0, threads := [⟨0, 0x200000000, 0x200000100, 0, 0⟩] }, memory := { regions := [wReg 0 0 512], salt := 0, memto := 100, ptroot := 0 }, sync := { grants := [], bells := [] }, tensors := { bytes := tens0 }, red := none, putq := none, feed := none, snap := none, recovery := none, contents := [] }
def we : State := { wg with quadOwner := [], ctxs := [] }
def snapQ : SnapSection := { reservedZero := true, stepBell := 5, period := 0, phase := 0, extEvery := 0, quiesce := 0, sendLimit := 0, captureTally := 6, commitTally := 7, stageBase := 0, stageLen := 0, areas := [], signers := [] }
def img4 : CtxImage := { img3b with sync := { grants := [⟨1, 0, false, false, 0, 64, true⟩, ⟨2, 0, false, false, 0, 64, true⟩], bells := [] }, snap := some snapQ }
def wc (st : CtxState) (f : Ctx → Ctx := id) (g : Thread → Thread := id) : State :=
  { wg with ctxs := [(0, f { wCtx0 with st := st, img := some img3b })], threads := [(0, g wThr), (1, g { wThr with pc := 0x200000040 })] }
def km (op : CmdOp) : CmdExec := ⟨7, 3, op, 0⟩

theorem witness_ContextCommands_1 :
    (∃ (s : State) (r : ReqHdr), (BitVec.toNat r.context < 16 ∧ (s.ctx (BitVec.setWidth 4 r.context)).cmd = none) ∧ ∃
      (off len : ℕ) (img : CtxImage), ((s.ctx (BitVec.setWidth 4 r.context)).st = CtxState.empty ∧ len ≤ 9078 ∧
      chunkOk (s.ctx (BitVec.setWidth 4 r.context)).load r.session off = true ∧ r.final = false) ∧ admitted s r 1) ∧
    (∃ (s : State) (r : ReqHdr), (BitVec.toNat r.context < 16 ∧ (s.ctx (BitVec.setWidth 4 r.context)).cmd = none) ∧ ∃
      (off len : ℕ) (img : CtxImage), ((s.ctx (BitVec.setWidth 4 r.context)).st = CtxState.empty ∧ len ≤ 9078 ∧
      chunkOk (s.ctx (BitVec.setWidth 4 r.context)).load r.session off = true ∧ r.final = true ∧ s.vault.st =
      VaultState.ready) ∧ ∃ (code : Reason), s.verifyErr img.hdr 3 img.hdr.sigOk = some code ∧ admitted s r 1) ∧
    (∃ (s : State) (r : ReqHdr), (BitVec.toNat r.context < 16 ∧ (s.ctx (BitVec.setWidth 4 r.context)).cmd = none) ∧ ∃
      (off len : ℕ) (img : CtxImage), ((s.ctx (BitVec.setWidth 4 r.context)).st = CtxState.empty ∧ len ≤ 9078 ∧
      chunkOk (s.ctx (BitVec.setWidth 4 r.context)).load r.session off = true ∧ r.final = true ∧ s.vault.st =
      VaultState.ready ∧ s.verifyErr img.hdr 3 img.hdr.sigOk = none ∧ formatErr img.hdr 3 (some (off + len)) = none ∧
      s.ctxErr (BitVec.setWidth 4 r.context) img = none) ∧ admitted s r 1) ∧
    (∃ (s : State) (r : ReqHdr), (BitVec.toNat r.context < 16 ∧ (s.ctx (BitVec.setWidth 4 r.context)).cmd = none) ∧ ∃
      (img : CtxImage), ((s.ctx (BitVec.setWidth 4 r.context)).st = CtxState.loaded ∧ (s.ctx (BitVec.setWidth 4
      r.context)).img = some img ∧ (s.ctx (BitVec.setWidth 4 r.context)).restored = false ∧ img.snap = none ∧
      joinsImg img = false ∧ (∀ e ∈ img.header.threads, s.thCtx e.th = some (BitVec.setWidth 4 r.context) ∧
      s.fetchable (BitVec.setWidth 4 r.context) e.entry = true) ∧ ((List.map (fun x => x.th)
      img.header.threads).Nodup)) ∧ admitted s r 2) ∧
    (∃ (s : State) (r : ReqHdr), (BitVec.toNat r.context < 16 ∧ (s.ctx (BitVec.setWidth 4 r.context)).cmd = none ∧ (∀
      q ∈ s.quadsOf (BitVec.setWidth 4 r.context), ∀ ch < (8 : ℕ), (s.chan q ch).st = ChSt.idle) ∧ (s.ctx
      (BitVec.setWidth 4 r.context)).st = CtxState.running ∧ (s.ctx (BitVec.setWidth 4 r.context)).snap.phase =
      SnapPhase.idle) ∧ admitted s r 3) ∧
    (∃ (s : State) (r : ReqHdr), (BitVec.toNat r.context < 16 ∧ (s.ctx (BitVec.setWidth 4 r.context)).cmd = none ∧ (∀
      q ∈ s.quadsOf (BitVec.setWidth 4 r.context), ∀ ch < (8 : ℕ), (s.chan q ch).st = ChSt.idle) ∧ (s.ctx
      (BitVec.setWidth 4 r.context)).st = CtxState.paused) ∧ (∀ th ∈ s.threadsOf (BitVec.setWidth 4 r.context),
      (s.thr th).st = TState.paused → (s.thr th).stopReq = false ∧ (s.fetchCheck th (BitVec.setWidth 4 r.context)
      (s.thr th).pc).stops = false) ∧ admitted s r 4) ∧
    (∃ (s : State) (r : ReqHdr), (BitVec.toNat r.context < 16 ∧ (s.ctx (BitVec.setWidth 4 r.context)).cmd = none ∧ (∀
      q ∈ s.quadsOf (BitVec.setWidth 4 r.context), ∀ ch < (8 : ℕ), (s.chan q ch).st = ChSt.idle) ∧ ((s.ctx
      (BitVec.setWidth 4 r.context)).st = CtxState.running ∨ (s.ctx (BitVec.setWidth 4 r.context)).st =
      CtxState.paused)) ∧ (∀ th ∈ s.threadsOf (BitVec.setWidth 4 r.context), (s.thr th).asyncQ = []) ∧ admitted s r
      5) ∧
    (∃ (s : State) (r : ReqHdr), (BitVec.toNat r.context < 16 ∧ (s.ctx (BitVec.setWidth 4 r.context)).cmd = none ∧
      (s.ctx (BitVec.setWidth 4 r.context)).st = CtxState.faulted ∧ (s.ctx (BitVec.setWidth 4 r.context)).rst.purge =
      none ∧ (s.ctx (BitVec.setWidth 4 r.context)).rst.purgeWaits = false ∧ (s.ctx (BitVec.setWidth 4
      r.context)).snap.phase = SnapPhase.idle) ∧ admitted s r 6) :=
  ⟨⟨we, (rq 0 false 1), by decide +kernel, 0, 0, img3b, by decide +kernel, (by unfold admitted; decide +kernel)⟩,
    ⟨{ we with nvm := { we.nvm with owner := 5 } }, (rq 0 true 1), by decide +kernel, 0, 0, img3b, by decide +kernel,
      2306, by decide +kernel, (by unfold admitted; decide +kernel)⟩,
    ⟨(we.modCtx 0 (fun c => { c with load := (some (7, 8192)) })), (rq 0 true 1), by decide +kernel, 8192, 4096,
      img3b, by decide +kernel, (by unfold admitted; decide +kernel)⟩,
    ⟨(wc CtxState.loaded id id), (rq 0 true 2), by decide +kernel, img3b, by decide +kernel,
      (by unfold admitted; decide +kernel)⟩,
    ⟨(wc CtxState.running id id), (rq 0 true 3), by decide +kernel, (by unfold admitted; decide +kernel)⟩,
    ⟨(wc CtxState.paused id (fun t => { t with st := TState.paused })), (rq 0 true 4), by decide +kernel, (ball_of _
      _ (by decide +kernel)), (by unfold admitted; decide +kernel)⟩,
    ⟨(wc CtxState.running id id), (rq 0 true 5), by decide +kernel, (ball_of _ _ (by decide +kernel)),
      (by unfold admitted; decide +kernel)⟩,
    ⟨(wc CtxState.faulted id id), (rq 0 true 6), by decide +kernel, (by unfold admitted; decide +kernel)⟩⟩

theorem witness_ContextCommands_2 :
    (∃ (s : State) (r : ReqHdr), (BitVec.toNat r.context < 16 ∧ (s.ctx (BitVec.setWidth 4 r.context)).cmd = none ∧
      (s.ctx (BitVec.setWidth 4 r.context)).st = CtxState.running ∧ (s.ctx (BitVec.setWidth 4 r.context)).rst.purge =
      none ∧ (s.ctx (BitVec.setWidth 4 r.context)).rst.purgeWaits = false ∧ (s.ctx (BitVec.setWidth 4
      r.context)).rst.gap = false) ∧ admitted s r 6) ∧
    (∃ (s : State) (c : CtxId) (k : CmdExec), (s.ctx c).cmd = some k ∧ k.op = CmdOp.pause ∧ (s.ctx c).st =
      CtxState.running ∧ (s.ctx c).snap.phase = SnapPhase.idle ∧ s.allPaused c = true) ∧
    (∃ (s : State) (c : CtxId) (k : CmdExec), (s.ctx c).cmd = some k ∧ ∃ (img : CtxImage), (s.ctx c).img = some img ∧
      (s.ctx c).st = CtxState.draining ∧ (s.ctx c).rst.purge = none ∧ s.drained c = true ∧ (s.ctx c).rst.purgeWaits =
      true) ∧
    (∃ (s : State) (c : CtxId) (k : CmdExec), (s.ctx c).cmd = some k ∧ (s.ctx c).st = CtxState.running) ∧
    (∃ (s : State) (c : CtxId) (e : BitVec 32 × ℕ), (s.ctx c).load = some e) ∧
    (∃ (s : State) (c : CtxId) (e : BitVec 32 × ℕ), s.boot.stage = some e) ∧
    (∃ (s : State) (c : CtxId) (e : BitVec 32 × ℕ) (k : CmdExec), s.seqr.modCmd = some k) ∧
    (∃ (s : State) (c : CtxId) (e : BitVec 32 × ℕ) (img : CtxImage) (sec : SnapSection), (s.ctx c).snap.sched = false
      ∧ (s.ctx c).img = some img ∧ img.snap = some sec ∧ syncGranted img.sync true sec.stepBell = true ∧ syncCounting
      img.sync sec.captureTally = true ∧ syncCounting img.sync sec.commitTally = true ∧ ((s.boot.mod.bind fun x =>
      x.snap) = none)) :=
  ⟨⟨(wc CtxState.running id id), (rq 0 true 6), by decide +kernel, (by unfold admitted; decide +kernel)⟩,
    ⟨(wc CtxState.running (fun c => { c with cmd := (some (km CmdOp.pause)) }) (fun t =>
      { t with st := TState.paused })), 0, _, rfl, by decide +kernel⟩,
    ⟨(wc CtxState.draining (fun c =>
      { c with cmd := (some (km CmdOp.resetCtx)), rst := { gap := true, purgeWaits := true } }) (fun t =>
      { t with st := TState.halted })), 0, _, rfl, _, rfl, by decide +kernel⟩,
    ⟨(wc CtxState.running (fun c => { c with cmd := (some (km CmdOp.pause)) }) (fun t =>
      { t with st := TState.paused })), 0, _, rfl, by decide +kernel⟩,
    ⟨(we.modCtx 0 (fun c => { c with load := (some (7, 8192)) })), 0, (7, 8192), by decide +kernel⟩,
    ⟨{ wg with boot := { wg.boot with stage := (some (7, 3)) } }, 0, (7, 3), by decide +kernel⟩,
    ⟨{ wg with seqr := { modCmd := (some (km CmdOp.fwCommit)) } }, 0, (7, 3), _, rfl⟩,
    ⟨(wc CtxState.loaded (fun c => { c with img := (some img4) }) id), 0, (7, 3), img4, snapQ, by decide +kernel⟩⟩

end WContextCommands

namespace WDataFeed

def dir3b : List DirEntry := [⟨0x201, 0x140, 0x80, true⟩, ⟨0x202, 0x200, 0x100, true⟩, ⟨0x203, 0x300, 0x100, true⟩, ⟨0x204, 0x400, 0x20, true⟩]
def img3b : CtxImage := { hdr := { magic := 0x4C5A3849, format := 1, kind := 3, burnFloor := false, transfer := false, reservedZero := true, length := 0x3000, svn := 0, build := 0, dir := dir3b, digest := 0, signer := 0, sigOk := true }, header := { quads := [0], strict := false, cfrac := 0, reservedZero := true, window := 0, step := 0, threads := [⟨0, 0x200000000, 0x200000100, 0, 0⟩] }, memory := { regions := [wReg 0 0 512], salt := 0, memto := 100, ptroot := 0 }, sync := { grants := [], bells := [] }, tensors := { bytes := tens0 }, red := none, putq := none, feed := none, snap := none, recovery := none, contents := [] }
def g0 : FeedSection := { key := 1, port := 1, dataset := 3, shard := 4, offset := 0, epoch := 2, region := 0, nslots := 4, slot := 256, ready := 5, free := 6, window := 2, retryUs := 9, reservedZero := true }
def imgF : CtxImage := { img3b with memory := { img3b.memory with regions := [{ wReg 2 0 1 with base := 0 }] }, feed := some g0 }
def r0 : FeedRec := { offset := 8, epoch := 2 }
def fd (f : Feed → Feed) : State := ({ wg with sync := { tallies := [(5, { assigned := true })] }, gate := { gate0 with sessions := gate0.sessions ++ [{ num := 8, key := 1, role := .feed, mac := 6 }] } } : State).modCtx 0 (fun c => { c with img := some imgF, feed := f { cfg := some g0, st := .active, reqOff := 9, reqEpoch := 2, credits := 3 } })
def bs0 : List Byte := [1,2,3,4]
def fh0 (k : Byte) (n : BitVec 32) : BitVec 256 := headerOf k 0 0 8 0 0 0 0 n
def fr (c : BitVec 32) : FeedFragment := { pn := 1, hdr := fh0 0x21 36, dataset := 3, shard := 4, epoch := 2, offset := 8, len := 4, crc := c, fragOffset := 0, bytes := bs0 }

theorem witness_DataFeed :
    (∃ (s : State) (c : CtxId) (g : FeedSection), (s.ctx c).feed.cfg = some g ∧ (s.feedServes c g = true ∧ (s.ctx
      c).feed.st = FeedState.active ∧ 0 < min (g.window - (s.ctx c).feed.flight.length) ((s.ctx c).feed.credits -
      (s.ctx c).feed.flight.length)) ∧ ∃ (x : Session), s.feedSession g = some x) ∧
    (∃ (s : State) (c : CtxId) (g : FeedSection), (s.ctx c).feed.cfg = some g ∧ s.feedServes c g = true ∧ ∃ (img :
      CtxImage) (base len : ℕ) (r : FeedRec) (d : FeedFragment), (s.ctx c).img = some img ∧ feedRing img = some
      (base, len) ∧ (s.ctx c).feed.st = FeedState.active ∧ (s.ctx c).feed.flight = [r] ∧ r.done = false ∧ r.frags =
      [] ∧ r.len = none ∧ d.dataset = g.dataset ∧ d.shard = g.shard ∧ d.offset = r.offset ∧ d.epoch = r.epoch ∧
      d.fragOffset = 0 ∧ d.bytes.length = d.len ∧ 0 < d.len ∧ d.len ≤ 8160 ∧ d.len + 64 ≤ g.slot ∧ (headerOk d.hdr 33
      (32 + d.len) = true ∧ headerContext d.hdr = BitVec.setWidth 8 c ∧ ∀ (x : Session), s.feedSession g = some x →
      x.replayed d.pn = false ∧ headerSession d.hdr = x.num) ∧ crc32c d.bytes = d.crc ∧ Memory.wf s.mem = true ∧
      (s.tally g.ready).q = [] ∧ (s.tally g.ready).assigned = true ∧ (s.tally g.ready).ctx = c ∧ (s.tally
      g.ready).latch = false ∧ (s.tally g.ready).value.toNat < 2 ^ 32 - 1) ∧
    (∃ (s : State) (c : CtxId) (g : FeedSection), (s.ctx c).feed.cfg = some g ∧ s.feedServes c g = true ∧ ∃ (img :
      CtxImage) (base len : ℕ) (r : FeedRec) (d : FeedFragment), (s.ctx c).img = some img ∧ feedRing img = some
      (base, len) ∧ (s.ctx c).feed.st = FeedState.active ∧ (s.ctx c).feed.flight = [r] ∧ r.done = false ∧ r.frags =
      [] ∧ r.len = none ∧ d.dataset = g.dataset ∧ d.shard = g.shard ∧ d.offset = r.offset ∧ d.epoch = r.epoch ∧
      d.fragOffset = 0 ∧ d.bytes.length = d.len ∧ 0 < d.len ∧ d.len ≤ 8160 ∧ d.len + 64 ≤ g.slot ∧ (headerOk d.hdr 33
      (32 + d.len) = true ∧ headerContext d.hdr = BitVec.setWidth 8 c ∧ ∀ (x : Session), s.feedSession g = some x →
      x.replayed d.pn = false ∧ headerSession d.hdr = x.num) ∧ crc32c d.bytes ≠ d.crc) ∧
    (∃ (s : State) (c : CtxId) (g : FeedSection), (s.ctx c).feed.cfg = some g ∧ s.feedServes c g = true ∧ ∃ (pn
      offset : Word) (hdr : BitVec 256), (s.ctx c).feed.st = FeedState.active ∧ BitVec.toNat offset ≤ BitVec.toNat
      (s.ctx c).feed.reqOff ∧ (headerOk hdr 34 20 = true ∧ headerContext hdr = BitVec.setWidth 8 c ∧ ∀ (x : Session),
      s.feedSession g = some x → x.replayed pn = false ∧ headerSession hdr = x.num) ∧ offset ≠ 0) ∧
    (∃ (s : State) (c : CtxId) (g : FeedSection), (s.ctx c).feed.cfg = some g ∧ s.feedServes c g = true ∧ ∃ (pn
      offset : Word) (hdr : BitVec 256), (s.ctx c).feed.st = FeedState.active ∧ BitVec.toNat offset ≤ BitVec.toNat
      (s.ctx c).feed.reqOff ∧ (headerOk hdr 34 20 = true ∧ headerContext hdr = BitVec.setWidth 8 c ∧ ∀ (x : Session),
      s.feedSession g = some x → x.replayed pn = false ∧ headerSession hdr = x.num) ∧ offset = 0) ∧
    (∃ (s : State) (c : CtxId) (g : FeedSection), (s.ctx c).feed.cfg = some g ∧ s.feedServes c g = true ∧ ∃ (pn :
      Word) (hdr : BitVec 256) (offset : Word) (why : BitVec 16), (s.ctx c).feed.st = FeedState.active ∧ (headerOk
      hdr 35 22 = true ∧ headerContext hdr = BitVec.setWidth 8 c ∧ ∀ (x : Session), s.feedSession g = some x →
      x.replayed pn = false ∧ headerSession hdr = x.num)) ∧
    (∃ (s : State) (c : CtxId) (g : FeedSection), (s.ctx c).feed.cfg = some g ∧ s.feedServes c g = true ∧ ∃ (r :
      FeedRec) (x : Session), (s.ctx c).feed.st = FeedState.active ∧ (s.ctx c).feed.flight = [r] ∧ r.done = false ∧
      r.fails < 7 ∧ s.feedSession g = some x) :=
  ⟨⟨(fd id), 0, _, rfl, by decide +kernel, _, rfl⟩,
    ⟨(fd (fun f => { f with flight := [r0] })), 0, _, rfl, by decide +kernel, imgF, 0, (((feedRing imgF).getD (0,
      0)).2), r0, (fr (crc32c bs0)), by decide +kernel⟩,
    ⟨(fd (fun f => { f with flight := [r0] })), 0, _, rfl, by decide +kernel, imgF, 0, (((feedRing imgF).getD (0,
      0)).2), r0, (fr 0), by decide +kernel⟩,
    ⟨(fd id), 0, _, rfl, by decide +kernel, 8, 8, (fh0 34 20), by decide +kernel⟩,
    ⟨(fd id), 0, _, rfl, by decide +kernel, 8, 0, (fh0 34 20), by decide +kernel⟩,
    ⟨(fd id), 0, _, rfl, by decide +kernel, 8, (fh0 35 22), 0, 0, by decide +kernel⟩,
    ⟨(fd (fun f => { f with flight := [r0] })), 0, _, rfl, by decide +kernel, r0,
      { num := 8, key := 1, role := Role.feed, mac := 6 }, by decide +kernel⟩⟩

end WDataFeed

namespace WSnapshotsTaken

def dt (f : SnapSt → SnapSt := id) : SnapSt → SnapSt := fun x => f { x with phase := .data, round := 9 }
def sto (s : State) : State := { s with gate := { s.gate with sessions := s.gate.sessions ++ [{ num := 8, key := 1, role := .store, mac := 6 }] } }

theorem witness_SnapshotsTaken_1 :
    (∃ (s : State) (c : CtxId) (img : CtxImage) (sec : SnapSection), ((s.ctx c).img = some img ∧ img.snap = some sec)
      ∧ ∃ (r : ReqHdr) (round : BitVec 32) (external : Bool), admitted s r 7 ∧ r.context = BitVec.setWidth 8 c ∧
      (s.ctx c).st = CtxState.running ∧ (s.ctx c).cmd = none) ∧
    (∃ (s : State) (c : CtxId) (img : CtxImage) (sec : SnapSection), (s.ctx c).img = some img ∧ img.snap = some sec ∧
      (s.ctx c).snap.phase = SnapPhase.quiescing ∧ ((s.ctx c).cmd = none ∧ (s.bell sec.stepBell).snapHold = false) ∧
      (s.ctx c).snap.req = none) ∧
    (∃ (s : State) (c : CtxId) (img : CtxImage) (sec : SnapSection), (s.ctx c).img = some img ∧ img.snap = some sec ∧
      (s.ctx c).snap.phase = SnapPhase.quiescing ∧ s.snapQuiet c sec = true ∧ (s.ctx c).snap.join = none ∧ ((s.ctx
      c).cmd = none ∧ (s.bell sec.stepBell).snapHold = false) ∧ (s.ctx c).snap.direct = true) ∧
    (∃ (s : State) (c : CtxId) (img : CtxImage) (sec : SnapSection), (s.ctx c).img = some img ∧ img.snap = some sec ∧
      (s.ctx c).snap.phase = SnapPhase.quiescing ∧ s.snapQuiet c sec = true ∧ (s.ctx c).snap.join = none ∧ ((s.ctx
      c).cmd = none ∧ (s.bell sec.stepBell).snapHold = false) ∧ (s.ctx c).snap.direct = false ∧ (s.ctx c).snap.req =
      none) ∧
    (∃ (s : State) (c : CtxId) (img : CtxImage) (sec : SnapSection), ((s.ctx c).img = some img ∧ img.snap = some sec
      ∧ (s.ctx c).snap.phase = SnapPhase.data ∧ (s.ctx c).snap.join = none) ∧ ∃ (i : ℕ) (rest : List ℕ) (l : ℕ),
      (s.ctx c).snap.toStage = i :: rest ∧ blockLoc img i = some l ∧ (∀ (l : ℕ), blockLoc img i = some l → l /
      4194304 ∉ s.written ∧ s.poisonIn l 4194304 = false) ∧ Memory.wf s.mem = true) ∧
    (∃ (s : State) (c : CtxId) (img : CtxImage) (sec : SnapSection), ((s.ctx c).img = some img ∧ img.snap = some sec
      ∧ (s.ctx c).snap.phase = SnapPhase.data ∧ (s.ctx c).snap.join = none) ∧ ∃ (i j : ℕ) (rest : List ℕ), (s.ctx
      c).snap.toStage = [] ∧ (s.ctx c).snap.toSend = i :: j :: rest ∧ i ∉ j :: rest ∧ sec.stageLen = 0 ∧ (∀ (l : ℕ),
      blockLoc img i = some l → l / 4194304 ∉ s.written ∧ s.poisonIn l 4194304 = false) ∧ (s.ctx c).snap.direct =
      true) ∧
    (∃ (s : State) (c : CtxId) (img : CtxImage) (sec : SnapSection), ((s.ctx c).img = some img ∧ img.snap = some sec
      ∧ (s.ctx c).snap.phase = SnapPhase.data ∧ (s.ctx c).snap.join = none) ∧ ∃ (i j : ℕ) (rest : List ℕ), (s.ctx
      c).snap.toStage = [] ∧ (s.ctx c).snap.toSend = i :: j :: rest ∧ i ∉ j :: rest ∧ sec.stageLen = 0 ∧ (∀ (l : ℕ),
      blockLoc img i = some l → l / 4194304 ∉ s.written ∧ s.poisonIn l 4194304 = false) ∧ (s.ctx c).snap.direct =
      false) ∧
    (∃ (s : State) (c : CtxId) (img : CtxImage) (sec : SnapSection), (s.ctx c).img = some img ∧ img.snap = some sec ∧
      (s.ctx c).snap.phase = SnapPhase.data ∧ (s.ctx c).snap.join = none ∧ (s.ctx c).snap.toStage = [] ∧ (s.ctx
      c).snap.staged = false ∧ 0 < sec.stageLen ∧ (s.tally sec.captureTally).assigned = true ∧ (s.tally
      sec.captureTally).ctx = c ∧ (s.tally sec.captureTally).latch = false ∧ (s.tally sec.captureTally).q = [] ∧
      (s.tally sec.captureTally).value.toNat < 2 ^ 32 - 1) :=
  ⟨⟨(ws 0 CtxState.running id), 0, (imgS 0), (snapS 0), by decide +kernel, (rq 0 true 7), 9, true,
      (by unfold admitted; decide +kernel), by decide +kernel⟩,
    ⟨(ws 0 CtxState.running (fun x => { x with phase := SnapPhase.quiescing, round := 9, direct := true })), 0, (imgS
      0), (snapS 0), by decide +kernel⟩,
    ⟨(ws 0 CtxState.running (fun x => { x with phase := SnapPhase.quiescing, round := 9, direct := true })), 0, (imgS
      0), (snapS 0), by decide +kernel⟩,
    ⟨(ws 0 CtxState.running (fun x => { x with phase := SnapPhase.quiescing, round := 9 })), 0, (imgS 0), (snapS 0),
      by decide +kernel⟩,
    ⟨(ws 4194304 CtxState.running (dt (fun x => { x with toStage := [9] }))), 0, (imgS 4194304), (snapS 4194304),
      by decide +kernel, 9, [], 8594128896, by decide +kernel⟩,
    ⟨(ws 0 CtxState.running (dt (fun x => { x with direct := true, toSend := [9, 2] }))), 0, (imgS 0), (snapS 0),
      by decide +kernel, 9, 2, [], by decide +kernel⟩,
    ⟨(ws 0 CtxState.running (dt (fun x => { x with toSend := [9, 2] }))), 0, (imgS 0), (snapS 0), by decide +kernel,
      9, 2, [], by decide +kernel⟩,
    ⟨(ws 16777216 CtxState.running (dt id)), 0, (imgS 16777216), (snapS 16777216), by decide +kernel⟩⟩

theorem witness_SnapshotsTaken_2 :
    (∃ (s : State) (c : CtxId) (img : CtxImage) (sec : SnapSection), ((s.ctx c).img = some img ∧ img.snap = some sec
      ∧ (s.ctx c).snap.phase = SnapPhase.data ∧ (s.ctx c).snap.join = none) ∧ ∃ (k : ℕ) (p : Packet) (hdr : SnapHdr)
      (data : List Byte), s.inboxAt k [48] = some p ∧ p.body = Payload.snap hdr data ∧ hdr.context = c ∧ hdr.round =
      (s.ctx c).snap.round ∧ hdr.client = s.fab.module ∧ hdr.kind = 4 ∧ hdr.block ≠ 4294967295 ∧ ((s.ctx c).cmd =
      none ∧ (s.bell sec.stepBell).snapHold = false)) ∧
    (∃ (s : State) (c : CtxId) (img : CtxImage) (sec : SnapSection), ((s.ctx c).img = some img ∧ img.snap = some sec
      ∧ (s.ctx c).snap.phase = SnapPhase.data ∧ (s.ctx c).snap.join = none) ∧ ∃ (k : ℕ) (p : Packet) (hdr : SnapHdr)
      (data : List Byte), (s.inboxAt k [48] = some p ∧ p.body = Payload.snap hdr data ∧ hdr.context = c ∧ hdr.round =
      (s.ctx c).snap.round ∧ hdr.client = s.fab.module) ∧ ∃ (m : Manifest), hdr.kind = 4 ∧ hdr.block = 4294967295 ∧
      (s.ctx c).snap.manifest = some m ∧ s.nvm.queue = [] ∧ s.vault.st ≠ VaultState.error) ∧
    (∃ (s : State) (c : CtxId) (img : CtxImage) (sec : SnapSection), ((s.ctx c).img = some img ∧ img.snap = some sec
      ∧ (s.ctx c).snap.phase = SnapPhase.data ∧ (s.ctx c).snap.join = none) ∧ ∃ (k : ℕ) (p : Packet) (hdr : SnapHdr)
      (data : List Byte), s.inboxAt k [48] = some p ∧ p.body = Payload.snap hdr data ∧ hdr.context = c ∧ hdr.round =
      (s.ctx c).snap.round ∧ hdr.client = s.fab.module ∧ hdr.kind = 5 ∧ hdr.block.toNat ∈ (s.ctx c).snap.unacked ∧ 3
      ≤ sget 0 (s.ctx c).snap.tries hdr.block.toNat ∧ ((s.ctx c).cmd = none ∧ (s.bell sec.stepBell).snapHold = false)
      ∧ (s.ctx c).snap.req = none) ∧
    (∃ (s : State) (c : CtxId) (img : CtxImage) (sec : SnapSection), ((s.ctx c).img = some img ∧ img.snap = some sec
      ∧ (s.ctx c).snap.phase = SnapPhase.data ∧ (s.ctx c).snap.join = none) ∧ ∃ (k : ℕ) (p : Packet) (hdr : SnapHdr)
      (data : List Byte), s.inboxAt k [48] = some p ∧ p.body = Payload.snap hdr data ∧ hdr.context = c ∧ hdr.round =
      (s.ctx c).snap.round ∧ hdr.client = s.fab.module ∧ hdr.kind = 5 ∧ hdr.block.toNat ∈ (s.ctx c).snap.unacked ∧
      sget 0 (s.ctx c).snap.tries hdr.block.toNat < 3) ∧
    (∃ (s : State) (c : CtxId) (img : CtxImage) (sec : SnapSection), (s.ctx c).img = some img ∧ img.snap = some sec ∧
      (s.ctx c).snap.phase = SnapPhase.data ∧ (s.ctx c).snap.join = none ∧ ((s.ctx c).cmd = none ∧ (s.bell
      sec.stepBell).snapHold = false) ∧ (s.ctx c).snap.req = none) ∧
    (∃ (s : State) (c : CtxId) (img : CtxImage) (sec : SnapSection), ((s.ctx c).img = some img ∧ img.snap = some sec)
      ∧ ∃ (m : Manifest), (s.ctx c).snap.signing = some m ∧ s.vault.st ≠ VaultState.error) ∧
    (∃ (s : State) (c : CtxId) (img : CtxImage) (sec : SnapSection), ((s.ctx c).img = some img ∧ img.snap = some sec)
      ∧ ∃ (m : Manifest), (s.ctx c).snap.ext = some (m, 0) ∧ (s.port 16).st = PortState.down) ∧
    (∃ (s : State) (c : CtxId) (img : CtxImage) (sec : SnapSection), ((s.ctx c).img = some img ∧ img.snap = some sec)
      ∧ ∃ (m : Manifest) (y : Session) (pn : Word), (s.ctx c).snap.ext = some (m, m.leaves.length) ∧ s.gateUp = true
      ∧ (List.find? (fun z => z.role == Role.store) s.gate.sessions = some y) ∧ y.replayed pn = false) :=
  ⟨⟨(inb (ws 0 CtxState.running (dt (fun x => { x with unacked := [9, 8] }))) (sp 4 9 0 [])), 0, (imgS 0), (snapS
      0), by decide +kernel, 0, (sp 4 9 0 []), (sh 4 9 0), [], by decide +kernel⟩,
    ⟨(inb (ws 0 CtxState.running (dt (fun x => { x with manifest := (some mani) }))) (sp 4 4294967295 0 [])), 0,
      (imgS 0), (snapS 0), by decide +kernel, 0, (sp 4 4294967295 0 []), (sh 4 4294967295 0), [], by decide +kernel,
      mani, by decide +kernel⟩,
    ⟨(inb (ws 0 CtxState.running (dt (fun x => { x with unacked := [9, 8], tries := [(9, 3)] }))) (sp 5 9 0 [])), 0,
      (imgS 0), (snapS 0), by decide +kernel, 0, (sp 5 9 0 []), (sh 5 9 0), [], by decide +kernel⟩,
    ⟨(inb (ws 0 CtxState.running (dt (fun x => { x with unacked := [9, 8] }))) (sp 5 9 0 [])), 0, (imgS 0), (snapS
      0), by decide +kernel, 0, (sp 5 9 0 []), (sh 5 9 0), [], by decide +kernel⟩,
    ⟨(ws 16777216 CtxState.running (dt id)), 0, (imgS 16777216), (snapS 16777216), by decide +kernel⟩,
    ⟨(ws 0 CtxState.running (fun x => { x with direct := true, signing := (some mani) })), 0, (imgS 0), (snapS 0),
      by decide +kernel, _, rfl, by decide +kernel⟩,
    ⟨{ (ws 0 CtxState.running (fun x => { x with phase := SnapPhase.committed, ext := (some (mani, 0)) })) with fab := { ports := [(16, { enable := true, st := PortState.down })] } },
      0, (imgS 0), (snapS 0), by decide +kernel, mani, by decide +kernel⟩,
    ⟨(sto (ws 0 CtxState.running (fun x => { x with last := (some 9), ext := (some (mani, 2)) }))), 0, (imgS 0),
      (snapS 0), by decide +kernel, mani, { num := 8, key := 1, role := Role.store, mac := 6 }, 1, by decide +kernel⟩⟩

theorem witness_SnapshotsTaken_3 :
    (∃ (s : State) (c : CtxId) (img : CtxImage) (sec : SnapSection), ((s.ctx c).img = some img ∧ img.snap = some sec)
      ∧ ∃ (m : Manifest) (i : ℕ), (s.ctx c).snap.ext = some (m, i)) ∧
    (∃ (s : State) (c : CtxId) (img : CtxImage) (sec : SnapSection), ((s.ctx c).img = some img ∧ img.snap = some sec)
      ∧ ∃ (n keep : ℕ) (empty : Bool), (s.partnerReach = true ∧ (∀ (d : CtxId), d ≠ c → (s.ctx d).img = none)) ∧
      (s.hostedFor s.harv.partner = none ∧ n = 0 ∧ keep = 0 ∧ empty = true ∨ ∃ j h, s.hostedFor s.harv.partner = some
      j ∧ s.harv.hosted[j]? = some h ∧ n = h.cfg.len ∧ keep = h.cfg.keep ∧ empty = !h.snaps.any fun z => z.ctx == c)) :=
  ⟨⟨(ws 0 CtxState.running (fun x => { x with phase := SnapPhase.committed, ext := (some (mani, 0)) })), 0, (imgS
      0), (snapS 0), by decide +kernel, mani, 0, by decide +kernel⟩,
    ⟨{ (ws 0 CtxState.running id) with fab := { routes := [{ dest := 4, cands := [0] }], ports := [(16, { enable := true, st := PortState.up }), (0, { enable := true, st := PortState.up })] } },
      0, (imgS 0), (snapS 0), by decide +kernel, 0, 0, true, by decide +kernel, (Or.inl ⟨by decide +kernel, rfl, rfl,
      rfl⟩)⟩⟩

end WSnapshotsTaken

namespace WSnapshotsHosted

def hcfg : HostedCfg := { client := 4, clientFeed := 3, base := 0x1000000, len := 0x10000000, keep := 1 }
def m2 : Manifest := { mani with parent := some 9, round := 10 }
def hs (f : Hosted → Hosted := id) : Hosted := f { cfg := hcfg }
def snp : HostedSnap := ⟨0, mani, [(3, 5)]⟩
def base (h : Hosted) : State := { ws 0 .running id with harv := { hosted := [h], partner := 4 } }
def mpk (m : Manifest) : Packet := { sp 3 0xFFFFFFFF 4 with body := .snapManifest (sh 3 0xFFFFFFFF 4) m }
def ppk (tag : Nat) (src : ModuleNo) (e : Bool) (len : Nat := 0x10000000) : Packet := let p := sp 0 0 0; { p with hdr := { p.hdr with tag := BitVec.ofNat 64 tag, src := src }, body := .pairing 0 3 0 len 1 e }
def rst : Restoring := { round := 9, external := false, noFallback := false, manifest := some mani }
def hArr : Hosted := hs fun h => { h with incoming := [⟨0, 9, [(9, 2)], []⟩] }
def dig : List Byte := leBytes (BitVec.toNat (sha3_512 (memBytes (base hArr).mem (hArr.slotLoc 2) 4194304))) 64
def sD (d : List Byte) : State := inb (base hArr) (sp 2 9 4 d)
theorem t1 : (∃ (s : State) (k : ℕ) (p : Packet) (hdr : SnapHdr) (data : List Byte), (s.inboxAt k [48] = some p) ∧ (p.body = Payload.snap hdr data) ∧ ∃ j : ℕ, ∃ h : Hosted, ∃ n : ℕ, (hdr.client ≠ s.fab.module) ∧ (s.hostedFor hdr.client = some j) ∧ (s.harv.hosted[j]? = some h) ∧ (hdr.kind = 2) ∧ (List.find? (fun e => e.1 == hdr.block.toNat) (h.arriving hdr.context hdr.round).slots = some (hdr.block.toNat, n)) ∧ (data = leBytes (BitVec.toNat (sha3_512 (memBytes s.mem (h.slotLoc n) 4194304))) 64 ∧ s.poisonIn (h.slotLoc n) 4194304 = false)) :=
  ⟨sD dig, 0, sp 2 9 4 dig, sh 2 9 4, dig, rfl, rfl, 0, hArr, 2, by decide +kernel, by decide +kernel, by decide +kernel, rfl, by decide +kernel, rfl, by decide +kernel⟩
theorem t2 : (∃ (s : State) (k : ℕ) (p : Packet) (hdr : SnapHdr) (data : List Byte), (s.inboxAt k [48] = some p) ∧ (p.body = Payload.snap hdr data) ∧ ∃ j : ℕ, ∃ h : Hosted, ∃ n : ℕ, (hdr.client ≠ s.fab.module) ∧ (s.hostedFor hdr.client = some j) ∧ (s.harv.hosted[j]? = some h) ∧ (hdr.kind = 2) ∧ (List.find? (fun e => e.1 == hdr.block.toNat) (h.arriving hdr.context hdr.round).slots = some (hdr.block.toNat, n)) ∧ (¬ (data = leBytes (BitVec.toNat (sha3_512 (memBytes s.mem (h.slotLoc n) 4194304))) 64 ∧ s.poisonIn (h.slotLoc n) 4194304 = false))) :=
  ⟨sD [], 0, sp 2 9 4, sh 2 9 4, [], rfl, rfl, 0, hArr, 2, by decide +kernel, by decide +kernel, by decide +kernel, rfl, by decide +kernel, fun h => absurd h.1 (by simp [leBytes])⟩
theorem t3 : ∀ o, (w0.window 0 0x200002000) ≠ some (.granary o) := nofun

theorem witness_SnapshotsHosted_1 :
    (∃ (s : State) (k : ℕ) (p : Packet) (hdr : SnapHdr) (data : List Byte), s.inboxAt k [48] = some p ∧ p.body =
      Payload.snap hdr data ∧ hdr.client = s.fab.module ∧ hdr.kind = 1) ∧
    (∃ (s : State) (k : ℕ) (p : Packet) (hdr : SnapHdr) (data : List Byte), (s.inboxAt k [48] = some p ∧ p.body =
      Payload.snap hdr data ∧ hdr.client = s.fab.module) ∧ ∃ (r : Restoring), hdr.kind = 7 ∧ (s.ctx
      hdr.context).snap.restore = some r ∧ hdr.block = 4294967295 ∧ r.manifest.isSome = true) ∧
    (∃ (s : State) (k : ℕ) (p : Packet) (hdr : SnapHdr) (data : List Byte), (s.inboxAt k [48] = some p ∧ p.body =
      Payload.snap hdr data) ∧ ∃ (j : ℕ) (h : Hosted) (n : ℕ), (hdr.client ≠ s.fab.module ∧ s.hostedFor hdr.client =
      some j ∧ s.harv.hosted[j]? = some h ∧ hdr.kind = 1 ∧ Memory.wf s.mem = true) ∧
      (match List.find? (fun e => e.1 == hdr.block.toNat) (h.arriving hdr.context hdr.round).slots with | some e => e.2 = n | none => (h.putArriving (h.arriving hdr.context hdr.round)).freeSlot = some n)) ∧
    (∃ (s : State) (k : ℕ) (p : Packet) (hdr : SnapHdr) (data : List Byte), (s.inboxAt k [48] = some p ∧ p.body =
      Payload.snap hdr data) ∧ ∃ (j : ℕ) (h : Hosted) (n : ℕ), hdr.client ≠ s.fab.module ∧ s.hostedFor hdr.client =
      some j ∧ s.harv.hosted[j]? = some h ∧ hdr.kind = 6 ∧ h.compacting = true) ∧
    (∃ (s : State) (k : ℕ) (p : Packet) (hdr : SnapHdr) (data : List Byte), (s.inboxAt k [48] = some p ∧ p.body =
      Payload.snap hdr data) ∧ ∃ (j : ℕ) (h : Hosted) (n : ℕ), (hdr.client ≠ s.fab.module ∧ s.hostedFor hdr.client =
      some j ∧ s.harv.hosted[j]? = some h ∧ hdr.kind = 6) ∧ ∃ (y : HostedSnap), h.compacting = false ∧ hdr.block ≠
      4294967295 ∧ (List.find? (fun z => z.manifest.round == hdr.round) (List.filter (fun z => z.ctx == hdr.context)
      h.snaps) = some y) ∧ (List.find? (fun e => e.1 == hdr.block.toNat) y.map = some (hdr.block.toNat, n)) ∧
      s.poisonIn (h.slotLoc n) 4194304 = false) ∧
    (∃ (s : State) (k : ℕ) (p : Packet) (hdr : SnapHdr) (data : List Byte), (s.inboxAt k [48] = some p ∧ p.body =
      Payload.snap hdr data) ∧ ∃ (j : ℕ) (h : Hosted) (n : ℕ), (hdr.client ≠ s.fab.module ∧ s.hostedFor hdr.client =
      some j ∧ s.harv.hosted[j]? = some h ∧ hdr.kind = 6) ∧ ∃ (y : HostedSnap), h.compacting = false ∧ hdr.block ≠
      4294967295 ∧ (List.find? (fun z => z.manifest.round == hdr.round) (List.filter (fun z => z.ctx == hdr.context)
      h.snaps) = some y) ∧ (List.find? (fun e => e.1 == hdr.block.toNat) y.map = none)) ∧
    (∃ (s : State) (k : ℕ) (p : Packet) (hdr : SnapHdr) (m : Manifest) (j : ℕ) (h : Hosted), s.inboxAt k [48] = some
      p ∧ p.body = Payload.snapManifest hdr m ∧ hdr.client ≠ s.fab.module ∧ s.hostedFor hdr.client = some j ∧
      s.harv.hosted[j]? = some h ∧ p.hdr.src ≠ s.fab.module) ∧
    (∃ (s : State) (i : BitVec 2) (h : Hosted), s.harv.hosted[i.toNat]? = some h ∧ h.compacting = true ∧ h.waiting =
      []) :=
  ⟨⟨(inb (base (hs id)) (sp 1 9 0 [1, 2, 3])), 0, (sp 1 9 0 [1, 2, 3]), (sh 1 9 0), [1, 2, 3], by decide +kernel⟩,
    ⟨(inb (ws 0 CtxState.loaded (fun x => { x with restore := (some rst) })) (sp 7 4294967295 0 [])), 0, (sp 7
      4294967295 0 []), (sh 7 4294967295 0), [], by decide +kernel, rst, by decide +kernel⟩,
    ⟨(inb (base (hs id)) (sp 1 9 4 [1, 2, 3])), 0, (sp 1 9 4 [1, 2, 3]), (sh 1 9 4), [1, 2, 3], by decide +kernel, 0,
      (hs id), 0, by decide +kernel, (rfl : (some 0 : Option Nat) = some 0)⟩,
    ⟨(inb (base (hs (fun h => { h with compacting := true }))) (sp 6 9 4 [])), 0, (sp 6 9 4 []), (sh 6 9 4), [],
      by decide +kernel, 0, (hs (fun h => { h with compacting := true })), 0, by decide +kernel⟩,
    ⟨(inb (base (hs (fun h => { h with snaps := [snp] }))) (sp 6 3 4 [])), 0, (sp 6 3 4 []), (sh 6 3 4), [],
      by decide +kernel, 0, (hs (fun h => { h with snaps := [snp] })), 5, by decide +kernel, snp, by decide +kernel⟩,
    ⟨(inb (base (hs (fun h =>
      { h with snaps := [snp, { ctx := 0, manifest := m2, map := [(3, 5)] }, { ctx := 1, manifest := mani, map := [] }] })))
      (sp 6 9 4 [])), 0, (sp 6 9 4 []), (sh 6 9 4), [], by decide +kernel, 0, (hs (fun h =>
      { h with snaps := [snp, { ctx := 0, manifest := m2, map := [(3, 5)] }, { ctx := 1, manifest := mani, map := [] }] })),
      0, by decide +kernel, snp, by decide +kernel⟩,
    ⟨(inb (base (hs id)) (mpk mani)), 0, (mpk mani), (sh 3 4294967295 4), mani, 0, (hs id), by decide +kernel⟩,
    ⟨(inb (base (hs (fun h => { h with compacting := true }))) (sp 1 9 0 [1, 2, 3])), 0, _, rfl, by decide +kernel⟩⟩

theorem witness_SnapshotsHosted_2 :
    (∃ (s : State) (k : ℕ) (p : Packet) (c : CtxId) (feed : BitVec 32) (layout : Digest) (len keep : ℕ) (empty :
      Bool), s.inboxAt k [48, 80] = some p ∧ p.body = Payload.pairing c feed layout len keep empty ∧ p.hdr.tag = 0 ∧
      s.hostedFor p.hdr.src = none) ∧
    (∃ (s : State) (k : ℕ) (p : Packet) (c : CtxId) (feed : BitVec 32) (layout : Digest) (len keep : ℕ) (empty :
      Bool), (s.inboxAt k [48, 80] = some p ∧ p.body = Payload.pairing c feed layout len keep empty) ∧ ∃ (j : ℕ) (h :
      Hosted), p.hdr.tag = 0 ∧ s.hostedFor p.hdr.src = some j ∧ s.harv.hosted[j]? = some h) ∧
    (∃ (s : State) (k : ℕ) (p : Packet) (c : CtxId) (feed : BitVec 32) (layout : Digest) (len keep : ℕ) (empty :
      Bool), (s.inboxAt k [48, 80] = some p ∧ p.body = Payload.pairing c feed layout len keep empty) ∧ ∃ (img :
      CtxImage) (sec : SnapSection), p.hdr.tag = 1 ∧ p.hdr.src = s.harv.partner ∧ (s.ctx c).img = some img ∧ img.snap
      = some sec ∧ s.boot.ownFeed ≠ some feed ∧ snapN img + keep * max (s.ctx c).snap.maxSet (stateBlocks img) ≤ (len
      - 100663296) / 4194304 ∧ empty = true) ∧
    (∃ (s : State) (k : ℕ) (p : Packet) (c : CtxId) (feed : BitVec 32) (layout : Digest) (len keep : ℕ) (empty :
      Bool), (s.inboxAt k [48, 80] = some p ∧ p.body = Payload.pairing c feed layout len keep empty) ∧ ∃ (img :
      CtxImage) (sec : SnapSection), p.hdr.tag = 1 ∧ p.hdr.src = s.harv.partner ∧ (s.ctx c).img = some img ∧ img.snap
      = some sec ∧ s.boot.ownFeed ≠ some feed ∧ (len - 100663296) / 4194304 < snapN img + keep * max (s.ctx
      c).snap.maxSet (stateBlocks img)) ∧
    (∃ (s : State) (k : ℕ) (p : Packet) (hdr : SnapHdr) (data : List Byte), (s.inboxAt k [48] = some p) ∧ (p.body =
      Payload.snap hdr data) ∧ ∃ j : ℕ, ∃ h : Hosted, ∃ n : ℕ, (hdr.client ≠ s.fab.module) ∧ (s.hostedFor hdr.client
      = some j) ∧ (s.harv.hosted[j]? = some h) ∧ (hdr.kind = 2) ∧ (List.find? (fun e => e.1 == hdr.block.toNat)
      (h.arriving hdr.context hdr.round).slots = some (hdr.block.toNat, n)) ∧ (data = leBytes (BitVec.toNat (sha3_512
      (memBytes s.mem (h.slotLoc n) 4194304))) 64 ∧ s.poisonIn (h.slotLoc n) 4194304 = false)) ∧
    (∃ (s : State) (k : ℕ) (p : Packet) (hdr : SnapHdr) (data : List Byte), (s.inboxAt k [48] = some p) ∧ (p.body =
      Payload.snap hdr data) ∧ ∃ j : ℕ, ∃ h : Hosted, ∃ n : ℕ, (hdr.client ≠ s.fab.module) ∧ (s.hostedFor hdr.client
      = some j) ∧ (s.harv.hosted[j]? = some h) ∧ (hdr.kind = 2) ∧ (List.find? (fun e => e.1 == hdr.block.toNat)
      (h.arriving hdr.context hdr.round).slots = some (hdr.block.toNat, n)) ∧ (¬ (data = leBytes (BitVec.toNat
      (sha3_512 (memBytes s.mem (h.slotLoc n) 4194304))) 64 ∧ s.poisonIn (h.slotLoc n) 4194304 = false))) :=
  ⟨⟨(inb { (base (hs id)) with harv := { partner := 4 } } (ppk 0 4 true 268435456)), 0, (ppk 0 4 true 268435456), 0,
      3, 0, 268435456, 1, true, by decide +kernel⟩,
    ⟨(inb (base (hs id)) (ppk 0 4 true 268435456)), 0, (ppk 0 4 true 268435456), 0, 3, 0, 268435456, 1, true,
      by decide +kernel, 0, (hs id), by decide +kernel⟩,
    ⟨(inb (base (hs id)) (ppk 1 4 true 268435456)), 0, (ppk 1 4 true 268435456), 0, 3, 0, 268435456, 1, true,
      by decide +kernel, (imgS 0), (snapS 0), by decide +kernel⟩,
    ⟨(inb (base (hs id)) (ppk 1 4 true 104857600)), 0, (ppk 1 4 true 104857600), 0, 3, 0, 104857600, 1, true,
      by decide +kernel, (imgS 0), (snapS 0), by decide +kernel⟩,
    ⟨sD dig, 0, sp 2 9 4 dig, sh 2 9 4, dig, rfl, rfl, 0, hArr, 2, by decide +kernel, by decide +kernel,
      by decide +kernel, rfl, by decide +kernel, rfl, by decide +kernel⟩,
    ⟨sD [], 0, sp 2 9 4, sh 2 9 4, [], rfl, rfl, 0, hArr, 2, by decide +kernel, by decide +kernel, by decide +kernel,
      rfl, by decide +kernel, fun h => absurd h.1 (by simp [leBytes])⟩⟩

end WSnapshotsHosted

namespace WRestores

def d1 : List Byte := [1,2,3]
def mR0 : Manifest := { mani with leaves := (List.range 9).map (fun _ => sha3_512 d1) ++ [sha3_512 d1, sha3_512 []] }
def mR : Manifest := { mR0 with root := rootOf mR0.leaves, layout := layoutOf (imgS 0), signer := 5 }
def mT : Manifest := let m := { mR with leaves := mR.leaves.take 10 }; { m with root := rootOf m.leaves }
def mN : Manifest := { mR with leaves := List.replicate 9 (~~~ sha3_512 d1) }
def kR : CmdExec := ⟨7, 3, .restore, 0⟩
def rst (n : Nat) (nf : Bool := false) : Restoring := { round := 9, external := true, noFallback := nf, manifest := some mR, next := n }
def up (s : State) : State := { s with gate := { s.gate with sessions := s.gate.sessions ++ [{ num := 8, key := 1, role := .store, mac := 6 }] } }
def wrs (r : Restoring) : State := up ((ws 0 .loaded fun x => { x with phase := .restore, restore := some r }).modCtx 0 fun c => { c with cmd := some kR })

theorem witness_Restores_1 :
    (∃ (s : State) (r : ReqHdr) (c : CtxId) (img : CtxImage) (sec : SnapSection) (round : BitVec 32) (noFallback :
      Bool), admitted s r 8 ∧ r.context = BitVec.setWidth 8 c ∧ (s.ctx c).st = CtxState.loaded ∧ (s.ctx c).cmd = none
      ∧ (s.ctx c).img = some img ∧ img.snap = some sec ∧ joinsImg img = false ∧ s.partnerReach = true) ∧
    (∃ (s : State) (r : ReqHdr) (c : CtxId) (img : CtxImage) (sec : SnapSection) (round : BitVec 32) (noFallback :
      Bool), admitted s r 8 ∧ r.context = BitVec.setWidth 8 c ∧ (s.ctx c).st = CtxState.loaded ∧ (s.ctx c).cmd = none
      ∧ (s.ctx c).img = some img ∧ img.snap = some sec ∧ joinsImg img = false ∧ (∃ x ∈ s.gate.sessions, x.role =
      Role.store)) ∧
    (∃ (s : State) (r : ReqHdr) (c : CtxId) (img : CtxImage) (sec : SnapSection) (round : BitVec 32) (noFallback :
      Bool), admitted s r 8 ∧ r.context = BitVec.setWidth 8 c ∧ (s.ctx c).st = CtxState.loaded ∧ (s.ctx c).cmd = none
      ∧ (s.ctx c).img = some img ∧ img.snap = some sec ∧ joinsImg img = false ∧ (∀ x ∈ s.gate.sessions, x.role ≠
      Role.store)) ∧
    (∃ (s : State) (r : ReqHdr) (c : CtxId) (img : CtxImage) (sec : SnapSection) (round : BitVec 32) (noFallback :
      Bool), admitted s r 8 ∧ r.context = BitVec.setWidth 8 c ∧ (s.ctx c).st = CtxState.loaded ∧ (s.ctx c).cmd = none
      ∧ (s.ctx c).img = some img ∧ img.snap = some sec ∧ joinsImg img = false ∧ ∃ (source : Byte) (rsv : BitVec 7),
      (2 ≤ BitVec.toNat source ∨ rsv ≠ 0)) ∧
    (∃ (s : State) (c : CtxId) (img : CtxImage) (sec : SnapSection) (r : Restoring) (x : Session) (pn : Word), (s.ctx
      c).snap.restore = some r ∧ (s.ctx c).img = some img ∧ img.snap = some sec ∧ s.gateUp = true ∧ (List.find? (fun
      z => z.role == Role.store) s.gate.sessions = some x) ∧ (x.replayed pn = false ∧ r.external = true ∧ r.retried =
      false) ∧ r.manifest = none) ∧
    (∃ (s : State) (c : CtxId) (img : CtxImage) (sec : SnapSection) (r : Restoring) (x : Session) (pn : Word), (s.ctx
      c).snap.restore = some r ∧ (s.ctx c).img = some img ∧ img.snap = some sec ∧ s.gateUp = true ∧ (List.find? (fun
      z => z.role == Role.store) s.gate.sessions = some x) ∧ (x.replayed pn = false ∧ r.external = true ∧ r.retried =
      false) ∧ ∃ (m : Manifest), r.manifest = none ∧ s.vault.st ≠ VaultState.error ∧ m.round = r.round ∧ m.sigOk =
      true ∧ m.layout = layoutOf img ∧ ((m.signer ∈ sec.signers ∨ m.signer = sha3_512 (leBytes
      Config.identityKey.toNat 2592)) ∧ m.leaves.length = snapN img) ∧ rootOf m.leaves = m.root ∧ r.next <
      m.leaves.length) ∧
    (∃ (s : State) (c : CtxId) (img : CtxImage) (sec : SnapSection) (r : Restoring) (x : Session) (pn : Word), (s.ctx
      c).snap.restore = some r ∧ (s.ctx c).img = some img ∧ img.snap = some sec ∧ s.gateUp = true ∧ (List.find? (fun
      z => z.role == Role.store) s.gate.sessions = some x) ∧ (x.replayed pn = false ∧ r.external = true ∧ r.retried =
      false) ∧ ∃ (m : Manifest) (data : List Byte), r.manifest = some m ∧ ∃ (l : ℕ), m.leaves[r.next]? = some
      (sha3_512 data) ∧ blockLoc img r.next = some l ∧ r.next + 1 < m.leaves.length ∧ Memory.wf s.mem = true) ∧
    (∃ (s : State) (c : CtxId) (img : CtxImage) (sec : SnapSection) (r : Restoring) (x : Session) (pn : Word), (s.ctx
      c).snap.restore = some r ∧ (s.ctx c).img = some img ∧ img.snap = some sec ∧ s.gateUp = true ∧ (List.find? (fun
      z => z.role == Role.store) s.gate.sessions = some x) ∧ (x.replayed pn = false ∧ r.external = true ∧ r.retried =
      false) ∧ ∃ (m : Manifest) (data : List Byte), r.manifest = some m ∧ m.leaves[r.next]? = some (sha3_512 data) ∧
      m.leaves.length = r.next + 1) :=
  ⟨⟨{ (ws 0 CtxState.loaded id) with fab := { routes := [{ dest := 4, cands := [0] }], ports := [(16, { enable := true, st := PortState.up }), (0, { enable := true, st := PortState.up })] } },
      (rq 0 true 8), 0, (imgS 0), (snapS 0), 9, false, (by unfold admitted; decide +kernel), rfl, by decide +kernel,
      rfl, rfl, rfl, by decide +kernel⟩,
    ⟨(up (ws 0 CtxState.loaded id)), (rq 0 true 8), 0, (imgS 0), (snapS 0), 9, false,
      (by unfold admitted; decide +kernel), rfl, by decide +kernel, rfl, rfl, rfl, by decide +kernel⟩,
    ⟨(ws 0 CtxState.loaded id), (rq 0 true 8), 0, (imgS 0), (snapS 0), 9, false,
      (by unfold admitted; decide +kernel), rfl, by decide +kernel, rfl, rfl, rfl, by decide +kernel⟩,
    ⟨(up (ws 0 CtxState.loaded id)), (rq 0 true 8), 0, (imgS 0), (snapS 0), 9, false,
      (by unfold admitted; decide +kernel), rfl, by decide +kernel, rfl, rfl, rfl, by decide +kernel, 0, 1,
      by decide +kernel⟩,
    ⟨(wrs { (rst 0 false) with manifest := none }), 0, (imgS 0), (snapS 0), { (rst 0 false) with manifest := none },
      { num := 8, key := 1, role := Role.store, mac := 6 }, 1, rfl, rfl, rfl, by decide +kernel, rfl,
      by decide +kernel, rfl⟩,
    ⟨(wrs { (rst 0 false) with manifest := none }), 0, (imgS 0), (snapS 0), { (rst 0 false) with manifest := none },
      { num := 8, key := 1, role := Role.store, mac := 6 }, 1, rfl, rfl, rfl, by decide +kernel, rfl,
      by decide +kernel, mT, rfl, by decide +kernel, rfl, by decide +kernel, rfl, by decide +kernel, rfl,
      by decide +kernel⟩,
    ⟨(wrs (rst 9 false)), 0, (imgS 0), (snapS 0), (rst 9 false),
      { num := 8, key := 1, role := Role.store, mac := 6 }, 1, rfl, rfl, rfl, by decide +kernel, rfl,
      by decide +kernel, mR, d1, rfl, 8594128896, rfl, rfl, by decide +kernel⟩,
    ⟨(wrs (rst 10 false)), 0, (imgS 0), (snapS 0), (rst 10 false),
      { num := 8, key := 1, role := Role.store, mac := 6 }, 1, rfl, rfl, rfl, by decide +kernel, rfl,
      by decide +kernel, mR, [], rfl, rfl, by decide +kernel⟩⟩

theorem witness_Restores_2 :
    (∃ (s : State) (c : CtxId) (img : CtxImage) (sec : SnapSection) (r : Restoring) (x : Session) (pn : Word), (s.ctx
      c).snap.restore = some r ∧ (s.ctx c).img = some img ∧ img.snap = some sec ∧ s.gateUp = true ∧ (List.find? (fun
      z => z.role == Role.store) s.gate.sessions = some x) ∧ (x.replayed pn = false ∧ r.external = true ∧ r.retried =
      false) ∧ ∃ (m : Manifest) (data : List Byte), r.manifest = some m ∧ ¬m.leaves[r.next]? = some (sha3_512 data) ∧
      r.noFallback = true) :=
  ⟨(wrs { (rst 3 true) with manifest := (some mN) }), 0, (imgS 0), (snapS 0),
    { (rst 3 true) with manifest := (some mN) }, { num := 8, key := 1, role := Role.store, mac := 6 }, 1, rfl, rfl,
    rfl, by decide +kernel, rfl, by decide +kernel, mN, d1, rfl, (fun h => not_ne _ (Option.some.inj h)),
    by decide +kernel⟩

end WRestores

namespace WPurgesAndResets

def mk (f : Rst → Rst) (g : CtxRst → CtxRst := id) (st : CtxState := .running) : State := { (wg.modCtx 0 fun c => { c with st := st, img := some img3, rst := g c.rst }) with rst := f wg.rst, threads := [(0, wThr), (20, wThr)], mem := [(0x100000010, 0x81), (0x200000008, 0x93), (0x220000008, 0x93)] }

theorem witness_PurgesAndResets_1 :
    (∃ (s : State) (u : UnitId), u ∈ s.rst.probes ∧ resetsAlone u = true ∧ resetUnit u ∉ s.rst.engines) ∧
    (∃ (s : State) (u : UnitId) (c : CtxId), u ∈ (s.ctx c).rst.fenced ∧ resetsAlone u = true) ∧
    (∃ (s : State) (u : UnitId) (c : CtxId), u ∈ (s.ctx c).rst.fenced ∧ (s.ctx c).st ≠ CtxState.faulted ∧ (s.ctx
      c).rst.purge = none) ∧
    (∃ (s : State) (u : UnitId) (c : CtxId) (p : Purge), (s.ctx c).rst.purge = some p ∧ ((s.ctx c).cmd = none ∧ u ∈
      p.units) ∧ (∃ v ∈ p.units, v ≠ u)) ∧
    (∃ (s : State) (u : UnitId) (c : CtxId) (p : Purge), (s.ctx c).rst.purge = some p ∧ ((s.ctx c).cmd = none ∧ u ∈
      p.units) ∧ (∀ v ∈ p.units, v = u)) ∧
    (∃ (s : State) (u : UnitId), resetUnit u ∈ s.rst.engines ∧ ∃ (d : ℕ), dieAbove (resetUnit u) = some d ∧ d ∉
      s.rst.dieResets) ∧
    (∃ (s : State) (c : CtxId), (s.ctx c).rst.purgeWaits = false) ∧
    (∃ (s : State) (c : CtxId), (s.ctx c).rst.purgeWaits = true) :=
  ⟨⟨(mk (fun r => { r with probes := [4096, 4101] }) id CtxState.running), 4096, by decide +kernel⟩,
    ⟨(mk id (fun r => { r with fenced := [4096] }) CtxState.running), 4096, 0, by decide +kernel⟩,
    ⟨(mk id (fun r => { r with fenced := [4096] }) CtxState.running), 4096, 0, by decide +kernel⟩,
    ⟨(mk id (fun r => { r with purge := (some { units := [4096, 1026] }) }) CtxState.faulted), 4096, 0, _, rfl,
      by decide +kernel, (bex_of _ _ (by decide +kernel))⟩,
    ⟨(mk id (fun r => { r with purge := (some { units := [4096] }) }) CtxState.faulted), 4096, 0, _, rfl,
      by decide +kernel, (ball_of _ _ (by decide +kernel))⟩,
    ⟨(mk (fun r => { r with engines := [(resetUnit 4096)] }) id CtxState.running), 4096, by decide +kernel, _, rfl,
      by decide +kernel⟩,
    ⟨(mk (fun r => { r with probes := [4096, 4101] }) id CtxState.running), 0, by decide +kernel⟩,
    ⟨(mk id (fun r => { r with gap := true, purgeWaits := true }) CtxState.faulted), 0, by decide +kernel⟩⟩

theorem witness_PurgesAndResets_2 :
    (∃ (s : State) (d : ℕ), d ∈ s.rst.dieResets ∧ d < 8 ∧ s.cfrac = 0 ∧ Memory.wf s.mem = true) ∧
    (∃ (s : State) (d : ℕ), d ∈ s.rst.dieResets ∧ d ≤ 8 ∧ s.rst.due = none ∧ s.rst.fhSecond ≠ s.clk.reeve /
      212500000) ∧
    (∃ (s : State), s.car.free = true ∧ (s.boot.phase = BootPhase.released ∨ s.boot.phase = BootPhase.recovery)) ∧
    (∃ (s : State), s.car.free = true ∧ (¬(s.boot.phase = BootPhase.released ∨ s.boot.phase = BootPhase.recovery))) ∧
    (∃ (s : State), s.boot.phase ≠ BootPhase.resetEntry) ∧
    (∃ (s : State), s.car.resetN = true ∧ s.car.railsOn = true) :=
  ⟨⟨(mk (fun r => { r with fhSecond := 5, dieResets := [0, 8, 1] }) id CtxState.running), 0, by decide +kernel⟩,
    ⟨(mk (fun r => { r with fhSecond := 5, dieResets := [0, 8, 1] }) id CtxState.running), 0, by decide +kernel⟩,
    ⟨{ wg with pending := [Instr.release], car := { wg.car with vin := true, vstby := true, resetN := true, refclk := true } },
      by decide +kernel⟩,
    ⟨{ wg with boot := {  }, car := { wg.car with vin := true, vstby := true, resetN := true, refclk := true } },
      by decide +kernel⟩,
    ⟨(mk (fun r => { r with probes := [4096, 4101] }) id CtxState.running), by decide +kernel⟩,
    ⟨{ wg with pending := [Instr.release], car := { wg.car with vin := true, vstby := true, resetN := true, refclk := true } },
      by decide +kernel⟩⟩

end WPurgesAndResets

namespace WRingsAndSwitchover

def rpk (b : Payload) (src : ModuleNo := 1) (tag : Word := 0) : Packet := ⟨{ dest := 0, src := src, vc := 0, cls := false, hops := 0, flow := 0, sctx := 0, sgen := 0, dctx := 0, typ := 0x50, unit := 0, tag := tag }, b, [], 0, 0, 1⟩
-- members: 0 primary shard 0, 1 primary shard 1, 2 primary shard 2, 5 shadow of shard 1
def mems : List Member := [⟨0, false, 0⟩, ⟨1, false, 1⟩, ⟨2, false, 2⟩, ⟨5, true, 1⟩]
def rg (f : RingSt → RingSt := id) : RingSt := f { cfg := { rcfg false false with members := mems }, members := mems }
def bB (f : Bucket → Bucket := id) : Bucket := f { bk0 with reg := some reg0, frozen := true }
def mk (g : RingSt) (ps : List Packet) (img : CtxImage := img3) (red : SMap RedEngine := []) (f : CtxRst → CtxRst := id) (h : SnapSt → SnapSt := id) : State :=
  { (wg.modCtx 0 fun c => { c with rings := [g], img := some img, rst := f { switchMask := 1 }, snap := h {} }) with fab := { module := 0, inbox := ps, holds := [1, 2, 5], ports := [(16, { enable := true, st := .up })] }, red := red }
def eng : SMap RedEngine := [(0, { slots := [(3, bB), (4, bB fun b => { b with id := 9, frozen := false })] })]

theorem witness_RingsAndSwitchover_1 :
    (∃ (s : State) (c : CtxId) (r : ℕ) (g : RingSt), s.ring c r = some g ∧ (s.ctx c).st ≠ CtxState.empty) ∧
    (∃ (s : State) (k : ℕ) (p : Packet), s.inboxAt k [80] = some p ∧ p.body = Payload.heartbeat) ∧
    (∃ (s : State) (c : CtxId) (g : RingSt) (m : ModuleNo) (x : Member), (s.ctx c).rings = [g] ∧ (s.ctx c).st =
      CtxState.running ∧ s.snapSec c = none ∧ (List.find? (fun y => y.module == m) g.members = some x) ∧ (m ∉ g.dead
      ∧ m ≠ s.fab.module) ∧ g.switch = none ∧ g.queued = [] ∧ BitVec.getLsbD (s.ctx c).rst.switchMask 0 = true ∧
      (s.ctx c).rst.filling = false ∧ g.coordinator m ≠ some s.fab.module ∧ (∃ e ∈ g.missed, e.1 = m ∧
      s.rst.hbMiss.toNat ≤ e.2) ∧ m ∈ g.watch s.fab.module) ∧
    (∃ (s : State) (c : CtxId) (g : RingSt) (m : ModuleNo) (x : Member), (s.ctx c).rings = [g] ∧ (s.ctx c).st =
      CtxState.running ∧ s.snapSec c = none ∧ (List.find? (fun y => y.module == m) g.members = some x) ∧ (m ∉ g.dead
      ∧ m ≠ s.fab.module) ∧ g.switch = none ∧ g.queued = [] ∧ (BitVec.getLsbD (s.ctx c).rst.switchMask 0 = true ∧
      (s.ctx c).rst.filling = false ∧ g.coordinator m ≠ some s.fab.module) ∧ ∃ (k : ℕ) (p : Packet), s.inboxAt k [80]
      = some p ∧ ∃ (b : Bool), p.body = Payload.faultNotice c b ∧ p.hdr.src = m) ∧
    (∃ (s : State) (c : CtxId) (g : RingSt) (m : ModuleNo) (x : Member), (s.ctx c).rings = [g] ∧ (s.ctx c).st =
      CtxState.running ∧ s.snapSec c = none ∧ (List.find? (fun y => y.module == m) g.members = some x) ∧ (m ∉ g.dead
      ∧ m ≠ s.fab.module) ∧ g.switch = none ∧ g.queued = [] ∧ (BitVec.getLsbD (s.ctx c).rst.switchMask 0 = true ∧
      (s.ctx c).rst.filling = false ∧ g.coordinator m ≠ some s.fab.module) ∧ ∃ (k : ℕ) (p : Packet), s.inboxAt k [80]
      = some p ∧ p.body = Payload.deadNotice 0 m ∧ p.hdr.dctx = c) ∧
    (∃ (s : State) (c : CtxId) (g : RingSt) (m : ModuleNo) (x : Member), (s.ctx c).rings = [g] ∧ (s.ctx c).st =
      CtxState.running ∧ s.snapSec c = none ∧ (List.find? (fun y => y.module == m) g.members = some x) ∧ (m ∉ g.dead
      ∧ m ≠ s.fab.module) ∧ ∃ (k : ℕ) (p : Packet), s.inboxAt k [80] = some p ∧ p.hdr.dctx = c ∧ p.body =
      Payload.switch 0 m) ∧
    (∃ (s : State) (c : CtxId) (g : RingSt) (m : ModuleNo) (x : Member), (s.ctx c).rings = [g] ∧ (s.ctx c).st =
      CtxState.running ∧ s.snapSec c = none ∧ (List.find? (fun y => y.module == m) g.members = some x) ∧ (m ∉ g.dead
      ∧ m ≠ s.fab.module) ∧ ∃ (k : ℕ) (p : Packet), s.inboxAt k [80] = some p ∧ p.hdr.dctx = c ∧ ∃ (w : Switch) (bs :
      List AckEntry), p.body = Payload.switchAck 0 bs ∧ g.switch = some w ∧ w.coordinator = true ∧ g.queued = [] ∧ (∃
      y ∈ g.liveBut w.dead, y.module ≠ p.hdr.src ∧ ∀ e ∈ w.acks, e.1 ≠ y.module)) ∧
    (∃ (s : State) (c : CtxId) (g : RingSt) (m : ModuleNo) (x : Member), (s.ctx c).rings = [g] ∧ (s.ctx c).st =
      CtxState.running ∧ s.snapSec c = none ∧ (List.find? (fun y => y.module == m) g.members = some x) ∧ (m ∉ g.dead
      ∧ m ≠ s.fab.module) ∧ ∃ (k : ℕ) (p : Packet), s.inboxAt k [80] = some p ∧ p.hdr.dctx = c ∧ ((∀ e < (8 : ℕ),
      (s.redEng e).slots = []) ∧ g.lastOf m = false) ∧ g.queued = [] ∧ ∃ (go : List GoEntry), p.body = Payload.go 0 m
      go false) :=
  ⟨⟨(mk (rg id) [(rpk Payload.heartbeat 1 0)] img3 [] id id), 0, 0, _, rfl, by decide +kernel⟩,
    ⟨(mk (rg id) [(rpk Payload.heartbeat 1 0)] img3 [] id id), 0, _, rfl, rfl⟩,
    ⟨(mk (rg (fun g => { g with missed := [(1, 3), (2, 9)] })) [(rpk Payload.heartbeat 1 0)] img3 [] id id), 0, (rg
      (fun g => { g with missed := [(1, 3), (2, 9)] })), 1, { module := 1, shadow := false, shard := 1 }, rfl,
      by decide +kernel, rfl, rfl, by decide +kernel, rfl, rfl, by decide +kernel⟩,
    ⟨(mk (rg id) [(rpk (Payload.faultNotice 0 true) 1 0)] img3 [] id id), 0, (rg id), 1,
      { module := 1, shadow := false, shard := 1 }, rfl, by decide +kernel, rfl, rfl, by decide +kernel, rfl, rfl,
      by decide +kernel, 0, _, rfl, true, rfl, rfl⟩,
    ⟨(mk (rg id) [(rpk (Payload.deadNotice 0 2) 1 0)] img3 [] id id), 0, (rg id), 2,
      { module := 2, shadow := false, shard := 2 }, rfl, by decide +kernel, rfl, rfl, by decide +kernel, rfl, rfl,
      by decide +kernel, 0, _, rfl, rfl, rfl⟩,
    ⟨(mk (rg id) [(rpk (Payload.switch 0 1) 1 0)] img3 [] id id), 0, (rg id), 1,
      { module := 1, shadow := false, shard := 1 }, rfl, by decide +kernel, rfl, rfl, by decide +kernel, 0, _, rfl,
      rfl, rfl⟩,
    ⟨(mk (rg (fun g => { g with switch := (some { dead := 1, coordinator := true, frozen := true }) })) [(rpk
      (Payload.switchAck 0 []) 2 0)] img3 [] id id), 0, (rg (fun g =>
      { g with switch := (some { dead := 1, coordinator := true, frozen := true }) })), 1,
      { module := 1, shadow := false, shard := 1 }, rfl, by decide +kernel, rfl, rfl, by decide +kernel, 0, _, rfl,
      rfl, { dead := 1, coordinator := true, frozen := true }, [], rfl, rfl, by decide +kernel, rfl,
      by decide +kernel⟩,
    ⟨(mk (rg id) [(rpk (Payload.go 0 1 [] false) 1 0)] img3 [] id id), 0, (rg id), 1,
      { module := 1, shadow := false, shard := 1 }, rfl, by decide +kernel, rfl, rfl, by decide +kernel, 0, _, rfl,
      rfl, by decide +kernel, rfl, [], rfl⟩⟩

theorem witness_RingsAndSwitchover_2 :
    (∃ (s : State) (c : CtxId) (g : RingSt) (m : ModuleNo) (x : Member), (s.ctx c).rings = [g] ∧ (s.ctx c).st =
      CtxState.running ∧ s.snapSec c = none ∧ (List.find? (fun y => y.module == m) g.members = some x) ∧ (m ∉ g.dead
      ∧ m ≠ s.fab.module) ∧ ∃ (k : ℕ) (p : Packet), s.inboxAt k [80] = some p ∧ p.hdr.dctx = c ∧ ∃ (id : BitVec 16)
      (step : BitVec 32) (res : List Byte) (info : BitVec 32) (recv : BitVec 256) (e j : ℕ) (b : Bucket) (rec :
      RegRec), p.body = Payload.bucketCopy 0 id step res [] info recv ∧ s.findBucket c 0 id step = some (e, j) ∧
      s.bucket e j = some b ∧ (b.frozen = true ∧ b.ended = false) ∧ b.reg = some rec ∧ (s.tally rec.doneTally).q =
      []) ∧
    (∃ (s : State) (c : CtxId) (g : RingSt) (k : ℕ) (p : Packet), (s.ctx c).rings = [g] ∧ s.inboxAt k [80] = some p ∧
      p.hdr.dctx = c ∧ ∃ (shard : ℕ) (layout : Digest) (ls : List Digest) (img : CtxImage) (sec : SnapSection),
      p.body = Payload.join 0 shard layout ls ∧ (s.ctx c).img = some img ∧ img.snap = some sec ∧ (p.hdr.src ∈ g.dead
      ∧ s.myShard g = shard) ∧ layout = layoutOf img ∧ (s.ctx c).snap.join = none ∧ (s.ctx c).snap.joinQueue = []) ∧
    (∃ (s : State) (c : CtxId) (g : RingSt) (k : ℕ) (p : Packet), (s.ctx c).rings = [g] ∧ s.inboxAt k [80] = some p ∧
      p.hdr.dctx = c ∧ ∃ (shard : ℕ) (layout : Digest) (ls : List Digest) (img : CtxImage) (sec : SnapSection),
      p.body = Payload.join 0 shard layout ls ∧ (s.ctx c).img = some img ∧ img.snap = some sec ∧ (p.hdr.src ∈ g.dead
      ∧ s.myShard g = shard) ∧ layout ≠ layoutOf img) ∧
    (∃ (s : State) (c : CtxId) (g : RingSt) (k : ℕ) (p : Packet), (s.ctx c).rings = [g] ∧ s.inboxAt k [80] = some p ∧
      p.hdr.dctx = c ∧ ∃ (m : ModuleNo), p.body = Payload.go 0 m [] true ∧ m ≠ s.fab.module ∧ (s.ctx c).st =
      CtxState.running) ∧
    (∃ (s : State) (c : CtxId), (s.ctx c).st = CtxState.running ∧ ((s.ctx c).rst.fill = Fill.joinSent ∨ (s.ctx
      c).rst.fill = Fill.held)) ∧
    (∃ (s : State) (c : CtxId), (s.ctx c).st = CtxState.running ∧ ∃ (m : ModuleNo) (img : CtxImage) (sec :
      SnapSection), (s.ctx c).rst.fill = Fill.none ∧ (s.ctx c).snap.join = some m ∧ (s.ctx c).snap.busy = true ∧
      (s.ctx c).img = some img ∧ img.snap = some sec ∧ (s.bell sec.stepBell).snapHold = false ∧ (s.ctx c).cmd = none
      ∧ (s.ctx c).snap.joinQueue = []) ∧
    (∃ (s : State) (c : CtxId), (s.ctx c).st = CtxState.running ∧ ∃ (g : RingSt) (w : Switch), s.ring c 0 = some g ∧
      g.switch = some w) :=
  ⟨⟨(mk (rg (fun x => x)) [(rpk (Payload.bucketCopy 0 7 4 [1, 2] [] 5 9) 1 0)] img3 eng (fun x => x) (fun x => x)),
      0, (rg (fun x => x)), 1, { module := 1, shadow := false, shard := 1 }, rfl, by decide +kernel, rfl, rfl,
      by decide +kernel, 0, _, rfl, rfl, 7, 4, [1, 2], 5, 9, 0, 3, (bB (fun x => x)), reg0, rfl, rfl, rfl,
      by decide +kernel, rfl, rfl⟩,
    ⟨(mk (rg (fun g => { g with dead := [5] })) [(rpk (Payload.join 0 0 (layoutOf (imgS 0)) [1]) 5 0)] (imgS 0) [] id
      id), 0, (rg (fun g => { g with dead := [5] })), 0, (rpk (Payload.join 0 0 (layoutOf (imgS 0)) [1]) 5 0), rfl,
      rfl, rfl, 0, (layoutOf (imgS 0)), [1], (imgS 0), (snapS 0), rfl, rfl, rfl, by decide +kernel, rfl, rfl, rfl⟩,
    ⟨(mk (rg (fun g => { g with dead := [5] })) [(rpk (Payload.join 0 0 (~~~layoutOf (imgS 0)) [1]) 5 0)] (imgS 0) []
      id id), 0, (rg (fun g => { g with dead := [5] })), 0, (rpk (Payload.join 0 0 (~~~layoutOf (imgS 0)) [1]) 5 0),
      rfl, rfl, rfl, 0, (~~~layoutOf (imgS 0)), [1], (imgS 0), (snapS 0), rfl, rfl, rfl, by decide +kernel, (not_ne
      _)⟩,
    ⟨(mk (rg id) [(rpk (Payload.go 0 5 [] true) 1 0)] img3 [] id id), 0, (rg id), 0, (rpk (Payload.go 0 5 [] true) 1
      0), rfl, rfl, rfl, 5, rfl, by decide +kernel⟩,
    ⟨(mk (rg id) [] img3 [] (fun r => { r with fill := Fill.joinSent }) id), 0, by decide +kernel⟩,
    ⟨(mk (rg id) [] (imgS 0) [] id (fun x => { x with phase := SnapPhase.data, join := (some 5) })), 0,
      by decide +kernel, 5, (imgS 0), (snapS 0), rfl, rfl, by decide +kernel, rfl, rfl, by decide +kernel, rfl, rfl⟩,
    ⟨(mk (rg (fun g => { g with switch := (some { dead := 1, coordinator := true, frozen := true }) })) [(rpk
      Payload.heartbeat 1 0)] img3 [] id id), 0, by decide +kernel, (rg (fun g =>
      { g with switch := (some { dead := 1, coordinator := true, frozen := true }) })),
      { dead := 1, coordinator := true, frozen := true }, rfl, rfl⟩⟩

end WRingsAndSwitchover

namespace WBootAndUpdate

def n0 : Nvm := { bundles := [(0, bun), (1, bun)], slot := { active := false } }
def bs (ph : BootPhase) (f : Boot → Boot := id) (g : Nvm → Nvm := id) (v : VaultState := .selftest) : State :=
  { State.reset with boot := f { phase := ph }, nvm := g n0, car := { State.reset.car with resetN := true }, vault := { st := v }, fab := { State.reset.fab with lasers := (List.range 4).map fun m => (m, { seen := true }) } }
def fh1 : FhEntry := ⟨3, 4, { code := 0, severity := 0, context := none, generation := 0, unit := 0, object := 0, waiter := none, seq := 0, stamp := 0, clock := 0, detail := 0 }, 0, 0⟩
def trained (s : State) : State := { s with grans := (List.range 12).map fun i => (i, { trained := true }) }
def hs0 : List JRec := [⟨1, .slot { active := true }, true⟩, ⟨2, .catalogue ⟨0, 1, 2, 3⟩, true⟩, ⟨3, .slot {}, false⟩, ⟨3, .counters 1 2 3 4, true⟩]
def wgb (f : SlotRec → SlotRec := id) (st : Option (BitVec 32 × Nat) := none) (e : CtxState := .empty) : State := { wg with nvm := { n0 with slot := f n0.slot }, boot := { wg.boot with stage := st, mod := some modI }, ctxs := [(0, { st := e })] }

theorem witness_BootAndUpdate_1 :
    (∃ (s : State), s.boot.phase = BootPhase.resetEntry ∧ s.boot.stopped = false ∧ s.car.free = true) ∧
    (∃ (s : State), s.inPhase BootPhase.fuse = true ∧ s.fuses.lifecycle ≠ 3 ∧ s.vault.st = VaultState.selftest) ∧
    (∃ (s : State) (slot' : SlotRec) (f c r b : ℕ) (e : CatEntry) (x : JChange), s.nvm.half1 = [] ∧ s.nvm.half0 =
      [{ seq := 1, item := JChange.slot slot', good := true },
      { seq := 2, item := JChange.catalogue e, good := true }, { seq := 3, item := x, good := false },
      { seq := 3, item := JChange.counters f c r b, good := true }]) ∧
    (∃ (s : State) (b : Bundle), s.inPhase BootPhase.fwVerify = true ∧ s.vault.st = VaultState.ready ∧ s.bundleOf
      s.nvm.slot.active = some b ∧ (s.nvm.slot.trial = true → s.nvm.slot.tries < 3) ∧ b.firmware.sigOk = true ∧
      s.verifyErr b.firmware 1 true = none ∧ formatErr b.firmware 1 none = none) ∧
    (∃ (s : State) (b : Bundle), (s.inPhase BootPhase.fwVerify = true ∧ s.vault.st = VaultState.ready ∧ s.bundleOf
      s.nvm.slot.active = some b ∧ (s.nvm.slot.trial = true → s.nvm.slot.tries < 3) ∧ b.firmware.sigOk = true) ∧ ∃
      (code : Reason), s.verifyErr b.firmware 1 false = some code ∧ s.boot.tried = [] ∧ s.nvm.slot.staging ≠ some
      !s.nvm.slot.active) ∧
    (∃ (s : State) (b : Bundle), s.inPhase BootPhase.cfg = true ∧ s.vault.st ≠ VaultState.error ∧ s.boot.enable =
      false ∧ s.bundleOf s.nvm.slot.active = some b ∧ b.module.hdr.sigOk = true ∧ s.verifyErr b.module.hdr 2 true =
      none ∧ formatErr b.module.hdr 2 none = none ∧ transferBad b.module = false ∧ s.modErr b.module true = none) ∧
    (∃ (s : State), s.inPhase BootPhase.train = true ∧ (s.gran 0).trained = false) ∧
    (∃ (s : State), (s.inPhase BootPhase.train = true ∧ (s.gran 0).trained = true) ∧ ∃ (m : ModImage) (f : ImgHdr),
      s.boot.mod = some m ∧ s.nvm.slot.trial = true ∧ s.boot.fw = some f ∧ m.transfer = none ∧ s.vault.st =
      VaultState.ready) :=
  ⟨⟨(bs BootPhase.resetEntry id id VaultState.selftest), by decide +kernel⟩,
    ⟨{ (bs BootPhase.fuse id id VaultState.selftest) with rst := { begun := 2 }, boot := { phase := BootPhase.fuse, ownFeed := (some 3) } },
      by decide +kernel⟩,
    ⟨(bs BootPhase.fuse id (fun n => { n with half0 := hs0 }) VaultState.selftest), { active := true }, 1, 2, 3, 4,
      { ctx := 0, round := 1, partner := 2, root := 3 }, (JChange.slot {  }), by decide +kernel⟩,
    ⟨(bs BootPhase.fwVerify id id VaultState.ready), bun, by decide +kernel⟩,
    ⟨(bs BootPhase.fwVerify id id VaultState.ready), bun, by decide +kernel, 2305, by decide +kernel⟩,
    ⟨(bs BootPhase.cfg id id VaultState.ready), bun, by decide +kernel⟩,
    ⟨(bs BootPhase.train id id VaultState.ready), by decide +kernel⟩,
    ⟨(trained (bs BootPhase.train (fun b => { b with mod := (some modI), fw := (some fwH) }) (fun n =>
      { n with slot := { n.slot with trial := true } }) VaultState.ready)), by decide +kernel, modI, fwH,
      by decide +kernel⟩⟩

theorem witness_BootAndUpdate_2 :
    (∃ (s : State), (s.inPhase BootPhase.train = true ∧ (s.gran 0).trained = true) ∧ ∃ (m : ModImage), s.boot.mod =
      some m ∧ s.nvm.slot.trial = false) ∧
    (∃ (s : State), s.inPhase BootPhase.train = true ∧ (s.gran 0).trained = true ∧ s.boot.mod = none) ∧
    (∃ (s : State) (j : JChange) (rest : List JChange), (s.vault.st = VaultState.ready ∧ s.nvm.queue = j :: rest ∧
      s.rst.due = none) ∧ ∃ (r : SlotRec), j = JChange.slot r ∧ s.seqr.modCmd = none ∧ s.boot.phase = BootPhase.train
      ∧ s.boot.mod.isSome = true ∧ s.nvm.slot.trial = true ∧ r.trial = false) ∧
    (∃ (s : State) (j : JChange) (rest : List JChange), (s.vault.st = VaultState.ready ∧ s.nvm.queue = j :: rest ∧
      s.rst.due = none) ∧ ∃ (f c r b : ℕ), j = JChange.counters f c r b) ∧
    (∃ (s : State) (j : JChange) (rest : List JChange), (s.vault.st = VaultState.ready ∧ s.nvm.queue = j :: rest ∧
      s.rst.due = none) ∧ ∃ (e : FhEntry), j = JChange.fault e) ∧
    (∃ (s : State) (j : JChange) (rest : List JChange), (s.vault.st = VaultState.ready ∧ s.nvm.queue = j :: rest ∧
      s.rst.due = none) ∧ ∃ (own : BitVec 32) (p : ModuleNo) (f : BitVec 32), j = JChange.pairing own p f) ∧
    (∃ (s : State), s.nvm.frozen = none ∧ s.vault.st = VaultState.ready ∧ ((if s.nvm.half = true then 196416 else
      196608) ≤ s.nvm.records)) ∧
    (∃ (s : State) (a : ℕ) (items : List JChange), s.nvm.frozen = some (a, items) ∧ s.vault.st = VaultState.ready) :=
  ⟨⟨(trained (bs BootPhase.train (fun b => { b with mod := (some modI) }) id VaultState.ready)), by decide +kernel,
      _, rfl, by decide +kernel⟩,
    ⟨(trained (bs BootPhase.train id id VaultState.ready)), by decide +kernel⟩,
    ⟨{ (bs BootPhase.train (fun b => { b with trial := true, mod := (some modI) }) (fun n => { n with slot := { n.slot with trial := true, tries := 1 }, queue := [(JChange.slot {  })] }) VaultState.ready) with rst := {  } },
      (JChange.slot {  }), [], by decide +kernel, {  }, by decide +kernel⟩,
    ⟨(bs BootPhase.released id (fun n => { n with queue := [(JChange.counters 1 2 3 4), (JChange.slot {  })] })
      VaultState.ready), (JChange.counters 1 2 3 4), [(JChange.slot {  })], by decide +kernel, 1, 2, 3, 4,
      by decide +kernel⟩,
    ⟨(bs BootPhase.released id (fun n => { n with queue := [(JChange.fault fh1), (JChange.slot {  })] })
      VaultState.ready), (JChange.fault fh1), [(JChange.slot {  })], by decide +kernel, fh1, by decide +kernel⟩,
    ⟨(bs BootPhase.released id (fun n => { n with queue := [(JChange.pairing 3 4 5), (JChange.slot {  })] })
      VaultState.ready), (JChange.pairing 3 4 5), [(JChange.slot {  })], by decide +kernel, 3, 4, 5,
      by decide +kernel⟩,
    ⟨(bs BootPhase.released id (fun n => { n with records := 196608 }) VaultState.ready), by decide +kernel⟩,
    ⟨(bs BootPhase.released id (fun n =>
      { n with half0 := hs0, catalogue := [{ ctx := 0, round := 1, partner := 2, root := 3 }, { ctx := 1, round := 1, partner := 2, root := 3 }], seq := 5, frozen := (some (2, [])) })
      VaultState.ready), 2, [], by decide +kernel⟩⟩

theorem witness_BootAndUpdate_3 :
    (∃ (s : State), s.vault.st = VaultState.ready ∧ 2 ^ 20 ≤ s.vault.generates) ∧
    (∃ (s : State) (selftest : Bool), s.vault.st ≠ VaultState.error ∧ s.boot.phase ≠ BootPhase.resetEntry) ∧
    (∃ (s : State) (r : ReqHdr), r.context = 255 ∧ ∃ (off len : ℕ) (b : Bundle), (len ≤ 9078 ∧ chunkOk s.boot.stage
      r.session off = true ∧ r.final = false ∧ s.vault.st = VaultState.ready) ∧ admitted s r 12) ∧
    (∃ (s : State) (r : ReqHdr), r.context = 255 ∧ ∃ (off len : ℕ) (b : Bundle), (len ≤ 9078 ∧ chunkOk s.boot.stage
      r.session off = true ∧ r.final = true ∧ s.vault.st = VaultState.ready ∧ b.firmware.sigOk = true ∧
      b.module.hdr.sigOk = true ∧ s.verifyErr b.firmware 1 true = none ∧ s.verifyErr b.module.hdr 2 true = none ∧
      formatErr b.firmware 1 (some (off + len)) = none ∧ formatErr b.module.hdr 2 (some (off + len - 16777216)) =
      none ∧ transferBad b.module = false ∧ s.modErr b.module false = none) ∧ admitted s r 12) ∧
    (∃ (s : State) (r : ReqHdr), (r.context = 255 ∧ (∀ (c : CtxId), (s.ctx c).st = CtxState.empty) ∧ s.vault.st =
      VaultState.ready ∧ s.nvm.slot.staging = some !s.nvm.slot.active ∧ s.nvm.slot.staged = true) ∧ admitted s r 13) ∧
    (∃ (s : State) (r : ReqHdr), (r.context = 255 ∧ (∀ (c : CtxId), (s.ctx c).st = CtxState.empty) ∧ s.vault.st =
      VaultState.ready ∧ s.nvm.slot.staged = false) ∧ admitted s r 13) :=
  ⟨⟨{ (bs BootPhase.released id id VaultState.ready) with vault := { st := VaultState.ready, generates := (2 ^ 20 + 3) } },
      by decide +kernel⟩,
    ⟨{ (bs BootPhase.fuse id id VaultState.selftest) with rst := { begun := 2 }, boot := { phase := BootPhase.fuse, ownFeed := (some 3) } },
      false, by decide +kernel⟩,
    ⟨(wgb id none CtxState.empty), (rq 255 false 12), by decide +kernel, 0, 0, bun, by decide +kernel,
      (by unfold admitted; decide +kernel)⟩,
    ⟨(wgb id (some (7, 16781312)) CtxState.empty), (rq 255 true 12), by decide +kernel, 16781312, 8192, bun,
      by decide +kernel, (by unfold admitted; decide +kernel)⟩,
    ⟨(wgb (fun s => { s with staging := (some true), staged := true }) none CtxState.empty), (rq 255 true 13),
      by decide +kernel, (by unfold admitted; decide +kernel)⟩,
    ⟨(wgb id none CtxState.empty), (rq 255 true 13), by decide +kernel, (by unfold admitted; decide +kernel)⟩⟩

end WBootAndUpdate

namespace WPowerLoopsAndClocks

def smp (p vin : Nat) (t : Int) : Sample := { rails := (p * 10, 1000) :: List.replicate 21 (0, 100) ++ [(5, vin * 10), (5, 100)], temps := (List.range 10).map fun (i : Nat) => [t, t + (i : Int)], inlet := 300, outlet := 400, badTemp := [], badRail := [] }
def pw (f : Power → Power) : State := { wg with pwr := f wg.pwr }

theorem witness_PowerLoopsAndClocks_1 :
    (∃ (s : State) (o x : Sample), s.sampling = true ∧ s.pwr.last = some o ∧ jumpedTemps o x = [] ∧ jumpedRails o x =
      [] ∧ x.badTemp = [] ∧ x.badRail = [] ∧ s.pwr.failT = [] ∧ s.pwr.failR = [] ∧ s.pwr.off = [] ∧ (x.outlet < 1100)
      ∧ (∀ l ∈ x.temps, ∀ t ∈ l, t < 1100) ∧ (∀ d < (8 : ℕ), (s.dieClk d).level = max s.pwr.lp (max (s.dieClk d).lt
      s.pwr.lf))) ∧
    (∃ (s : State) (x : Sample), s.sampling = true ∧ s.pwr.last = some x ∧ (∀ d < (8 : ℕ), (s.dieClk d).level = max
      s.pwr.lp (max (s.dieClk d).lt s.pwr.lf))) ∧
    (∃ (s : State) (d : DieId), (s.dieClk (BitVec.toNat d)).pending ≠ 0) ∧
    (∃ (s : State) (d : DieId) (cause : BitVec 2) (w : ℕ), (List.find? (fun e => e.1 == cause.toNat) (s.dieClk
      (BitVec.toNat d)).win = some (cause.toNat, w)) ∧ w < 256) ∧
    (∃ (s : State) (d : DieId) (cause : BitVec 2) (w : ℕ), (List.find? (fun e => e.1 == cause.toNat) (s.dieClk
      (BitVec.toNat d)).win = some (cause.toNat, w)) ∧ 256 ≤ w ∧ (s.dieClk (BitVec.toNat d)).level ≠ w % 256) ∧
    (∃ (s : State) (m : Margin) (i : BitVec 3) (c : ℕ), (s.sampling = true ∧ m.corrected[i.toNat]? = some c) ∧ (∀ (j
      e : ℕ), j ≠ i.toNat → m.corrected[j]? = some e → e ≤ (s.port (BitVec.toNat m.port)).margin.toNat)) ∧
    (∃ (s : State) (d : ℕ), d < 10 ∧ s.car.railsOn = true) ∧
    (∃ (s : State) (g : CoreId), (∀ i < (4 : ℕ), ((s.thr (mkTh (BitVec.toNat g) i)).st = TState.halted ∨ (s.thr (mkTh
      (BitVec.toNat g) i)).st = TState.paused) ∧ (s.thr (mkTh (BitVec.toNat g) i)).flying = false)) :=
  ⟨⟨(pw (fun p => { p with last := (some (smp 1000 4800 500)) })), (smp 1000 4800 500), (smp 1000 4800 500),
      by decide +kernel⟩,
    ⟨(pw (fun p => { p with last := (some (smp 1000 4800 500)) })), (smp 1000 4800 500), by decide +kernel⟩,
    ⟨(pw (fun p => { p with dies := [(0, { div := 6, pending := 5, level := 3, win := [(1, 300), (2, 3)] })] })), 0,
      by decide +kernel⟩,
    ⟨(pw (fun p => { p with dies := [(0, { div := 6, pending := 5, level := 3, win := [(1, 300), (2, 3)] })] })), 0,
      2, 3, by decide +kernel⟩,
    ⟨(pw (fun p => { p with dies := [(0, { div := 6, pending := 5, level := 3, win := [(1, 300), (2, 3)] })] })), 0,
      1, 300, by decide +kernel⟩,
    ⟨(pw (fun p => { p with last := (some (smp 1000 4800 500)) })), { port := 0, corrected := [5, 1048577, 3] }, 1,
      1048577, by decide +kernel,
      (fun j e hj he => match j, hj, he with | 0, _, rfl => by decide +kernel | 1, h, _ => absurd rfl h | 2, _, rfl => by decide +kernel | _ + 3, _, h => nomatch h)⟩,
    ⟨(pw (fun p => { p with last := (some (smp 1000 4800 500)) })), 0, by decide +kernel⟩,
    ⟨(pw (fun p => { p with last := (some (smp 1000 4800 500)) })), 5, by decide +kernel⟩⟩

theorem witness_PowerLoopsAndClocks_2 :
    (∃ (s : State) (q : QuadId), s.engineQuiet (BitVec.toNat q / 2 * 2) = true ∧ s.engineQuiet (BitVec.toNat q / 2 *
      2 + 1) = true) ∧
    (∃ (s : State) (h : Fin 2), s.hubQuiet ↑h = true) :=
  ⟨⟨(pw (fun p => { p with last := (some (smp 1000 4800 500)) })), 0, by decide +kernel⟩,
    ⟨(pw (fun p => { p with last := (some (smp 1000 4800 500)) })), 0, by decide +kernel⟩⟩

end WPowerLoopsAndClocks

namespace WPllLossOfLock

def smp (p vin : Nat) (t : Int) : Sample := { rails := (p * 10, 1000) :: List.replicate 21 (0, 100) ++ [(5, vin * 10), (5, 100)], temps := (List.range 10).map fun (i : Nat) => [t, t + (i : Int)], inlet := 300, outlet := 400, badTemp := [], badRail := [] }
def pw (f : Power → Power) : State := { wg with pwr := f wg.pwr }

theorem witness_PllLossOfLock :
    (∃ (s : State), s.boot.phase ≠ BootPhase.resetEntry ∧ ∃ (u : UnitId), ownPll u = true ∧ resetsAlone u = true ∧ u
      ∉ s.rst.engines) ∧
    (∃ (s : State), s.boot.phase ≠ BootPhase.resetEntry ∧ ∃ (d : ℕ), d < 8 ∧ d ∉ s.rst.dieResets) :=
  ⟨⟨(pw (fun p => { p with last := (some (smp 1000 4800 500)) })), by decide +kernel, 1796, by decide +kernel⟩,
    ⟨(pw (fun p => { p with last := (some (smp 1000 4800 500)) })), by decide +kernel, 0, by decide +kernel⟩⟩

end WPllLossOfLock

namespace WCarrierAndRegisters

theorem witness_CarrierAndRegisters_1 :
    (∃ (s : State) (mv : ℤ), -60000 ≤ mv ∧ mv ≤ 65000 ∧ (38000 ≤ mv ∧ mv ≤ 62000)) ∧
    (∃ (s : State) (mv : ℤ), -60000 ≤ mv ∧ mv ≤ 65000 ∧ (¬(38000 ≤ mv ∧ mv ≤ 62000))) ∧
    (∃ (s : State), { s.car with vin := true, latch := s.car.latch && !s.car.under, under := false }.free = false) ∧
    (∃ (s : State), { s.car with vin := true, latch := s.car.latch && !s.car.under, under := false }.free = true ∧
      s.boot.phase = BootPhase.resetEntry ∧ s.boot.stopped = false) ∧
    (∃ (s : State), { s.car with vstby := true }.free = false) ∧
    (∃ (s : State), { s.car with vstby := true }.free = true ∧ s.boot.phase = BootPhase.resetEntry ∧ s.boot.stopped =
      false) ∧
    (∃ (s : State), { s.car with refclk := true }.free = false) ∧
    (∃ (s : State), { s.car with refclk := true }.free = true ∧ s.boot.phase = BootPhase.resetEntry ∧ s.boot.stopped
      = false) :=
  ⟨⟨wg, 38000, by decide +kernel⟩,
    ⟨wg, -60000, by decide +kernel⟩,
    ⟨wg, by decide +kernel⟩,
    ⟨{ w0 with boot := {  }, car := { vin := false, resetN := true, latch := true, under := true } },
      by decide +kernel⟩,
    ⟨wg, by decide +kernel⟩,
    ⟨{ w0 with boot := {  }, car := { vstby := false, resetN := true } }, by decide +kernel⟩,
    ⟨wg, by decide +kernel⟩,
    ⟨{ w0 with boot := {  }, car := { resetN := true, refclk := false } }, by decide +kernel⟩⟩

theorem witness_CarrierAndRegisters_2 :
    (∃ (s : State), { s.car with resetN := true }.free = false) ∧
    (∃ (s : State), { s.car with resetN := true }.free = true ∧ s.boot.phase = BootPhase.resetEntry ∧ s.boot.stopped
      = false) ∧
    (∃ (s : State) (v : Word), s.boot.phase ≠ BootPhase.resetEntry ∧ ∃ (d : ℕ), d < 8) ∧
    (∃ (s : State) (v : Word), s.boot.phase ≠ BootPhase.resetEntry ∧ ∃ (g : ℕ), g < 12) ∧
    (∃ (s : State) (v : Word), s.boot.phase ≠ BootPhase.resetEntry ∧ ∃ (p : ℕ), p < 16) ∧
    (∃ (s : State) (v : Word), s.boot.phase ≠ BootPhase.resetEntry ∧ BitVec.getLsbD v 0 = false ∧ (s.port 16).st ≠
      PortState.up) ∧
    (∃ (s : State) (v : Word), s.boot.phase ≠ BootPhase.resetEntry ∧ BitVec.getLsbD v 0 = false ∧ (s.port 16).st =
      PortState.up) ∧
    (∃ (s : State) (v : Word), s.boot.phase ≠ BootPhase.resetEntry ∧ BitVec.getLsbD v 0 = false) :=
  ⟨⟨{ w0 with boot := {  }, car := { vin := false, resetN := true, latch := true, under := true } },
      by decide +kernel⟩,
    ⟨{ w0 with boot := {  }, car := {  } }, by decide +kernel⟩,
    ⟨wg, 0, by decide +kernel, 0, by decide +kernel⟩,
    ⟨wg, 0, by decide +kernel, 0, by decide +kernel⟩,
    ⟨wg, 0, by decide +kernel, 0, by decide +kernel⟩,
    ⟨{ wg with fab := { wg.fab with ports := [(16, { enable := true, st := PortState.training })] } }, 0,
      by decide +kernel⟩,
    ⟨wg, 0, by decide +kernel⟩,
    ⟨wg, 0, by decide +kernel⟩⟩

theorem witness_CarrierAndRegisters_3 :
    (∃ (s : State) (v : Word), s.boot.phase ≠ BootPhase.resetEntry ∧ ∃ (addr : Word) (bytes : ℕ), (bytes ≠ 8 ∨
      BitVec.toNat addr < 1030792151040 ∨ BitVec.toNat addr % 8 ≠ 0)) :=
  ⟨wg, 0, by decide +kernel, 0, 8, by decide +kernel⟩

end WCarrierAndRegisters

namespace WEmptyQueueCountsTime

theorem witness_EmptyQueueCountsTime :
    (∃ (s : State), s.pending = []) :=
  ⟨{ wg with clk := { wg.clk with phase := 7, corePhase := [(0, 3), (1, 2)], mesh := 3, uncore := 0 }, pwr := { wg.pwr with locked := true } },
    by decide +kernel⟩

end WEmptyQueueCountsTime

end Sys2Proof.Tests
end

section
/-!
PROOFS. The journal that is cut off, the loss and the return of what the carrier supplies, the start of a boot, and writes of registers
from outside (R11, R14, R454, R492).
-/

namespace Sys2Proof.Machine

/-! ### What is left of the journal when the module is cut off (R454, R463) -/

/-- m is n with the records rs added to the journal's active half, and the same bundles. -/
structure Nvm.Appends (n m : Nvm) (rs : List JRec) : Prop where
  bundles : m.bundles = n.bundles
  frozen : m.frozen = n.frozen
  half : m.half = n.half
  half0 : m.half0 = n.half0 ++ if n.half then [] else rs
  half1 : m.half1 = n.half1 ++ if n.half then rs else []

theorem Nvm.Appends.refl (n : Nvm) : n.Appends n [] := ⟨rfl, rfl, rfl, by simp, by simp⟩

theorem Nvm.Appends.trans {n m k : Nvm} {rs ts : List JRec} (h : n.Appends m rs) (h' : m.Appends k ts) :
    n.Appends k (rs ++ ts) where
  bundles := h'.bundles.trans h.bundles
  frozen := h'.frozen.trans h.frozen
  half := h'.half.trans h.half
  half0 := by rw [h'.half0, h.half0, h.half]; cases n.half <;> simp
  half1 := by rw [h'.half1, h.half1, h.half]; cases n.half <;> simp

theorem Nvm.write_appends (n : Nvm) (j : JChange) (good : Bool) :
    n.Appends (n.write j good) [{ seq := n.seq + 1, item := j, good := good }] where
  bundles := rfl
  frozen := rfl
  half := rfl
  half0 := by simp only [Nvm.write]; cases n.half <;> simp
  half1 := by simp only [Nvm.write]; cases n.half <;> simp

/-- Changes that are written whole are good records, one for each. -/
theorem Nvm.foldl_write_appends (js : List JChange) (n : Nvm) :
    ∃ rs, n.Appends (js.foldl (fun n j => n.write j true) n) rs ∧ rs.filter (·.good) = rs ∧ rs.map (·.item) = js := by
  induction js generalizing n with
  | nil => exact ⟨[], .refl n, rfl, rfl⟩
  | cons j js ih =>
    obtain ⟨rs, happ, hgood, hitem⟩ := ih (n.write j true)
    exact ⟨_, (n.write_appends j true).trans happ, by simp [hgood], by simp [hitem]⟩

/-- The NVM when the first k of its queued changes are written whole and the next one may be torn. -/
def Nvm.cutAt (n : Nvm) (k : Nat) (torn : Bool) : Nvm :=
  let m := (n.queue.take k).foldl (fun n j => n.write j true) n
  match n.queue[k]? with
  | some j => if torn then m.write j false else m
  | none => m

theorem Nvm.cutAt_appends (n : Nvm) (k : Nat) (torn : Bool) :
    ∃ rs, n.Appends (n.cutAt k torn) rs ∧ (rs.filter (·.good)).map (·.item) = n.queue.take k ∧ rs.length ≤ k + 1 := by
  obtain ⟨rs, happ, hgood, hitem⟩ := Nvm.foldl_write_appends (n.queue.take k) n
  have hlen : rs.length ≤ k := by
    rw [← List.length_map (f := (·.item)), hitem]; exact List.length_take_le _ _
  have whole : (rs.filter (·.good)).map (·.item) = n.queue.take k := by rw [hgood, hitem]
  unfold Nvm.cutAt
  split
  next j _ =>
    cases torn with
    | true => exact ⟨_, happ.trans (Nvm.write_appends _ j false), by simp [hgood, hitem], by simp; omega⟩
    | false => exact ⟨rs, happ, whole, by omega⟩
  next => exact ⟨rs, happ, whole, by omega⟩

/-- The part of a cut that meets the queued changes. -/
def State.cutQueue (s : State) : State :=
  if s.nvm.queue.isEmpty then s
  else
    let (k, torn, s) := s.drawCut s.nvm.queue.length
    s.modNvm fun n => n.cutAt k torn

/-- The part of a cut that meets a checkpoint. -/
def State.cutCheckpoint (s : State) : State :=
  match s.nvm.frozen with
  | none => s
  | some (at_, items) =>
    let cp := checkpointOf at_ s.nvm.seq items
    let (k, torn, s) := s.drawCut cp.length
    let part := cp.take k ++ (match cp[k]? with | some r => if torn then [{ r with good := false }] else [] | none => [])
    s.modNvm fun n => { n with half0 := if n.half then part else n.half0, half1 := if n.half then n.half1 else part }

theorem State.cutJournal_eq (s : State) :
    s.cutJournal = if s.vault.st == .selftest then s else s.cutQueue.cutCheckpoint := rfl

theorem State.cutQueue_appends (s : State) :
    ∃ n c, s.cutQueue = { s with nvm := n, freeCtr := c } ∧ ∃ k rs, s.nvm.Appends n rs ∧
      (rs.filter (·.good)).map (·.item) = s.nvm.queue.take k ∧ rs.length ≤ k + 1 := by
  unfold State.cutQueue
  split
  next => exact ⟨s.nvm, s.freeCtr, rfl, 0, [], .refl _, rfl, by simp⟩
  next => exact ⟨_, _, rfl, _, s.nvm.cutAt_appends _ _⟩

theorem State.cutCheckpoint_frame (s : State) :
    ∃ n c, s.cutCheckpoint = { s with nvm := n, freeCtr := c } ∧ n.bundles = s.nvm.bundles := by
  unfold State.cutCheckpoint
  split
  next => exact ⟨s.nvm, s.freeCtr, rfl, rfl⟩
  next => exact ⟨_, _, rfl, rfl⟩

/-- A cut changes the NVM and uses free values; it keeps the bundles, and with no compaction under way it adds to the active
half what it lets through of the queue. -/
theorem State.cutJournal_appends (s : State) :
    ∃ n c, s.cutJournal = { s with nvm := n, freeCtr := c } ∧ n.bundles = s.nvm.bundles ∧
      (s.nvm.frozen = none → ∃ k rs, s.nvm.Appends n rs ∧ (rs.filter (·.good)).map (·.item) = s.nvm.queue.take k ∧
        rs.length ≤ k + 1) := by
  rw [State.cutJournal_eq]
  split
  next => exact ⟨s.nvm, s.freeCtr, rfl, rfl, fun _ => ⟨0, [], .refl _, rfl, by simp⟩⟩
  next =>
    obtain ⟨n, c, hq, k, rs, happ, hwhole⟩ := s.cutQueue_appends
    obtain ⟨m, c', hcp, hbundles⟩ := s.cutQueue.cutCheckpoint_frame
    refine ⟨m, c', by rw [hcp, hq], by rw [hbundles, hq]; exact happ.bundles, fun hfrozen => ⟨k, rs, ?_, hwhole⟩⟩
    have hnone : s.cutQueue.nvm.frozen = none := by rw [hq]; exact happ.frozen.trans hfrozen
    have hm : s.cutQueue.cutCheckpoint = s.cutQueue := by simp only [State.cutCheckpoint, hnone]
    have : m = n := by rw [hm, hq] at hcp; exact (congrArg State.nvm hcp).symm
    exact this ▸ happ

/-! ### What a module reset and the loss of the rails leave (R414, R492) -/

@[simp] theorem State.wiped_car (s : State) : s.wiped.car = s.car := by
  obtain ⟨n, c, hcut, -⟩ := s.cutJournal_appends
  simp only [State.wiped, hcut]

@[simp] theorem State.wiped_fuses (s : State) : s.wiped.fuses = s.fuses := by
  obtain ⟨n, c, hcut, -⟩ := s.cutJournal_appends
  simp only [State.wiped, hcut]

@[simp] theorem State.wiped_pending (s : State) : s.wiped.pending = s.pending := by
  obtain ⟨n, c, hcut, -⟩ := s.cutJournal_appends
  simp only [State.wiped, hcut]

/-- The NVM keeps its bundles, and the halves of its journal with what the cut let through. -/
theorem State.wiped_nvmKept (s : State) : nvmKept s s.wiped := by
  obtain ⟨n, c, hcut, hbundles, hhalves⟩ := s.cutJournal_appends
  simp only [nvmKept, State.wiped, hcut, hbundles, true_and]
  intro hfrozen
  obtain ⟨k, rs, happ, hwhole, hlen⟩ := hhalves hfrozen
  exact ⟨k, rs, hwhole, hlen, happ.half0, happ.half1⟩

/-- The loss of the rails leaves what the NVM keeps, the fuses, the queue and the carrier, and everything else at reset. -/
theorem State.railsLost_leaves (s : State) (f : Carrier → Carrier) :
    ∃ t, (.next (s.railsLost.modCar f) : Host.Outcome State Fault Refusal) = .next t ∧ t.car = f s.car ∧ t.boot = {} ∧
      t.mem = [] ∧ t.threads = [] ∧ t.ctxs = [] ∧ t.fuses = s.fuses ∧ t.pending = s.pending ∧ nvmKept s t :=
  ⟨_, rfl, congrArg f s.wiped_car, rfl, rfl, rfl, rfl, s.wiped_fuses, s.wiped_pending, s.wiped_nvmKept⟩

theorem exec_vinLockout_within (s : State) (mv : Int) (h : 38000 ≤ mv ∧ mv ≤ 62000) : exec (.vinLockout mv) s = .next s := by
  have inLimits : ¬ (mv < -60000 ∨ 65000 < mv) := by omega
  rw [exec_vinLockout, execVinLockout, if_neg inLimits, if_pos h]

theorem exec_vinLockout_lost (s : State) (mv : Int) (hlo : -60000 ≤ mv) (hhi : mv ≤ 65000)
    (h : ¬ (38000 ≤ mv ∧ mv ≤ 62000)) :
    exec (.vinLockout mv) s = .next (s.railsLost.modCar fun c => { c with
      vin := false, under := c.under || decide (mv < 38000), third := false }) := by
  have inLimits : ¬ (mv < -60000 ∨ 65000 < mv) := by omega
  rw [exec_vinLockout, execVinLockout, if_neg inLimits, if_neg h]

/-! ### The end of RESET_ENTRY (R434, R455) -/

theorem State.bootStart_eq_self (s : State) (h : s.car.free = false) : s.bootStart = s := by
  simp [State.bootStart, h]

/-- RESET_ENTRY ends where nothing holds the module: FUSE begins at the Reeve's count, and nothing else than the boot and the
root PLL changes. -/
theorem State.bootStart_begins (s : State) (hfree : s.car.free = true) (hphase : s.boot.phase = .resetEntry)
    (hstop : s.boot.stopped = false) :
    s.bootStart.car = s.car ∧ s.bootStart.boot.phase = .fuse ∧ s.bootStart.boot.start = s.clk.reeve ∧
      s.bootStart.mem = s.mem := by
  have h : (s.boot.phase != .resetEntry || s.boot.stopped || !s.car.free) = false := by simp [hfree, hphase, hstop]
  simp only [State.bootStart, h]
  exact ⟨rfl, rfl, rfl, rfl⟩

/-- A carrier level that comes back changes the carrier, and where nothing then holds the module in RESET_ENTRY its boot begins. -/
theorem State.carrier_back (s : State) (car : Carrier) :
    (car.free = false →
      (.next { s with car := car }.bootStart : Host.Outcome State Fault Refusal) = .next { s with car := car }) ∧
    (car.free = true → s.boot.phase = .resetEntry → s.boot.stopped = false →
      ∃ t, (.next { s with car := car }.bootStart : Host.Outcome State Fault Refusal) = .next t ∧ t.car = car ∧
        t.boot.phase = .fuse ∧ t.boot.start = s.clk.reeve ∧ t.mem = s.mem) :=
  ⟨fun h => congrArg _ (State.bootStart_eq_self _ h),
    fun hfree hphase hstop => ⟨_, rfl, State.bootStart_begins { s with car := car } hfree hphase hstop⟩⟩

/-! ### Writes of registers from outside (R11, R14) -/

/-- An 8-byte write at a register of a block lands there, once the module is out of RESET_ENTRY. -/
theorem exec_registerWrite_block (s : State) (v : Word) (b off : Nat) (hb : b < 0x2000) (hoff : off < 0x10000)
    (halign : off % 8 = 0) (hphase : s.boot.phase ≠ .resetEntry) (hreg : (s.regRead b off).isSome) :
    exec (.registerWrite (BitVec.ofNat 64 (0xF000000000 + b * 0x10000 + off)) v 8) s = .next (s.regStore b off v) := by
  have haddr : (BitVec.ofNat 64 (0xF000000000 + b * 0x10000 + off)).toNat = 0xF000000000 + b * 0x10000 + off := by
    rw [BitVec.toNat_ofNat]; omega
  have hblock : (0xF000000000 + b * 0x10000 + off - 0xF000000000) / 0x10000 = b := by omega
  have hoffset : (0xF000000000 + b * 0x10000 + off - 0xF000000000) % 0x10000 = off := by omega
  have hlow : ¬ 0xF000000000 + b * 0x10000 + off < 0xF000000000 := by omega
  rw [exec_registerWrite, execRegisterWrite, haddr, hblock, hoffset]
  have hreg' : (s.regRead b off).isNone = false := by simpa using hreg
  simp [hphase, halign, hreg', hlow]

/-- A write of another width, below the control window, or of a misaligned address reaches no register. -/
theorem exec_registerWrite_nowhere (s : State) (addr v : Word) (bytes : Nat)
    (h : bytes ≠ 8 ∨ addr.toNat < 0xF000000000 ∨ addr.toNat % 8 ≠ 0) : exec (.registerWrite addr v bytes) s = .next s := by
  have halign : 0xF000000000 ≤ addr.toNat → (addr.toNat - 0xF000000000) % 0x10000 % 8 = addr.toNat % 8 := by omega
  rw [exec_registerWrite, execRegisterWrite, if_pos]
  simp only [Bool.or_eq_true, beq_iff_eq, bne_iff_ne, decide_eq_true_eq]
  omega

/-! ### The registers that outside writes set: where they are read (Tables 7.15, 7.20, 11.14, 13.15) -/

theorem State.regRead_die (s : State) (d off : Nat) (h : d < 8) : s.regRead (0x300 + d) off = s.readDieMem d off := by
  have h7 : 0x300 + d ≤ 0x307 := by omega
  have h2 : ¬ 0x300 + d ≤ 0x20F := by omega
  simp [State.regRead, h7, h2]

theorem State.regRead_gran (s : State) (g off : Nat) (h : g < 12) : s.regRead (0x310 + g) off = s.readGran g off := by
  have hhi : 0x310 + g ≤ 0x31B := by omega
  have h2 : ¬ 0x310 + g ≤ 0x20F := by omega
  have h3 : ¬ 0x310 + g ≤ 0x307 := by omega
  simp [State.regRead, hhi, h2, h3]

theorem State.regRead_port (s : State) (p off : Nat) (h : p < 16) : s.regRead (0x700 + p) off = s.readPort p off := by
  have hhi : 0x700 + p ≤ 0x70F := by omega
  have : ∀ k ≤ 0x61F, ¬ 0x700 + p ≤ k := by omega
  simp [State.regRead, hhi, this]

theorem State.regRead_snap (s : State) (c : CtxId) (off : Nat) : s.regRead (0xA10 + c.toNat) off = s.readSnap c off := by
  have hc := c.isLt
  have hhi : 0xA10 + c.toNat ≤ 0xA1F := by omega
  have low : ∀ k ≤ 0xA01, ¬ 0xA10 + c.toNat ≤ k := by omega
  have hne : ∀ k ≤ 0xA01, ¬ 0xA10 + c.toNat = k := by omega
  simp [State.regRead, hhi, low, hne, BitVec.ofNat_add]

/-! ### GATE_CTL (R330, Table 12.11): what one record and a lost port change -/

@[simp] theorem State.fhAppend_log (s : State) (idx : Nat) (e : EventRec) : (s.fhAppend idx e).log = s.log := by
  obtain ⟨_, _, h⟩ := s.fhAppend_frame idx e; rw [h]

@[simp] theorem State.fhAppend_gate (s : State) (idx : Nat) (e : EventRec) : (s.fhAppend idx e).gate = s.gate := by
  obtain ⟨_, _, h⟩ := s.fhAppend_frame idx e; rw [h]

@[simp] theorem State.record_log_next (s : State) (r : Rec) : (s.record r).log.next = s.log.next + 1 := by
  simp [State.record]

@[simp] theorem State.record_gate_enable (s : State) (r : Rec) : (s.record r).gate.enable = s.gate.enable := by
  simp [State.record]

@[simp] theorem State.modGate_gate (s : State) (f : Gate → Gate) : (s.modGate f).gate = f s.gate := rfl
@[simp] theorem State.modPort_gate (s : State) (p : Nat) (f : Port → Port) : (s.modPort p f).gate = s.gate := rfl
@[simp] theorem State.modPort_log (s : State) (p : Nat) (f : Port → Port) : (s.modPort p f).log = s.log := rfl

theorem State.portDown_of_not_up (s : State) (p cause : Nat) (h : (s.port p).st ≠ .up) : s.portDown p cause = s := by
  simp [State.portDown, h]

/-- The Gate's port leaves UP with one NOTICE and no packets to flush. -/
theorem State.portDown_gate (s : State) (cause : Nat) (h : (s.port 16).st = .up) :
    s.portDown 16 cause = (s.modPort 16 fun x => { x with
      st := .down, cause := BitVec.ofNat 4 cause, txWidth := 0, rxWidth := 0 }).record
        { unit := uGate, clk := .reeve, code := 0x0230, sev := sevNotice } := by
  simp [State.portDown, h]

/-- GATE_CTL with ENABLE clear: the port leaves UP if it is, and is DISABLED. -/
theorem State.gateStore_clear (s : State) (v : Word) (hv : v.getLsbD 0 = false) :
    s.gateStore 0x00 v = ((s.modGate fun g => { g with enable := false }).portDown 16 0).modPort 16 fun x =>
      { x with st := .disabled, txWidth := 0, rxWidth := 0 } := by
  simp only [State.gateStore, hv, bne_self_eq_false, Bool.false_eq_true, if_false]

theorem State.gateStore_clear_of_not_up (s : State) (v : Word) (hv : v.getLsbD 0 = false) (h : (s.port 16).st ≠ .up) :
    s.gateStore 0x00 v = (s.modGate fun g => { g with enable := false }).modPort 16 fun x =>
      { x with st := .disabled, txWidth := 0, rxWidth := 0 } := by
  rw [State.gateStore_clear s v hv, State.portDown_of_not_up (s.modGate _) _ _ h]

theorem State.gateStore_clear_of_up (s : State) (v : Word) (hv : v.getLsbD 0 = false) (h : (s.port 16).st = .up) :
    (s.gateStore 0x00 v).gate.enable = false ∧ ((s.gateStore 0x00 v).port 16).st = .disabled ∧
      (s.gateStore 0x00 v).log.next = s.log.next + 1 := by
  rw [State.gateStore_clear s v hv, State.portDown_gate (s.modGate _) _ h]
  simp

/-! ### What a write of a register does -/

/-- Registers of the memory dies and controllers are at blocks 0x300 to 0x31B. -/
theorem State.regStore_mem (s : State) (b off : Nat) (v : Word) (h : 0x300 ≤ b) (h' : b ≤ 0x31B) :
    s.regStore b off v = s.memStore b off v := by
  simp [State.regStore, h, h']

theorem State.regStore_boot_clear (s : State) (v : Word) (hv : v.getLsbD 0 = false) :
    s.regStore 0xD00 0x00 v = s.modBoot fun b => { b with enable := false } := by
  simp only [State.regStore, hv]
  rfl

theorem State.regStore_port_margin (s : State) (p : Nat) (v : Word) (h : p < 16) :
    s.regStore (0x700 + p) 0x28 v = s.modPort p fun x => { x with margin := v.setWidth 32 } := by
  have hhi : 0x700 + p ≤ 0x70F := by omega
  have low : ¬ 0x700 + p ≤ 0x31B := by omega
  simp [State.regStore, State.portStore, hhi, low]

theorem State.regStore_die_scrub (s : State) (d : Nat) (v : Word) (h : d < 8) :
    s.regStore (0x300 + d) 0x38 v = s.modDie d fun x => { x with scrub := v.setWidth 48 } := by
  have hhi : 0x300 + d ≤ 0x31B := by omega
  have hlo : 0x300 ≤ 0x300 + d := by omega
  have die : 0x300 + d < 0x310 := by omega
  rw [State.regStore_mem s _ _ v hlo hhi]
  simp [State.memStore, die]

theorem State.regStore_gran (s : State) (g : Nat) (v : Word) (h : g < 12) :
    s.regStore (0x310 + g) 0x20 v = (s.modGran g fun x => { x with hotth := v.setWidth 32 }) ∧
    s.regStore (0x310 + g) 0x28 v = s.modGran g fun x => { x with scrub := v.setWidth 48 } := by
  have hhi : 0x310 + g ≤ 0x31B := by omega
  have hlo : 0x300 ≤ 0x310 + g := by omega
  simp [State.regStore_mem s _ _ v hlo hhi, State.memStore]

theorem State.regStore_snap_clear (s : State) (c : CtxId) (v : Word) (hv : v.getLsbD 0 = false) :
    s.regStore (0xA10 + c.toNat) 0x00 v = s.modSnap c fun x => { x with sched := false } := by
  have hc := c.isLt
  have hhi : 0xA10 + c.toNat ≤ 0xA1F := by omega
  have low : ∀ k ≤ 0x910, ¬ 0xA10 + c.toNat ≤ k ∧ ¬ 0xA10 + c.toNat = k := by omega
  simp only [State.regStore, hv]
  simp [hhi, low, BitVec.ofNat_add]

/-- Settles O55: a loss is `railsLost`, a return is `carrier_back`, and each outside write lands at its register. -/
theorem carrierAndRegisters : Obligations.CarrierAndRegisters := by
  unfold Obligations.CarrierAndRegisters
  refine ⟨fun s => ?_, fun s v => ?_⟩
  · refine ⟨fun mv hlo hhi => ⟨exec_vinLockout_within s mv, fun h => ?_⟩, s.railsLost_leaves _, s.railsLost_leaves _,
      s.carrier_back _, s.carrier_back _, s.carrier_back _, s.carrier_back _⟩
    simpa only [exec_vinLockout_lost s mv hlo hhi h] using s.railsLost_leaves _
  · intro w hphase
    have lands (b off : Nat) (hb : b < 0x2000) (hoff : off < 0x10000 ∧ off % 8 = 0) (hreg : (s.regRead b off).isSome) :
        w b off (s.regStore b off v) := exec_registerWrite_block s v b off hb hoff.1 hoff.2 hphase hreg
    refine ⟨fun d hd => ?_, fun g hg => ⟨?_, ?_⟩, fun p hp => ?_, lands 0x710 0x18 (by decide) (by decide) rfl,
      lands 0x710 0x20 (by decide) (by decide) rfl, lands 0xB00 0x10 (by decide) (by decide) rfl,
      lands 0xB00 0x18 (by decide) (by decide) rfl, lands 0xB00 0x28 (by decide) (by decide) rfl,
      lands 0xB00 0x40 (by decide) (by decide) rfl,
      fun hv => ⟨fun hst => ?_, fun hst => ?_, ?_, fun c => ?_⟩, fun addr bytes h => exec_registerWrite_nowhere s addr v bytes h⟩
    · rw [← s.regStore_die_scrub d v hd]
      exact lands _ _ (by omega) (by decide) (by rw [s.regRead_die d _ hd]; rfl)
    · rw [← (s.regStore_gran g v hg).1]
      exact lands _ _ (by omega) (by decide) (by rw [s.regRead_gran g _ hg]; rfl)
    · rw [← (s.regStore_gran g v hg).2]
      exact lands _ _ (by omega) (by decide) (by rw [s.regRead_gran g _ hg]; rfl)
    · rw [← s.regStore_port_margin p v hp]
      exact lands _ _ (by omega) (by decide) (by rw [s.regRead_port p _ hp]; rfl)
    · rw [← s.gateStore_clear_of_not_up v hv hst]
      exact lands 0x900 0x00 (by decide) (by decide) rfl
    · exact ⟨_, lands 0x900 0x00 (by decide) (by decide) rfl, s.gateStore_clear_of_up v hv hst⟩
    · rw [← s.regStore_boot_clear v hv]
      exact lands 0xD00 0x00 (by decide) (by decide) rfl
    · rw [← s.regStore_snap_clear c v hv]
      exact lands _ _ (by omega) (by decide) (by rw [s.regRead_snap c]; rfl)

end Sys2Proof.Machine
end

section
/-!
PROOFS. A step of an empty queue (R8, R59, R469, R471; log 11): what a core cycle, a divider's edge and a root cycle change.
-/

namespace Sys2Proof.Machine

/-! ### Entries of a table -/

theorem mem_of_mem_sset {α : Type} {k : Nat} {v : α} {m : SMap α} {e : Nat × α} (h : e ∈ sset k v m) :
    e = (k, v) ∨ e ∈ m := by
  induction m with
  | nil => simpa [sset] using h
  | cons x m ih =>
    simp only [sset] at h
    split_ifs at h
    · simpa using h
    · rcases List.mem_cons.1 h with h | h
      · exact .inl h
      · exact .inr (List.mem_cons_of_mem _ h)
    · rcases List.mem_cons.1 h with h | h
      · exact .inr (h ▸ List.mem_cons_self)
      · exact (ih h).imp_right (List.mem_cons_of_mem _)

theorem sget_eq_default_or_mem {α : Type} (d : α) (m : SMap α) (k : Nat) : sget d m k = d ∨ (k, sget d m k) ∈ m := by
  induction m with
  | nil => exact .inl rfl
  | cons e m ih =>
    obtain ⟨k', v⟩ := e
    rw [sget_cons]
    split_ifs with h
    · exact .inr (h ▸ List.mem_cons_self)
    · exact ih.imp_right (List.mem_cons_of_mem _)

/-- In a table that lists each key once, an entry is what a read at its key returns. -/
theorem sget_of_mem {α : Type} (d : α) {m : SMap α} (hm : (m.map (·.1)).Nodup) {e : Nat × α} (h : e ∈ m) :
    sget d m e.1 = e.2 := by
  induction m with
  | nil => cases h
  | cons x m ih =>
    obtain ⟨hx, hm⟩ := List.nodup_cons.1 hm
    rcases List.mem_cons.1 h with rfl | h
    · exact if_pos rfl
    · have hne : e.1 ≠ x.1 := fun heq => hx (List.mem_map.2 ⟨e, h, heq⟩)
      rw [← ih hm h]
      exact if_neg hne

/-! ### What a root cycle leaves alone -/

/-- No entry of the cores of die d has its arrays active. -/
def State.quietDie (s : State) (d : Nat) : Prop := ∀ e ∈ s.cores, e.1 / 256 = d → e.2.arr ≠ .active

/-- From s to t the clocks of the dies may have run: memory, contexts, records, what is sent, the queue, the root clock and its
other dividers stand, and of a thread its registers, PC and state; no array has become active. -/
structure State.Ticked (s t : State) : Prop where
  pending : t.pending = s.pending
  mem : t.mem = s.mem
  ctxs : t.ctxs = s.ctxs
  log : t.log = s.log
  out : t.out = s.out
  phase : t.clk.phase = s.clk.phase
  mesh : t.clk.mesh = s.clk.mesh
  uncore : t.clk.uncore = s.clk.uncore
  reeve : t.clk.reeve = s.clk.reeve
  quiet : ∀ d, s.quietDie d → t.quietDie d
  xr : ∀ th, (t.thr th).xr = (s.thr th).xr
  pc : ∀ th, (t.thr th).pc = (s.thr th).pc
  st : ∀ th, (t.thr th).st = (s.thr th).st

theorem State.Ticked.refl (s : State) : s.Ticked s where
  pending := rfl
  mem := rfl
  ctxs := rfl
  log := rfl
  out := rfl
  phase := rfl
  mesh := rfl
  uncore := rfl
  reeve := rfl
  quiet _ h := h
  xr _ := rfl
  pc _ := rfl
  st _ := rfl

theorem State.Ticked.trans {s t u : State} (h : s.Ticked t) (h' : t.Ticked u) : s.Ticked u where
  pending := h'.pending.trans h.pending
  mem := h'.mem.trans h.mem
  ctxs := h'.ctxs.trans h.ctxs
  log := h'.log.trans h.log
  out := h'.out.trans h.out
  phase := h'.phase.trans h.phase
  mesh := h'.mesh.trans h.mesh
  uncore := h'.uncore.trans h.uncore
  reeve := h'.reeve.trans h.reeve
  quiet d hd := h'.quiet d (h.quiet d hd)
  xr th := (h'.xr th).trans (h.xr th)
  pc th := (h'.pc th).trans (h.pc th)
  st th := (h'.st th).trans (h.st th)

/-- The clock of die d stands the same in s and t: its divider, its count, and how far its divider has counted. -/
structure State.SameDieClk (d : Nat) (s t : State) : Prop where
  clk : t.dieClk d = s.dieClk d
  core : sget 0 t.clk.core d = sget 0 s.clk.core d
  corePhase : sget 0 t.clk.corePhase d = sget 0 s.clk.corePhase d

theorem State.SameDieClk.refl (d : Nat) (s : State) : State.SameDieClk d s s := ⟨rfl, rfl, rfl⟩

theorem State.SameDieClk.trans {d : Nat} {s t u : State} (h : State.SameDieClk d s t) (h' : State.SameDieClk d t u) :
    State.SameDieClk d s u :=
  ⟨h'.clk.trans h.clk, h'.core.trans h.core, h'.corePhase.trans h.corePhase⟩

/-! ### Cores -/

/-- A core that changes but for the activity of its arrays makes no die busy. -/
theorem State.setCore_quiet (s : State) (g : Nat) (c : Core) (h : c.arr = (s.core g).arr) (d : Nat) (hd : s.quietDie d) :
    (s.setCore g c).quietDie d := by
  intro e he hed
  rcases mem_of_mem_sset he with rfl | he
  · rcases sget_eq_default_or_mem {} s.cores g with hdef | hmem
    · have : c.arr = .off := h.trans (congrArg Core.arr hdef)
      simp [this]
    · rw [h]; exact hd _ hmem hed
  · exact hd e he hed

theorem State.throttle_quiet (s : State) (g v d : Nat) (hd : s.quietDie d) : (s.throttle g v).quietDie d := by
  rw [State.throttle, State.modCore]
  refine s.setCore_quiet g _ ?_ d hd
  rfl

/-- Where no array of a die is active, no beat is under way there. -/
theorem State.midBeat_of_quiet (s : State) (d : Nat) (h : s.quietDie d) : s.midBeat d = false := by
  simp only [State.midBeat, List.any_eq_false, Bool.and_eq_true, beq_iff_eq, not_and]
  rintro e he ⟨hdie, harr⟩
  exact absurd harr (h e he hdie)

/-- The throttle of a die changes its cores alone, and the activity of no array. -/
theorem State.idleStep_cores (s : State) (d : Nat) :
    ∃ cs, s.idleStep d = { s with cores := cs } ∧ ∀ d', s.quietDie d' → { s with cores := cs }.quietDie d' := by
  unfold State.idleStep
  generalize (s.dieClk d).idle = v
  generalize List.range 256 = l
  induction l generalizing s with
  | nil => exact ⟨s.cores, rfl, fun _ h => h⟩
  | cons i l ih =>
    rw [List.foldl_cons]
    split
    · exact ih s
    · obtain ⟨cs, heq, hquiet⟩ := ih (s.throttle (256 * d + i) v)
      exact ⟨cs, heq, fun d' hd => hquiet d' (s.throttle_quiet _ v d' hd)⟩

/-! ### Threads -/

@[simp] theorem Thread.timerTick_xr (t : Thread) : t.timerTick.xr = t.xr := by unfold Thread.timerTick; split <;> rfl
@[simp] theorem Thread.timerTick_pc (t : Thread) : t.timerTick.pc = t.pc := by unfold Thread.timerTick; split <;> rfl
@[simp] theorem Thread.timerTick_st (t : Thread) : t.timerTick.st = t.st := by unfold Thread.timerTick; split <;> rfl

/-- The threads of die d each after one count of their timer. -/
def tickThreads (d : Nat) (m : SMap Thread) : SMap Thread :=
  m.map fun e => if e.1 / 1024 == d then (e.1, e.2.timerTick) else e

theorem sget_tickThreads (d : Nat) (m : SMap Thread) (k : Nat) :
    sget {} (tickThreads d m) k = sget {} m k ∨ sget {} (tickThreads d m) k = (sget {} m k).timerTick := by
  induction m with
  | nil => exact .inl rfl
  | cons e m ih =>
    have hkey : tickThreads d (e :: m) =
        (e.1, if e.1 / 1024 == d then e.2.timerTick else e.2) :: tickThreads d m := by
      simp only [tickThreads, List.map_cons]; split <;> rfl
    obtain ⟨k', t⟩ := e
    rw [hkey, sget_cons, sget_cons]
    split_ifs
    · exact .inr rfl
    · exact .inl rfl
    · exact ih

/-! ### The clock of a die -/

theorem State.modDieClk_dieClk_ne (s : State) {d d' : Nat} (f : DieClk → DieClk) (hne : d' ≠ d) :
    (s.modDieClk d f).dieClk d' = s.dieClk d' := by
  simp [State.modDieClk, State.modPwr, State.dieClk, sget_smod, hne]

/-! ### A core cycle, a divider's edge, a die's part of a root cycle -/

/-- A core cycle counts at its die, starts its divider again, and ticks its threads' timers; its cores may move a step of IDLE. -/
theorem State.dieCoreCycle_eq (s : State) (d : Nat) :
    ∃ cs, s.dieCoreCycle d = { s with
        clk := { s.clk with core := smod 0 d (· + 1) s.clk.core, corePhase := sset d 0 s.clk.corePhase }
        threads := tickThreads d s.threads
        cores := cs } ∧ ∀ d', s.quietDie d' → { s with cores := cs }.quietDie d' := by
  unfold State.dieCoreCycle
  dsimp only
  split
  · exact State.idleStep_cores _ d
  · exact ⟨s.cores, rfl, fun _ h => h⟩

theorem State.dieCoreCycle_ticked (s : State) (d : Nat) : s.Ticked (s.dieCoreCycle d) := by
  obtain ⟨cs, heq, hquiet⟩ := s.dieCoreCycle_eq d
  have hthr (th : ThreadId) : (s.dieCoreCycle d).thr th = s.thr th ∨ (s.dieCoreCycle d).thr th = (s.thr th).timerTick := by
    rw [heq]; exact sget_tickThreads d s.threads th.toNat
  rw [heq] at hthr ⊢
  refine { State.Ticked.refl s with quiet := hquiet, xr := fun th => ?_, pc := fun th => ?_, st := fun th => ?_ }
  all_goals rcases hthr th with h | h <;> simp [h]

/-- The clock of a die after an edge with an ordered divider: it switches at a beat boundary of every array, and waits else. -/
def DieClk.atEdge (x : DieClk) (boundary : Bool) : DieClk :=
  if boundary then
    { x with div := x.next, setDiv := if x.pending == 0 then x.next else x.setDiv, next := 0, edges := 0
             switches := satAdd 16 x.switches 1 }
  else { x with edges := x.edges + 1 }

theorem State.divEdge_of_none (s : State) (d : Nat) (h : (s.dieClk d).next = 0) : s.divEdge d = s := by
  simp [State.divEdge, h]

/-- An ordered divider meets a boundary where no beat is under way, and where the free value says so. -/
theorem State.divEdge_of_ordered (s : State) (d : Nat) (h : (s.dieClk d).next ≠ 0) :
    ∃ c b, s.divEdge d = { s with freeCtr := c }.modDieClk d (·.atEdge b) ∧
      (s.midBeat d = false ∨ Config.free 1 s.freeCtr = 1 → b = true) := by
  by_cases hbeat : (s.midBeat d && decide ((s.dieClk d).edges < 3)) = true
  · refine ⟨s.freeCtr + 1, Config.free 1 s.freeCtr == 1, ?_, ?_⟩
    · simp only [State.divEdge, beq_eq_false_iff_ne.2 h, hbeat]
      rfl
    · rintro (hquiet | hfree)
      · simp [hquiet] at hbeat
      · simp [hfree]
  · refine ⟨s.freeCtr, true, ?_, fun _ => rfl⟩
    simp only [State.divEdge, beq_eq_false_iff_ne.2 h, hbeat]
    rfl

theorem State.divEdge_ticked (s : State) (d : Nat) : s.Ticked (s.divEdge d) := by
  by_cases h : (s.dieClk d).next = 0
  · rw [s.divEdge_of_none d h]; exact .refl s
  · obtain ⟨c, b, heq, -⟩ := s.divEdge_of_ordered d h
    rw [heq]
    exact { State.Ticked.refl s with }

theorem State.divEdge_clk (s : State) (d : Nat) : (s.divEdge d).clk = s.clk := by
  by_cases h : (s.dieClk d).next = 0
  · rw [s.divEdge_of_none d h]
  · obtain ⟨c, b, heq, -⟩ := s.divEdge_of_ordered d h
    rw [heq]; rfl

theorem State.divEdge_dieClk_ne (s : State) {d d' : Nat} (hne : d' ≠ d) : (s.divEdge d).dieClk d' = s.dieClk d' := by
  by_cases h : (s.dieClk d).next = 0
  · rw [s.divEdge_of_none d h]
  · obtain ⟨c, b, heq, -⟩ := s.divEdge_of_ordered d h
    rw [heq, State.modDieClk_dieClk_ne _ _ hne]; rfl

/-- At an edge of its die at which no beat is under way an ordered divider switches (R471). -/
theorem State.divEdge_switches (s : State) (d : Nat) (hnext : (s.dieClk d).next ≠ 0)
    (h : s.midBeat d = false ∨ Config.free 1 s.freeCtr = 1) :
    ((s.divEdge d).dieClk d).div = (s.dieClk d).next ∧ ((s.divEdge d).dieClk d).next = 0 := by
  obtain ⟨c, b, heq, hb⟩ := s.divEdge_of_ordered d hnext
  rw [heq, State.modDieClk_dieClk, hb h]
  exact ⟨rfl, rfl⟩

/-- At an edge within a beat, whose free value says that it is no boundary, it waits. -/
theorem State.divEdge_waits (s : State) (d : Nat) (hnext : (s.dieClk d).next ≠ 0) (hbeat : s.midBeat d = true)
    (hedges : (s.dieClk d).edges < 3) (hfree : Config.free 1 s.freeCtr ≠ 1) :
    ((s.divEdge d).dieClk d).next = (s.dieClk d).next := by
  simp only [State.divEdge, beq_eq_false_iff_ne.2 hnext, hbeat, hedges, decide_true, Bool.and_true, if_true,
    Bool.false_eq_true, if_false, State.draw_fst, beq_eq_false_iff_ne.2 hfree]
  simp [State.draw_snd, State.dieClk, State.modDieClk, State.modPwr]

theorem State.dieCycle_of_edge (s : State) (d : Nat) (h : (s.dieClk d).div ≤ sget 0 s.clk.corePhase d + 1) :
    s.dieCycle d = (s.dieCoreCycle d).divEdge d := by simp [State.dieCycle, h]

theorem State.dieCycle_of_no_edge (s : State) (d : Nat) (h : ¬ (s.dieClk d).div ≤ sget 0 s.clk.corePhase d + 1) :
    s.dieCycle d = { s with clk := { s.clk with corePhase := sset d (sget 0 s.clk.corePhase d + 1) s.clk.corePhase } } := by
  simp [State.dieCycle, h]

theorem State.dieCycle_ticked (s : State) (d : Nat) : s.Ticked (s.dieCycle d) := by
  by_cases h : (s.dieClk d).div ≤ sget 0 s.clk.corePhase d + 1
  · rw [s.dieCycle_of_edge d h]
    exact (s.dieCoreCycle_ticked d).trans (State.divEdge_ticked _ d)
  · rw [s.dieCycle_of_no_edge d h]
    exact { State.Ticked.refl s with }

theorem State.dieCycle_other (s : State) {d d' : Nat} (hne : d' ≠ d) : State.SameDieClk d' s (s.dieCycle d) := by
  by_cases h : (s.dieClk d).div ≤ sget 0 s.clk.corePhase d + 1
  · obtain ⟨cs, heq, -⟩ := s.dieCoreCycle_eq d
    rw [s.dieCycle_of_edge d h]
    refine ⟨?_, ?_, ?_⟩
    · rw [State.divEdge_dieClk_ne _ hne, heq]; rfl
    · rw [State.divEdge_clk, heq]; exact (sget_smod _ _ _ _ _).trans (if_neg hne)
    · rw [State.divEdge_clk, heq]; exact sget_sset_ne _ _ _ hne
  · rw [s.dieCycle_of_no_edge d h]
    exact ⟨rfl, rfl, sget_sset_ne _ _ _ hne⟩

/-- At an edge of its clock a die counts a core cycle, its divider starts again, and an ordered divider may switch. -/
theorem State.dieCycle_own (s : State) (d : Nat) (h : (s.dieClk d).div ≤ sget 0 s.clk.corePhase d + 1) :
    sget 0 (s.dieCycle d).clk.core d = sget 0 s.clk.core d + 1 ∧ sget 0 (s.dieCycle d).clk.corePhase d = 0 ∧
      ((s.dieClk d).next ≠ 0 → s.quietDie d ∨ (∀ n, Config.free 1 n = 1) →
        ((s.dieCycle d).dieClk d).div = (s.dieClk d).next ∧ ((s.dieCycle d).dieClk d).next = 0) := by
  obtain ⟨cs, heq, hquiet⟩ := s.dieCoreCycle_eq d
  have hclk : (s.dieCoreCycle d).dieClk d = s.dieClk d := by rw [heq]; rfl
  rw [s.dieCycle_of_edge d h]
  refine ⟨?_, ?_, fun hnext hsw => ?_⟩
  · rw [State.divEdge_clk, heq]; exact sget_smod_self _ _ _ _
  · rw [State.divEdge_clk, heq]; exact sget_sset_self _ _ _ _
  · rw [← hclk]
    refine State.divEdge_switches _ d (hclk ▸ hnext) (hsw.imp (fun hq => ?_) fun hfree => hfree _)
    exact State.midBeat_of_quiet _ d ((s.dieCoreCycle_ticked d).quiet d hq)

/-- The dies take their parts of a root cycle one by one, and each die's clock is its own part's affair. -/
theorem State.foldl_dieCycle (l : List Nat) (hl : l.Nodup) (s : State) :
    s.Ticked (l.foldl State.dieCycle s) ∧
      (∀ d ∉ l, State.SameDieClk d s (l.foldl State.dieCycle s)) ∧
      ∀ d ∈ l, ∃ u, s.Ticked u ∧ State.SameDieClk d s u ∧ State.SameDieClk d (u.dieCycle d) (l.foldl State.dieCycle s) := by
  induction l generalizing s with
  | nil => exact ⟨.refl s, fun _ _ => .refl _ s, fun _ h => absurd h List.not_mem_nil⟩
  | cons i l ih =>
    obtain ⟨hi, hl⟩ := List.nodup_cons.1 hl
    obtain ⟨hticked, hother, hown⟩ := ih hl (s.dieCycle i)
    refine ⟨(s.dieCycle_ticked i).trans hticked, fun d hd => ?_, fun d hd => ?_⟩
    · obtain ⟨hdi, hdl⟩ := not_or.1 (List.mem_cons.not.1 hd)
      exact (s.dieCycle_other hdi).trans (hother d hdl)
    · by_cases hdi : d = i
      · subst hdi
        exact ⟨s, .refl s, .refl d s, hother d hi⟩
      · obtain ⟨u, hu, hsame, hafter⟩ := hown d ((List.mem_cons.1 hd).resolve_left hdi)
        exact ⟨u, (s.dieCycle_ticked i).trans hu, (s.dieCycle_other hdi).trans hsame, hafter⟩

/-! ### Errors that arise in storage -/

@[simp] theorem Thread.tileUpset_xr (t : Thread) (n : Nat) : (t.tileUpset n).xr = t.xr := by
  unfold Thread.tileUpset; split <;> rfl
@[simp] theorem Thread.tileUpset_pc (t : Thread) (n : Nat) : (t.tileUpset n).pc = t.pc := by
  unfold Thread.tileUpset; split <;> rfl
@[simp] theorem Thread.tileUpset_st (t : Thread) (n : Nat) : (t.tileUpset n).st = t.st := by
  unfold Thread.tileUpset; split <;> rfl

/-- A thread whose registers, PC and state stand may change else. -/
theorem State.setThr_ticked (s : State) (th : ThreadId) (t : Thread) (hxr : t.xr = (s.thr th).xr)
    (hpc : t.pc = (s.thr th).pc) (hst : t.st = (s.thr th).st) : s.Ticked (s.setThr th t) := by
  refine { State.Ticked.refl s with xr := fun th' => ?_, pc := fun th' => ?_, st := fun th' => ?_ }
  all_goals
    by_cases h : th' = th
    · subst h; simp [hxr, hpc, hst]
    · rw [State.setThr_thr_ne _ _ _ _ h]

/-- A core but for the activity of its arrays may change. -/
theorem State.setCore_ticked (s : State) (g : Nat) (c : Core) (h : c.arr = (s.core g).arr) : s.Ticked (s.setCore g c) :=
  { State.Ticked.refl s with quiet := s.setCore_quiet g c h }

theorem State.unitUpset_ticked (s : State) (u : Nat) : s.Ticked (s.unitUpset u) := by
  unfold State.unitUpset
  split
  · exact { State.Ticked.refl s with }
  · exact .refl s

theorem State.draw_ticked (s : State) (w : Nat) : s.Ticked (s.draw w).2 :=
  { State.Ticked.refl s with }

theorem State.upset_ticked (s : State) : s.Ticked s.upset := by
  have hdraws := ((s.draw_ticked 2).trans (State.draw_ticked _ 64)).trans (State.draw_ticked _ 4)
  refine hdraws.trans ?_
  unfold State.upset
  dsimp only
  generalize (((s.draw 2).2.draw 64).2.draw 4).2 = u
  split
  · exact u.setThr_ticked _ _ (Thread.tileUpset_xr _ _) (Thread.tileUpset_pc _ _) (Thread.tileUpset_st _ _)
  · exact u.setCore_ticked _ _ rfl
  · exact u.unitUpset_ticked _
  · exact .refl u

theorem State.upset_clocks (s : State) : s.upset.clk = s.clk ∧ s.upset.pwr = s.pwr := by
  unfold State.upset State.unitUpset
  dsimp only
  split
  case h_3 => split <;> exact ⟨rfl, rfl⟩
  all_goals exact ⟨rfl, rfl⟩

theorem State.upset_dieClk (s : State) (d : Nat) : s.upset.dieClk d = s.dieClk d := by
  rw [State.dieClk, s.upset_clocks.2]; rfl

/-! ### The step of an empty queue -/

/-- The root clock of s one cycle on, before the dies have counted it. -/
def State.rootTick (s : State) : State :=
  { s with clk := { s.clk with
    phase := s.clk.phase + 1, mesh := (s.clk.phase + 1) / 2, uncore := (s.clk.phase + 1) / 8
    reeve := (s.clk.phase + 1) / 16 } }

theorem State.idle_of_locked (s : State) (h : s.pwr.locked = true) :
    s.idle = ((List.range 8).foldl State.dieCycle s.rootTick).upset := by
  simp only [State.idle, h, Bool.not_true, Bool.false_eq_true, if_false]
  rfl

theorem State.idle_ticked (s : State) (h : s.pwr.locked = true) : s.rootTick.Ticked s.idle := by
  rw [s.idle_of_locked h]
  exact (s.rootTick.foldl_dieCycle _ List.nodup_range).1.trans (State.upset_ticked _)

/-- Die d takes its part of a root cycle in a state u that agrees with s on its clock, and its clock then stands. -/
theorem State.idle_dieCycle (s : State) (h : s.pwr.locked = true) (d : Nat) (hd : d < 8) :
    ∃ u, s.rootTick.Ticked u ∧ State.SameDieClk d s u ∧ State.SameDieClk d (u.dieCycle d) s.idle := by
  obtain ⟨u, hu, hsame, hafter⟩ := (s.rootTick.foldl_dieCycle _ List.nodup_range).2.2 d (List.mem_range.2 hd)
  have hclk := (State.upset_clocks ((List.range 8).foldl State.dieCycle s.rootTick)).1
  rw [s.idle_of_locked h]
  exact ⟨u, hu, ⟨hsame.clk, hsame.core, hsame.corePhase⟩,
    hafter.trans ⟨State.upset_dieClk _ d, by rw [hclk], by rw [hclk]⟩⟩

/-- What O57 says of s. -/
def State.CountsTime (s : State) : Prop :=
  ∃ t, step s = .next t ∧ t.mem = s.mem ∧ t.ctxs = s.ctxs ∧ t.log = s.log ∧ t.out = s.out ∧
  t.pending = [] ∧
  (s.pwr.locked = false → t = s) ∧
  (s.pwr.locked = true → (∀ d < 8, (s.dieClk d).next ≠ 0 → (s.dieClk d).div ≤ sget 0 s.clk.corePhase d + 1 →
      (∀ g, g / 256 = d → (s.core g).arr ≠ .active) →
      (t.dieClk d).div = (s.dieClk d).next ∧ (t.dieClk d).next = 0) ∧
    t.clk.phase = s.clk.phase + 1 ∧ t.clk.mesh = t.clk.phase / 2 ∧
    t.clk.uncore = t.clk.phase / 8 ∧ t.clk.reeve = t.clk.phase / 16 ∧
    (∀ d < 8, (s.dieClk d).div ≤ sget 0 s.clk.corePhase d + 1 →
      sget 0 t.clk.core d = sget 0 s.clk.core d + 1 ∧ sget 0 t.clk.corePhase d = 0) ∧
    ∀ th, (t.thr th).xr = (s.thr th).xr ∧ (t.thr th).pc = (s.thr th).pc ∧ (t.thr th).st = (s.thr th).st)

/-- A step of an empty queue counts time where each die on which no read shows an active array is quiet, or where the free values
call every edge a boundary. -/
theorem State.countsTime (s : State) (hpending : s.pending = [])
    (hquiet : ∀ d < 8, (∀ g, g / 256 = d → (s.core g).arr ≠ .active) → s.quietDie d ∨ ∀ n, Config.free 1 n = 1) :
    s.CountsTime := by
  have hstep : step s = .next s.idle := by simp only [step, hpending]
  cases hlocked : s.pwr.locked with
  | false =>
    have hidle : s.idle = s := by simp [State.idle, hlocked]
    exact ⟨s, by rw [hstep, hidle], rfl, rfl, rfl, rfl, hpending, fun _ => rfl,
      fun h => Bool.noConfusion (hlocked.symm.trans h)⟩
  | true =>
    have ht := s.idle_ticked hlocked
    refine ⟨s.idle, hstep, ht.mem, ht.ctxs, ht.log, ht.out, ht.pending.trans hpending,
      fun h => Bool.noConfusion (hlocked.symm.trans h), fun _ => ⟨fun d hd hnext hedge harr => ?_, ht.phase, ?_, ?_, ?_, fun d hd hedge => ?_,
        fun th => ⟨ht.xr th, ht.pc th, ht.st th⟩⟩⟩
    · obtain ⟨u, hu, hsame, hafter⟩ := s.idle_dieCycle hlocked d hd
      obtain ⟨-, -, hswitch⟩ := u.dieCycle_own d (by rw [hsame.clk, hsame.corePhase]; exact hedge)
      rw [hafter.clk, ← hsame.clk]
      exact hswitch (hsame.clk ▸ hnext) ((hquiet d hd harr).imp_left (hu.quiet d))
    · rw [ht.mesh, ht.phase]; rfl
    · rw [ht.uncore, ht.phase]; rfl
    · rw [ht.reeve, ht.phase]; rfl
    · obtain ⟨u, hu, hsame, hafter⟩ := s.idle_dieCycle hlocked d hd
      obtain ⟨hcore, hphase, -⟩ := u.dieCycle_own d (by rw [hsame.clk, hsame.corePhase]; exact hedge)
      exact ⟨by rw [hafter.core, hcore, hsame.core], hafter.corePhase.trans hphase⟩

/-- A table that lists each core once hides no active array. -/
theorem State.quietDie_of_distinct (s : State) (hcores : (s.cores.map (·.1)).Nodup) (d : Nat)
    (h : ∀ g, g / 256 = d → (s.core g).arr ≠ .active) : s.quietDie d := by
  intro e he hed
  have hread : s.core e.1 = e.2 := sget_of_mem ({} : Core) hcores he
  exact hread ▸ h e.1 hed

/-- What O57 says holds of every state whose table lists each core once. -/
theorem State.countsTime_of_distinct_cores (s : State) (hpending : s.pending = []) (hcores : (s.cores.map (·.1)).Nodup) :
    s.CountsTime :=
  s.countsTime hpending fun d _ h => .inl (s.quietDie_of_distinct hcores d h)

/-! ### What keeps O57 open

Its premise reads each core by `State.core`, which sees the first entry of the table; `State.midBeat` asks every entry. In a
state that lists a core twice they may differ, and then a free bit, of which nothing can be proved (log 2), decides. -/

/-- An image of a context in strict FP32, whose beats are longer than a core cycle (R121). -/
def strictImage : CtxImage where
  hdr := { magic := 0x4C5A3849, format := 1, kind := 3, burnFloor := false, transfer := false, reservedZero := true,
           length := 0, svn := 0, build := 0, dir := [], digest := 0, signer := 0, sigOk := true }
  header := { quads := [0], strict := true, cfrac := 0, reservedZero := true, window := 0, step := 0, threads := [] }
  memory := { regions := [], salt := 0, memto := 0, ptroot := 0 }
  sync := { grants := [], bells := [] }
  tensors := { bytes := [] }
  red := none
  putq := none
  feed := none
  snap := none
  recovery := none
  contents := []

/-- A state whose table lists core 0 twice: first with its arrays off, then with them active. A divider is ordered for die 0,
whose clock is at an edge, and n is the number of the next free value. -/
def hiddenBeat (n : Nat) : State :=
  { freeCtr := n
    clk := { corePhase := [(0, 3)] }
    cores := [(0, {}), (0, { arr := .active })]
    quadOwner := [(0, 0)]
    ctxs := [(0, { img := some strictImage })]
    pwr := { locked := true, dies := [(0, { next := 5 })] } }

theorem hiddenBeat_no_array_active (n g : Nat) : ((hiddenBeat n).core g).arr ≠ .active := by
  by_cases h : g = 0
  · subst h; simp [hiddenBeat, State.core, sget_cons]
  · simp [hiddenBeat, State.core, sget_cons, h]

/-- There the divider of die 0 waits where the next free value calls the edge no boundary. -/
theorem hiddenBeat_waits (n : Nat) (h : Config.free 1 n ≠ 1) : (((hiddenBeat n).idle).dieClk 0).next = 5 := by
  have hdies : List.range 8 = 0 :: [1, 2, 3, 4, 5, 6, 7] := rfl
  have hedge : (hiddenBeat n).rootTick.dieCycle 0 = ((hiddenBeat n).rootTick.dieCoreCycle 0).divEdge 0 :=
    State.dieCycle_of_edge _ 0 (Nat.le_refl 4)
  have hnext : (((hiddenBeat n).rootTick.dieCoreCycle 0).dieClk 0).next = 5 := rfl
  have hwaits := State.divEdge_waits ((hiddenBeat n).rootTick.dieCoreCycle 0) 0 (by rw [hnext]; decide) rfl
    (Nat.zero_lt_succ 2) h
  have hothers := (((hiddenBeat n).rootTick.dieCycle 0).foldl_dieCycle [1, 2, 3, 4, 5, 6, 7] (by decide)).2.1 0 (by decide)
  rw [State.idle_of_locked _ rfl, State.upset_dieClk, hdies, List.foldl_cons, hothers.clk, hedge, hwaits, hnext]

/-- O57 holds exactly where every free bit is 1: the free values decide it, and nothing can be proved of them. -/
theorem emptyQueueCountsTime_iff_free_bits : Obligations.EmptyQueueCountsTime ↔ ∀ n, Config.free 1 n = 1 := by
  constructor
  · intro h n
    by_contra hfree
    obtain ⟨t, hstep, -, -, -, -, -, -, hcounts⟩ := h (hiddenBeat n) rfl
    obtain ⟨hswitch, -⟩ := hcounts rfl
    have ht : t = (hiddenBeat n).idle := by
      have : step (hiddenBeat n) = .next (hiddenBeat n).idle := rfl
      rw [this] at hstep
      cases hstep; rfl
    obtain ⟨-, hnext⟩ := hswitch 0 (by decide) (Nat.succ_ne_zero 4) (Nat.le_refl 4) fun g _ => hiddenBeat_no_array_active n g
    rw [ht, hiddenBeat_waits n hfree] at hnext
    cases hnext
  · exact fun h s hpending => s.countsTime hpending fun _ _ _ => .inr h

end Sys2Proof.Machine
end

section
/-!
PROOFS. The base instructions of Table 2.6 that compute and branch (R38, R49, R50): the values of words as integers, and what the
shared shapes of the instructions make of them.
-/

namespace Sys2Proof.Machine

/-! ### Words as integers -/

theorem add_ofInt (x y : Word) : x + y = BitVec.ofInt 64 (x.toInt + y.toInt) := by
  rw [BitVec.ofInt_add, BitVec.ofInt_toInt, BitVec.ofInt_toInt]

theorem sub_ofInt (x y : Word) : x - y = BitVec.ofInt 64 (x.toInt - y.toInt) := by
  rw [Int.sub_eq_add_neg, BitVec.ofInt_add, BitVec.ofInt_neg, BitVec.ofInt_toInt, BitVec.ofInt_toInt, BitVec.sub_eq_add_neg]

theorem mul_ofInt (x y : Word) : x * y = BitVec.ofInt 64 (x.toInt * y.toInt) := by
  rw [BitVec.ofInt_mul, BitVec.ofInt_toInt, BitVec.ofInt_toInt]

theorem add_immS (x : Word) (i : BitVec 16) : x + immS i = BitVec.ofInt 64 (x.toInt + i.toInt) := by
  rw [BitVec.ofInt_add, BitVec.ofInt_toInt]; rfl

theorem immS_toInt (i : BitVec 16) : (immS i).toInt = i.toInt := BitVec.toInt_signExtend_of_le (by decide)

theorem immZ_ofNat (i : BitVec 16) : immZ i = BitVec.ofNat 64 i.toNat := (BitVec.ofNat_toNat 64 i).symm

theorem shl_ofNat (x : Word) (n : Nat) : x <<< n = BitVec.ofNat 64 (x.toNat * 2 ^ n) :=
  BitVec.eq_of_toNat_eq (by rw [BitVec.toNat_shiftLeft, Nat.shiftLeft_eq, BitVec.toNat_ofNat])

theorem shr_ofNat (x : Word) (n : Nat) : x >>> n = BitVec.ofNat 64 (x.toNat / 2 ^ n) := by
  apply BitVec.eq_of_toNat_eq
  rw [BitVec.toNat_ushiftRight, Nat.shiftRight_eq_div_pow, BitVec.toNat_ofNat,
    Nat.mod_eq_of_lt (Nat.lt_of_le_of_lt (Nat.div_le_self _ _) x.isLt)]

theorem sra_ofInt (x : Word) (n : Nat) : x.sshiftRight n = BitVec.ofInt 64 (x.toInt / 2 ^ n) := by
  rw [BitVec.sshiftRight, Int.shiftRight_eq_div_pow]; norm_cast

theorem boolWord_slt (x y : Word) : boolWord (x.slt y) = if x.toInt < y.toInt then 1 else 0 := by
  simp [boolWord, BitVec.slt]

theorem not_slt (x y : Word) : (!x.slt y) = decide (y.toInt ≤ x.toInt) := by
  rw [BitVec.slt, ← decide_not, decide_eq_decide, Int.not_lt]

theorem not_ult (x y : Word) : (!x.ult y) = decide (y.toNat ≤ x.toNat) := by
  rw [BitVec.ult, ← decide_not, decide_eq_decide, Nat.not_lt]

theorem boolWord_ult (x y : Word) : boolWord (x.ult y) = if x.toNat < y.toNat then 1 else 0 := by
  simp [boolWord, BitVec.ult]

/-- The high half of a product of 128 bits. -/
theorem high_ofInt (z : Int) : ((BitVec.ofInt 128 z) >>> 64).setWidth 64 = BitVec.ofInt 64 (z / 2 ^ 64) := by
  apply BitVec.eq_of_toNat_eq
  simp only [BitVec.toNat_setWidth, BitVec.toNat_ushiftRight, BitVec.toNat_ofInt, Nat.shiftRight_eq_div_pow]
  omega

theorem mulh_ofInt (x y : Word) :
    ((x.signExtend 128 * y.signExtend 128) >>> 64).setWidth 64 = BitVec.ofInt 64 (x.toInt * y.toInt / 2 ^ 64) := by
  rw [← high_ofInt, BitVec.ofInt_mul]; rfl

theorem mulhu_ofNat (x y : Word) :
    ((x.setWidth 128 * y.setWidth 128) >>> 64).setWidth 64 = BitVec.ofNat 64 (x.toNat * y.toNat / 2 ^ 64) := by
  have wide : x.setWidth 128 * y.setWidth 128 = BitVec.ofInt 128 ((x.toNat * y.toNat : Nat) : Int) := by
    apply BitVec.eq_of_toNat_eq
    rw [BitVec.toNat_mul, BitVec.toNat_setWidth_of_le (by decide), BitVec.toNat_setWidth_of_le (by decide), BitVec.ofInt_natCast,
      BitVec.toNat_ofNat]
  rw [wide, high_ofInt]; norm_cast

theorem sdiv_ofInt (x y : Word) : x.sdiv y = BitVec.ofInt 64 (x.toInt.tdiv y.toInt) :=
  BitVec.eq_of_toInt_eq (by rw [BitVec.toInt_sdiv, BitVec.toInt_ofInt])

theorem srem_ofInt (x y : Word) : x.srem y = BitVec.ofInt 64 (x.toInt.tmod y.toInt) := by
  rw [← BitVec.toInt_srem, BitVec.ofInt_toInt]

theorem udiv_ofNat (x y : Word) : x / y = BitVec.ofNat 64 (x.toNat / y.toNat) := by
  rw [← BitVec.toNat_udiv, BitVec.ofNat_toNat, BitVec.setWidth_eq]

theorem umod_ofNat (x y : Word) : x % y = BitVec.ofNat 64 (x.toNat % y.toNat) := by
  rw [← BitVec.toNat_umod, BitVec.ofNat_toNat, BitVec.setWidth_eq]

theorem upper_ofInt (i : BitVec 21) : off21 i <<< 16 = BitVec.ofInt 64 (i.toInt * 2 ^ 16) := by
  rw [BitVec.ofInt_mul, BitVec.shiftLeft_eq_mul_twoPow]; rfl

theorem branchTo_ofInt (pc : Word) (off : BitVec 16) : branchTo pc off = BitVec.ofInt 64 (pc.toInt + 4 * off.toInt) := by
  rw [BitVec.ofInt_add, BitVec.ofInt_mul, BitVec.ofInt_toInt, BitVec.mul_comm]; rfl

theorem jumpTo_ofInt (pc : Word) (off : BitVec 21) : jumpTo pc off = BitVec.ofInt 64 (pc.toInt + 4 * off.toInt) := by
  rw [BitVec.ofInt_add, BitVec.ofInt_mul, BitVec.ofInt_toInt, BitVec.mul_comm]; rfl

theorem clearLow2_ofNat (x : Word) : x &&& ~~~3 = BitVec.ofNat 64 (x.toNat / 4 * 4) := by
  have low : ∀ i (hi : i < 64), (3 : Word)[i] = decide (i < 2) := by decide
  have shifted : x &&& ~~~(3 : Word) = (x >>> 2) <<< 2 := by
    ext i hi
    rw [BitVec.getElem_and, BitVec.getElem_not, low i hi, BitVec.getElem_shiftLeft]
    by_cases h2 : i < 2
    · simp [h2]
    · simp [h2, show 2 + (i - 2) = i by omega, BitVec.getLsbD_eq_getElem hi]
  rw [shifted, shl_ofNat, BitVec.toNat_ushiftRight, Nat.shiftRight_eq_div_pow]; rfl

/-! ### Shapes -/

/-- An instruction that names fewer registers may issue as well. -/
theorem State.issues.mono {s : State} {th : ThreadId} {rs qs : List Reg} (h : s.issues th rs) (hsub : qs ⊆ rs) : s.issues th qs :=
  ⟨h.1, fun r hr => h.2 r (hsub hr)⟩

/-- An instruction that has issued with registers rs acts on the state in which its core notes it. -/
theorem State.issues.run {s : State} {th : ThreadId} {rs : List Reg} (h : s.issues th rs) (qs : List Reg) (hsub : qs ⊆ rs)
    (act : State → State) : issueWith s th qs act = .next (act (s.noted th)) :=
  issueWith_issues s th qs act (h.mono hsub)

theorem shifti_count (imm : BitVec 16) : getF imm 0 6 = imm.toNat % 64 := rfl

theorem shifti_kind (imm : BitVec 16) : getF imm 14 2 = imm.toNat / 64 / 256 ∧ getF imm 6 8 = imm.toNat / 64 % 256 := by
  have h := imm.isLt
  simp only [getF, Nat.shiftRight_eq_div_pow]
  omega

/-- SHIFTI with bits [13:6] clear and a shift that exists. -/
theorem execShifti_spec (s : State) (th : ThreadId) (rd rs1 : Reg) (imm : BitVec 16) (h : s.issues th [rd, rs1]) (k : Nat)
    (hk : imm.toNat / 64 = 256 * k) (hk3 : k < 3) :
    execShifti th rd rs1 imm s = .next (s.retires th ((s.thr th).setX rd
      (if k == 0 then (s.thr th).xr rs1 <<< (imm.toNat % 64) else if k == 1 then (s.thr th).xr rs1 >>> (imm.toNat % 64)
        else ((s.thr th).xr rs1).sshiftRight (imm.toNat % 64))) ((s.thr th).pc + 4)) := by
  obtain ⟨hkind, hzero⟩ := shifti_kind imm
  have hkind : getF imm 14 2 = k := by omega
  have hzero : getF imm 6 8 = 0 := by omega
  have legal : (k == 3) = false := beq_false_of_ne (by omega)
  rw [execShifti, issueWith_issues _ _ _ _ h]
  simp only [hkind, hzero, shifti_count, noted_thr, legal, bne_self_eq_false, Bool.or_self, Bool.false_eq_true, if_false]
  rw [write1_spec]

/-! ### Results, as the statements name them -/

section
variable {s : State} {th : ThreadId} {rd rs1 rs2 : Reg}

theorem alu2_gives {f : Word → Word → Word} {v : Word} (h : s.issues th [rd, rs1, rs2])
    (hv : f ((s.thr th).xr rs1) ((s.thr th).xr rs2) = v) :
    alu2 th rd rs1 rs2 f s = .next (s.retires th ((s.thr th).setX rd v) ((s.thr th).pc + 4)) := by
  rw [alu2_spec _ _ _ _ _ _ h, hv]

theorem alu1_gives {f : Word → Word} {v : Word} (h : s.issues th [rd, rs1]) (hv : f ((s.thr th).xr rs1) = v) :
    alu1 th rd rs1 f s = .next (s.retires th ((s.thr th).setX rd v) ((s.thr th).pc + 4)) := by
  rw [alu1_spec _ _ _ _ _ h, hv]

theorem divide_gives {f : Word → Word → Word} {v : Word} (h : s.issues th [rd, rs1, rs2]) (hy : (s.thr th).xr rs2 ≠ 0)
    (hv : f ((s.thr th).xr rs1) ((s.thr th).xr rs2) = v) :
    divide th rd rs1 rs2 f s = .next (s.retires th ((s.thr th).setX rd v) ((s.thr th).pc + 4)) := by
  rw [divide_spec _ _ _ _ _ _ h hy, hv]

theorem branch_goes {off : BitVec 16} {p : Word → Word → Bool} {taken : Prop} [Decidable taken] (h : s.issues th [rs1, rs2])
    (hp : p ((s.thr th).xr rs1) ((s.thr th).xr rs2) = decide taken) :
    branch th rs1 rs2 off p s = .next (s.retires th (s.thr th)
      (if taken then BitVec.ofInt 64 ((s.thr th).pc.toInt + 4 * off.toInt) else (s.thr th).pc + 4)) := by
  rw [branch_spec _ _ _ _ _ _ h, hp, branchTo_ofInt]
  simp only [decide_eq_true_eq]

end

/-- LUI and AUIPC: a value put into rd. -/
theorem write1_gives {s : State} {th : ThreadId} {rd : Reg} {v w : Word} (hv : v = w) :
    (.next ((s.noted th).write1 th rd v) : Host.Outcome State Fault Refusal) =
      .next (s.retires th ((s.thr th).setX rd w) ((s.thr th).pc + 4)) := by
  rw [write1_spec, hv]

/-- JAL and JALR: the link is written, and the thread goes to pc. -/
theorem link_goes (s : State) (th : ThreadId) (rd : Reg) (pc : Word) :
    ((s.noted th).setX th rd ((s.thr th).pc + 4)).retireTo th pc = s.retires th ((s.thr th).setX rd ((s.thr th).pc + 4)) pc := by
  rw [State.setX, State.modThr_eq, noted_thr, noted_retireTo]

/-- Settles O1: each result is a lemma about words, put through the shape of its instruction. -/
theorem integerArithmeticResults : Obligations.IntegerArithmeticResults := by
  unfold Obligations.IntegerArithmeticResults
  intro s th rd rs1 rs2 imm up h x y gives
  have h1 : s.issues th [rd, rs1] := h.mono (by simp)
  have h0 : s.issues th [rd] := h.mono (by simp)
  have shifts (k : Nat) (hk : imm.toNat / 64 = 256 * k) (hk3 : k < 3) :=
    (exec_shifti s th rd rs1 imm).trans (execShifti_spec s th rd rs1 imm h1 k hk hk3)
  refine ⟨fun v r => ⟨Thread.xr_zero _, Thread.setX_xr _ _ _ _⟩,
    (exec_add ..).trans (alu2_gives h (add_ofInt _ _)), (exec_sub ..).trans (alu2_gives h (sub_ofInt _ _)),
    (exec_and ..).trans (alu2_gives h rfl), (exec_or ..).trans (alu2_gives h rfl), (exec_xor ..).trans (alu2_gives h rfl),
    ⟨(exec_shl ..).trans (alu2_gives h (shl_ofNat _ _)), (exec_shr ..).trans (alu2_gives h (shr_ofNat _ _)),
      (exec_sra ..).trans (alu2_gives h (sra_ofInt _ _))⟩,
    (exec_slt ..).trans (alu2_gives h (boolWord_slt _ _)), (exec_sltu ..).trans (alu2_gives h (boolWord_ult _ _)),
    (exec_mul ..).trans (alu2_gives h (mul_ofInt _ _)), (exec_mulh ..).trans (alu2_gives h (mulh_ofInt _ _)),
    (exec_mulhu ..).trans (alu2_gives h (mulhu_ofNat _ _)), fun hy => ⟨?_, ?_, ?_, ?_⟩,
    (exec_addi ..).trans (alu1_gives h1 (add_immS _ _)), (exec_andi ..).trans (alu1_gives h1 (by rw [immZ_ofNat])),
    (exec_ori ..).trans (alu1_gives h1 (by rw [immZ_ofNat])), (exec_xori ..).trans (alu1_gives h1 (by rw [immZ_ofNat])),
    (exec_slti ..).trans (alu1_gives h1 (by rw [boolWord_slt, immS_toInt])),
    (exec_sltiu ..).trans (alu1_gives h1 (boolWord_ult _ _)), ⟨fun hk => ?_, fun hk => ?_, fun hk => ?_⟩, ?_, ?_⟩
  · exact (exec_div ..).trans (divide_gives h hy (sdiv_ofInt _ _))
  · exact (exec_rem ..).trans (divide_gives h hy (srem_ofInt _ _))
  · exact (exec_divu ..).trans (divide_gives h hy (udiv_ofNat _ _))
  · exact (exec_remu ..).trans (divide_gives h hy (umod_ofNat _ _))
  · rw [← shl_ofNat]; exact shifts 0 hk (by decide)
  · rw [← shr_ofNat]; exact shifts 1 hk (by decide)
  · rw [← sra_ofInt]; exact shifts 2 hk (by decide)
  · exact (exec_lui ..).trans ((issueWith_issues _ _ _ _ h0).trans (write1_gives (upper_ofInt up)))
  · exact (exec_auipc ..).trans ((issueWith_issues _ _ _ _ h0).trans (write1_gives
      (by rw [BitVec.ofInt_add, BitVec.ofInt_toInt, ← upper_ofInt]; rfl)))

/-- Settles O3: a branch is `branch_goes` with its own condition, a jump is `link_goes`. -/
theorem branchAndJumpTargets : Obligations.BranchAndJumpTargets := by
  unfold Obligations.BranchAndJumpTargets
  intro s th rd rs1 rs2 off far h t x y branches jumps
  have h2 : s.issues th [rs1, rs2] := h.mono (by simp)
  have h1 : s.issues th [rd, rs1] := h.mono (by simp)
  have h0 : s.issues th [rd] := h.mono (by simp)
  refine ⟨(exec_beq ..).trans (branch_goes h2 rfl), (exec_bne ..).trans (branch_goes h2 (decide_not ..).symm),
    (exec_blt ..).trans (branch_goes h2 rfl), (exec_bge ..).trans (branch_goes h2 (not_slt ..)),
    (exec_bltu ..).trans (branch_goes h2 rfl), (exec_bgeu ..).trans (branch_goes h2 (not_ult ..)), ?_, ?_⟩
  · refine (exec_jal ..).trans ((issueWith_issues _ _ _ _ h0).trans (congrArg _ ?_))
    rw [← jumpTo_ofInt]
    exact link_goes s th rd _
  · refine (exec_jalr ..).trans ((issueWith_issues _ _ _ _ h1).trans (congrArg _ ?_))
    rw [← add_immS, ← clearLow2_ofNat]
    exact link_goes s th rd _

end Sys2Proof.Machine
end

section
/-!
PROOFS. The fault of a context (R363, R367, R408, R418) beside the threads: its records, its replies, its purge and the packets it
sends neither read nor change the threads, the cores, the memory and the poison marks.
-/

namespace Sys2Proof.Machine

/-! ### The data plane of a state -/

/-- s with the threads, the cores, the memory and the poison marks of d. -/
def State.over (s d : State) : State := { s with threads := d.threads, cores := d.cores, mem := d.mem, poison := d.poison }

/-- s with the memory and the poison marks of d. -/
def State.atop (s d : State) : State := { s with mem := d.mem, poison := d.poison }

/-- f works beside the data plane: it gives the same over any other one. -/
def BesideData (f : State → State) : Prop := ∀ s d, f (s.over d) = (f s).over d

/-- f works beside the memory. -/
def BesideMemory (f : State → State) : Prop := ∀ s d, f (s.atop d) = (f s).atop d

/-! Proved by `id rfl`: `simp` then takes them for equations to rewrite with, and carries the decision of an `if` along. -/

@[simp] theorem State.over_clk (s d : State) : (s.over d).clk = s.clk := id rfl
@[simp] theorem State.over_gate (s d : State) : (s.over d).gate = s.gate := id rfl
@[simp] theorem State.over_fab (s d : State) : (s.over d).fab = s.fab := id rfl
@[simp] theorem State.over_rst (s d : State) : (s.over d).rst = s.rst := id rfl
@[simp] theorem State.over_nvm (s d : State) : (s.over d).nvm = s.nvm := id rfl
@[simp] theorem State.over_vault (s d : State) : (s.over d).vault = s.vault := id rfl
@[simp] theorem State.over_ctx (s d : State) (c : CtxId) : (s.over d).ctx c = s.ctx c := id rfl
@[simp] theorem State.over_port (s d : State) (p : Nat) : (s.over d).port p = s.port p := id rfl

theorem BesideData.keeps {f : State → State} (h : BesideData f) (s : State) :
    (f s).threads = s.threads ∧ (f s).cores = s.cores ∧ (f s).mem = s.mem ∧ (f s).poison = s.poison := by
  have e : f s = (f s).over s := h s s
  rw [e]; exact ⟨rfl, rfl, rfl, rfl⟩

theorem BesideData.besideMemory {f : State → State} (h : BesideData f) : BesideMemory f := by
  intro s d
  obtain ⟨ht, hc, -, -⟩ := h.keeps s
  have e : s.atop d = s.over { d with threads := s.threads, cores := s.cores } := rfl
  rw [e, h]
  simp only [State.over, State.atop, ← ht, ← hc]

theorem BesideData.comp {f g : State → State} (hf : BesideData f) (hg : BesideData g) : BesideData (fun s => g (f s)) :=
  fun s d => by simp only [hf s d, hg _ d]

theorem BesideMemory.comp {f g : State → State} (hf : BesideMemory f) (hg : BesideMemory g) :
    BesideMemory (fun s => g (f s)) := fun s d => by simp only [hf s d, hg _ d]

/-- A fold of operations that work beside the data plane. -/
theorem BesideData.foldl {α : Type} {f : State → α → State} (hf : ∀ a, BesideData fun s => f s a) (l : List α) :
    BesideData fun s => l.foldl f s := by
  intro s d
  induction l generalizing s with
  | nil => rfl
  | cons a l ih =>
    have ha : f (s.over d) a = (f s a).over d := hf a s d
    simp only [List.foldl_cons, ha]
    exact ih _

theorem State.modGate_over (f : Gate → Gate) : BesideData fun s => s.modGate f := fun _ _ => rfl
theorem State.modSession_over (n : BitVec 32) (f : Session → Session) : BesideData fun s => s.modSession n f := fun _ _ => rfl
theorem State.modCtx_over (c : CtxId) (f : Ctx → Ctx) : BesideData fun s => s.modCtx c f := fun _ _ => rfl
theorem State.modRst_over (f : Rst → Rst) : BesideData fun s => s.modRst f := fun _ _ => rfl
theorem State.modFab_over (f : Fab → Fab) : BesideData fun s => s.modFab f := fun _ _ => rfl
theorem State.modPort_over (p : Nat) (f : Port → Port) : BesideData fun s => s.modPort p f := fun _ _ => rfl
theorem State.send_over (o : Out) : BesideData fun s => s.send o := fun _ _ => rfl

/-! ### Records and replies -/

theorem State.fhAppend_over (i : Nat) (e : EventRec) : BesideData fun s => s.fhAppend i e := by
  intro s d
  simp only [State.fhAppend, State.journal, State.over_rst, State.over_clk, State.over_nvm, State.over_vault]
  by_cases hsev : e.severity.toNat ≥ 3 || e.code.toNat / 256 == 0x0B
  · by_cases hsec : s.rst.fhSecond == s.clk.reeve / 212500000 <;> by_cases hesc : e.code == 0x0B04 <;>
      simp only [hsev, hsec, hesc, if_true, if_false, Bool.false_eq_true] <;> split_ifs <;> rfl
  · simp only [hsev, if_false, Bool.false_eq_true]

theorem State.record_over (r : Rec) : BesideData fun s => s.record r :=
  fun s d => State.fhAppend_over _ _ { s with log := _, gate := _ } d

theorem State.coreRecord_over (th : ThreadId) (code : Reason) (sev : Byte) (obj : BitVec 32) (x : BitVec 192) :
    BesideData fun s => s.coreRecord th code sev obj x := fun s d => State.record_over _ s d

theorem State.seqRecord_over (code : Reason) (sev : Byte) (c : Option CtxId) (k : Option CmdExec) (new : Option CtxState) :
    BesideData fun s => s.seqRecord code sev c k new := fun s d => State.record_over _ s d

theorem State.gateOut_over (o : Out) : BesideData fun s => s.gateOut o := by
  intro s d
  by_cases hup : (s.port 16).st == .up <;> simp only [State.gateOut, State.over_port, hup, if_true, if_false, Bool.false_eq_true]
  rfl

theorem State.gateOutOn_over (n : BitVec 32) (o : Out) : BesideData fun s => s.gateOutOn n o := by
  intro s d
  by_cases hup : (s.port 16).st == .up <;>
    simp only [State.gateOutOn, State.over_port, hup, if_true, if_false, Bool.false_eq_true]
  exact (State.modSession_over n _).comp (State.gateOut_over o) s d

theorem State.reply_over (r : Reply) : BesideData fun s => s.reply r := by
  intro s d
  by_cases hopen : s.gate.sessions.any fun x => x.num == r.session <;>
    simp only [State.reply, State.over_gate, hopen, if_true, if_false, Bool.false_eq_true]
  exact (State.modGate_over _).comp (State.gateOutOn_over _ _) s d

theorem State.endCmd_over (c : CtxId) (reason : Reason) (body : Body) : BesideData fun s => s.endCmd c reason body := by
  intro s d
  simp only [State.endCmd, State.over_ctx]
  cases (s.ctx c).cmd with
  | none => rfl
  | some k => exact (State.modCtx_over c _).comp (State.reply_over _) s d

theorem State.supersede_over (c : CtxId) (new : Option CtxState) : BesideData fun s => s.supersede c new := by
  intro s d
  simp only [State.supersede, State.over_ctx]
  cases (s.ctx c).cmd with
  | none => rfl
  | some k => exact (State.seqRecord_over _ _ _ _ _).comp (State.endCmd_over _ _ _) s d

theorem State.setCtxState_over (c : CtxId) (new : CtxState) (k : Option CmdExec) : BesideData fun s => s.setCtxState c new k :=
  (State.seqRecord_over _ _ _ _ _).comp (State.modCtx_over c _)

/-! ### Packets -/

theorem State.drainPort_over (p fuel : Nat) : BesideData fun s => s.drainPort p fuel := by
  induction fuel with
  | zero => exact fun _ _ => rfl
  | succ fuel ih =>
    intro s d
    simp only [State.drainPort, State.over_port, State.over_fab, State.over_clk]
    cases (s.port p).pick s.fab.weights s.fab.snapcap.toNat s.clk.uncore with
    | none =>
      by_cases hidle : (s.port p).st == .up && (s.port p).queue.any fun q => decide (1024 < (s.port p).replay.length + pktFlits q) <;>
        simp only [hidle, if_true, if_false, Bool.false_eq_true]
      rfl
    | some q => exact ((State.modPort_over p _).comp (State.send_over _)).comp ih s d

theorem State.enqueue_over (p : Nat) (q : Packet) : BesideData fun s => s.enqueue p q :=
  fun s d => State.drainPort_over p _ (s.modPort p _) d

theorem State.fabRecord_over (u : UnitId) (code : Reason) (sev : Byte) (port : Nat) (x : BitVec 192) (c : Option CtxId) :
    BesideData fun s => s.fabRecord u code sev port x c := State.record_over _

theorem State.deliver_over (q : Packet) : BesideData fun s => s.deliver q := by
  intro s d
  generalize hgot : (s.fab.arriving.find? fun x => x.sameMsg q && x.part + 1 == q.part) = got
  by_cases hone : q.parts ≤ 1
  · simp only [State.deliver, hone, if_true]; rfl
  · by_cases hlost : q.part != 0 && got.isNone
    · simp only [State.deliver, State.over_fab, hone, hgot, hlost, if_true, if_false]; rfl
    · by_cases hlast : q.part + 1 == q.parts <;>
        simp only [State.deliver, State.over_fab, hone, hgot, hlost, hlast, if_true, if_false, Bool.false_eq_true] <;> rfl

theorem State.choosePort_over (s d : State) (h : PktHdr) : (s.over d).choosePort h = s.choosePort h := rfl

theorem State.routePkt_over (q : Packet) (s d : State) : (s.over d).routePkt q = (s.routePkt q).map (·.over d) := by
  by_cases hhere : q.hdr.dest == s.fab.module || q.hdr.dest == 0xFFFF
  · simp only [State.routePkt, State.over_fab, hhere, if_true]
    exact congrArg some (State.deliver_over q s d)
  · by_cases hheld : s.fab.holds.contains q.hdr.dest
    · simp only [State.routePkt, State.over_fab, hhere, hheld, if_true, if_false, Bool.false_eq_true]; rfl
    · simp only [State.routePkt, State.choosePort_over, State.over_fab, hhere, hheld, if_false, Bool.false_eq_true]
      cases s.choosePort q.hdr with
      | none => rfl
      | some p => exact congrArg some (State.enqueue_over p q s d)

theorem State.loseRecord_over (p : Nat) (code : Reason) (h : PktHdr) : BesideData fun s => s.loseRecord p code h := by
  intro s d
  simp only [State.loseRecord, State.over_fab, State.over_clk]
  have recorded := ((State.modFab_over fun b => { b with drop := b.drop + 1 }).comp
    (State.fabRecord_over uFab code sevError p (pktDetail h (lossCause code)) none)).comp
    (State.modFab_over fun b => { b with rate := sset (p * 65536 + code.toNat) s.clk.uncore b.rate }) s d
  cases s.fab.rate.find? fun e => e.1 == p * 65536 + code.toNat with
  | none => exact recorded
  | some e =>
    by_cases hlate : e.2 + 4096 ≤ s.clk.uncore <;> simp only [hlate, decide_true, decide_false, if_true, if_false, Bool.false_eq_true]
    · exact recorded
    · rfl

theorem State.lose_over (p : Nat) (code : Reason) (q : Packet) : BesideData fun s => s.lose p code q := by
  intro s d
  have hlost : (s.over d).loseRecord p code q.hdr = (s.loseRecord p code q.hdr).over d := State.loseRecord_over p code q.hdr s d
  have hnotice : ((s.loseRecord p code q.hdr).over d).noticeOf q.hdr code = (s.loseRecord p code q.hdr).noticeOf q.hdr code := rfl
  by_cases hnone : q.hdr.typ == 0x40 <;>
    simp only [State.lose, hlost, hnotice, State.routePkt_over, hnone, if_true, if_false, Bool.false_eq_true]
  cases (s.loseRecord p code q.hdr).routePkt _ with
  | some t => rfl
  | none => exact State.loseRecord_over _ _ _ _ d

theorem State.sendOne_over (q : Packet) : BesideData fun s => s.sendOne q := by
  intro s d
  simp only [State.sendOne, State.routePkt_over]
  cases s.routePkt q with
  | some t => rfl
  | none => exact State.lose_over _ _ q s d

theorem State.sendPkt_over (q : Packet) : BesideData fun s => s.sendPkt q := BesideData.foldl State.sendOne_over _

/-- Packets for a list of modules, each made from the state at hand. -/
theorem State.sendAll_over (ms : List ModuleNo) (f : State → ModuleNo → Packet) (hf : ∀ s d m, f (s.over d) m = f s m) :
    BesideData fun s => s.sendAll ms f :=
  BesideData.foldl (fun m s d => by simp only [hf]; exact State.sendPkt_over _ s d) _

/-! ### The fault of a context -/

theorem State.newEpisode_over : BesideData State.newEpisode := by
  intro s d
  have h : (s.over d).recovering = s.recovering := rfl
  by_cases hrec : s.recovering <;> simp only [State.newEpisode, h, hrec, if_true, if_false, Bool.false_eq_true]
  rfl

theorem State.faultNotices_over (c : CtxId) (b : Bool) : BesideData fun s => s.faultNotices c b :=
  fun s d => State.sendAll_over (s.watchSet c) _ (by intros; rfl) s d

theorem State.startPurge_over (c : CtxId) (b : Bool) : BesideData fun s => s.startPurge c b := by
  intro s d
  have h : (s.over d).newEpisode.faultNotices c b = (s.newEpisode.faultNotices c b).over d :=
    (State.newEpisode_over.comp (State.faultNotices_over c b)) s d
  simp only [State.startPurge, h]
  exact ((State.modCtx_over c _).comp (State.modRst_over _)).comp (State.sendAll_over _ _ (by intros; rfl)) _ d

theorem State.purge_over (c : CtxId) (b : Bool) : BesideData fun s => s.purge c b := by
  intro s d
  by_cases hbusy : (s.ctx c).rst.purge.isSome || (s.ctx c).rst.purgeWaits
  · simp only [State.purge, State.over_ctx, hbusy, if_true]
  · by_cases hgap : (s.ctx c).rst.gap <;>
      simp only [State.purge, State.over_ctx, hbusy, hgap, if_true, if_false, Bool.false_eq_true]
    · rfl
    · exact State.startPurge_over c b s d

theorem State.ctxFault_over (c : CtxId) (code : Reason) : BesideData fun s => s.ctxFault c code := by
  intro s d
  by_cases hst : (s.ctx c).st == .empty || (s.ctx c).st == .faulted
  · simp only [State.ctxFault, State.over_ctx, hst, if_true]
  · simp only [State.ctxFault, State.over_ctx, hst, if_false, Bool.false_eq_true]
    exact (((State.supersede_over _ _).comp (State.setCtxState_over _ _ _)).comp
      ((State.modCtx_over c _).comp (State.purge_over c false))) s d

end Sys2Proof.Machine
end

section
/-!
PROOFS. What the work of a thread leaves as it was (R39 to R62, R105 to R110, R150 to R155): the other threads, its own general
registers where no load writes them, the lines of the instruction caches, and memory.
-/

namespace Sys2Proof.Machine

/-- From s to u thread th has worked without writing a register: the other threads, its general registers, the lines of the
instruction caches and memory stand. -/
structure State.Works (th : ThreadId) (s u : State) : Prop where
  others : ∀ th', th' ≠ th → u.thr th' = s.thr th'
  x : (u.thr th).x = (s.thr th).x
  icache : ∀ g, (u.core g).icache = (s.core g).icache
  mem : u.mem = s.mem

namespace State.Works

variable {th : ThreadId} {s u v : State}

theorem refl (th : ThreadId) (s : State) : s.Works th s := ⟨fun _ _ => rfl, rfl, fun _ => rfl, rfl⟩

theorem trans (h : s.Works th u) (k : u.Works th v) : s.Works th v :=
  ⟨fun th' hne => (k.others th' hne).trans (h.others th' hne), k.x.trans h.x, fun g => (k.icache g).trans (h.icache g),
    k.mem.trans h.mem⟩

/-- An operation that leaves the tables of threads and cores and the memory. -/
theorem of_eq (ht : u.threads = s.threads) (hc : u.cores = s.cores) (hm : u.mem = s.mem) : s.Works th u :=
  ⟨fun _ _ => by simp only [State.thr, ht], by simp only [State.thr, ht], fun _ => by simp only [State.core, hc], hm⟩

theorem of_besideData {f : State → State} (h : BesideData f) (s : State) : s.Works th (f s) :=
  let ⟨ht, hc, hm, _⟩ := h.keeps s
  of_eq ht hc hm

theorem setThr (t : Thread) (hx : t.x = (s.thr th).x := by rfl) : s.Works th (s.setThr th t) :=
  ⟨fun th' hne => s.setThr_thr_ne th th' t hne, by rw [s.setThr_thr, hx], fun _ => rfl, rfl⟩

theorem setCore (g : Nat) (c : Core) (hc : c.icache = (s.core g).icache) : s.Works th (s.setCore g c) where
  others _ _ := rfl
  x := rfl
  icache g' := by
    by_cases h : g' = g
    · rw [h, s.setCore_core, hc]
    · rw [s.setCore_core_ne g g' c h]
  mem := rfl

theorem modThr (f : Thread → Thread) (hx : ∀ t, (f t).x = t.x := by intros; rfl) : s.Works th (s.modThr th f) := setThr _ (hx _)

theorem modCore (g : Nat) (f : Core → Core) (hc : ∀ c, (f c).icache = c.icache := by intros; rfl) :
    s.Works th (s.modCore g f) := setCore g _ (hc _)

end State.Works

/-! ### Slots and lines -/

section
variable (s : State) (th : ThreadId)

theorem State.leaveSlots_works : s.Works th (s.leaveSlots th) := .modCore _ _

theorem State.leaveArrays_works : s.Works th (s.leaveArrays th) := .modCore _ _

theorem State.askSlot_works : s.Works th (s.askSlot th) := .modCore _ _ fun c => by split <;> rfl

theorem State.tlbDrop_works (g page : Nat) : s.Works th (s.tlbDrop g page) := .modCore _ _

theorem State.permDrop_works (c : CtxId) (va : Word) (reason : Reason) : s.Works th (s.permDrop th c va reason) := by
  unfold State.permDrop
  split
  · split
    · exact s.tlbDrop_works th _ _
    · exact .refl th s
  · exact .refl th s

theorem State.markUser_works (pc : Word) : s.Works th (s.markUser th pc) := by
  unfold State.markUser
  split
  · exact .refl th s
  · exact .modCore _ _ fun c => by split <;> rfl

theorem State.askLine_works : s.Works th (s.askLine th) := by
  unfold State.askLine
  dsimp only
  split
  · exact .setThr _
  · split
    · exact (s.leaveSlots_works th).trans (.setThr _)
    · exact (s.askSlot_works th).trans (.setThr _)

theorem State.fetchNext_works (r : FetchRes) : s.Works th (s.fetchNext th r) := by
  unfold State.fetchNext
  split
  · split
    · exact (s.markUser_works th _).trans (.modThr _)
    · exact .modThr _
  · exact s.askLine_works th

/-! ### Boundaries -/

theorem State.coreRecord_works (th' : ThreadId) (code : Reason) (sev : Byte) (obj : BitVec 32) (d : BitVec 192) :
    s.Works th (s.coreRecord th' code sev obj d) := .of_besideData (State.coreRecord_over th' code sev obj d) s

theorem State.ctxFault_works (c : CtxId) (code : Reason) : s.Works th (s.ctxFault c code) :=
  .of_besideData (State.ctxFault_over c code) s

theorem State.storeError_works (code : Reason) (va : Word) : s.Works th (s.storeError th code va) := by
  unfold State.storeError
  split
  · split
    · exact (s.coreRecord_works th _ _ _ _ _).trans (State.ctxFault_works _ th _ _)
    · exact .refl th s
  · exact .modThr _

theorem State.enterHalted_works : s.Works th (s.enterHalted th) := by
  have halted : s.Works th (((s.leaveArrays th).leaveSlots th).modThr th fun t => { t with
      st := .halted, why := .none, stopReq := false, pauseReq := false, asyncQ := [] }) :=
    ((s.leaveArrays_works th).trans (State.leaveSlots_works _ th)).trans (.modThr _)
  unfold State.enterHalted
  dsimp only
  split
  · exact halted.trans (State.storeError_works _ th _ _)
  · exact halted

theorem State.settle_works : s.Works th (s.settle th) := by
  unfold State.settle
  dsimp only
  split_ifs
  · exact .refl th s
  · exact s.enterHalted_works th
  · exact ((s.leaveArrays_works th).trans (State.leaveSlots_works _ th)).trans (.setThr _)
  · exact .refl th s
  · exact .refl th s

/-! ### Exceptions -/

theorem State.noHandler_works (pc tval : Word) : s.Works th (s.noHandler th pc tval) := by
  unfold State.noHandler
  dsimp only
  split
  · exact (s.coreRecord_works th _ _ _ _ _).trans (State.ctxFault_works _ th _ _)
  · exact s.coreRecord_works th _ _ _ _ _

theorem State.badHandler_works (code : Reason) (extra : BitVec 192) : s.Works th (s.badHandler th code extra) :=
  (s.coreRecord_works th _ _ _ _ _).trans (State.noHandler_works _ th _ _)

theorem State.fetchHandler_works (c : CtxId) : s.Works th (s.fetchHandler th c) := by
  unfold State.fetchHandler
  dsimp only
  split
  · exact s.badHandler_works th _ _
  · exact (s.permDrop_works th _ _ _).trans (State.badHandler_works _ th _ _)
  · exact (s.fetchNext_works th _).trans (State.settle_works _ th)

theorem State.take_works (c : Cause) (reason : Reason) (tval : Word) (intr : Bool) : s.Works th (s.take th c reason tval intr) := by
  unfold State.take
  dsimp only
  split
  · exact s.noHandler_works th _ _
  · split
    · exact ((s.leaveSlots_works th).trans (.setThr _)).trans (State.fetchHandler_works _ th _)
    · exact (s.leaveSlots_works th).trans (.setThr _)

/-- A thread that enters its handler keeps its general registers. -/
theorem State.enters_works (cause tval : Word) : s.Works th (s.enters th cause tval) := by
  have entered : s.Works th ((s.leaveSlots th).setThr th ((s.thr th).entered cause tval)) :=
    (s.leaveSlots_works th).trans (.setThr _)
  unfold State.enters
  dsimp only
  split
  · exact entered.trans (State.fetchHandler_works _ th _)
  · exact entered

/-! ### Errors of storage -/

/-- A counted error changes the units' counters. -/
theorem State.countEcc_frame (l : Nat) (ue : Bool) : ∃ d g, s.countEcc l ue = { s with dies := d, grans := g } := by
  unfold State.countEcc
  split_ifs <;> exact ⟨_, _, rfl⟩

theorem State.meetEcc_frame (l : Nat) : ∃ d g f, s.meetEcc l = { s with dies := d, grans := g, fresh := f } := by
  unfold State.meetEcc
  dsimp only
  generalize s.fresh.filter (fun u => u / 64 == l / 64 && s.poison.contains u) = us
  generalize s.fresh.filter (fun u => u / 64 != l / 64) = f
  have h : ∀ (us : List Nat) (d : SMap DieMem) (g : SMap Gran), ∃ d' g',
      us.foldl (fun s u => s.countEcc u true) { s with dies := d, grans := g, fresh := f } =
        { s with dies := d', grans := g', fresh := f } := by
    intro us
    induction us with
    | nil => exact fun d g => ⟨d, g, rfl⟩
    | cons u us ih =>
      intro d g
      obtain ⟨d', g', hu⟩ := State.countEcc_frame { s with dies := d, grans := g, fresh := f } u true
      rw [List.foldl_cons, hu]
      exact ih d' g'
  obtain ⟨d, g, hfold⟩ := h us s.dies s.grans
  exact ⟨d, g, f, hfold⟩

theorem State.eccRecord_works (loc addr : Nat) (req : UnitId) (c : Option CtxId) (w : Option ThreadId) (kind : Nat) :
    s.Works th (s.eccRecord loc addr req c w kind) := by
  obtain ⟨d, g, f, hmeet⟩ := s.meetEcc_frame loc
  have met : s.Works th (s.meetEcc loc) := by rw [hmeet]; exact .of_eq rfl rfl rfl
  exact met.trans (.of_besideData (State.record_over _) _)

theorem Thread.applyWr_x (t : Thread) (w : Wr) (h : ∀ r v, w ≠ .x r v) : (t.applyWr w).x = t.x := by
  cases w with
  | x r v => exact absurd rfl (h r v)
  | _ => simp only [Thread.applyWr]

theorem Thread.accMark_x (t : Thread) (f : AccEnd) (idx rows : Nat) : (t.accMark f idx rows).x = t.x := by
  unfold Thread.accMark
  split <;> simp [Thread.applyWr_x]

theorem Thread.tileSpoil_x (t : Thread) (n : Nat) : (t.tileSpoil n).x = t.x := by
  unfold Thread.tileSpoil; split <;> rfl

theorem State.excEffect_works (e : ExcEffect) : s.Works th (s.excEffect th e) := by
  cases e with
  | access f idx rows => exact .modThr _ fun t => t.accMark_x f idx rows
  | tileEcc n =>
    exact ((s.coreRecord_works th _ _ _ _ _).trans (.modCore _ _)).trans (.modThr _ fun t => t.tileSpoil_x n)
  | vecEcc => exact State.Works.modCore (thCore th) (fun c => { c with vEccU := satAdd 32 c.vEccU 1 })
  | benchEcc loc va => exact s.eccRecord_works th _ _ _ _ _ _
  | syncRec code obj detail => exact s.coreRecord_works th _ _ _ _ _

theorem State.excEffects_works (es : List ExcEffect) : s.Works th (es.foldl (fun s e => s.excEffect th e) s) := by
  induction es generalizing s with
  | nil => exact .refl th s
  | cons e es ih => exact (s.excEffect_works th e).trans (ih _)

theorem State.fire_works (e : Exc) : s.Works th (s.fire th e) := by
  have left := s.excEffects_works th e.effects
  unfold State.fire
  dsimp only
  split
  · exact (left.trans (State.coreRecord_works _ th _ _ _ _ _)).trans (State.take_works _ th _ _ _ _)
  · exact left.trans (State.take_works _ th _ _ _ _)

theorem State.holdExc_works (e : Exc) : s.Works th (s.holdExc th e) := .modThr _

theorem State.raiseExc_works (e : Exc) : s.Works th (s.raiseExc th e) := by
  unfold State.raiseExc
  split
  · exact s.holdExc_works th e
  · exact State.Works.trans (.modThr _) (State.fire_works _ th e)

theorem State.fetchExc_works (c : Cause) (reason : Reason) (extra : BitVec 192) (rec : Bool) :
    s.Works th (s.fetchExc th c reason extra rec) := by
  unfold State.fetchExc
  dsimp only
  split
  · exact s.holdExc_works th _
  · exact s.fire_works th _

/-! ### Fetch and retirement -/

theorem State.fetchHere_works : s.Works th (s.fetchHere th) := by
  unfold State.fetchHere
  dsimp only
  split
  · exact .refl th s
  · split
    · exact s.fetchExc_works th _ _ _ _
    · exact (s.permDrop_works th _ _ _).trans (State.fetchExc_works _ th _ _ _ _)
    · exact (s.fetchNext_works th _).trans (State.settle_works _ th)

theorem State.arrive_works (pc : Word) : s.Works th (s.arrive th pc) :=
  ((s.leaveSlots_works th).trans (.modThr _)).trans (State.fetchHere_works _ th)

theorem State.retireTo_works (pc : Word) : s.Works th (s.retireTo th pc) :=
  State.Works.trans (.modThr _) (State.arrive_works _ th pc)

theorem State.retire_works : s.Works th (s.retire th) := s.retireTo_works th _

/-! ### Requests that wait for slots -/

theorem State.post_works (va : Word) (what : PostWhat) : s.Works th (s.post th va what) := by
  unfold State.post
  exact .modThr _

theorem State.dropOpen_works : s.Works th (s.dropOpen th) := .modThr _ fun t => by split <;> rfl

theorem State.accFault_works (a : Access) (p : Part) (reason : Reason) (level rows : Nat) (rec : Bool) :
    s.Works th (s.accFault th a p reason level rows rec) := s.raiseExc_works th _

theorem State.storeSent_works (f : AccEnd) : s.Works th (s.storeSent th f) :=
  State.Works.trans (.modCore _ _) (State.retire_works _ th)

theorem State.sendStores_works (fuel : Nat) : s.Works th (s.sendStores th fuel) := by
  induction fuel generalizing s with
  | zero => exact .refl th s
  | succ fuel ih =>
    unfold State.sendStores
    split
    · split
      · exact State.Works.trans (.modThr _) (State.storeSent_works _ th _)
      · split
        · exact ((s.post_works th _ _).trans (.modThr _)).trans (ih _)
        · exact s.askSlot_works th
    · exact .refl th s

theorem State.sendLoads_works (fuel : Nat) : s.Works th (s.sendLoads th fuel) := by
  induction fuel generalizing s with
  | zero => exact .refl th s
  | succ fuel ih =>
    unfold State.sendLoads
    split
    · split
      · exact s.leaveSlots_works th
      · split
        · exact State.Works.trans (.modThr _) (ih _)
        · exact s.askSlot_works th
    · exact .refl th s

theorem State.issueRows_works (c : CtxId) (failed : Option (Nat × Reason × Nat)) (fuel : Nat) :
    s.Works th (s.issueRows th c failed fuel) := by
  induction fuel generalizing s with
  | zero => exact .refl th s
  | succ fuel ih =>
    unfold State.issueRows
    split
    · split
      · exact s.leaveSlots_works th
      · split
        · split
          · exact State.Works.trans (.modThr _) (ih _)
          · exact s.askSlot_works th
        · split
          · exact .modThr _
          · exact s.askSlot_works th
        · exact ((s.permDrop_works th _ _ _).trans (State.dropOpen_works _ th)).trans (State.accFault_works _ th _ _ _ _ _ _)
    · exact .refl th s

theorem State.serveSlot_works : s.Works th (s.serveSlot th) := by
  unfold State.serveSlot
  dsimp only
  split
  · split
    · exact s.sendStores_works th _
    · split
      · split
        · exact s.issueRows_works th _ _ _
        · exact .refl th s
      · exact s.sendLoads_works th _
  · exact .refl th s
  · split
    · exact s.fetchHere_works th
    · exact .refl th s

end

end Sys2Proof.Machine
end

section
/-!
PROOFS. The exceptions that instructions of Table 2.6 take where they stand (R48 to R57): a division by 0, TRAP, an undefined
opcode and the privileged instructions.
-/

namespace Sys2Proof.Machine

/-- CORE_TVAL and the PC stand side by side in the record. -/
theorem coreDetail_ofNat (tval pc : Word) : coreDetail tval pc = BitVec.ofNat 192 (tval.toNat + pc.toNat * 2 ^ 64) := by
  have htval : tval.toNat < 2 ^ 64 := tval.isLt
  have hpc : pc.toNat < 2 ^ 64 := pc.isLt
  unfold coreDetail det
  rw [← BitVec.ofNat_or, Nat.mod_eq_of_lt htval, Nat.mod_eq_of_lt hpc, Nat.shiftLeft_zero, Nat.or_comm,
    ← Nat.shiftLeft_add_eq_or_of_lt htval, Nat.shiftLeft_eq, Nat.add_comm]

theorem coreDetail_or_zero (tval pc : Word) :
    coreDetail tval pc ||| 0 = BitVec.ofNat 192 (tval.toNat + pc.toNat * 2 ^ 64) :=
  BitVec.or_zero.trans (coreDetail_ofNat tval pc)

/-- The thread whose core notes an instruction has the handler it had. -/
theorem noted_handles {s : State} {th : ThreadId} (h : s.handles th) : (s.noted th).handles th := h

/-- An exception that an instruction raises once it has issued: the record of Table 2.11, then the handler. -/
theorem raise_records (s : State) (th : ThreadId) (c : Cause) (reason : Reason) (tval cause : Word) (h : s.handles th)
    (hcause : causeWord c reason false = cause) :
    (s.noted th).raise th c reason tval =
      ((s.noted th).coreRecord th reason 0x02 0xFFFFFFFF
        (BitVec.ofNat 192 (tval.toNat + (s.thr th).pc.toNat * 2 ^ 64))).enters th cause tval := by
  rw [raise_handles _ _ _ _ _ _ _ (noted_handles h), hcause, noted_thr, coreDetail_or_zero]; rfl

section
variable {s : State} {th : ThreadId}

theorem illegal_records (w : BitVec 32) (h : s.handles th) :
    (s.noted th).illegal th w = ((s.noted th).coreRecord th 0x0501 0x02 0xFFFFFFFF
      (BitVec.ofNat 192 ((w.setWidth 64).toNat + (s.thr th).pc.toNat * 2 ^ 64))).enters th 0x05010001 (w.setWidth 64) :=
  raise_records s th .illegal exeIllegal _ _ h rfl

theorem privileged_records (w : BitVec 32) (h : s.handles th) :
    (s.noted th).privileged th w = ((s.noted th).coreRecord th 0x0502 0x02 0xFFFFFFFF
      (BitVec.ofNat 192 ((w.setWidth 64).toNat + (s.thr th).pc.toNat * 2 ^ 64))).enters th 0x05020002 (w.setWidth 64) :=
  raise_records s th .priv exePriv _ _ h rfl

/-! ### Divisions -/

/-- A divisor of 0 raises DIV_ZERO. -/
theorem divide_by_zero {rd rs1 rs2 : Reg} (f : Word → Word → Word) (h : s.issues th [rd, rs1, rs2]) (hs : s.handles th)
    (hy : (s.thr th).xr rs2 = 0) :
    divide th rd rs1 rs2 f s = .next (((s.noted th).coreRecord th 0x0503 0x02 0xFFFFFFFF
      (BitVec.ofNat 192 ((s.thr th).pc.toNat * 2 ^ 64))).enters th 0x05030003 0) := by
  have hraise := raise_records s th .divZero exeDivZero 0 0x05030003 hs rfl
  rw [show (0 : Word).toNat = 0 from rfl, Nat.zero_add] at hraise
  rw [divide, issueWith_issues _ _ _ _ h]
  simp only [noted_thr, hy, if_true]
  rw [hraise]; rfl

/-- The record and the entry into the handler leave the general registers. -/
theorem recorded_enters_xr (code : Reason) (sev : Byte) (obj : BitVec 32) (d : BitVec 192) (cause tval : Word) (r : Reg) :
    ((((s.noted th).coreRecord th code sev obj d).enters th cause tval).thr th).xr r = (s.thr th).xr r := by
  have hx := (((s.noted th).coreRecord_works th th code sev obj d).trans (State.enters_works _ th cause tval)).x
  simp only [Thread.xr, hx, noted_thr]

end

/-- The least word by −1: the quotient wraps, and the remainder is 0. -/
theorem sdiv_least : (BitVec.ofInt 64 (-(2 ^ 63))).sdiv (BitVec.ofInt 64 (-1)) = BitVec.ofInt 64 (-(2 ^ 63)) ∧
    (BitVec.ofInt 64 (-(2 ^ 63))).srem (BitVec.ofInt 64 (-1)) = 0 := by decide

/-- Settles O2: a division by 0 is `divide_by_zero`; in the overflow case the operands are the two words of `sdiv_least`. -/
theorem divisionCorners : Obligations.DivisionCorners := by
  unfold Obligations.DivisionCorners
  intro s th rd rs1 rs2 h t
  refine ⟨fun i hi hs hy => ?_, fun hx hy => ?_⟩
  · have hexec : exec i s = .next (((s.noted th).coreRecord th 0x0503 0x02 0xFFFFFFFF
        (BitVec.ofNat 192 (t.pc.toNat * 2 ^ 64))).enters th 0x05030003 0) := by
      simp only [List.mem_cons, List.not_mem_nil, or_false] at hi
      obtain rfl | rfl | rfl | rfl := hi
      · exact (exec_div ..).trans (divide_by_zero _ h hs hy)
      · exact (exec_divu ..).trans (divide_by_zero _ h hs hy)
      · exact (exec_rem ..).trans (divide_by_zero _ h hs hy)
      · exact (exec_remu ..).trans (divide_by_zero _ h hs hy)
    refine ⟨hexec, fun u hu r => ?_⟩
    cases hexec.symm.trans hu
    exact recorded_enters_xr ..
  · obtain ⟨hquot, hrem⟩ := sdiv_least
    have hx : t.xr rs1 = BitVec.ofInt 64 (-(2 ^ 63)) := by rw [← hx, BitVec.ofInt_toInt]
    have hy : t.xr rs2 = BitVec.ofInt 64 (-1) := by rw [← hy, BitVec.ofInt_toInt]
    have hne : t.xr rs2 ≠ 0 := by rw [hy]; decide
    exact ⟨(exec_div ..).trans (divide_gives h hne (by rw [hx, hy, hquot])),
      (exec_rem ..).trans (divide_gives h hne (by rw [hx, hy, hrem]))⟩

/-! ### TRAP, undefined opcodes, privileged instructions -/

section
variable {s : State} {th : ThreadId}

/-- A system instruction that USER may not run raises PRIV at USER level. -/
theorem systemInstr_privileged (fn : Nat) (act : State → State) {rs : List Reg} (h : s.issues th rs)
    (huser : (s.thr th).super = false) :
    systemInstr th fn true 0 0 0 act s = .next ((s.noted th).privileged th (encR 0x28 fn 0 0 0)) := by
  rw [systemInstr, h.run [] (List.nil_subset _)]
  simp [huser]

end

/-- Settles O4: each instruction raises an exception once it has issued, and `raise_records` says what that leaves. -/
theorem systemInstructionsTakeExceptions : Obligations.SystemInstructionsTakeExceptions := by
  unfold Obligations.SystemInstructionsTakeExceptions
  intro s th rd rs1 rs2 word csr h hs t recorded
  refine ⟨?_, fun hundefined => ?_, fun huser => ⟨?_, ?_, fun hcsr => ?_, fun hcsr htid hret hcore => ?_⟩⟩
  · rw [exec_trap, execTrap, h.run [] (List.nil_subset _)]
    simp only [bne_self_eq_false, Bool.or_self, Bool.false_eq_true, if_false]
    rw [raise_handles_bare _ _ _ _ _ _ _ (noted_handles hs)]; rfl
  · rw [exec_illegalOpcode, execIllegalOpcode, hundefined, h.run [] (List.nil_subset _)]
    simp only [Option.isSome_none, Bool.false_eq_true, if_false]
    rw [illegal_records word hs]
  · exact (exec_eret ..).trans ((systemInstr_privileged 1 _ h huser).trans (congrArg _ (privileged_records _ hs)))
  · exact (exec_iflush ..).trans ((systemInstr_privileged 3 _ h huser).trans (congrArg _ (privileged_records _ hs)))
  · rw [exec_csrw, execCsrw, h.run [rs1] (by simp)]
    have huser' : ((s.noted th).thr th).super = false := huser
    simp only [hcsr, huser', bne_self_eq_false, Bool.not_true, Bool.not_false, Bool.or_self, Bool.false_eq_true, if_false,
      if_true]
    rw [privileged_records _ hs]
  · have hother : csrUser csr.toNat = false := by
      simp only [csrUser, Bool.or_eq_false_iff, beq_eq_false_iff_ne]
      exact ⟨⟨fun e => htid (BitVec.eq_of_toNat_eq e), fun e => hret (BitVec.eq_of_toNat_eq e)⟩,
        fun e => hcore (BitVec.eq_of_toNat_eq e)⟩
    rw [exec_csrr, execCsrr, h.run [rd] (by simp)]
    have huser' : ((s.noted th).thr th).super = false := huser
    simp only [hcsr, huser', hother, bne_self_eq_false, Bool.not_true, Bool.not_false, Bool.or_self, Bool.and_self,
      Bool.false_eq_true, if_false, if_true]
    rw [privileged_records _ hs]

end Sys2Proof.Machine
end

section
/-!
PROOFS. Scalar loads and stores (R51, R196, R199): the checks of their one part, and the exception that a misaligned one
raises.
-/

namespace Sys2Proof.Machine

/-! ### The exception of a scalar access -/

/-- An access whose exception leaves nothing beside it is an exception as any other. -/
theorem raiseExc_access (s : State) (th : ThreadId) (f : AccEnd) (idx rows : Nat) (reason : Reason) (tval : Word)
    (extra : BitVec 192) (h : s.handles th) (hmark : ∀ t : Thread, t.accMark f idx rows = t) :
    s.raiseExc th { cause := .memory, reason := reason, tval := tval, extra := extra, effects := [.access f idx rows] } =
      s.raise th .memory reason tval true noObj extra := by
  have hfly : (s.thr th).flying = false := h.1
  have heffect (t : Thread) : (s.setThr th t).excEffect th (.access f idx rows) = s.setThr th t := by
    rw [State.excEffect, State.modThr_eq, hmark, State.setThr_thr, State.setThr_setThr]
  simp only [State.raise, State.raiseExc, hfly, State.modThr_eq, State.fire, List.foldl_cons, List.foldl_nil, heffect,
    Bool.false_eq_true, if_false]
  rfl

/-- DETAIL of a scalar access: CORE_TVAL, the PC and the access kind. -/
theorem scalarDetail_ofNat (tval pc : Word) (kind : Nat) (f : AccEnd) (idx : Nat) (hf : f.isVector = false)
    (hk : kind < 256) :
    coreDetail tval pc ||| accDetail kind 0 f idx =
      BitVec.ofNat 192 (tval.toNat + pc.toNat * 2 ^ 64 + kind * 2 ^ 144) := by
  have hlow : tval.toNat + pc.toNat * 2 ^ 64 < 2 ^ 144 := by
    have htval : tval.toNat < 2 ^ 64 := tval.isLt
    have hpc : pc.toNat < 2 ^ 64 := pc.isLt
    omega
  have haccess : accDetail kind 0 f idx = BitVec.ofNat 192 (kind <<< 144) := by
    rw [accDetail, hf]
    simp only [Bool.false_eq_true, if_false, det, Nat.reducePow, Nat.reduceMul, Nat.reduceSub, Nat.mod_eq_of_lt hk,
      Nat.zero_mod, Nat.zero_shiftLeft]
    exact BitVec.or_zero.trans BitVec.or_zero
  rw [coreDetail_ofNat, haccess, ← BitVec.ofNat_or, Nat.or_comm, ← Nat.shiftLeft_add_eq_or_of_lt hlow, Nat.shiftLeft_eq,
    Nat.add_comm]

/-- A scalar access that fails a check of its part raises MEMORY, and has no other effect. -/
theorem accFault_handles (s : State) (th : ThreadId) (a : Access) (p : Part) (reason : Reason) (rows : Nat)
    (h : s.handles th) (hf : a.fin.isVector = false) (hmark : ∀ t : Thread, t.accMark a.fin p.idx rows = t) :
    s.accFault th a p reason 0 rows true =
      (s.coreRecord th reason 0x02 noObj (BitVec.ofNat 192
        (p.va.toNat + (s.thr th).pc.toNat * 2 ^ 64 + a.kind.num * 2 ^ 144))).enters th
        (causeWord .memory reason false) p.va := by
  have hkind : a.kind.num < 256 := by cases a.kind <;> decide
  refine (raiseExc_access s th a.fin p.idx rows reason p.va _ h hmark).trans ?_
  rw [raise_handles _ _ _ _ _ _ _ h, scalarDetail_ofNat _ _ _ _ _ hf hkind]

/-! ### Alignment is checked first -/

theorem window_ne_control (s : State) (c : CtxId) (va : Word) (h : inControl va = false) (off : Nat) :
    s.window c va ≠ some (.control off) := by
  simp only [inControl, Bool.and_eq_false_iff, decide_eq_false_iff_not] at h
  unfold State.window
  dsimp only
  split_ifs <;> simp
  next hin => simp only [Bool.and_eq_true, decide_eq_true_eq] at hin; omega

theorem checkPart_misaligned (s : State) (th : ThreadId) (c : CtxId) (k : AKind) (align : Nat)
    (failed : Option (Nat × Reason × Nat)) (p : Part) (hva : inControl p.va = false) (halign : p.va.toNat % align ≠ 0) :
    s.checkPart th c k align failed p = .bad memAlign 0 := by
  unfold State.checkPart
  dsimp only
  split
  · next off hw => exact absurd hw (window_ne_control s c p.va hva off)
  · simp [halign]

/-- The misaligned access of one part, checked at its own length. -/
theorem access_misaligned (s : State) (th : ThreadId) (c : CtxId) (k : AKind) (p : Part) (f : AccEnd) (hc : s.thCtx th = some c)
    (hf : f = .st ∨ ∃ rd len signed, f = .ld rd len signed) (hva : inControl p.va = false) (halign : p.va.toNat % p.len ≠ 0) :
    s.access th { kind := k, parts := [p], fin := f } =
      s.accFault th { kind := k, parts := [p], fin := f } p memAlign 0 p.idx true := by
  have hcheck := checkPart_misaligned s th c k p.len none p hva halign
  have hperm : s.permDrop th c p.va memAlign = s := rfl
  obtain rfl | ⟨rd, len, signed, rfl⟩ := hf <;>
    simp [State.access, hc, State.checkParts, partAlign, hcheck, AccEnd.isTile, hperm, Access.cutAt, rowsBefore]

section
variable {s : State} {th : ThreadId} {rd rs1 : Reg} {imm : BitVec 16} {len : Nat}

/-- A thread that may issue has a context. -/
theorem State.issues.context {rs : List Reg} (h : s.issues th rs) : ∃ c, s.thCtx th = some c := by
  obtain ⟨-, -, -, -, -, c, hc, -⟩ := canIssue_spec s th h.1
  exact ⟨c, hc⟩

theorem loadInstr_misaligned {signed : Bool} (h : s.issues th [rd, rs1]) (hs : s.handles th)
    (hva : inControl ((s.thr th).xr rs1 + immS imm) = false) (halign : ((s.thr th).xr rs1 + immS imm).toNat % len ≠ 0) :
    loadInstr th len signed rd rs1 imm s = .next (((s.noted th).coreRecord th 0x0401 0x02 0xFFFFFFFF (BitVec.ofNat 192
      (((s.thr th).xr rs1 + immS imm).toNat + (s.thr th).pc.toNat * 2 ^ 64 + 0 * 2 ^ 144))).enters th 0x04010006
      ((s.thr th).xr rs1 + immS imm)) := by
  obtain ⟨c, hc⟩ := h.context
  rw [loadInstr, issueWith_issues _ _ _ _ h]
  simp only [noted_thr, hva, Bool.false_eq_true, if_false]
  rw [access_misaligned (s.noted th) th c .load _ _ hc (.inr ⟨_, _, _, rfl⟩) hva halign,
    accFault_handles _ _ _ _ _ _ (noted_handles hs) rfl fun _ => rfl]
  rfl

theorem storeInstr_misaligned (h : s.issues th [rd, rs1]) (hs : s.handles th)
    (hva : inControl ((s.thr th).xr rs1 + immS imm) = false) (halign : ((s.thr th).xr rs1 + immS imm).toNat % len ≠ 0) :
    storeInstr th len rd rs1 imm s = .next (((s.noted th).coreRecord th 0x0401 0x02 0xFFFFFFFF (BitVec.ofNat 192
      (((s.thr th).xr rs1 + immS imm).toNat + (s.thr th).pc.toNat * 2 ^ 64 + 1 * 2 ^ 144))).enters th 0x04010006
      ((s.thr th).xr rs1 + immS imm)) := by
  obtain ⟨c, hc⟩ := h.context
  rw [storeInstr, issueWith_issues _ _ _ _ h]
  simp only [noted_thr, hva, Bool.false_eq_true, if_false]
  rw [access_misaligned (s.noted th) th c .store _ _ hc (.inl rfl) hva halign,
    accFault_handles _ _ _ _ _ _ (noted_handles hs) rfl fun _ => rfl]
  rfl

end

/-- Settles O9: alignment is the first check of a part (`checkPart_misaligned`), and a scalar access that fails a check leaves
its exception alone (`accFault_handles`). -/
theorem misalignedAccessTakesMemory : Obligations.MisalignedAccessTakesMemory := by
  unfold Obligations.MisalignedAccessTakesMemory
  intro s th rd rs1 imm h hs t va houtside raises
  have hva : inControl (t.xr rs1 + immS imm) = false := by
    rw [inControl, Bool.and_eq_false_iff, decide_eq_false_iff_not, decide_eq_false_iff_not]
    exact houtside.imp Nat.not_le.mpr Nat.not_lt.mpr
  exact ⟨fun ha => loadInstr_misaligned h hs hva ha, fun ha => loadInstr_misaligned h hs hva ha,
    fun ha => loadInstr_misaligned h hs hva ha, fun ha => loadInstr_misaligned h hs hva ha,
    fun ha => loadInstr_misaligned h hs hva ha, fun ha => storeInstr_misaligned h hs hva ha,
    fun ha => storeInstr_misaligned h hs hva ha, fun ha => storeInstr_misaligned h hs hva ha⟩

end Sys2Proof.Machine
end

section
/-!
PROOFS. Loads from the thread's own Bench (R196, R200, R217, R218).
-/

namespace Sys2Proof.Machine

/-- A sign-extended value of w bits. -/
theorem sextN_signExtend (w v : Nat) (hw : w ≤ 64) : sextN w v = (BitVec.ofNat w v).signExtend 64 := by
  apply BitVec.eq_of_toNat_eq
  have hpow : 2 ^ w ≤ 2 ^ 64 := Nat.pow_le_pow_right (by decide) hw
  have hlt : v % 2 ^ w < 2 ^ w := Nat.mod_lt _ (Nat.two_pow_pos w)
  rw [BitVec.toNat_signExtend, BitVec.toNat_setWidth_of_le hw, BitVec.msb_eq_decide, BitVec.toNat_ofNat, sextN]
  by_cases hneg : v % 2 ^ w ≥ 2 ^ (w - 1)
  · rw [if_pos hneg, if_pos (by simpa using hneg), BitVec.toNat_ofNat, Nat.mod_eq_of_lt (by omega)]
  · rw [if_neg hneg, if_neg (by simpa using hneg), BitVec.toNat_ofNat, Nat.mod_eq_of_lt (by omega), Nat.add_zero]

/-! ### An access of one part in the own Bench -/

section
variable {s : State} {th : ThreadId} {c : CtxId} {va : Word}

theorem window_own (hva : va.toNat < 0x100000) : s.window c va = some (.own va.toNat) := by
  simp [State.window, hva]

theorem inControl_own (hva : va.toNat < 0x100000) : inControl va = false := by
  rw [inControl, Bool.and_eq_false_iff, decide_eq_false_iff_not]
  exact .inl (by omega)

theorem checkPart_own (s : State) (th : ThreadId) (c : CtxId) (k : AKind) (align : Nat) (failed : Option (Nat × Reason × Nat)) (p : Part)
    (hva : p.va.toNat < 0x100000) (halign : p.va.toNat % align = 0) :
    s.checkPart th c k align failed p = .ok (benchLoc (thCore th) p.va.toNat) true := by
  simp [State.checkPart, window_own hva, halign]

/-- A scalar access in the own Bench passes its checks and is served there. -/
theorem access_own (s : State) (k : AKind) (p : Part) (f : AccEnd) (hc : s.thCtx th = some c)
    (hf : f = .st ∨ ∃ rd len signed, f = .ld rd len signed) (hva : p.va.toNat < 0x100000) (halign : p.va.toNat % p.len = 0) :
    s.access th { kind := k, parts := [p], fin := f } =
      s.serveOwn th c { kind := k, parts := [p], fin := f } [benchLoc (thCore th) p.va.toNat] := by
  have hcheck := checkPart_own s th c k p.len none p hva halign
  obtain rfl | ⟨rd, len, signed, rfl⟩ := hf <;>
    simp [State.access, hc, State.checkParts, partAlign, hcheck, State.serve, AccEnd.badTile]

theorem behind_one {t : Thread} {loc : Nat} (hbusy : t.benchBusy = false) (hstores : t.storesTo (loc / 64) = false) :
    t.behind [loc] = false := by
  simp [Thread.behind, hbusy, hstores]

/-- A scalar load that the own Bench serves: its register is written, and it retires. -/
theorem serveOwn_load (s : State) (c : CtxId) (p : Part) (rd : Reg) (len : Nat) (signed : Bool) (loc : Nat) (hbusy : (s.thr th).benchBusy = false)
    (hpromised : (s.core (thCore th)).promised = false) (hstores : (s.thr th).storesTo (loc / 64) = false)
    (hpoison : s.poisonIn loc p.len = false) :
    s.serveOwn th c { kind := .load, parts := [p], fin := .ld rd len signed } [loc] =
      s.write1 th rd (if signed then sextN (8 * len) (leNat (memBytes s.mem loc p.len))
        else BitVec.ofNat 64 (leNat (memBytes s.mem loc p.len))) := by
  rw [State.serveOwn, behind_one hbusy hstores, hpromised]
  simp only [Bool.false_eq_true, if_false, List.zip_cons_cons, List.zip_nil_left, List.findIdx?_cons, hpoison,
    List.findIdx?_nil, Option.map_none]
  rfl

end

section
variable {s : State} {th : ThreadId} {rd rs1 : Reg} {imm : BitVec 16}

/-- A scalar load from the own Bench. -/
theorem loadInstr_own (h : s.issues th [rd, rs1]) (len : Nat) (signed : Bool) {va : Word}
    (hva : (s.thr th).xr rs1 + immS imm = va) (hlen : 0 < len) (hin : va.toNat + len ≤ 0x100000)
    (halign : va.toNat % len = 0) (hbusy : (s.thr th).benchBusy = false)
    (hpromised : (s.core (thCore th)).promised = false)
    (hpoison : s.poisonIn (benchLoc (thCore th) va.toNat) len = false)
    (hstores : (s.thr th).storesTo (benchLoc (thCore th) va.toNat / 64) = false) :
    loadInstr th len signed rd rs1 imm s = .next (s.retires th ((s.thr th).setX rd
      (if signed then sextN (8 * len) (leNat (memBytes s.mem (benchLoc (thCore th) va.toNat) len))
        else BitVec.ofNat 64 (leNat (memBytes s.mem (benchLoc (thCore th) va.toNat) len)))) ((s.thr th).pc + 4)) := by
  obtain ⟨c, hc⟩ := h.context
  have hown : va.toNat < 0x100000 := by omega
  have hcore : ((s.noted th).core (thCore th)).promised = false := by
    simpa [State.noted, State.core, smod] using hpromised
  have hserved := serveOwn_load (s.noted th) c { va := va, len := len, idx := 0 } rd len signed _ hbusy hcore
    hstores hpoison
  rw [loadInstr, issueWith_issues _ _ _ _ h]
  simp only [noted_thr, hva, inControl_own hown, Bool.false_eq_true, if_false]
  rw [access_own (s.noted th) .load _ _ hc (.inr ⟨_, _, _, rfl⟩) hown halign, hserved, write1_spec]
  rfl

end

/-- Settles O7: every load is `loadInstr_own` at its length, its value extended as `sextN_signExtend` says. -/
theorem ownBenchLoadResults : Obligations.OwnBenchLoadResults := by
  unfold Obligations.OwnBenchLoadResults
  intro s th rd rs1 imm h hbusy hpromised t va loc value loads
  have own (len : Nat) (signed : Bool) (hlen : 0 < len) (hin : va + len ≤ 0x100000) (halign : va % len = 0)
      (hpoison : s.poisonIn loc len = false) (hstores : t.storesTo (loc / 64) = false) :=
    loadInstr_own h len signed (add_immS _ _) hlen hin halign hbusy hpromised hpoison hstores
  have signedOwn (len : Nat) (hlen : 0 < len) (hwide : 8 * len ≤ 64) (hin : va + len ≤ 0x100000) (halign : va % len = 0)
      (hpoison : s.poisonIn loc len = false) (hstores : t.storesTo (loc / 64) = false) :
      loadInstr th len true rd rs1 imm s = .next (s.retires th (t.setX rd
        ((BitVec.ofNat (8 * len) (value len)).signExtend 64)) (t.pc + 4)) := by
    rw [own len true hlen hin halign hpoison hstores, if_pos rfl, sextN_signExtend _ _ hwide]; rfl
  exact ⟨signedOwn 1 (by decide) (by decide), own 1 false (by decide), signedOwn 2 (by decide) (by decide),
    own 2 false (by decide), signedOwn 4 (by decide) (by decide), own 4 false (by decide), own 8 false (by decide)⟩

end Sys2Proof.Machine
end

section
/-!
PROOFS. ERET, IFLUSH, CSRR, CSRW and HALT where they may run (R46, R53, R56, R65, R363).
-/

namespace Sys2Proof.Machine

section
variable {s : State} {th : ThreadId}

/-- A system instruction at a level that may run it. -/
theorem systemInstr_runs (fn : Nat) (sup : Bool) (act : State → State) {rs : List Reg} (h : s.issues th rs)
    (hlevel : sup = true → (s.thr th).super = true) :
    systemInstr th fn sup 0 0 0 act s = .next (act (s.noted th)) := by
  rw [systemInstr, h.run [] (List.nil_subset _)]
  cases sup with
  | false => simp
  | true => simp [hlevel rfl]

/-- CORE_STATUS after ERET: LEVEL and IE take PLEVEL and PIE, INEXC is 0. -/
theorem statusReturn_eq (st : BitVec 6) : statusReturn st = st &&& 0b101100 ||| (st >>> 2 &&& 0b11) := by
  revert st; decide

theorem noted_setCore (s : State) (th : ThreadId) :
    s.noted th = s.setCore (thCore th) { s.core (thCore th) with last := BitVec.ofNat 2 (thT th) } := rfl

theorem withCore_setCore (s : State) (th : ThreadId) (f : Core → Core) :
    s.withCore th f = s.setCore (thCore th) (f (s.core (thCore th))) := rfl

/-- An instruction that changes its core by f and retires, where f does not look at the thread that issued last. -/
theorem modCore_retire (f : Core → Core) (hlast : ∀ k l, f { k with last := l } = { f k with last := l }) :
    ((s.noted th).modCore (thCore th) f).retire th = (s.withCore th f).retires th (s.thr th) ((s.thr th).pc + 4) := by
  have hcore : (s.noted th).modCore (thCore th) f = (s.withCore th f).noted th := by
    rw [State.modCore, noted_setCore, State.setCore_core, hlast, State.setCore_setCore, noted_setCore, withCore_setCore,
      State.setCore_core, State.setCore_setCore]
  have hself : ((s.withCore th f).noted th).thr th = s.thr th := rfl
  rw [State.retire, hcore, retireTo_goesTo, hself]; rfl

/-- Numbers below 0x80 are per thread, the others core-wide. -/
theorem csrPerThread_of_lt {n : Nat} (hn : csrAllocated n = true) : csrPerThread n = decide (n < 0x80) := by
  simp only [csrAllocated, csrPerThread, csrCoreWide, Bool.or_eq_true, Bool.and_eq_true, decide_eq_true_eq, beq_iff_eq] at hn ⊢
  by_cases h : n < 0x80 <;> simp only [h, decide_true, decide_false, Bool.or_eq_true, Bool.or_eq_false_iff, Bool.and_eq_true,
    Bool.and_eq_false_iff, decide_eq_true_eq, decide_eq_false_iff_not] <;> omega

theorem Core.csrWrite_last (k : Core) (l : BitVec 2) (n : Nat) (v : Word) :
    ({ k with last := l } : Core).csrWrite n v = { k.csrWrite n v with last := l } := by
  unfold Core.csrWrite; split <;> rfl

theorem Thread.csrWrite_pc (t : Thread) (n : Nat) (v : Word) : (t.csrWrite n v).pc = t.pc := by
  unfold Thread.csrWrite; split <;> rfl

/-- No register that CSRR reads shows which thread issued last. -/
theorem noted_csrRead (n : Nat) : (s.noted th).csrRead th n = s.csrRead th n := by
  unfold State.csrRead
  split <;> simp only [State.noted, State.core, smod, sget_sset] <;> rfl

/-- CSRW of an allocated number at SUPERVISOR level, with nothing in flight. -/
theorem execCsrw_runs {rs1 : Reg} {csr : BitVec 16} (h : s.issues th [rs1]) (hn : csrAllocated csr.toNat = true)
    (hlevel : (s.thr th).super = true) (hfly : (s.thr th).flying = false) :
    execCsrw th 0 rs1 csr s = .next (((s.noted th).csrWrite th csr.toNat ((s.thr th).xr rs1)).retire th) := by
  rw [execCsrw, issueWith_issues _ _ _ _ h]
  simp [hn, hlevel, hfly]

theorem execCsrr_runs {rd : Reg} {csr : BitVec 16} (h : s.issues th [rd]) (hn : csrAllocated csr.toNat = true)
    (hlevel : (s.thr th).super = true ∨ csrUser csr.toNat = true) (hfly : (s.thr th).flying = false) :
    execCsrr th rd 0 csr s = .next (s.retires th ((s.thr th).setX rd (s.csrRead th csr.toNat)) ((s.thr th).pc + 4)) := by
  have hmay : (!(s.thr th).super && !csrUser csr.toNat) = false := by
    rcases hlevel with hl | hl <;> simp [hl]
  rw [execCsrr, issueWith_issues _ _ _ _ h]
  simp only [hn, hmay, hfly, noted_thr, bne_self_eq_false, Bool.not_true, Bool.or_self, Bool.and_false, Bool.false_eq_true,
    if_false]
  rw [noted_csrRead, write1_spec]

end

/-! ### HALT -/

theorem State.reply_quadOwner (s : State) (r : Reply) : (s.reply r).quadOwner = s.quadOwner := by
  unfold State.reply State.gateOutOn State.gateOut
  split_ifs <;> rfl

theorem State.supersede_quadOwner (s : State) (c : CtxId) (new : Option CtxState) :
    (s.supersede c new).quadOwner = s.quadOwner := by
  unfold State.supersede
  split
  · rfl
  · unfold State.endCmd
    split
    · exact State.record_quadOwner _ _
    · exact (State.reply_quadOwner _ _).trans (State.record_quadOwner _ _)

theorem State.setCtxState_quadOwner (s : State) (c : CtxId) (new : CtxState) (k : Option CmdExec) :
    (s.setCtxState c new k).quadOwner = s.quadOwner := State.record_quadOwner _ _

theorem State.setCtxState_st (s : State) (c : CtxId) (new : CtxState) (k : Option CmdExec) :
    ((s.setCtxState c new k).ctx c).st = new := by
  simp [State.setCtxState, State.modCtx]

/-- An ABORT changes the channel and what is on its way to the tallies. -/
theorem State.strmAbortChan_frame (s : State) (q ch : Nat) :
    ∃ e y, s.strmAbortChan q ch = { s with strm := e, sync := y } := by
  have drained (t : State) : ∃ e, t.strmDrain q ch = { t with strm := e } := by
    unfold State.strmDrain; dsimp only; split
    · exact ⟨_, rfl⟩
    · exact ⟨_, rfl⟩
  have withdrawn (t : State) : ∃ y, t.strmWithdraw q ch = { t with sync := y } := by
    unfold State.strmWithdraw; dsimp only; split
    · split
      · exact ⟨_, rfl⟩
      · exact ⟨_, rfl⟩
    · exact ⟨_, rfl⟩
  unfold State.strmAbortChan
  dsimp only
  split
  · exact ⟨_, _, rfl⟩
  · split
    · obtain ⟨y, hy⟩ := withdrawn (s.modChan q ch fun x => { x.orphan with st := .draining, pauseReq := false })
      obtain ⟨e, he⟩ := drained { s.modChan q ch (fun x => { x.orphan with st := .draining, pauseReq := false }) with sync := y }
      rw [hy, he]; exact ⟨_, _, rfl⟩
    · obtain ⟨e, he⟩ := drained (s.modChan q ch fun x => { x.orphan with st := .draining, pauseReq := false })
      rw [he]; exact ⟨_, _, rfl⟩

/-- The orders of DRAINING, where every thread of the context has halted: threads, memory and the context's state stand. -/
theorem State.drainOrders_halted (s : State) (c : CtxId) (h : ∀ th ∈ s.threadsOf c, (s.thr th).st = .halted) :
    (s.drainOrders c).threads = s.threads ∧ (s.drainOrders c).mem = s.mem ∧ ((s.drainOrders c).ctx c).st = (s.ctx c).st := by
  have hstop : (s.threadsOf c).foldl (fun s th => s.orderStop th) s = s := by
    have (l : List ThreadId) (hl : ∀ th ∈ l, (s.thr th).st = .halted) : l.foldl (fun s th => s.orderStop th) s = s := by
      induction l with
      | nil => rfl
      | cons th l ih =>
        have hth : s.orderStop th = s := by rw [State.orderStop, hl th List.mem_cons_self]; rfl
        rw [List.foldl_cons, hth, ih fun x hx => hl x (List.mem_cons_of_mem _ hx)]
    exact this _ h
  have habort : (s.eachChan c fun s q ch => s.strmAbortChan q ch).threads = s.threads ∧
      (s.eachChan c fun s q ch => s.strmAbortChan q ch).mem = s.mem ∧
      (s.eachChan c fun s q ch => s.strmAbortChan q ch).ctxs = s.ctxs :=
    foldl_keeps (fun u => u.threads = s.threads ∧ u.mem = s.mem ∧ u.ctxs = s.ctxs)
      (fun u q hu => foldl_keeps (fun u => u.threads = s.threads ∧ u.mem = s.mem ∧ u.ctxs = s.ctxs)
        (fun u ch hu => by obtain ⟨e, y, he⟩ := u.strmAbortChan_frame q ch; simpa only [he] using hu) _ hu) _ ⟨rfl, rfl, rfl⟩
  obtain ⟨hthreads, hmem, hctxs⟩ := habort
  unfold State.drainOrders
  dsimp only
  rw [hstop]
  refine ⟨hthreads, hmem, ?_⟩
  have hctx : (s.eachChan c fun s q ch => s.strmAbortChan q ch).ctx c = s.ctx c := by simp only [State.ctx, hctxs]
  simp [State.modFeed, State.modCtx, hctx]

/-- A thread that holds no error of a store halts, and its context goes on. -/
theorem enterHalted_clean (s : State) (th : ThreadId) (t : Thread) (hq : t.asyncQ = []) :
    (s.setThr th t).enterHalted th = ((s.leaveArrays th).leaveSlots th).setThr th
      { t with st := .halted, why := .none, stopReq := false, pauseReq := false, asyncQ := [] } := by
  have hleave : ((s.setThr th t).leaveArrays th).leaveSlots th = ((s.leaveArrays th).leaveSlots th).setThr th t := rfl
  simp only [State.enterHalted, State.setThr_thr, hq, hleave, State.modThr_eq, State.setThr_setThr]

section
variable {s : State} {th : ThreadId} {c : CtxId}

/-- s with thread th halted after its HALT. -/
def State.haltedAt (s : State) (th : ThreadId) : State :=
  (((s.noted th).leaveArrays th).leaveSlots th).setThr th
    { (s.thr th).counted with st := .halted, why := .none, pc := (s.thr th).pc + 4 }

theorem State.haltedAt_thr (s : State) (th : ThreadId) : (s.haltedAt th).thr th =
    { (s.thr th).counted with st := .halted, why := .none, pc := (s.thr th).pc + 4 } := State.setThr_thr _ _ _

theorem State.haltedAt_thr_ne (s : State) {th th' : ThreadId} (h : th' ≠ th) : (s.haltedAt th).thr th' = s.thr th' :=
  State.setThr_thr_ne _ _ _ _ h

/-- HALT: the thread halts, and the last one of a RUNNING context drains it. -/
theorem exec_halt_runs {rs : List Reg} (h : s.issues th rs) (hfly : (s.thr th).flying = false)
    (hq : (s.thr th).asyncQ = []) (hc : s.thCtx th = some c) :
    exec (.halt th 0 0 0) s = .next
      (if (s.threadsOf c).all fun x => ((s.haltedAt th).thr x).st == .halted then
        ((((s.haltedAt th).modCtxRst c fun r => { r with purgeWaits := false }).supersede c (some .draining)).setCtxState c
          .draining none).drainOrders c
      else s.haltedAt th) := by
  obtain ⟨-, hpause, hstop, -, -, c', hc', hruns⟩ := canIssue_spec s th h.1
  cases hc.symm.trans hc'
  have hrunning : ((s.haltedAt th).ctx c).st = .running := by
    rw [State.ctxRuns, Bool.and_eq_true, beq_iff_eq] at hruns
    exact hruns.1
  have hhalted : ((s.noted th).setThr th { s.thr th with
      pc := (s.thr th).pc + 4, csr := { (s.thr th).csr with instret := (s.thr th).csr.instret + 1 } }).enterHalted th =
      s.haltedAt th := by
    refine (enterHalted_clean (s.noted th) th { (s.thr th).counted with pc := (s.thr th).pc + 4 } hq).trans (congrArg _ ?_)
    simp only [Thread.counted, ← hq, hpause, hstop]
  rw [exec_halt, execHalt, systemInstr_runs 2 false _ h (by simp)]
  have hctx : (s.haltedAt th).thCtx th = some c := hc
  simp only [noted_thr, hfly, Bool.false_eq_true, if_false, State.haltThread, State.modThr_eq, hhalted, hctx, hrunning,
    beq_self_eq_true, Bool.true_and]
  rfl

end

/-- Settles O5: each instruction at a level that may run it acts on its thread or its core and retires; the last HALT is
`exec_halt_runs` with every thread of the context halted, and `drainOrders_halted` says what the drain then leaves. -/
theorem systemInstructionResults : Obligations.SystemInstructionResults := by
  unfold Obligations.SystemInstructionResults
  intro s th rd rs1 csr h t
  have hrd : s.issues th [rd] := h.mono (by simp)
  have hrs1 : s.issues th [rs1] := h.mono (by simp)
  refine ⟨fun hsuper => ⟨?_, ?_, fun hn hfly => ⟨fun hlow => ?_, fun hhigh => ?_⟩⟩, fun hlevel hn hfly => ?_,
    fun c hfly hq hc => ⟨fun hothers => ?_, fun hothers => ?_⟩⟩
  · rw [exec_eret, execEret, systemInstr_runs 1 true _ h fun _ => hsuper]
    simp only [noted_thr, statusReturn_eq]
    rw [noted_retireTo]
  · rw [exec_iflush, execIflush, systemInstr_runs 3 true _ h fun _ => hsuper]
    exact congrArg _ (modCore_retire _ fun _ _ => rfl)
  · rw [exec_csrw, execCsrw_runs hrs1 hn hsuper hfly, State.csrWrite, csrPerThread_of_lt hn, decide_eq_true hlow, if_pos rfl,
      State.modThr_eq, State.retire, State.setThr_thr, Thread.csrWrite_pc, noted_retireTo]
    rfl
  · rw [exec_csrw, execCsrw_runs hrs1 hn hsuper hfly, State.csrWrite, csrPerThread_of_lt hn,
      decide_eq_false (Nat.not_lt.mpr hhigh), if_neg Bool.false_ne_true]
    exact congrArg _ (modCore_retire _ fun k l => k.csrWrite_last l _ _)
  · refine (exec_csrr ..).trans (execCsrr_runs hrd hn (hlevel.imp id fun hmem => ?_) hfly)
    simp only [List.mem_cons, List.not_mem_nil, or_false] at hmem
    obtain rfl | rfl | rfl := hmem <;> decide
  · obtain ⟨th', hth', hne, hst⟩ := hothers
    have hnot : ((s.threadsOf c).all fun x => ((s.haltedAt th).thr x).st == .halted) = false := by
      rw [List.all_eq_false]
      exact ⟨th', hth', by simpa [State.haltedAt_thr_ne s hne] using hst⟩
    rw [exec_halt_runs h hfly hq hc, hnot]; rfl
  · have hall : ∀ x ∈ s.threadsOf c, ((s.haltedAt th).thr x).st = .halted := fun x hx => by
      by_cases hx' : x = th
      · rw [hx', State.haltedAt_thr]
      · rw [State.haltedAt_thr_ne s hx']; exact hothers x hx hx'
    have hnow : ((s.threadsOf c).all fun x => ((s.haltedAt th).thr x).st == .halted) = true := by
      simpa [List.all_eq_true] using hall
    have beside : BesideData fun s : State => ((s.modCtxRst c fun r => { r with purgeWaits := false }).supersede c
        (some .draining)).setCtxState c .draining none :=
      ((State.modCtx_over c _).comp (State.supersede_over c _)).comp (State.setCtxState_over c _ _)
    obtain ⟨hthreads, -, hmem, -⟩ := beside.keeps (s.haltedAt th)
    generalize hv : ((((s.haltedAt th).modCtxRst c fun r => { r with purgeWaits := false }).supersede c
        (some .draining)).setCtxState c .draining none) = v at hthreads hmem
    have hthr (x : ThreadId) : v.thr x = (s.haltedAt th).thr x := by simp only [State.thr, hthreads]
    have howner : v.quadOwner = s.quadOwner := by
      rw [← hv, State.setCtxState_quadOwner, State.supersede_quadOwner]; rfl
    have hthreadsOf : v.threadsOf c = s.threadsOf c := by
      simp only [State.threadsOf, State.coresOf, State.quadsOf, howner]
    obtain ⟨dthreads, dmem, dst⟩ := v.drainOrders_halted c fun x hx => by rw [hthr]; exact hall x (hthreadsOf ▸ hx)
    have hdrained : (v.drainOrders c).thr th = (s.haltedAt th).thr th := by
      rw [← hthr]; simp only [State.thr, dthreads]
    refine ⟨v.drainOrders c, by rw [exec_halt_runs h hfly hq hc, hnow, if_pos rfl, hv], ?_, ?_, ?_, ?_⟩
    · rw [dst, ← hv, State.setCtxState_st]
    · rw [hdrained, State.haltedAt_thr]
    · rw [hdrained, State.haltedAt_thr]
    · rw [dmem, hmem]; rfl

end Sys2Proof.Machine
end

section
/-!
PROOFS. A thread that comes to an instruction neither reads nor changes the bytes of memory and the poison marks (R44, R45, R55 to
R62): arrival works beside the memory.
-/

namespace Sys2Proof.Machine

@[simp] theorem State.atop_thr (s d : State) (th : ThreadId) : (s.atop d).thr th = s.thr th := id rfl
@[simp] theorem State.atop_thCtx (s d : State) (th : ThreadId) : (s.atop d).thCtx th = s.thCtx th := id rfl
@[simp] theorem State.atop_window (s d : State) (c : CtxId) (va : Word) : (s.atop d).window c va = s.window c va := id rfl
@[simp] theorem State.atop_slotFree (s d : State) (th : ThreadId) : (s.atop d).slotFree th = s.slotFree th := id rfl
@[simp] theorem State.atop_fetchCheck (s d : State) (th : ThreadId) (c : CtxId) (pc : Word) :
    (s.atop d).fetchCheck th c pc = s.fetchCheck th c pc := id rfl

section
variable (th : ThreadId)

theorem State.setThr_atop (t : Thread) : BesideMemory fun s => s.setThr th t := fun _ _ => rfl
theorem State.modThr_atop (f : Thread → Thread) : BesideMemory fun s => s.modThr th f := fun _ _ => rfl
theorem State.leaveSlots_atop : BesideMemory fun s => s.leaveSlots th := fun _ _ => rfl

theorem State.coreRecord_atop (code : Reason) (sev : Byte) (obj : BitVec 32) (x : BitVec 192) :
    BesideMemory fun s => s.coreRecord th code sev obj x := (State.coreRecord_over th code sev obj x).besideMemory

theorem State.ctxFault_atop (c : CtxId) (code : Reason) : BesideMemory fun s => s.ctxFault c code :=
  (State.ctxFault_over c code).besideMemory

/-! ### Lines and slots -/

theorem State.permDrop_atop (c : CtxId) (va : Word) (reason : Reason) : BesideMemory fun s => s.permDrop th c va reason := by
  intro s d
  unfold State.permDrop
  simp only [State.atop_window]
  split
  · split <;> rfl
  · rfl

theorem State.markUser_atop (pc : Word) : BesideMemory fun s => s.markUser th pc := by
  intro s d
  by_cases h : (s.thr th).super <;> simp only [State.markUser, State.atop_thr, h, if_true, if_false, Bool.false_eq_true]
  rfl

theorem State.askLine_atop : BesideMemory fun s => s.askLine th := by
  intro s d
  simp only [State.askLine, State.atop_thr, State.atop_slotFree]
  split_ifs <;> rfl

theorem State.fetchNext_atop (r : FetchRes) : BesideMemory fun s => s.fetchNext th r := by
  intro s d
  cases r with
  | held mark =>
    cases mark with
    | true =>
      have ready := State.modThr_atop th fun t => { t with st := .ready, why := .none }
      exact ((State.markUser_atop th (s.thr th).pc).comp ready) s d
    | false => rfl
  | _ => exact State.askLine_atop th s d

/-! ### Boundaries -/

theorem State.storeError_atop (code : Reason) (va : Word) : BesideMemory fun s => s.storeError th code va := by
  intro s d
  by_cases h : (s.thr th).st == .halted <;>
    simp only [State.storeError, State.atop_thr, State.atop_thCtx, h, if_true, if_false, Bool.false_eq_true]
  · cases s.thCtx th with
    | none => rfl
    | some c => exact (State.coreRecord_atop th _ _ _ _).comp (State.ctxFault_atop c code) s d
  · rfl

theorem State.enterHalted_atop : BesideMemory fun s => s.enterHalted th := by
  intro s d
  simp only [State.enterHalted, State.atop_thr]
  cases (s.thr th).asyncQ with
  | nil => rfl
  | cons e q => exact State.storeError_atop th e.1 e.2 (((s.leaveArrays th).leaveSlots th).modThr th fun t => { t with
      st := .halted, why := .none, stopReq := false, pauseReq := false, asyncQ := [] }) d

theorem State.settle_atop : BesideMemory fun s => s.settle th := by
  intro s d
  simp only [State.settle, State.atop_thr]
  split_ifs
  · rfl
  · exact State.enterHalted_atop th s d
  · rfl
  · rfl
  · rfl

/-! ### Exceptions -/

theorem State.noHandler_atop (pc tval : Word) : BesideMemory fun s => s.noHandler th pc tval := by
  intro s d
  simp only [State.noHandler, State.atop_thr]
  generalize (if (s.thr th).csr.tvec == 0 then exeNoHandler else exeDoubleFault) = code
  have hrecord : (s.atop d).coreRecord th code sevCtxFatal noObj (coreDetail tval pc) =
      (s.coreRecord th code sevCtxFatal noObj (coreDetail tval pc)).atop d := State.coreRecord_atop th _ _ _ _ s d
  simp only [hrecord, State.atop_thCtx]
  split
  · exact State.ctxFault_atop _ _ _ d
  · rfl

theorem State.badHandler_atop (code : Reason) (extra : BitVec 192) : BesideMemory fun s => s.badHandler th code extra :=
  fun s d => (State.coreRecord_atop th _ _ _ _).comp (State.noHandler_atop th (s.thr th).pc (s.thr th).pc) s d

theorem State.fetchHandler_atop (c : CtxId) : BesideMemory fun s => s.fetchHandler th c := by
  intro s d
  simp only [State.fetchHandler, State.atop_thr, State.atop_fetchCheck]
  split
  · exact State.badHandler_atop th _ _ s d
  · exact (State.permDrop_atop th _ _ _).comp (State.badHandler_atop th _ _) s d
  · exact (State.fetchNext_atop th _).comp (State.settle_atop th) s d

theorem State.take_atop (c : Cause) (reason : Reason) (tval : Word) (intr : Bool) :
    BesideMemory fun s => s.take th c reason tval intr := by
  intro s d
  by_cases h : (s.thr th).inexc || (s.thr th).csr.tvec == 0 <;>
    simp only [State.take, State.atop_thr, h, if_true, if_false, Bool.false_eq_true]
  · exact State.noHandler_atop th _ _ s d
  · generalize ht : ({ s.thr th with pc := _, pend := _, wait := _, exc := _, why := _, st := _, csr := _ } : Thread) = t
    have hctx (u : State) : ((u.leaveSlots th).setThr th t).thCtx th = u.thCtx th := rfl
    simp only [hctx, State.atop_thCtx]
    cases s.thCtx th with
    | none => rfl
    | some x => exact ((State.leaveSlots_atop th).comp (State.setThr_atop th t)).comp (State.fetchHandler_atop th x) s d

/-- An exception that leaves nothing beside the handler's registers. -/
theorem State.fire_atop (e : Exc) (he : e.effects = []) : BesideMemory fun s => s.fire th e := by
  intro s d
  by_cases h : e.logs <;>
    simp only [State.fire, he, List.foldl_nil, State.atop_thr, h, if_true, if_false, Bool.false_eq_true]
  · exact (State.coreRecord_atop th _ _ _ _).comp (State.take_atop th _ _ _ _) s d
  · exact State.take_atop th _ _ _ _ s d

theorem State.fetchExc_atop (c : Cause) (reason : Reason) (extra : BitVec 192) (rec : Bool) :
    BesideMemory fun s => s.fetchExc th c reason extra rec := by
  intro s d
  by_cases h : (s.thr th).flying || (s.thr th).asyncDue <;>
    simp only [State.fetchExc, State.atop_thr, h, if_true, if_false, Bool.false_eq_true]
  · rfl
  · exact State.fire_atop th _ rfl s d

/-! ### Arrival and retirement -/

theorem State.fetchHere_atop : BesideMemory fun s => s.fetchHere th := by
  intro s d
  simp only [State.fetchHere, State.atop_thr, State.atop_thCtx, State.atop_fetchCheck]
  split
  · rfl
  · split
    · exact State.fetchExc_atop th _ _ _ _ s d
    · exact (State.permDrop_atop th _ _ _).comp (State.fetchExc_atop th _ _ _ _) s d
    · exact (State.fetchNext_atop th _).comp (State.settle_atop th) s d

theorem State.arrive_atop (pc : Word) : BesideMemory fun s => s.arrive th pc :=
  ((State.leaveSlots_atop th).comp (State.modThr_atop th _)).comp (State.fetchHere_atop th)

theorem State.retireTo_atop (pc : Word) : BesideMemory fun s => s.retireTo th pc :=
  (State.modThr_atop th _).comp (State.arrive_atop th pc)

theorem State.retire_atop : BesideMemory fun s => s.retire th := fun s d => State.retireTo_atop th ((s.thr th).pc + 4) s d

end

end Sys2Proof.Machine
end

section
/-!
PROOFS. Stores to the thread's own Bench (R196, R200, R215, R217, R218): the cells of a stored value, the unit that they cover, and
the frame of a scalar store.
-/

namespace Sys2Proof.Machine

/-! ### The cells of a stored value -/

theorem leBytes_eq_map (v n : Nat) : leBytes v n = (List.range n).map fun i => BitVec.ofNat 8 (v / 256 ^ i) := by
  induction n generalizing v with
  | zero => rfl
  | succ n ih =>
    rw [leBytes, ih, List.range_succ_eq_map, List.map_cons, List.map_map, Nat.pow_zero, Nat.div_one]
    congr 2
    funext i
    rw [Function.comp_apply, Nat.div_div_eq_div_mul, Nat.pow_succ']

/-- The cells of a value of len bytes at loc, little-endian. -/
def valueCells (v len loc : Nat) : List (Nat × Byte) := (List.range len).map fun i => (loc + i, BitVec.ofNat 8 (v / 256 ^ i))

theorem partCells_leBytes (va : Word) (v len loc : Nat) :
    partCells { va := va, len := len, idx := 0, data := leBytes v len } loc = valueCells v len loc := by
  simp [partCells, leBytes_eq_map, valueCells, List.zip_eq_zipWith, List.zipWith_map_right, List.zipWith_self]

section
variable {v len loc : Nat}

theorem mem_valueCells {x : Nat × Byte} :
    x ∈ valueCells v len loc ↔ loc ≤ x.1 ∧ x.1 < loc + len ∧ x.2 = BitVec.ofNat 8 (v / 256 ^ (x.1 - loc)) := by
  obtain ⟨a, b⟩ := x
  simp only [valueCells, List.mem_map, List.mem_range, Prod.mk.injEq]
  constructor
  · rintro ⟨i, hi, rfl, rfl⟩
    exact ⟨by omega, by omega, by rw [Nat.add_sub_cancel_left]⟩
  · rintro ⟨hlo, hhi, hb⟩
    exact ⟨a - loc, by omega, by omega, hb.symm⟩

theorem valueCells_any (a : Nat) : ((valueCells v len loc).any fun c => c.1 == a) = true ↔ loc ≤ a ∧ a < loc + len := by
  simp only [List.any_eq_true, beq_iff_eq]
  constructor
  · rintro ⟨x, hx, rfl⟩
    obtain ⟨hlo, hhi, -⟩ := mem_valueCells.mp hx
    exact ⟨hlo, hhi⟩
  · exact fun ⟨hlo, hhi⟩ => ⟨(a, BitVec.ofNat 8 (v / 256 ^ (a - loc))), mem_valueCells.mpr ⟨hlo, hhi, rfl⟩, rfl⟩

theorem valueCells_nodup : ((valueCells v len loc).map Prod.fst).Nodup := by
  rw [valueCells, List.map_map]
  exact List.nodup_range.map fun i j (h : loc + i = loc + j) => by omega

/-- The bytes of memory after a value is written. -/
theorem memGet_pokeValue (s : State) (h : Memory.wf s.mem = true) (a : Nat) :
    memGet (s.pokeCells (valueCells v len loc)).mem a =
      if loc ≤ a ∧ a < loc + len then BitVec.ofNat 8 (v / 256 ^ (a - loc)) else memGet s.mem a := by
  split
  · next ha =>
    exact s.memGet_pokeCells _ h valueCells_nodup (a, _) (mem_valueCells.mpr ⟨ha.1, ha.2, rfl⟩)
  · next ha =>
    refine s.memGet_pokeCells_ne _ h a fun x hx e => ha ?_
    obtain ⟨hlo, hhi, -⟩ := mem_valueCells.mp hx
    exact e ▸ ⟨hlo, hhi⟩

end

/-! ### Units of a Bench -/

section
variable {v len loc : Nat}

/-- The Bench of a thread's core holds the addresses of its own window. -/
theorem bench_of_own (th : ThreadId) {va len : Nat} (hin : va + len ≤ 0x100000) (a : Nat) (hlo : benchLoc (thCore th) va ≤ a)
    (hhi : a < benchLoc (thCore th) va + len) : isBench a = true := by
  have hth : th.toNat < 2 ^ 13 := th.isLt
  simp only [benchLoc, thCore] at hlo hhi
  simp only [isBench, Bool.and_eq_true, decide_eq_true_eq]
  omega

theorem unitBytes_bench {l : Nat} (h : isBench l = true) : unitBytes l = 8 := by simp [unitBytes, h]

/-- Every byte of a unit is among the cells only where a store of 8 bytes writes that unit. -/
theorem covers_iff (v : Nat) (hlen : len ≤ 8) (hbench : isBench loc = true) (u : Nat) :
    ((List.range (unitBytes u)).all fun i => (valueCells v len loc).any fun c => c.1 == u + i) = true ↔ len = 8 ∧ u = loc := by
  have hunit : unitBytes u = 8 ∨ unitBytes u = 64 := by unfold unitBytes; split <;> simp
  simp only [List.all_eq_true, List.mem_range, valueCells_any]
  constructor
  · intro h
    have hfirst := h 0 (by omega)
    have hlast := h 7 (by omega)
    omega
  · rintro ⟨rfl, rfl⟩ i hi
    rw [unitBytes_bench hbench] at hi
    omega

/-- The poison marks after a value is written: a store of a whole unit clears its mark. -/
theorem mem_poison_pokeValue (s : State) (hlen : len ≤ 8) (hbench : isBench loc = true) (m : Nat) :
    m ∈ (s.pokeCells (valueCells v len loc)).poison ↔ m ∈ s.poison ∧ ¬ (len = 8 ∧ m = loc) := by
  rw [← covers_iff v hlen hbench m]
  simp only [State.pokeCells, List.mem_filter, Bool.not_eq_true', Bool.not_eq_true]

/-- A Bench has no WRITTEN bits. -/
theorem pokeValue_written (s : State) (v : Nat) (hin : ∀ a, loc ≤ a → a < loc + len → isBench a = true) :
    (s.pokeCells (valueCells v len loc)).written = s.written := by
  have hnone : (valueCells v len loc).flatMap (fun c => blocksAt c.1 1) = [] := by
    rw [List.flatMap_eq_nil_iff]
    intro x hx
    obtain ⟨hlo, hhi, -⟩ := mem_valueCells.mp hx
    simp [blocksAt, hin x.1 hlo hhi]
  simp only [State.pokeCells, hnone]; rfl

/-- A write of a value to a Bench changes memory and poison marks alone. -/
theorem pokeValue_atop (s : State) (hin : ∀ a, loc ≤ a → a < loc + len → isBench a = true) :
    s.pokeCells (valueCells v len loc) = s.atop (s.pokeCells (valueCells v len loc)) := by
  have h := pokeValue_written s v hin
  simp only [State.pokeCells] at h
  simp only [State.pokeCells, State.atop, h]

/-- A store that meets no poisoned unit, or writes a unit whole, meets no error. -/
theorem badStorePart_none (s : State) (va : Word) (k : AKind) (f : AccEnd) (hin : ∀ a, loc ≤ a → a < loc + len → isBench a = true)
    (hpoison : s.poisonIn loc len = false ∨ (len = 8 ∧ loc % 8 = 0)) :
    s.badStorePart { kind := k, parts := [{ va := va, len := len, idx := 0, data := leBytes v len }], fin := f } [loc] =
      none := by
  have hcells : storeCells [{ va := va, len := len, idx := 0, data := leBytes v len }] [loc] = valueCells v len loc := by
    simp [storeCells, partCells_leBytes]
  simp only [State.badStorePart, hcells, List.zip_cons_cons, List.zip_nil_left, List.find?_eq_none, List.mem_singleton]
  rintro x rfl
  simp only [partCells_leBytes, List.any_eq_true, List.contains_iff_mem, List.mem_filter, not_exists, not_and]
  intro x hx
  obtain ⟨hlo, hhi, -⟩ := mem_valueCells.mp hx
  have hbench := hin x.1 hlo hhi
  have hunit : unitOf x.1 = x.1 / 8 * 8 := by rw [unitOf, unitBytes_bench hbench]
  have hubench : unitBytes (x.1 / 8 * 8) = 8 := by
    refine unitBytes_bench ?_
    simp only [isBench, Bool.and_eq_true, decide_eq_true_eq] at hbench ⊢
    omega
  rcases hpoison with hclean | ⟨rfl, halign⟩
  · intro hmem
    rw [hunit] at hmem
    have := List.any_eq_false.mp hclean _ hmem
    simp only [hubench, Bool.and_eq_true, decide_eq_true_eq] at this
    omega
  · intro hmem hbad
    have hloc : unitOf x.1 = loc := by omega
    rw [hloc, (covers_iff v (Nat.le_refl 8) (hin loc (Nat.le_refl _) (by omega)) loc).mpr ⟨rfl, rfl⟩] at hbad
    simp at hbad

end

/-! ### The store -/

section
variable {s : State} {th : ThreadId} {c : CtxId}

/-- A scalar store that the own Bench serves: its cells are written, and it retires. -/
theorem serveOwn_store (s : State) (c : CtxId) (va : Word) (v len loc : Nat) (hbusy : (s.thr th).benchBusy = false)
    (hpromised : (s.core (thCore th)).promised = false) (hstores : (s.thr th).storesTo (loc / 64) = false)
    (hin : ∀ a, loc ≤ a → a < loc + len → isBench a = true)
    (hpoison : s.poisonIn loc len = false ∨ (len = 8 ∧ loc % 8 = 0)) :
    s.serveOwn th c { kind := .store, parts := [{ va := va, len := len, idx := 0, data := leBytes v len }], fin := .st }
      [loc] = (s.pokeCells (valueCells v len loc)).retire th := by
  rw [State.serveOwn, behind_one hbusy hstores, hpromised]
  simp only [Bool.false_eq_true, if_false, badStorePart_none s va .store .st hin hpoison, State.storeOwn]
  simp [storeCells, partCells_leBytes]

/-- The retirement after a write of a value to a Bench: beside memory and poison marks it is the retirement without it. -/
theorem pokeValue_retire (v len loc : Nat) (hin : ∀ a, loc ≤ a → a < loc + len → isBench a = true) :
    (s.pokeCells (valueCells v len loc)).retire th = (s.retire th).atop (s.pokeCells (valueCells v len loc)) := by
  rw [pokeValue_atop s hin]
  exact State.retire_atop th s _

end

/-- A scalar store to the own Bench. -/
theorem storeInstr_own {s : State} {th : ThreadId} {rs2 rs1 : Reg} {imm : BitVec 16} (h : s.issues th [rs2, rs1]) (len : Nat)
    {va : Word} (hva : (s.thr th).xr rs1 + immS imm = va) (hlen : 0 < len) (hin : va.toNat + len ≤ 0x100000)
    (halign : va.toNat % len = 0) (hbusy : (s.thr th).benchBusy = false)
    (hpromised : (s.core (thCore th)).promised = false)
    (hpoison : s.poisonIn (benchLoc (thCore th) va.toNat) len = false ∨ len = 8)
    (hstores : (s.thr th).storesTo (benchLoc (thCore th) va.toNat / 64) = false) :
    storeInstr th len rs2 rs1 imm s = .next (((s.noted th).retire th).atop
      (s.pokeCells (valueCells ((s.thr th).xr rs2).toNat len (benchLoc (thCore th) va.toNat)))) := by
  obtain ⟨c, hc⟩ := h.context
  have hown : va.toNat < 0x100000 := by omega
  have hcore : ((s.noted th).core (thCore th)).promised = false := by
    rw [noted_setCore, State.setCore_core]; exact hpromised
  have hbench := bench_of_own th hin
  have hunit : s.poisonIn (benchLoc (thCore th) va.toNat) len = false ∨
      (len = 8 ∧ benchLoc (thCore th) va.toNat % 8 = 0) := hpoison.imp id fun e => ⟨e, by subst e; unfold benchLoc; omega⟩
  have hserved := serveOwn_store (s.noted th) c va ((s.thr th).xr rs2).toNat len _ hbusy hcore hstores hbench hunit
  rw [storeInstr, issueWith_issues _ _ _ _ h]
  simp only [noted_thr, hva, inControl_own hown, Bool.false_eq_true, if_false]
  rw [access_own (s.noted th) .store _ _ hc (.inl rfl) hown halign, hserved, pokeValue_retire _ _ _ hbench]
  rfl

/-- Settles O8: the cells of the stored value are written (`memGet_pokeValue`, `mem_poison_pokeValue`), and the retirement works
beside the memory (`pokeValue_retire`). -/
theorem ownBenchStoreFrame : Obligations.OwnBenchStoreFrame := by
  unfold Obligations.OwnBenchStoreFrame
  intro s th rs2 rs1 imm h hbusy hpromised hwf t va loc stores
  have own (i : Instr) (len : Nat) (hexec : exec i s = storeInstr th len rs2 rs1 imm s) (hlen : 0 < len) (hle : len ≤ 8) :
      stores i len := by
    intro hin halign hpoison hstores
    have hbench := bench_of_own th hin
    refine ⟨_, hexec.trans (storeInstr_own h len (add_immS _ _) hlen hin halign hbusy hpromised hpoison hstores), ?_,
      memGet_pokeValue s hwf, mem_poison_pokeValue s hle (hbench _ (Nat.le_refl _) (Nat.lt_add_of_pos_right hlen))⟩
    have hretires : (s.noted th).retire th = s.retires th t (t.pc + 4) := rfl
    rw [← hretires]
    exact (State.retire_atop th (s.noted th) s).symm
  exact ⟨own _ 1 (exec_stb ..) (by decide) (by decide), own _ 2 (exec_sth ..) (by decide) (by decide),
    own _ 4 (exec_stw ..) (by decide) (by decide), own _ 8 (exec_std ..) (by decide) (by decide)⟩

end Sys2Proof.Machine
end

section
/-!
PROOFS. The events of the memory units that a line fill, a register write, a promise, a hot bank and a scrub are (R44, R201, R215,
R216, R224, R225).
-/

namespace Sys2Proof.Machine

/-! ### Slots that come free -/

section
variable {s : State} {th : ThreadId}

/-- A READY thread with nothing pending waits for no slot. -/
theorem serveSlot_ready (hst : (s.thr th).st = .ready) (hpend : (s.thr th).pend = none) : s.serveSlot th = s := by
  simp [State.serveSlot, hst, hpend]

/-- The threads that are served for a slot leave a READY one, the lines of the caches and memory. -/
theorem pump_spares (s : State) (th : ThreadId) (g : Nat) (hst : (s.thr th).st = .ready) (hpend : (s.thr th).pend = none) :
    (s.pump g).thr th = s.thr th ∧ (∀ k, ((s.pump g).core k).icache = (s.core k).icache) ∧ (s.pump g).mem = s.mem := by
  refine foldl_keeps (fun u => u.thr th = s.thr th ∧ (∀ k, (u.core k).icache = (s.core k).icache) ∧ u.mem = s.mem) ?_ _
    ⟨rfl, fun _ => rfl, rfl⟩
  rintro u th' ⟨hthr, hcache, hmem⟩
  by_cases h : th' = th
  · rw [h, serveSlot_ready (by rw [hthr, hst]) (by rw [hthr, hpend])]
    exact ⟨hthr, hcache, hmem⟩
  · have works := u.serveSlot_works th'
    exact ⟨(works.others th (Ne.symm h)).trans hthr, fun k => (works.icache k).trans (hcache k), works.mem.trans hmem⟩

end

/-! ### A line comes in -/

theorem any_sset_same {α : Type} (k : Nat) (v : α) (m : SMap α) : ((sset k v m).any fun e => e.1 == k) = true := by
  induction m with
  | nil => simp [sset]
  | cons e m ih =>
    obtain ⟨k', v'⟩ := e
    unfold sset
    split_ifs <;> simp [ih]

section
variable {s : State} {th : ThreadId} {c : CtxId}

theorem window_larder {va : Word} (hlo : 0x200000000 ≤ va.toNat) (hhi : va.toNat < 0x300000000) :
    s.window c va = some (.larder ((va.toNat - 0x200000000) / 0x20000000) (va.toNat % 0x20000000)) := by
  unfold State.window
  simp only [Bool.and_eq_true, decide_eq_true_eq]
  rw [if_neg (by omega), if_neg (by omega), if_pos ⟨hlo, hhi⟩]

/-- What a fetch from a Larder region of the context comes to, when the checks are made. -/
theorem checkPart_larder {pc : Word} {r : RegionEntry} (hlo : 0x200000000 ≤ pc.toNat) (hhi : pc.toNat < 0x300000000)
    (halign : pc.toNat % 4 = 0)
    (hr : (s.ctx c).mem.region 0 ((pc.toNat - 0x200000000) / 0x20000000) (pc.toNat % 0x20000000 / 0x100000) = some r)
    (hx : r.x = true) (hlevel : ((s.thr th).super || r.u) = true) :
    s.checkPart th c .fetch 4 none { va := pc, len := 4, idx := 0 } = .ok pc.toNat false := by
  simp [State.checkPart, window_larder hlo hhi, halign, hr, permOk, hx, hlevel]

theorem fetchable_larder {pc : Word} (hlo : 0x200000000 ≤ pc.toNat) (hhi : pc.toNat < 0x300000000) :
    s.fetchable c pc = true := by
  simp [State.fetchable, window_larder hlo hhi]

/-- A line that comes in changes the core's instruction cache, and a free value may be used. -/
theorem fillLine_frame (s : State) (g line : Nat) (bytes : List Byte) : ∃ k n, (k.icache.any fun e => e.1 == line) = true ∧
    s.fillLine g line bytes = { s.setCore g k with freeCtr := n } := by
  unfold State.fillLine
  dsimp only
  split
  · exact ⟨_, _, any_sset_same _ _ _, rfl⟩
  · exact ⟨_, _, any_sset_same _ _ _, rfl⟩

/-- A USER fetch that has passed its checks leaves the threads, and its line stands among those checked. -/
theorem markUser_checked (s : State) (th : ThreadId) (pc : Word) : (s.markUser th pc).threads = s.threads ∧
    ((s.thr th).super || ((s.markUser th pc).core (thCore th)).userLines.contains (pc.toNat / 64)) = true := by
  unfold State.markUser
  by_cases hsuper : (s.thr th).super = true
  · rw [if_pos hsuper, hsuper]; exact ⟨rfl, rfl⟩
  · rw [if_neg hsuper]
    refine ⟨rfl, ?_⟩
    rw [State.modCore, State.setCore_core]
    split
    · next hin => rw [hin, Bool.or_true]
    · simp

/-- The fetch of a held line that has passed its checks. -/
theorem fetchCheck_held {pc : Word} (hfetch : s.fetchable c pc = true) (hheld : s.lineHeld th pc = true)
    (hchecked : ((s.thr th).super || (s.core (thCore th)).userLines.contains (pc.toNat / 64)) = true) :
    s.fetchCheck th c pc = .held false := by
  simp only [State.fetchCheck, hfetch, hheld, hchecked, Bool.not_true, Bool.true_and, Bool.false_eq_true, if_false, if_true]

/-- The line that a thread waits for comes in: the thread is READY, the line is held, memory stands. -/
theorem fillFrom_ready (s : State) {pc : Word} (hc : s.thCtx th = some c) (hpc : (s.thr th).pc = pc) (hst : (s.thr th).st = .waitFetch)
    (hpend : (s.thr th).pend = none) (hpause : (s.thr th).pauseReq = false) (hstop : (s.thr th).stopReq = false)
    (hfetch : s.fetchable c pc = true) (hgran : isGran (pc.toNat / 64 * 64) = false)
    (hpoison : s.poisonIn (pc.toNat / 64 * 64) 64 = false) :
    (s.fillFrom th c pc pc.toNat).thr th = { s.thr th with st := .ready, why := .none } ∧
      (s.fillFrom th c pc pc.toNat).lineHeld th pc = true ∧ (s.fillFrom th c pc pc.toNat).mem = s.mem := by
  obtain ⟨k, n, hline, hfill⟩ := fillLine_frame s (thCore th) (pc.toNat / 64) (s.peek (pc.toNat / 64 * 64) 64)
  generalize hv : ({ s.setCore (thCore th) k with freeCtr := n } : State).markUser th pc = v
  obtain ⟨hthreads, hchecked⟩ := markUser_checked { s.setCore (thCore th) k with freeCtr := n } th pc
  have works := State.markUser_works { s.setCore (thCore th) k with freeCtr := n } th pc
  rw [hv] at hthreads hchecked works
  have hthr : v.thr th = s.thr th := by simp only [State.thr, hthreads]; rfl
  have hcore : (v.core (thCore th)).icache = k.icache :=
    (works.icache (thCore th)).trans (congrArg Core.icache (s.setCore_core (thCore th) k))
  have hheld : v.lineHeld th pc = true := by rw [State.lineHeld, hcore]; exact hline
  have hctx : v.thCtx th = some c ∧ v.fetchable c pc = true := by
    rw [← hv, State.markUser]
    split <;> exact ⟨hc, hfetch⟩
  obtain ⟨hvc, hvfetch⟩ := hctx
  have hcheck : v.fetchCheck th c (v.thr th).pc = .held false := by
    rw [hthr, hpc]
    refine fetchCheck_held hvfetch hheld ?_
    rw [hthr]; exact hchecked
  have hawaits : (v.thr th).awaits pc = true := by rw [hthr]; simp [Thread.awaits, hst, hpend, hpc]
  have hfrom : s.fillFrom th c pc pc.toNat = v.setThr th { s.thr th with st := .ready, why := .none } := by
    simp only [State.fillFrom, hpoison, Bool.false_eq_true, if_false, s.readVia_other _ _ hgran, hfill, hv, hawaits, if_true]
    rw [fetchHere_held v th c hvc hcheck (by rw [hthr, hpause]) (by rw [hthr, hstop]), hthr]
  rw [hfrom]
  exact ⟨State.setThr_thr _ _ _, hheld, works.mem⟩

end

/-- The line fill that a thread waits for, from a Larder region of its context: the thread is READY, the line held. -/
theorem icacheFill_ready (s : State) (th : ThreadId) (c : CtxId) (r : RegionEntry) (rest : List Word) (hc : s.thCtx th = some c)
    (hserves : s.thServes th = true) (hfills : (s.thr th).fills = (s.thr th).pc :: rest)
    (hst : (s.thr th).st = .waitFetch) (hpend : (s.thr th).pend = none) (hpause : (s.thr th).pauseReq = false)
    (hstop : (s.thr th).stopReq = false) (hlo : 0x200000000 ≤ (s.thr th).pc.toNat)
    (hhi : (s.thr th).pc.toNat < 0x300000000) (halign : (s.thr th).pc.toNat % 4 = 0)
    (hr : (s.ctx c).mem.region 0 (((s.thr th).pc.toNat - 0x200000000) / 0x20000000)
      ((s.thr th).pc.toNat % 0x20000000 / 0x100000) = some r)
    (hx : r.x = true) (hlevel : ((s.thr th).super || r.u) = true)
    (hpoison : s.poisonIn ((s.thr th).pc.toNat / 64 * 64) 64 = false) :
    ∃ u, exec (.icacheFill th) s = .next u ∧ (u.thr th).st = .ready ∧ u.lineHeld th (s.thr th).pc = true ∧ u.mem = s.mem ∧
      (u.thr th).pc = (s.thr th).pc ∧ (u.thr th).fills = rest := by
  have hbehind : s.fetchBehind th c (s.thr th).pc = false := by
    rw [State.fetchBehind, State.fillWalk, checkPart_larder hlo hhi halign hr hx hlevel]
  generalize ht : ({ s.thr th with fills := rest } : Thread) = t
  have hthr : (s.setThr th t).thr th = { s.thr th with fills := rest } := by rw [State.setThr_thr, ht]
  have hcheck : (s.setThr th t).checkPart th c .fetch 4 none { va := (s.thr th).pc, len := 4, idx := 0 } =
      .ok (s.thr th).pc.toNat false :=
    checkPart_larder hlo hhi halign hr hx (by rw [hthr]; exact hlevel)
  have hgran : isGran ((s.thr th).pc.toNat / 64 * 64) = false := by
    rw [isGran, decide_eq_false_iff_not]; omega
  obtain ⟨hready, hheld, hmem⟩ := fillFrom_ready (s.setThr th t) hc
    (congrArg Thread.pc hthr) (by rw [hthr]; exact hst) (by rw [hthr]; exact hpend) (by rw [hthr]; exact hpause)
    (by rw [hthr]; exact hstop) (fetchable_larder hlo hhi) hgran hpoison
  generalize hv : (s.setThr th t).fillFrom th c (s.thr th).pc (s.thr th).pc.toNat = v at hready hheld hmem
  obtain ⟨hpumped, hcache, hmem'⟩ := pump_spares v th (thCore th) (by rw [hready]) (by rw [hready, hthr]; exact hpend)
  refine ⟨v.pump (thCore th), ?_, ?_, ?_, ?_, ?_, ?_⟩
  · rw [exec_icacheFill, execIcacheFill, hc, hfills]
    simp only [hserves, hbehind, Bool.not_true, Bool.or_self, Bool.false_eq_true, if_false, State.modThr_eq, ht, hcheck, hv]
  · rw [hpumped, hready]
  · rw [State.lineHeld, hcache]; exact hheld
  · exact hmem'.trans hmem
  · rw [hpumped, hready, hthr]
  · rw [hpumped, hready, hthr]

end Sys2Proof.Machine
end

section
/-!
PROOFS. A posted store that is given up (R58, R215, R222): what its effect, its record and its end leave of its thread. A store to
a register of a unit may ring a doorbell and set a stream channel going, and none of that moves a thread.
-/

namespace Sys2Proof.Machine

/-! ### Where a thread stands -/

/-- What an order of another unit does not change of a thread: its state, what it has pending, its errors of stores. -/
def Thread.stand (t : Thread) : TState × Option Pend × List (Reason × Word) := (t.st, t.pend, t.asyncQ)

/-- From s to u no thread has moved. -/
def State.Still (s u : State) : Prop := ∀ th, (u.thr th).stand = (s.thr th).stand

namespace State.Still

variable {s u v : State}

theorem refl (s : State) : s.Still s := fun _ => rfl

theorem trans (h : s.Still u) (k : u.Still v) : s.Still v := fun th => (k th).trans (h th)

/-- `trans` with the last step first. -/
theorem after (k : u.Still v) (h : s.Still u) : s.Still v := h.trans k

theorem of_threads (h : u.threads = s.threads) : s.Still u := fun th => by simp only [State.thr, h]

theorem modThr (th : ThreadId) (f : Thread → Thread) (hf : ∀ t, (f t).stand = t.stand) : s.Still (s.modThr th f) := fun th' => by
  by_cases h : th' = th
  · rw [h, State.modThr_eq, State.setThr_thr, hf]
  · rw [State.modThr_eq, State.setThr_thr_ne _ _ _ _ h]

end State.Still

/-! ### Stream channels -/

section
variable (s : State) (q ch : Nat)

theorem State.doorbell_still (w : Nat) : s.Still (s.doorbell w) :=
  (State.Still.modThr (BitVec.ofNat 13 w) (fun t => { t with csr := { t.csr with ipend := t.csr.ipend ||| 1 } })
    fun _ => rfl).trans (.of_threads rfl)

theorem State.strmRecord_still (code : Reason) (obj : Nat) (addr : Word) (phase level : Nat) :
    s.Still (s.strmRecord q ch code obj addr phase level) := .of_threads (State.record_threads _ _)

theorem State.strmFault_still (code : Reason) (obj : Nat) (addr : Word) (phase level : Nat) :
    s.Still (s.strmFault q ch code obj addr phase level) := by
  have recorded := s.strmRecord_still q ch code obj addr phase level
  unfold State.strmFault
  dsimp only
  split
  · exact (recorded.trans (.of_threads rfl)).trans (State.doorbell_still _ _)
  · exact recorded.trans (.of_threads rfl)

theorem State.pumpChan_still : s.Still (s.pumpChan q ch) := by
  unfold State.pumpChan
  dsimp only
  split
  · split
    · exact .of_threads rfl
    · split <;> exact .of_threads rfl
  · exact .of_threads rfl

theorem State.readDesc_still (idx : Nat) : s.Still (s.readDesc q ch idx) := by
  unfold State.readDesc
  split
  · exact State.Still.after (State.pumpChan_still _ q ch) (.of_threads rfl)
  · exact .of_threads rfl

theorem State.startData_still : s.Still (s.startData q ch) := by
  unfold State.startData
  dsimp only
  split
  · exact .of_threads rfl
  · split
    · exact .of_threads rfl
    · split
      · exact State.Still.after (State.strmFault_still _ q ch _ _ _ _ _) (.of_threads rfl)
      · exact .of_threads rfl

theorem State.beginRep_still : s.Still (s.beginRep q ch) := by
  unfold State.beginRep
  dsimp only
  split
  · exact .refl s
  · split
    · split
      · exact .of_threads rfl
      · exact s.strmFault_still q ch _ _ _ _ _
    · exact s.startData_still q ch

theorem State.takeDesc_still (idx : Nat) (data : Option (List Byte)) : s.Still (s.takeDesc q ch idx data) := by
  have refused (t : State) (d : Option Desc) (code : Reason) (addr : Word) (f : Chan → Chan) :
      t.Still (((t.modChan q ch fun x => { x with desc := d }).strmFault q ch code ch addr 0 0).modChan q ch f) := by
    have faulted : t.Still ((t.modChan q ch fun x => { x with desc := d }).strmFault q ch code ch addr 0 0) :=
      .after (State.strmFault_still _ q ch code ch addr 0 0) (.of_threads rfl)
    exact .after (.of_threads rfl) faulted
  have taken (t : State) : s.Still t → s.Still (t.beginRep q ch) := fun h => h.trans (t.beginRep_still q ch)
  unfold State.takeDesc
  dsimp only
  split
  · exact State.Still.after (refused _ _ _ _ _) (.of_threads rfl)
  · split
    · exact State.Still.after (refused _ _ _ _ _) (.of_threads rfl)
    · split
      · exact State.Still.after (refused _ _ _ _ _) (.of_threads rfl)
      · refine taken _ ?_
        split
        · exact .of_threads rfl
        · exact State.Still.after (State.readDesc_still _ q ch _) (.of_threads rfl)

/-- What a channel does once it has asked for a descriptor: it waits, or finds that the place may not be read. -/
theorem State.awaitDesc_still {t : State} (idx : Nat) (h : s.Still t) :
    s.Still (match (t.chan q ch).pre with
      | some (_, none) => t.takeDesc q ch idx none
      | _ => t) := by
  split
  · exact h.trans (t.takeDesc_still q ch idx none)
  · exact h

theorem State.beginDesc_still (idx : Nat) : s.Still (s.beginDesc q ch idx) := by
  unfold State.beginDesc
  dsimp only
  split
  · split
    · exact State.Still.after (State.takeDesc_still _ q ch _ _) (.of_threads rfl)
    · exact State.awaitDesc_still s q ch idx (State.Still.after (State.readDesc_still _ q ch _) (.of_threads rfl))
  · split
    · exact .of_threads rfl
    · exact State.awaitDesc_still s q ch idx (State.Still.after (State.readDesc_still _ q ch _) (.of_threads rfl))

theorem State.rereadDesc_still : s.Still (s.rereadDesc q ch) :=
  State.awaitDesc_still s q ch _ (State.Still.after (State.readDesc_still _ q ch _) (.of_threads rfl))

theorem State.strmGoOn_still (r : ChResume) : s.Still (s.strmGoOn q ch r) := by
  unfold State.strmGoOn
  dsimp only
  split
  · split <;> exact .of_threads rfl
  · cases r with
    | descriptor idx => exact s.beginDesc_still q ch idx
    | reread => exact s.rereadDesc_still q ch
    | repetition => exact s.beginRep_still q ch
    | data => exact s.startData_still q ch

theorem State.strmAbortChan_still : s.Still (s.strmAbortChan q ch) := by
  obtain ⟨e, y, h⟩ := s.strmAbortChan_frame q ch
  exact .of_threads (by rw [h])

theorem State.chanCmd_still (cmd : Nat) : s.Still (s.chanCmd q ch cmd) := by
  have refused := s.strmRecord_still q ch strmStart ch 0 5 0
  have goOn (t : State) (r : ChResume) (ht : t.threads = s.threads) : s.Still (t.strmGoOn q ch r) :=
    State.Still.trans (.of_threads ht) (t.strmGoOn_still q ch r)
  have woken (t : State) : (t.quadWake q).threads = t.threads := by unfold State.quadWake; split <;> rfl
  unfold State.chanCmd
  dsimp only
  split
  · split
    · exact refused
    · split
      · exact refused
      · exact goOn _ _ (woken _)
  · split
    · split
      · exact refused
      · split
        · exact goOn _ _ rfl
        · split <;> exact goOn _ _ rfl
    · split
      · split
        · exact refused
        · exact s.strmAbortChan_still q ch
      · exact .refl s

theorem State.strmStore_still (off : Nat) (v : Word) : s.Still (s.strmStore q off v) := by
  unfold State.strmStore
  split
  · exact .refl s
  · dsimp only
    split
    · split <;> exact .of_threads rfl
    · split <;> exact .of_threads rfl
    · exact s.chanCmd_still q _ _
    · split <;> exact .of_threads rfl
    · exact .refl s

/-- A thread's write of a register of a unit moves no thread. -/
theorem State.threadStore_still (b off : Nat) (v : Word) : s.Still (s.threadStore b off v) := by
  unfold State.threadStore
  dsimp only
  split
  · split <;> exact .of_threads rfl
  · split
    · split
      · exact .of_threads rfl
      · split <;> exact .of_threads rfl
      · exact .of_threads rfl
      · exact .of_threads rfl
    · split
      · split_ifs <;> exact .of_threads rfl
      · split
        · split <;> exact .of_threads rfl
        · split
          · split
            · exact s.doorbell_still _
            · exact .refl s
          · split
            · exact s.strmStore_still _ _ _
            · exact .refl s

end

/-! ### A store that is given up -/

section
variable {s : State} {th : ThreadId}

/-- Threads that wake leave a READY one. -/
theorem wake_ready (g : Nat) (w : Why) (hst : (s.thr th).st = .ready) : (s.wake g w).thr th = s.thr th := by
  refine foldl_keeps (fun u => u.thr th = s.thr th) (fun u th' hu => ?_) _ rfl
  by_cases h : th' = th
  · simp [h, hu, hst]
  · dsimp only
    split
    · exact ((u.fetchHere_works th').others th (Ne.symm h)).trans hu
    · exact hu

theorem benchServed_ready (s : State) (th : ThreadId) (l : Nat) (hst : (s.thr th).st = .ready) : (s.benchServed l).thr th = s.thr th := by
  unfold State.benchServed
  dsimp only
  split
  · exact wake_ready _ _ hst
  · rfl

theorem eccRecord_threads (loc addr : Nat) (req : UnitId) (c : Option CtxId) (w : Option ThreadId) (kind : Nat) :
    (s.eccRecord loc addr req c w kind).threads = s.threads := by
  obtain ⟨d, g, f, hmeet⟩ := s.meetEcc_frame loc
  exact (State.record_threads _ _).trans (by rw [hmeet])

theorem pokeCellsVia_threads (cs : List (Nat × Byte)) : (s.pokeCellsVia cs).threads = s.threads := by
  have h : (s.writeCellsVia cs).offCaches.threads = s.offCaches.threads := by rw [s.offCaches_writeCellsVia cs]
  exact h

/-- The effect of a posted store moves no READY thread. -/
theorem storeApply_ready (s : State) (p : Posted) (hst : (s.thr th).st = .ready) :
    ((s.storeApply th p).2.thr th).stand = (s.thr th).stand := by
  unfold State.storeApply
  split
  · dsimp only
    exact s.threadStore_still _ _ _ th
  · next cs _ =>
    have hserved := benchServed_ready s th ((cs.head?.map (·.1)).getD 0) hst
    dsimp only
    split
    · rw [← hserved]; simp only [State.thr, pokeCellsVia_threads]
    · rw [← hserved]; simp only [State.thr, pokeCellsVia_threads, eccRecord_threads]

theorem storeOpen_ready (p : Posted) (hst : (s.thr th).st = .ready) :
    ((s.storeOpen th p).thr th).stand = (s.thr th).stand := by
  unfold State.storeOpen
  dsimp only
  split
  · exact storeApply_ready (s.draw 1).2 p hst
  · rfl

theorem probe_threads (u : UnitId) : (s.probe u).threads = s.threads := by
  unfold State.probe
  split
  · rfl
  · exact (State.newEpisode_over.keeps s).1

theorem probeTh_threads (va : Word) : (s.probeTh th va).threads = s.threads := by
  unfold State.probeTh State.probeVa
  split
  · split
    · exact probe_threads _
    · exact probe_threads _
    · exact probe_threads _
    · exact probe_threads _
    · split <;> exact probe_threads _
    · rfl
  · rfl

/-- The timeout of a posted store: MEM_TIMEOUT waits for the thread, behind its earlier errors. -/
theorem storeTimeout_stand (p : Posted) (hst : (s.thr th).st = .ready) :
    ((s.storeTimeout th p).thr th).stand = ((s.thr th).st, (s.thr th).pend, (s.thr th).asyncQ ++ [(0x040A, p.va)]) := by
  simp [State.storeTimeout, State.expectLate, State.storeError, State.modThr_eq, hst, Thread.stand, memTimeout]

theorem sendPkt_thr (q : Packet) : (s.sendPkt q).thr th = s.thr th := by
  obtain ⟨hthreads, -⟩ := (State.sendPkt_over q).keeps s
  simp only [State.thr, hthreads]

/-- Signals that leave for other modules move no READY thread with nothing pending. -/
theorem flushRemote_ready (fuel : Nat) (hst : (s.thr th).st = .ready) (hpend : (s.thr th).pend = none) :
    (s.flushRemote th fuel).thr th = s.thr th := by
  induction fuel generalizing s with
  | zero => rfl
  | succ fuel ih =>
    unfold State.flushRemote
    split
    · rfl
    · split
      · rfl
      · next m _ =>
        dsimp only
        split
        · have rest (u : State) (hu : u.thr th = s.thr th) : ((u.pump (thCore th)).flushRemote th fuel).thr th = s.thr th := by
            obtain ⟨hpump, -, -⟩ := pump_spares u th (thCore th) (by rw [hu, hst]) (by rw [hu, hpend])
            rw [ih (by rw [hpump, hu, hst]) (by rw [hpump, hu, hpend]), hpump, hu]
          refine rest _ ?_
          split
          · exact sendPkt_thr _
          · rfl
        · rfl

/-- The end of a posted store moves no READY thread with nothing pending. -/
theorem storeOver_ready (hst : (s.thr th).st = .ready) (hpend : (s.thr th).pend = none) :
    (s.storeOver th).thr th = s.thr th := by
  have hfence : s.fenceCheck th = s := by simp [State.fenceCheck, hpend]
  have hretry : s.retryHere th = s := by simp [State.retryHere, hst]
  have hflush := flushRemote_ready s.sync.msgs.length hst hpend
  obtain ⟨hpump, -, -⟩ := pump_spares (s.flushRemote th s.sync.msgs.length) th (thCore th) (by rw [hflush, hst])
    (by rw [hflush, hpend])
  rw [State.storeOver, hfence, hretry, hpump, hflush]

end

/-- A posted store of a READY thread has had no acknowledgement in time. -/
theorem memTimeout_store (s : State) (th : ThreadId) (k : Nat) (p : Posted) (hserves : s.thServes th = true)
    (hp : (s.thr th).posted[k]? = some p) (hpend : (s.thr th).pend = none) (hst : (s.thr th).st = .ready) :
    ∃ u, exec (.memTimeout th (.store k)) s = .next u ∧
      (u.thr th).asyncQ = (s.thr th).asyncQ ++ [(0x040A, p.va)] := by
  generalize hv : (s.probeTh th p.va).modThr th (fun t => { t with posted := t.posted.eraseIdx k }) = v
  have hstand : (v.thr th).stand = (.ready, none, (s.thr th).asyncQ) := by
    have hprobe : (s.probeTh th p.va).thr th = s.thr th := by simp only [State.thr, probeTh_threads]
    rw [← hv, State.modThr_eq, State.setThr_thr, hprobe, ← hst, ← hpend]; rfl
  have hopen : ((v.storeOpen th p).thr th).stand = (.ready, none, (s.thr th).asyncQ) :=
    (storeOpen_ready p (congrArg Prod.fst hstand)).trans hstand
  obtain ⟨wst, wpend, wq⟩ : ((v.storeOpen th p).thr th).st = .ready ∧ ((v.storeOpen th p).thr th).pend = none ∧
      ((v.storeOpen th p).thr th).asyncQ = (s.thr th).asyncQ := by
    simpa only [Thread.stand, Prod.mk.injEq] using hopen
  have hout := storeTimeout_stand p wst
  rw [wst, wpend, wq] at hout
  obtain ⟨ust, upend, uq⟩ : (((v.storeOpen th p).storeTimeout th p).thr th).st = .ready ∧
      (((v.storeOpen th p).storeTimeout th p).thr th).pend = none ∧
      (((v.storeOpen th p).storeTimeout th p).thr th).asyncQ = (s.thr th).asyncQ ++ [(0x040A, p.va)] := by
    simpa only [Thread.stand, Prod.mk.injEq] using hout
  refine ⟨((v.storeOpen th p).storeTimeout th p).storeOver th, ?_, ?_⟩
  · rw [exec_memTimeout, execMemTimeout]
    simp only [hserves, hp, hv, Bool.not_true, Bool.false_eq_true, if_false]
  · rw [storeOver_ready ust upend, uq]

end Sys2Proof.Machine
end

section
/-!
PROOFS. The remaining events of the memory units (R201, R215, R216, R224, R225), and O14.
-/

namespace Sys2Proof.Machine

/-! ### A hot bank -/

theorem hotLoc_mem (s : State) (c : CtxId) (ch bank : Nat) :
    (s.hotLoc c ch bank).2.mem = s.mem := rfl

/-- The requests of one context at a bank, 32 or more, begin an episode. -/
theorem granHotBank_begins (s : State) (n ch bank : BitVec 4) (c : CtxId) (m : Nat) (hm : 32 ≤ m)
    (hnone : (s.gran n.toNat).episode = []) :
    ∃ u, exec (.granHotBank n ch bank [(c, m)]) s = .next u ∧ (u.gran n.toNat).hotValid = true ∧
      (u.gran n.toNat).hotCh = ch ∧ (u.gran n.toNat).hotBank = bank ∧ (u.gran n.toNat).hotCtx = c ∧ u.mem = s.mem := by
  have htotal : ¬ (0 + m < 32) := by omega
  rw [exec_granHotBank, execGranHotBank]
  simp only [hnone, List.find?_nil, mostRequests, List.map_cons, List.map_nil, List.foldl_cons, List.foldl_nil, htotal, if_false]
  refine ⟨_, rfl, by simp, by simp, by simp, by simp, ?_⟩
  simp [State.draw, hotLoc_mem]

/-! ### A scrub -/

theorem setPoison_mem_poison (s : State) (l : Nat) : l ∈ (s.setPoison l).poison := by
  unfold State.setPoison
  dsimp only
  split
  · next h => simpa using h
  · exact List.mem_cons_self

/-- A scrub that finds an error: uncorrectable, it marks the unit; correctable, it leaves marks, memory and log. -/
theorem memScrub_marks (s : State) (l : Nat) (hl : scrubLocOk l = true) (hphase : s.boot.phase ≠ .resetEntry) :
    (∃ u, exec (.memScrub l true) s = .next u ∧ l ∈ u.poison ∧ u.mem = s.mem) ∧
      (∃ u, exec (.memScrub l false) s = .next u ∧ u.poison = s.poison ∧ u.mem = s.mem ∧ u.log = s.log) := by
  have hgoes : (!scrubLocOk l || s.boot.phase == .resetEntry) = false := by simp [hl, hphase]
  constructor
  · obtain ⟨d, g, hcount⟩ := s.countEcc_frame l true
    rw [exec_memScrub, execMemScrub, hgoes]
    simp only [Bool.false_eq_true, if_false, if_true]
    refine ⟨_, rfl, setPoison_mem_poison _ _, ?_⟩
    exact (State.record_mem _ _).trans (by rw [hcount])
  · obtain ⟨d, g, hcount⟩ := s.countEcc_frame l false
    rw [exec_memScrub, execMemScrub, hgoes]
    simp only [Bool.false_eq_true, if_false]
    exact ⟨_, rfl, by rw [hcount], by rw [hcount], by rw [hcount]⟩

/-- Settles O14: each event is its own lemma; a line fill is `icacheFill_ready`, a store given up `memTimeout_store`. -/
theorem memoryUnitEvents : Obligations.MemoryUnitEvents := by
  unfold Obligations.MemoryUnitEvents
  refine ⟨?_, memTimeout_store, fun s c v => ?_, fun s g k hk => ?_, granHotBank_begins, memScrub_marks⟩
  · intro s th c r rest hc hserves hfills hst hpend _ hpause hstop pc hlo hhi halign hr hx hlevel hpoison
    exact icacheFill_ready s th c r rest hc hserves hfills hst hpend hpause hstop hlo hhi halign hr hx hlevel hpoison
  · refine ⟨s.setMemto c v, exec_memMemtoWrite .., ?_, rfl, rfl⟩
    simp [State.setMemto, State.modCtxMem, State.modCtx, getF]
  · rw [exec_benchOutsidePromote, execBenchOutsidePromote, if_pos hk]

end Sys2Proof.Machine
end

section
/-!
PROOFS. Refutations of four statements about cores and threads, each by a state that meets the hypotheses and on which the
model gives another outcome.
-/

namespace Sys2Proof.Machine

/-! ### The states -/

/-- The Larder of die 0, with every permission. -/
def openLarder : RegionEntry :=
  { win := 0, die := 0, base := 0, limit := 512, r := true, w := true, x := true, u := true, reservedZero := true }

/-- A READY thread at the start of the Larder, with a handler. -/
def lonelyThread : Thread := { st := .ready, enabled := true, pc := 0x200000000, csr := { tvec := 0x200000100 } }

/-- Context 0 runs on quad 0; its thread 0 is t, on core k. -/
def oneThread (t : Thread) (k : Core) : State :=
  { quadOwner := [(0, 0)], ctxs := [(0, { st := .running, mem := { regions := [openLarder] } })], threads := [(0, t)],
    cores := [(0, k)] }

/-- The next state, where there is one. -/
def reached (o : Host.Outcome State Fault Refusal) : Option State := match o with | .next u => some u | _ => none

/-! ### O6: an address that no alignment allows -/

/-- The thread's core holds no line. -/
def emptyIcache : State := oneThread lonelyThread { gated := false }

/-- At pc 0x200000002 the fetch is misaligned: the thread takes MEMORY and goes to its handler. -/
theorem misaligned_pc_goes_to_handler :
    ((emptyIcache.goesTo 0 lonelyThread 0x200000002).thr 0).pc = 0x200000100 := by decide +kernel

/-- Refutes O6: a pc that is not a multiple of 4 lies in an executable region and its line has to come, yet the alignment
of a fetch is checked first (R44, R196), so that the thread takes MEMORY and asks for no line there. -/
theorem not_arrivalAtAnInstruction : ¬ Obligations.ArrivalAtAnInstruction := by
  unfold Obligations.ArrivalAtAnInstruction
  intro h
  obtain ⟨-, hcomes, -⟩ := h emptyIcache 0 0 lonelyThread 0x200000002 (by decide +kernel) rfl rfl
  obtain ⟨-, hasks, -⟩ := hcomes openLarder (by decide) (by decide) (by decide +kernel) rfl (by decide +kernel)
    (by decide +kernel)
  obtain ⟨hthr, -⟩ := hasks (by decide +kernel) (by decide +kernel)
  have hpc := misaligned_pc_goes_to_handler.symm.trans (congrArg Thread.pc hthr)
  revert hpc
  decide +kernel

/-! ### O11: a store of the thread's own to the line of its load -/

/-- A load of line 0x8000000 that has been sent. -/
def sentLoad : Req := { line := 0x8000000, parts := [0], sent := true }

/-- The thread waits for the load, and a posted store of its own to the same line is not yet acknowledged. -/
def loadBehindStore : State := oneThread { lonelyThread with
  st := .waitMem
  pend := some (.access { kind := .load, parts := [{ va := 0x200000008, len := 4, idx := 0 }], fin := .ld 5 4 false } none
    [sentLoad])
  posted := [{ id := 0, va := 0x200000008, pc := 0x200000000, gen := 0, what := .cells [(0x200000008, 1)] }] }
  { gated := false }

/-- The load waits behind the store (R217): its reply leaves the thread at the load. -/
theorem loadBehindStore_waits :
    (reached (exec (.memReply 0 0) loadBehindStore)).map (fun u => (u.thr 0).pc) = some 0x200000000 := by decide +kernel

/-- Refutes O11: no hypothesis excludes a posted store of the thread's own to the line of the load, and behind one the reply
completes nothing. -/
theorem not_repliesAndAcknowledgements : ¬ Obligations.RepliesAndAcknowledgements := by
  unfold Obligations.RepliesAndAcknowledgements
  rintro ⟨h, -⟩
  obtain ⟨u, hexec, -, -, hpc, -⟩ := h loadBehindStore 0 0 5 0x200000008 4 sentLoad (by decide +kernel) (by decide +kernel)
    (by decide +kernel) (by decide +kernel) rfl rfl rfl rfl (by decide +kernel)
  have hstays := loadBehindStore_waits
  rw [hexec] at hstays
  have hpc' := hpc.symm.trans (Option.some.inj hstays)
  revert hpc'
  decide +kernel

/-! ### O13: an exception that already waits -/

/-- The thread is READY with both interrupts pending and enabled, and holds an exception that waits to be taken (R55). -/
def heldException : State := oneThread { lonelyThread with
  exc := some { cause := .memory, reason := memAlign, tval := 0 }
  csr := { lonelyThread.csr with status := 0b000011, ien := 0b11, ipend := 0b11 } } { gated := false }

/-- The exception goes first: no interrupt is taken. -/
theorem heldException_goes_first :
    (reached (exec (.interruptTake 0) heldException)).map (fun u => (u.thr 0).pc) = some 0x200000000 := by decide +kernel

/-- Refutes O13: no hypothesis excludes an exception that waits, and before one an interrupt is not taken. -/
theorem not_interruptsAndPendingErrors : ¬ Obligations.InterruptsAndPendingErrors := by
  unfold Obligations.InterruptsAndPendingErrors
  intro h
  obtain ⟨htake, -⟩ := h heldException 0 0 (by decide +kernel)
  obtain ⟨htimer, -⟩ := htake (by decide +kernel) ⟨by decide +kernel, by decide +kernel, by decide +kernel⟩
    (by decide +kernel) (by decide +kernel) (by decide +kernel) (by decide +kernel) (.inl (by decide +kernel))
    (by decide +kernel) (by decide +kernel)
  have hpc := heldException_goes_first
  rw [htimer (by decide +kernel) (by decide +kernel)] at hpc
  revert hpc
  decide +kernel

/-! ### O29: a write of a stream register that waits -/

/-- The thread runs at SUPERVISOR level in STR with the line at hand; VEC_STEP is 3, a write of 9 to it waits (R98), and
nothing is in flight. -/
def waitingWrite : State := oneThread { lonelyThread with
  csrWait := [(0x4A, 9)]
  vec := { lonelyThread.vec with step := 3 }
  csr := { lonelyThread.csr with status := 0b100001 } } { icache := [(0x8000000, 0)], gated := false, vpow := .on }

/-- The retirement of a GFILL performs the write that waited. -/
theorem waitingWrite_lands :
    ((reached (exec (.gfill 0 { rd := 0, rs1 := 1, rs2 := 0, sub := 0 }) waitingWrite)).bind fun u =>
      reached (exec (.vectorRetire 0) u)).map (fun v => (v.thr 0).vec.step) = some 9 := by decide +kernel

/-- Refutes O29: no hypothesis excludes a CSR write that waits for the instructions in flight, and it lands when the
instruction retires, so that VEC_STEP changes too. -/
theorem not_gViewResults : ¬ Obligations.GViewResults := by
  unfold Obligations.GViewResults
  intro h
  obtain ⟨hfill, -⟩ := h waitingWrite 0 { rd := 0, rs1 := 1, rs2 := 0, sub := 0 }
    ⟨⟨by decide +kernel, by decide +kernel⟩, ⟨0, by decide +kernel⟩, by decide +kernel, by decide +kernel,
      by decide +kernel, by decide +kernel, by decide +kernel⟩
    (by decide +kernel) (by decide +kernel) (by decide +kernel) rfl (by decide +kernel) (by decide +kernel)
  obtain ⟨⟨vec, ⟨-, -, hframe⟩, u, hissues, -, -, -, v, hretires, hvec, -⟩, -⟩ := hfill (by decide) rfl
  have hstep : vec.step = 3 := congrArg VecRegs.step hframe
  have hlands := waitingWrite_lands
  simp only [hissues, reached, Option.bind_some, hretires, Option.map_some, hvec, hstep] at hlands
  revert hlands
  decide

end Sys2Proof.Machine
end

section
/-!
PROOFS. Refutations of four statements about number formats (R90, R94, R111, R147, R161, R162). The model lets a write of VEC_STEP
wait only while an SR instruction in flight uses the register (R98, `State.csrLand`), but the statements take every state, and none
of them excludes a write that waits with nothing in flight. Such a write lands with the next retirement of a tile or vector
instruction, of which each statement says that VEC_STEP stays.
-/

namespace Sys2Proof.Machine

/-! ### VEC_STEP through one instruction -/

/-- VEC_STEP of thread 0 once instruction i has issued in s and `retire` has retired it. -/
def stepAfter (i retire : Instr) (s : State) : Option Word :=
  ((reached (exec i s)).bind fun u => reached (exec retire u)).map fun v => (v.thr 0).vec.step

theorem stepAfter_of_next {i retire : Instr} {s u v : State} {vec : VecRegs} (hissues : exec i s = .next u)
    (hretires : exec retire u = .next v) (hvec : (v.thr 0).vec = vec) : stepAfter i retire s = some vec.step := by
  have hreached : (reached (exec i s)).bind (fun u => reached (exec retire u)) = some v := by
    rw [hissues]; exact congrArg reached hretires
  calc stepAfter i retire s
      = (some v).map fun v : State => (v.thr 0).vec.step := congrArg (Option.map fun v : State => (v.thr 0).vec.step) hreached
    _ = some vec.step := congrArg (fun x : VecRegs => some x.step) hvec

theorem stepAfter_of_vectorCompletes {i : Instr} {s : State} {vec : VecRegs} {x : SMap Word}
    (h : vectorCompletes i s 0 vec x) : stepAfter i (.vectorRetire 0) s = some vec.step := by
  obtain ⟨u, hissues, -, -, -, v, hretires, hvec, -⟩ := h
  exact stepAfter_of_next hissues hretires hvec

theorem stepAfter_of_tileCompletes {i : Instr} {s : State} {tile : TileRegs} {x : SMap Word} {vec : VecRegs}
    (h : tileCompletes i s 0 tile x vec) : stepAfter i (.tileRetire 0) s = some vec.step := by
  obtain ⟨u, hissues, -, -, -, v, hretires, -, -, hvec, -⟩ := h
  exact stepAfter_of_next hissues hretires hvec

/-! ### O23, O25, O28: vector instructions in `waitingWrite` -/

/-- In `waitingWrite` thread 0 may issue every vector instruction. -/
theorem waitingWrite_ready (regs : List Reg) : vectorReady waitingWrite 0 regs := by
  have free (r : Reg) : (waitingWrite.thr 0).xBusy r = false := Bool.and_false _
  exact ⟨⟨by decide, fun r _ => free r⟩, ⟨0, by decide⟩, by decide, by decide, rfl, rfl, rfl⟩

/-- Where the write lands, VEC_STEP does not keep its 3. -/
theorem waitingWrite_not_completes {i : Instr} {vec : VecRegs} {x : SMap Word}
    (hlands : stepAfter i (.vectorRetire 0) waitingWrite = some 9) (hstep : vec.step = 3) :
    ¬ vectorCompletes i waitingWrite 0 vec x := by
  intro h
  have heq : some (9 : Word) = some 3 := by rw [← hlands, stepAfter_of_vectorCompletes h, hstep]
  exact absurd heq (by decide)

/-- V2 from V1 and V1 in FP32, under P0. -/
def floatFields : VFlt := { vd := 2, vs1 := 1, vs2 := 1, pg := 0, z := false, fmt := 0x0 }

/-- V2 from V1, FP32 to BF16 by RNE, under P0. -/
def convertFields : VCvt := { vd := 2, vs := 1, dfmt := 0x1, sfmt := 0x0, pg := 0, rm := 0, part := 0 }

/-- X3 from F1 and F1 in FP32. -/
def scalarFields : VMisc := { rd := 3, rs1 := 1, rs2 := 1, sub := 0x0 }

/-- Refutes O23: the retirement of a VFADD performs the write of VEC_STEP that waits. -/
theorem not_vectorFloatResults : ¬ Obligations.VectorFloatResults := by
  intro h
  obtain ⟨⟨r, fl, -, -, hadd⟩, -⟩ := h waitingWrite 0 floatFields fp32 (waitingWrite_ready []) rfl
  exact waitingWrite_not_completes (by decide) rfl hadd

/-- Refutes O25: the retirement of a VCVT performs the write of VEC_STEP that waits. -/
theorem not_conversionResults : ¬ Obligations.ConversionResults := by
  rintro ⟨h, -⟩
  have hcvt := h waitingWrite 0 convertFields (waitingWrite_ready []) (by decide)
  exact waitingWrite_not_completes (by decide) rfl hcvt

/-- Refutes O28: the retirement of an FEQ performs the write of VEC_STEP that waits. -/
theorem not_scalarFloatResults : ¬ Obligations.ScalarFloatResults := by
  intro h
  obtain ⟨-, -, -, -, -, -, -, -, heq, -⟩ := h waitingWrite 0 scalarFields fp32 (waitingWrite_ready _) rfl
  exact waitingWrite_not_completes (by decide) rfl heq

/-! ### O18: a conversion of an accumulator -/

/-- `waitingWrite` with an FP32 accumulator A0. -/
def waitingWriteTile : State := waitingWrite.modThr 0 fun t => t.setA 0 { fmt := 0x0 }

/-- T0 from A0, FP32 to FP32. -/
def copyFields : TCvt := { td := 0, as := 0, fmt := 0x0, rm := 0, cg := 0, mbz := 0 }

/-- Refutes O18: the retirement of a TACVT performs the write of VEC_STEP that waits. -/
theorem not_accumulatorConversion : ¬ Obligations.AccumulatorConversion := by
  intro h
  obtain ⟨hcvt, -⟩ := h waitingWriteTile 0 copyFields ⟨by decide, by decide⟩ ⟨0, by decide⟩ rfl rfl (by decide)
    rfl rfl (by decide) (.inl (by decide)) (by decide)
  have hlands : stepAfter (.tacvt 0 copyFields) (.tileRetire 0) waitingWriteTile = some 9 := by decide
  have hstays := stepAfter_of_tileCompletes hcvt
  rw [hlands] at hstays
  exact absurd hstays (by decide)

end Sys2Proof.Machine
end

section
/-!
PROOFS. The events of the tile engine (R118, R126, R127, R130, R137).
-/

namespace Sys2Proof.Machine

/-! ### Passes that become ready -/

section
variable {α : Type} (th : α → ThreadId) (f : Thread → Thread) (l : List α) (s : State)

/-- Threads that change one after the other leave the cores. -/
theorem foldl_modThr_core (g : Nat) : (l.foldl (fun s a => s.modThr (th a) f) s).core g = s.core g :=
  foldl_keeps (f := fun s a => s.modThr (th a) f) (fun u => u.core g = s.core g) (fun _ _ h => h) l rfl

/-- Threads that change one after the other leave memory. -/
theorem foldl_modThr_mem : (l.foldl (fun s a => s.modThr (th a) f) s).mem = s.mem :=
  foldl_keeps (f := fun s a => s.modThr (th a) f) (fun u => u.mem = s.mem) (fun _ _ h => h) l rfl

end

/-- A pass that becomes ready where the arrays are off: they ramp up, and it waits behind the ready ones. -/
theorem passReady_off (s : State) (g : Nat) (ms : List Mma) (hoff : (s.core g).arr = .off) :
    (s.passReady g ms).core g = { s.core g with ready := (s.core g).ready ++ [ms], arr := .rampUp } ∧
      (s.passReady g ms).mem = s.mem := by
  have hcore := fun f s => foldl_modThr_core (fun m : Mma => m.th) f ms s g
  have hmem := fun f s => foldl_modThr_mem (fun m : Mma => m.th) f ms s
  delta State.passReady
  simp only [hcore, State.modCore_eq, State.setCore_core, hoff, true_and]
  exact hmem _ _

/-- The window of a group ends while the arrays are off. -/
theorem closeGroup_off (s : State) (g k : Nat) (x : Group) (hx : (s.core g).groups[k]? = some x)
    (hoff : (s.core g).arr = .off) :
    (s.closeGroup g k).core g = { s.core g with
        groups := (s.core g).groups.eraseIdx k, ready := (s.core g).ready ++ [x.members], arr := .rampUp } ∧
      (s.closeGroup g k).mem = s.mem := by
  obtain ⟨hcore, hmem⟩ := passReady_off (s.modCore g fun c => { c with groups := c.groups.eraseIdx k }) g x.members
    (by simpa using hoff)
  delta State.closeGroup
  simp only [hx]
  exact ⟨by simpa using hcore, hmem⟩

/-! ### The throttle -/

/-- IDLE goes one step towards v and stays in 0 to 8. -/
theorem stepIdle_spec (old v : Nat) (hold : old ≤ 8) :
    stepIdle old v ≤ 8 ∧ (v = old → stepIdle old v = old) ∧ (v < old → stepIdle old v = old - 1) ∧
      (old < v → old < 8 → stepIdle old v = old + 1) := by
  have hstep : stepIdle old v = if old < v && old < 8 then old + 1 else if v < old then old - 1 else old := rfl
  simp only [hstep, Bool.and_eq_true, decide_eq_true_eq]
  split_ifs <;> omega

/-! ### A scrub -/

theorem tileEccRecord_thr (s : State) (th th' : ThreadId) (n : Nat) : (s.tileEccRecord th n).thr th' = s.thr th' :=
  s.coreRecord_thr th _ _ _ _ th'

theorem tileEccRecord_core (s : State) (th : ThreadId) (n : Nat) : (s.tileEccRecord th n).core (thCore th) =
    { s.core (thCore th) with tEccU := satAdd 32 (s.core (thCore th)).tEccU 1 } :=
  (State.setCore_core _ (thCore th) _).trans
    (congrArg (fun c : Core => { c with tEccU := satAdd 32 c.tEccU 1 }) (s.coreRecord_core th _ _ _ _ (thCore th)))

theorem tileEccRecord_mem (s : State) (th : ThreadId) (n : Nat) : (s.tileEccRecord th n).mem = s.mem :=
  s.coreRecord_mem th _ _ _ _

/-- An uncorrectable error that the scrub meets in tile k: the record and the count, and the tile is spoiled. -/
theorem tileScrub_uncorrectable (s : State) (th : ThreadId) (acc : Bool) (n : BitVec 3) (row : BitVec 4) (k : Nat)
    (hk : (if acc then 8 + n.toNat % 4 else n.toNat) = k) :
    ∃ u, exec (.tileScrub th acc n row true) s = .next u ∧ u.thr th = (s.thr th).tileSpoil k ∧
      (u.core (thCore th)).tEccU = satAdd 32 (s.core (thCore th)).tEccU 1 ∧ u.mem = s.mem := by
  refine ⟨(s.tileEccRecord th k).modThr th fun t => t.tileSpoil k, ?_, ?_, ?_, tileEccRecord_mem s th k⟩
  · subst hk; exact exec_tileScrub ..
  · rw [State.modThr_eq, State.setThr_thr, tileEccRecord_thr]
  · rw [State.modThr_eq, State.setThr_core, tileEccRecord_core]

theorem tileSpoil_tile (t : Thread) {k : Nat} (hk : k < 8) :
    (t.tileSpoil k).tile = { t.tile with t := sset k { fmt := 0xF } t.tile.t } := congrArg Thread.tile (if_pos hk)

theorem tileSpoil_areg (t : Thread) {k : Nat} (hk : ¬ k < 8) :
    (t.tileSpoil k).areg (k - 8) = { fmt := (t.areg (k - 8)).fmt, poison := true } :=
  (congrArg (fun t : Thread => t.areg (k - 8)) (if_neg hk)).trans (sget_sset_self _ _ _ _)

/-- Settles O20: `closeGroup_off`, the two timers of the arrays, `stepIdle_spec`, and the scrub by `tileScrub_uncorrectable`. -/
theorem tileEngineEvents : Obligations.TileEngineEvents := by
  intro s g c
  refine ⟨fun k x hx hoff => ?_, fun hhold => ?_, fun hdown => ?_, fun v hidle => ?_,
    fun th n row hth => ⟨?_, fun hn => ?_, ?_⟩⟩
  · obtain ⟨hcore, hmem⟩ := closeGroup_off s g.toNat k x hx hoff
    exact ⟨_, exec_coalWindowExpiry .., by rw [hcore], by rw [hcore], by rw [hcore], hmem⟩
  · exact (exec_tileHoldExpiry ..).trans (if_pos (beq_iff_eq.mpr hhold))
  · exact (exec_tileRampDownEnd ..).trans (if_pos (beq_iff_eq.mpr hdown))
  · exact ⟨stepIdle c.idle.toNat (v.toNat % 16), exec_tileThrot .., stepIdle_spec _ _ hidle⟩
  · obtain ⟨u, hexec, hthr, hcount, hmem⟩ := tileScrub_uncorrectable s th false n row n.toNat rfl
    rw [hth] at hcount
    exact ⟨u, hexec, by rw [hthr, tileSpoil_tile _ n.isLt], hcount, hmem⟩
  · obtain ⟨u, hexec, hthr, -, hmem⟩ := tileScrub_uncorrectable s th true n row (8 + n.toNat)
      (by rw [if_pos rfl, Nat.mod_eq_of_lt hn])
    have hspoiled := tileSpoil_areg (s.thr th) (k := 8 + n.toNat) (by omega)
    rw [← hthr, Nat.add_sub_cancel_left] at hspoiled
    exact ⟨u, hexec, hspoiled, hmem⟩
  · rw [← hth]; exact exec_tileScrub ..

end Sys2Proof.Machine
end

section
/-!
PROOFS. Refutations of four statements about the tile engine (R98, R101, R118, R122), each by a state that meets the
hypotheses and in which the model gives another outcome.
-/

namespace Sys2Proof.Machine

/-! ### The tile state through one instruction -/

/-- The tile state of thread 0 once command i has run from s and then the tile instruction of thread 0 has retired. -/
def tileAfter (i : Instr) (s : State) : Option TileRegs :=
  ((reached (exec i s)).bind fun u => reached (exec (.tileRetire 0) u)).map fun v => (v.thr 0).tile

theorem tileAfter_of_next {i : Instr} {s u v : State} (hissues : exec i s = .next u)
    (hretires : exec (.tileRetire 0) u = .next v) : tileAfter i s = some (v.thr 0).tile := by
  have hreached : (reached (exec i s)).bind (fun u => reached (exec (.tileRetire 0) u)) = some v := by
    rw [hissues]; exact congrArg reached hretires
  exact congrArg (Option.map fun v : State => (v.thr 0).tile) hreached

theorem tileAfter_of_tileCompletes {i : Instr} {s : State} {tile : TileRegs} {x : SMap Word} {vec : VecRegs}
    (h : tileCompletes i s 0 tile x vec) : tileAfter i s = some tile := by
  obtain ⟨u, hissues, -, -, -, v, hretires, htile, -⟩ := h
  rw [tileAfter_of_next hissues hretires, htile]

/-! ### O15: data beyond ROWS -/

/-- A BF16 tile of one row, once a conversion has written its second group of columns: TACVT with cg > 0 writes them in every
row and leaves the tag (R111), so that rows beyond ROWS hold data. -/
def convertedTile : TileReg :=
  (cvtRun false { fmt := 0x0, data := BitVec.ofNat 8192 (0x3F800000 * 2 ^ 512) } {} { fmt := 0x1, rows := 1 } 0x1 0 1 0 0 0).1

set_option exponentiation.threshold 8192 in
/-- It has data, and none of it in its one row. -/
theorem convertedTile_beyond_rows : convertedTile.rows = 1 ∧ convertedTile.row 0 = 0 ∧ convertedTile.data ≠ 0 := by
  decide

/-- T1 of thread 0 is `convertedTile`. -/
def shortTile : State := oneThread (lonelyThread.setT 1 convertedTile) { gated := false }

set_option exponentiation.threshold 8192 in
/-- TMOV reads the rows beyond ROWS as 0 (R101): its copy, T2, holds no data. -/
theorem shortTile_copy :
    (tileAfter (.tmov 0 2 1 0) shortTile).map (fun r => (sget {} r.t 2).data) = some 0 := by decide

/-- Refutes O15: TMOV does not copy what its source holds beyond ROWS. -/
theorem not_tileHousekeepingResults : ¬ Obligations.TileHousekeepingResults := by
  intro h
  obtain ⟨-, -, hmov, -⟩ := h shortTile 0 2 1 0 false ⟨by decide, by decide⟩ ⟨0, by decide⟩
    (by decide)
  have hafter := tileAfter_of_tileCompletes (hmov (by decide) (by decide) (by decide) (by decide))
  have hcopy := shortTile_copy
  rw [hafter] at hcopy
  obtain ⟨-, -, hsource⟩ := convertedTile_beyond_rows
  have hdata : ((shortTile.thr 0).treg 1).data = 0 :=
    (congrArg TileReg.data (sget_sset_self _ 2 _ _)).symm.trans (Option.some.inj hcopy)
  exact hsource hdata

/-! ### O16, O17: a write of a stream counter that waits

The model lets a write of the array rounding stream's counter wait only while a TACVT with SR is in flight (R98, `State.csrLand`),
but the statements take every state, and none of them excludes a write that waits with nothing in flight. -/

/-- `waitingWrite` with 9 waiting for the counter of the array rounding stream, which is 0, and T0 a BF16 tile. -/
def waitingCounter : State :=
  oneThread ({ waitingWrite.thr 0 with csrWait := [(0x48, 9)] }.setT 0 { fmt := 0x1 }) (waitingWrite.core 0)

/-- T0 in BF16, one row at address 0. -/
def rowFields : TMem := { t := 0, rb := 0, rs := 0, rsc := 0, fmt := 0x1, n := 0 }

/-- A0 in FP32, its rows at address 0. -/
def accFields : TAcc := { a := 0, rb := 0, rs := 0, int := false, mbz := 0 }

/-- The retirement of a tile load or store performs the write that waited. -/
theorem waitingCounter_lands :
    (tileAfter (.tld 0 rowFields) waitingCounter).map (·.ctr) = some 9 ∧
      (tileAfter (.tst 0 rowFields) waitingCounter).map (·.ctr) = some 9 := by decide

/-- In `waitingCounter` thread 0 may issue every instruction. -/
theorem waitingCounter_issues (regs : List Reg) : waitingCounter.issues 0 regs :=
  ⟨by decide, fun _ _ => Bool.and_false _⟩

/-- Refutes O16: no hypothesis excludes a write of TILE_SRCTR that waits (R98), and it lands when the load retires. -/
theorem not_tileLoadsFromOwnBench : ¬ Obligations.TileLoadsFromOwnBench := by
  intro h
  obtain ⟨htld, -⟩ := h waitingCounter 0 rowFields accFields 0 (waitingCounter_issues _) ⟨0, by decide⟩
    (by decide) (by decide)
  obtain ⟨v, hcompletes, -⟩ := htld (by decide) (by decide) rfl (by decide)
  obtain ⟨hlands, -⟩ := waitingCounter_lands
  rw [tileAfter_of_tileCompletes hcompletes] at hlands
  have hctr : (0 : BitVec 128) = 9 := Option.some.inj hlands
  exact absurd hctr (by decide)

/-- Refutes O17: no hypothesis excludes a write of TILE_SRCTR that waits (R98), and it lands when the store retires. -/
theorem not_tileStoresToOwnBench : ¬ Obligations.TileStoresToOwnBench := by
  intro h
  obtain ⟨htst, -⟩ := h waitingCounter 0 rowFields accFields (waitingCounter_issues _) ⟨0, by decide⟩
    (by decide) (by decide) (by decide)
  obtain ⟨u, hissues, -, v, hretires, htile, -⟩ := htst (by decide) (by decide) rfl (by decide) (by decide)
    (by decide)
  obtain ⟨-, hlands⟩ := waitingCounter_lands
  rw [tileAfter_of_next hissues hretires, htile] at hlands
  have hctr : (0 : BitVec 128) = 9 := Option.some.inj hlands
  exact absurd hctr (by decide)

/-! ### O19: an error in the operand-reuse latches -/

/-- A0 += T0 · T1ᵀ in BF16. -/
def latchedProduct : Mma := { th := 0, zero := false, f := { a := 0, t := 0, u := 1, tfmt := 0x1, ufmt := 0x1, mbz := 0 } }

/-- The arrays ramp up for `latchedProduct`. Their latches hold its U from an earlier pass, and an uncorrectable error has arisen
there (R118); T0, T1 and A0 hold none. -/
def upsetLatch : State := oneThread
  ((({ lonelyThread with st := .waitUnit, why := .array }.setT 0 { fmt := 0x1 }).setT 1 { fmt := 0x1 }).setA 0 { fmt := 0x0 })
  (Core.latchUpset { gated := false, arr := .rampUp, ready := [[latchedProduct]], latch := some { fmt := 0x1 } })

/-- No tile instruction is in flight. -/
theorem upsetLatch_idle (th : ThreadId) : (upsetLatch.thr th).tfly = none :=
  (apply_ite Thread.tfly (th.toNat = 0) (upsetLatch.thr 0) {}).trans (ite_self none)

set_option exponentiation.threshold 8192 in
/-- The product that meets the error leaves its accumulator POISONED (Table 4.5). -/
theorem upsetLatch_poisons :
    (tileAfter (.tileRampUpEnd 0) upsetLatch).map (fun r => (sget {} r.a 0).poison) = some true := by decide

/-- A product leaves the mark of an accumulator that it adds into. -/
theorem mmaRun_poison (strict : Bool) (t u : TileReg) (a : AccReg) (trm tbm tkm : BitVec 16) :
    (mmaRun strict false t u a trm tbm tkm).1.poison = a.poison := by
  delta mmaRun
  simp only [Bool.false_eq_true, if_false]

/-- Refutes O19: no hypothesis excludes an error in the operand-reuse latches, which the product uses for its U (R118, R122). -/
theorem not_productsThroughTheArrays : ¬ Obligations.ProductsThroughTheArrays := by
  rintro ⟨-, h⟩
  obtain ⟨u, hissues, -, -, -, v, hretires, -, -, htile, -⟩ := h upsetLatch 0 0 latchedProduct rfl rfl rfl rfl
    ⟨0, by decide⟩ (fun th' _ => upsetLatch_idle th') rfl rfl rfl rfl rfl
  have hpoisons := upsetLatch_poisons
  rw [tileAfter_of_next hissues hretires, htile] at hpoisons
  have hmark := (congrArg AccReg.poison (sget_sset_self _ 0 _ _)).symm.trans (Option.some.inj hpoisons)
  exact absurd ((mmaRun_poison ..).symm.trans hmark) (by decide)

end Sys2Proof.Machine
end

section
/-!
PROOFS. Refutations of five statements about the vector unit (R98, R142 to R160, R172). None of them excludes a CSR write that
waits with nothing in flight, as one does in `waitingWrite`; the model itself lets VEC_STEP wait only for an SR instruction. What
retires next performs it, and each statement says of one instruction that VEC_STEP stays.
-/

namespace Sys2Proof.Machine

/-- V2 from V1 and V1, or P2 from them, in bytes, under P0. -/
def integerFields : VInt := { vd := 2, vs1 := 1, vs2 := 1, pg := 0, z := false, esz := 0 }

/-- V2 from V1 in bytes of integers, under P0. -/
def reductionFields : VRed := { vd := 2, vs := 1, pg := 0, int := true, sub := 0, mbz := 0 }

/-- V2 in bytes from X0, under P0. -/
def elementFields : VMem := { v := 2, rb := 0, rx := 0, pg := 0, z := false, esz := 0, sc := 0 }

/-- P2. -/
def predicateFields : VMisc := { rd := 2, rs1 := 0, rs2 := 0, sub := 0 }

/-- Under P0, which is 0, no element is active. -/
theorem waitingWrite_inactive (j : Nat) : ¬ ((waitingWrite.thr 0).pred 0).getLsbD j = true :=
  ne_true_of_eq_false BitVec.getLsbD_zero

/-- Refutes O21: the retirement of a VADD performs the write of VEC_STEP that waits. -/
theorem not_vectorIntegerResults : ¬ Obligations.VectorIntegerResults := by
  intro h
  obtain ⟨⟨r, -, hadd⟩, -⟩ := h waitingWrite 0 integerFields (waitingWrite_ready [])
  exact waitingWrite_not_completes (by decide) rfl hadd

/-- Refutes O22: the retirement of a VCMPEQ performs the write of VEC_STEP that waits. -/
theorem not_vectorCompareResults : ¬ Obligations.VectorCompareResults := by
  intro h
  obtain ⟨heq, -⟩ := h waitingWrite 0 integerFields floatFields fp32 (waitingWrite_ready [])
  obtain ⟨r, -, hcompletes⟩ := heq (by decide)
  exact waitingWrite_not_completes (by decide) rfl hcompletes

/-- Refutes O24: the retirement of a VRED.SUM performs the write of VEC_STEP that waits. -/
theorem not_reductionResults : ¬ Obligations.ReductionResults := by
  intro h
  obtain ⟨hsigned, -⟩ := h waitingWrite 0 reductionFields (waitingWrite_ready []) rfl
  obtain ⟨hsum, -⟩ := hsigned rfl rfl
  exact waitingWrite_not_completes (by decide) rfl hsum

/-- Refutes O26: the retirement of a VLD performs the write of VEC_STEP that waits. -/
theorem not_vectorMemoryOwnBench : ¬ Obligations.VectorMemoryOwnBench := by
  intro h
  obtain ⟨hunit, -⟩ := h waitingWrite 0 elementFields (waitingWrite_ready _) rfl rfl rfl
  obtain ⟨hld, -⟩ := hunit rfl rfl
  obtain ⟨r, -, hcompletes⟩ := hld (fun j _ hact => absurd hact (waitingWrite_inactive j))
    (fun j _ hact => absurd hact (waitingWrite_inactive j))
  exact waitingWrite_not_completes (by decide) rfl hcompletes

/-- Refutes O27: the retirement of a PCLR performs the write of VEC_STEP that waits. -/
theorem not_predicateAndMoveResults : ¬ Obligations.PredicateAndMoveResults := by
  intro h
  obtain ⟨-, hset, -⟩ := h waitingWrite 0 predicateFields (waitingWrite_ready _)
  obtain ⟨-, r, -, hclr⟩ := hset (by decide) rfl rfl
  exact waitingWrite_not_completes (by decide) rfl hclr

end Sys2Proof.Machine
end

section
/-!
PROOFS. The power of the vector units (R163, R164), which no thread's work sets, and O30.
-/

namespace Sys2Proof.Machine

/-- From s to u the vector unit of every core is as it was: powered, waking or down. -/
def State.SamePower (s u : State) : Prop := ∀ g, (u.core g).vpow = (s.core g).vpow

namespace State.SamePower

variable {s u v : State}

theorem refl (s : State) : s.SamePower s := fun _ => rfl

theorem trans (h : s.SamePower u) (k : u.SamePower v) : s.SamePower v := fun g => (k g).trans (h g)

theorem of_besideData {f : State → State} (h : BesideData f) (s : State) : s.SamePower (f s) := by
  obtain ⟨-, hcores, -, -⟩ := h.keeps s
  exact fun g => by simp only [State.core, hcores]

theorem setThr (s : State) (th : ThreadId) (t : Thread) : s.SamePower (s.setThr th t) := fun _ => rfl

theorem modThr (s : State) (th : ThreadId) (f : Thread → Thread) : s.SamePower (s.modThr th f) := fun _ => rfl

theorem modCore (s : State) (g : Nat) (f : Core → Core) (hf : ∀ c, (f c).vpow = c.vpow) :
    s.SamePower (s.modCore g f) := by
  intro g'
  by_cases h : g' = g
  · rw [h, State.modCore_eq, s.setCore_core, hf]
  · rw [State.modCore_eq, s.setCore_core_ne g g' _ h]

end State.SamePower

/-! ### The power through a fetch -/

section
variable (s : State) (th : ThreadId)

theorem State.leaveSlots_power : s.SamePower (s.leaveSlots th) := .modCore _ _ _ fun _ => rfl

theorem State.leaveArrays_power : s.SamePower (s.leaveArrays th) := .modCore _ _ _ fun _ => rfl

theorem State.askSlot_power : s.SamePower (s.askSlot th) := .modCore _ _ _ fun c => by split <;> rfl

theorem State.permDrop_power (c : CtxId) (va : Word) (reason : Reason) : s.SamePower (s.permDrop th c va reason) := by
  unfold State.permDrop
  split
  · split
    · exact .modCore _ _ _ fun _ => rfl
    · exact .refl s
  · exact .refl s

theorem State.markUser_power (pc : Word) : s.SamePower (s.markUser th pc) := by
  unfold State.markUser
  split
  · exact .refl s
  · exact .modCore _ _ _ fun c => by split <;> rfl

theorem State.askLine_power : s.SamePower (s.askLine th) := by
  unfold State.askLine
  dsimp only
  split
  · exact .setThr _ _ _
  · split
    · exact s.leaveSlots_power th
    · exact s.askSlot_power th

theorem State.fetchNext_power (r : FetchRes) : s.SamePower (s.fetchNext th r) := by
  unfold State.fetchNext
  split
  · split
    · exact s.markUser_power th _
    · exact .modThr _ _ _
  · exact s.askLine_power th

theorem State.coreRecord_power (code : Reason) (sev : Byte) (obj : BitVec 32) (d : BitVec 192) :
    s.SamePower (s.coreRecord th code sev obj d) := .of_besideData (State.coreRecord_over th code sev obj d) s

theorem State.ctxFault_power (c : CtxId) (code : Reason) : s.SamePower (s.ctxFault c code) :=
  .of_besideData (State.ctxFault_over c code) s

theorem State.storeError_power (code : Reason) (va : Word) : s.SamePower (s.storeError th code va) := by
  unfold State.storeError
  split
  · split
    · exact (s.coreRecord_power th _ _ _ _).trans (State.ctxFault_power _ _ _)
    · exact .refl s
  · exact .modThr _ _ _

theorem State.settle_power : s.SamePower (s.settle th) := by
  have left : s.SamePower ((s.leaveArrays th).leaveSlots th) := (s.leaveArrays_power th).trans (State.leaveSlots_power _ th)
  have halted : s.SamePower (s.enterHalted th) := by
    unfold State.enterHalted
    dsimp only
    split
    · exact left.trans (State.storeError_power _ th _ _)
    · exact left
  unfold State.settle
  dsimp only
  split_ifs
  · exact .refl s
  · exact halted
  · exact left
  · exact .refl s
  · exact .refl s

theorem State.noHandler_power (pc tval : Word) : s.SamePower (s.noHandler th pc tval) := by
  unfold State.noHandler
  dsimp only
  split
  · exact (s.coreRecord_power th _ _ _ _).trans (State.ctxFault_power _ _ _)
  · exact s.coreRecord_power th _ _ _ _

theorem State.badHandler_power (code : Reason) (extra : BitVec 192) : s.SamePower (s.badHandler th code extra) :=
  (s.coreRecord_power th _ _ _ _).trans (State.noHandler_power _ th _ _)

theorem State.fetchHandler_power (c : CtxId) : s.SamePower (s.fetchHandler th c) := by
  unfold State.fetchHandler
  dsimp only
  split
  · exact s.badHandler_power th _ _
  · exact (s.permDrop_power th _ _ _).trans (State.badHandler_power _ th _ _)
  · exact (s.fetchNext_power th _).trans (State.settle_power _ th)

theorem State.take_power (c : Cause) (reason : Reason) (tval : Word) (intr : Bool) :
    s.SamePower (s.take th c reason tval intr) := by
  have left (t : Thread) : s.SamePower ((s.leaveSlots th).setThr th t) := s.leaveSlots_power th
  unfold State.take
  dsimp only
  split
  · exact s.noHandler_power th _ _
  · split
    · exact (left _).trans (State.fetchHandler_power _ th _)
    · exact left _

/-- The exception of a refused fetch has no effects beside its record. -/
theorem State.fetchExc_power (c : Cause) (reason : Reason) (extra : BitVec 192) (rec : Bool) :
    s.SamePower (s.fetchExc th c reason extra rec) := by
  unfold State.fetchExc State.fire
  dsimp only [List.foldl_nil]
  split
  · exact .modThr _ _ _
  · split
    · exact (s.coreRecord_power th _ _ _ _).trans (State.take_power _ th _ _ _ _)
    · exact s.take_power th _ _ _ _

theorem State.fetchHere_power : s.SamePower (s.fetchHere th) := by
  unfold State.fetchHere
  dsimp only
  split
  · exact .refl s
  · split
    · exact s.fetchExc_power th _ _ _ _
    · exact (s.permDrop_power th _ _ _).trans (State.fetchExc_power _ th _ _ _ _)
    · exact (s.fetchNext_power th _).trans (State.settle_power _ th)

end

/-! ### Threads that wake -/

/-- Thread th waits for w, and no exception of it comes first. -/
def State.waitsFor (s : State) (w : Why) (th : ThreadId) : Bool :=
  (s.thr th).st == .waitUnit && (s.thr th).why == w && (s.thr th).pend.isNone && (s.thr th).exc.isNone

theorem wake_eq (s : State) (g : Nat) (w : Why) : s.wake g w =
    ([0, 1, 2, 3].map (mkTh g)).foldl (fun s th => if s.waitsFor w th then s.fetchHere th else s) s := rfl

/-- Threads that wake leave the vector units and memory. -/
theorem wake_frame (s : State) (g : Nat) (w : Why) : s.SamePower (s.wake g w) ∧ (s.wake g w).mem = s.mem := by
  rw [wake_eq]
  refine foldl_keeps (fun u => s.SamePower u ∧ u.mem = s.mem) (fun u th hu => ?_) _ ⟨.refl s, rfl⟩
  obtain ⟨hpower, hmem⟩ := hu
  split
  · exact ⟨hpower.trans (u.fetchHere_power th), (u.fetchHere_works th).mem.trans hmem⟩
  · exact ⟨hpower, hmem⟩

/-- Where none of them waits for w, none wakes. -/
theorem foldl_wake_none {s : State} {w : Why} {l : List ThreadId} (h : ∀ th ∈ l, s.waitsFor w th = false) :
    l.foldl (fun s th => if s.waitsFor w th then s.fetchHere th else s) s = s := by
  induction l with
  | nil => rfl
  | cons th l ih =>
    obtain ⟨hth, hl⟩ := List.forall_mem_cons.mp h
    rw [List.foldl_cons, hth]
    exact ih hl

theorem mem_core_threads {th : ThreadId} {g : Nat} (h : thCore th = g) : th ∈ [0, 1, 2, 3].map (mkTh g) := by
  have hself : mkTh g (thT th) = th := BitVec.eq_of_toNat_eq (by
    have hlt := th.isLt
    simp only [mkTh, thT, thCore, BitVec.toNat_ofNat] at h ⊢
    omega)
  have hslot : thT th ∈ [0, 1, 2, 3] := by
    have : th.toNat % 4 < 4 := Nat.mod_lt _ (by decide)
    simp only [thT, List.mem_cons, List.not_mem_nil, or_false]
    omega
  exact List.mem_map.mpr ⟨thT th, hslot, hself⟩

theorem core_of_mem_threads {th : ThreadId} {g : CoreId} (h : th ∈ [0, 1, 2, 3].map (mkTh g.toNat)) :
    thCore th = g.toNat := by
  obtain ⟨i, hi, rfl⟩ := List.mem_map.mp h
  have hg := g.isLt
  have hi4 : i < 4 := by simp only [List.mem_cons, List.not_mem_nil, or_false] at hi; omega
  simp only [mkTh, thCore, BitVec.toNat_ofNat]
  omega

/-- One thread of a core waits for w, its line at hand: it alone wakes, and is READY. -/
theorem wake_one {s : State} {th : ThreadId} {g : CoreId} {w : Why} {c : CtxId} (hg : thCore th = g.toNat)
    (hwaits : s.waitsFor w th = true) (hc : s.thCtx th = some c) (hheld : s.fetchCheck th c (s.thr th).pc = .held false)
    (hpause : (s.thr th).pauseReq = false) (hstop : (s.thr th).stopReq = false)
    (hothers : ∀ th', thCore th' = g.toNat → th' ≠ th → (s.thr th').why ≠ w) :
    s.wake g.toNat w = s.setThr th { s.thr th with st := .ready, why := .none } := by
  obtain ⟨before, after, hsplit, hbefore⟩ := List.eq_append_cons_of_mem (mem_core_threads hg)
  have sleeps (th' : ThreadId) (hin : th' ∈ before ++ th :: after) (hne : th' ≠ th) : s.waitsFor w th' = false := by
    have hwhy := hothers th' (core_of_mem_threads (hsplit ▸ hin)) hne
    simp [State.waitsFor, hwhy]
  have first : ∀ th' ∈ before, s.waitsFor w th' = false := fun th' hin =>
    sleeps th' (List.mem_append_left _ hin) fun e => hbefore (e ▸ hin)
  have last : ∀ th' ∈ after,
      (s.setThr th { s.thr th with st := .ready, why := .none }).waitsFor w th' = false := by
    intro th' hin
    by_cases hne : th' = th
    · simp [State.waitsFor, hne]
    · have hsleeps := sleeps th' (List.mem_append_right _ (List.mem_cons_of_mem _ hin)) hne
      rwa [State.waitsFor, State.setThr_thr_ne _ _ _ _ hne]
  rw [wake_eq, hsplit, List.foldl_append, foldl_wake_none first, List.foldl_cons, if_pos hwaits,
    fetchHere_held s th c hc hheld hpause hstop, foldl_wake_none last]

/-! ### The events -/

/-- A line that is held and checked is at hand. -/
theorem held_of_fetchCheck {s : State} {th : ThreadId} {c : CtxId} {pc : Word} (h : s.fetchCheck th c pc = .held false) :
    s.fetchable c pc = true ∧ s.lineHeld th pc = true ∧
      ((s.thr th).super || (s.core (thCore th)).userLines.contains (pc.toNat / 64)) = true := by
  unfold State.fetchCheck at h
  dsimp only at h
  split at h
  · cases h
  · next hfetch =>
    split at h
    · next hline => exact ⟨by simpa using hfetch, by simpa only [Bool.and_eq_true] using hline⟩
    · split at h
      · split at h <;> cases h
      · cases h
      · cases h

/-- The power of a vector unit is no part of the check of a fetch from a held line. -/
theorem fetchCheck_power {s : State} {th : ThreadId} {c : CtxId} {pc : Word} (p : VPow)
    (h : s.fetchCheck th c pc = .held false) :
    (s.modCore (thCore th) fun k => { k with vpow := p }).fetchCheck th c pc = .held false := by
  obtain ⟨hfetch, hline, hchecked⟩ := held_of_fetchCheck h
  refine fetchCheck_held hfetch ?_ ?_
  · rw [State.lineHeld, State.modCore_eq, State.setCore_core]; exact hline
  · rw [State.modCore_eq, State.setCore_core]; exact hchecked

/-- A wake ends: the unit is powered, then its threads go on. -/
theorem vecWakeEnd_on {s : State} {g : CoreId} (h : (s.core g.toNat).vpow = .waking false) :
    exec (.vecWakeEnd g) s = .next ((s.modCore g.toNat fun c => { c with vpow := .on }).wake g.toNat .wake) := by
  rw [exec_vecWakeEnd, execVecWakeEnd, h]; rfl

/-- With no order to pause or halt, a thread that has to wait for anything but a slot waits, and nothing else changes. -/
theorem stall_idle {s : State} {th : ThreadId} {w : Why} (hw : (w == .slot) = false) (hpause : (s.thr th).pauseReq = false)
    (hstop : (s.thr th).stopReq = false) :
    s.stall th w = s.setThr th { s.thr th with st := .waitUnit, why := w } := by
  simp only [State.stall, hw, Bool.false_eq_true, if_false, State.modThr_eq]
  exact settle_idle _ _ (by rw [State.setThr_thr]; exact hpause) (by rw [State.setThr_thr]; exact hstop)

/-- A vector instruction that finds the unit down begins its wake, and its thread waits for that (R164). -/
theorem vecInstr_wakes {s : State} {th : ThreadId} {regs : List Reg} (w : BitVec 32) (act : State → State)
    (h : s.issues th regs) (hfly : (s.thr th).vfly = none) (hoff : (s.core (thCore th)).vpow = .off) :
    ∃ u, vecInstr s th regs true w act = .next u ∧ (u.core (thCore th)).vpow = .waking false ∧
      (u.core (thCore th)).cntWake = (s.core (thCore th)).cntWake + 1 ∧
      u.thr th = { s.thr th with st := .waitUnit, why := .wake } := by
  obtain ⟨-, hpause, hstop, -⟩ := canIssue_spec s th h.1
  have hnoted : (s.noted th).core (thCore th) = { s.core (thCore th) with last := BitVec.ofNat 2 (thT th) } := by
    rw [noted_setCore, State.setCore_core]
  have hstalls : vecInstr s th regs true w act = .next (((s.noted th).modCore (thCore th) fun c =>
      { c with vpow := .waking false, cntWake := c.cntWake + 1 }).stall th .wake) := by
    rw [vecInstr, issueWith_issues _ _ _ _ h]
    simp only [noted_thr, hfly, hnoted, hoff, Option.isSome_none, Bool.not_true, Bool.false_eq_true, if_false]
  refine ⟨_, hstalls.trans (congrArg Host.Outcome.next (stall_idle rfl hpause hstop)), ?_, ?_, ?_⟩
  · simp
  · simp [hnoted]
  · simp

/-- The scrub meets an uncorrectable error in a V register: a record, the count, and the mark (R167). -/
theorem vecScrub_uncorrectable (s : State) (th : ThreadId) (n : Reg) (word : Nat) :
    ∃ u, exec (.vecScrub th (.v n) word true) s = .next u ∧
      (u.thr th).vec = { (s.thr th).vec with badV := (n.toNat, word) :: (s.thr th).vec.badV } ∧
      (u.core (thCore th)).vEccU = satAdd 32 (s.core (thCore th)).vEccU 1 ∧ u.mem = s.mem := by
  refine ⟨_, exec_vecScrub .., ?_, ?_, ?_⟩
  · simp [Thread.markBad]
  · simp [Core.countVecU]
  · simp

/-- Settles O30: a wake begins as `vecInstr_wakes` says and ends in the frame of `wake_frame`, its one thread going on by
`wake_one`; the scrub is `vecScrub_uncorrectable`. -/
theorem vectorUnitEvents : Obligations.VectorUnitEvents := by
  intro s g c
  refine ⟨fun hon hthresh hidle => ?_, fun hwaking => ?_, ?_, ?_, fun th n word hth => ⟨?_, ?_⟩⟩
  · exact (exec_vecPowerDown ..).trans (if_pos (by simpa [c, hon, hidle] using hthresh))
  · obtain ⟨hpower, hmem⟩ := wake_frame (s.modCore g.toNat fun c => { c with vpow := .on }) g.toNat .wake
    exact ⟨_, vecWakeEnd_on hwaking, by rw [hpower, State.modCore_eq, State.setCore_core], hmem⟩
  · rintro th hth hwaking hst hwhy hpend hexc hpause hstop ⟨x, hx, hheld⟩ hothers
    obtain ⟨hpower, -⟩ := wake_frame (s.modCore g.toNat fun c => { c with vpow := .on }) g.toNat .wake
    have hcheck := fetchCheck_power .on hheld
    rw [hth] at hcheck
    have hwaits : s.waitsFor .wake th = true := by simp [State.waitsFor, hst, hwhy, hpend, hexc]
    have hwake := wake_one (s := s.modCore g.toNat fun c => { c with vpow := .on }) hth hwaits hx hcheck hpause hstop hothers
    exact ⟨_, vecWakeEnd_on hwaking, by rw [hwake]; exact State.setThr_thr _ _ _,
      by rw [hpower, State.modCore_eq, State.setCore_core]⟩
  · intro th f hth hissues hfly hoff
    have hwakes := fun act => vecInstr_wakes (encVInt 0x00 f) act hissues hfly (by rw [hth]; exact hoff)
    rw [hth] at hwakes
    rw [exec_vadd, execVadd, vintOp]
    obtain ⟨u, hexec, hpower, hcount, hthr⟩ := hwakes _
    exact ⟨u, hexec, hpower, hcount, by rw [hthr], by rw [hthr]⟩
  · obtain ⟨u, hexec, hvec, hcount, hmem⟩ := vecScrub_uncorrectable s th n word
    rw [hth] at hcount
    exact ⟨u, hexec, hvec, hcount, hmem⟩
  · rw [← hth]; exact exec_vecScrub ..

end Sys2Proof.Machine
end

section
/-!
PROOFS. What reset leaves (R194, R414, R434): every table is empty, so that each of its entries has its reset value.
-/

namespace Sys2Proof.Machine

theorem reset_ctx (c : CtxId) : State.reset.ctx c = {} := rfl

theorem reset_thr (th : ThreadId) : State.reset.thr th = {} := rfl

theorem reset_port (p : Nat) : State.reset.port p = {} := rfl

theorem reset_dieClk (d : Nat) : State.reset.dieClk d = {} := rfl

theorem reset_quadCtx (q : Nat) : State.reset.quadCtx q = none := rfl

theorem reset_memGet (a : Nat) : memGet State.reset.mem a = 0 := rfl

/-- Settles O58: the entries are those of `reset_ctx`, `reset_thr`, `reset_dieClk` and `reset_port`, the registers of the units as
they are at reset. -/
theorem resetState : Obligations.ResetState := by
  unfold Obligations.ResetState
  intro s
  refine ⟨rfl, reset_memGet, reset_mem_wf, rfl, rfl, rfl, rfl, rfl, rfl, rfl, rfl, rfl, rfl, rfl, rfl, fun c => ?_,
    fun th => ?_, fun d _ => ?_, reset_quadCtx, fun p _ => ?_⟩
  · rw [reset_ctx]
    exact ⟨rfl, rfl, rfl⟩
  · rw [reset_thr]
    exact ⟨rfl, rfl⟩
  · rw [reset_dieClk]
  · rw [reset_port]

end Sys2Proof.Machine
end

section
/-!
PROOFS. Scalar loads and stores beyond the own Bench, said of the Larder (R196, R198, R217, R218): the slots that a thread holds,
the checks of the one part, and the request that goes out.
-/

namespace Sys2Proof.Machine

/-! ### Slots (R42) -/

section
variable (s : State) (th : ThreadId)

/-- The order of issue does not bear on the slots. -/
@[simp] theorem noted_slotFree : (s.noted th).slotFree th = s.slotFree th := by
  rw [State.slotFree, noted_setCore, State.setCore_core]; rfl

theorem slotsHeld_setThr_ne (t : Thread) {th' : ThreadId} (h : th' ≠ th) : (s.setThr th t).slotsHeld th' = s.slotsHeld th' := by
  simp only [State.slotsHeld, s.setThr_thr_ne th th' t h, State.setThr_sync]

/-- A thread that comes to hold no more slots than before leaves every thread's count no higher. -/
theorem slotsHeld_setThr_le (t : Thread) (hle : (s.setThr th t).slotsHeld th ≤ s.slotsHeld th) (th' : ThreadId) :
    (s.setThr th t).slotsHeld th' ≤ s.slotsHeld th' := by
  by_cases h : th' = th
  · exact h ▸ hle
  · exact (slotsHeld_setThr_ne s th t h).le

/-- A thread that comes to hold no more slots than before still has one free. -/
theorem slotFree_setThr (t : Thread) (hle : (s.setThr th t).slotsHeld th ≤ s.slotsHeld th) (hfree : s.slotFree th = true) :
    (s.setThr th t).slotFree th = true := by
  have hheld (th' : ThreadId) := slotsHeld_setThr_le s th t hle th'
  have hshared : (s.setThr th t).sharedHeld (thCore th) ≤ s.sharedHeld (thCore th) := by
    simp only [State.sharedHeld, List.map_cons, List.map_nil, List.foldl_cons, List.foldl_nil]
    have h0 := hheld (mkTh (thCore th) 0)
    have h1 := hheld (mkTh (thCore th) 1)
    have h2 := hheld (mkTh (thCore th) 2)
    have h3 := hheld (mkTh (thCore th) 3)
    omega
  rw [State.slotFree, Bool.or_eq_true, decide_eq_true_eq, decide_eq_true_eq] at hfree ⊢
  exact hfree.imp hle.trans_lt fun h => (Nat.add_le_add_right hshared _).trans_lt h

/-- The thread's access has one request, which is still to be sent. -/
def Thread.asks (t : Thread) (st : TState) (why : Why) (a : Access) (r : Req) : Thread :=
  { t with st := st, why := why, pend := some (.access a none [r]) }

/-- A request that is not sent holds no slot. -/
theorem slotFree_asks (st : TState) (why : Why) (a : Access) {r : Req} (hr : r.sent = false) (hfree : s.slotFree th = true) :
    (s.setThr th ((s.thr th).asks st why a r)).slotFree th = true := by
  refine slotFree_setThr s th _ ?_ hfree
  simp only [State.slotsHeld, State.setThr_thr, State.setThr_sync, Thread.asks, openReqs, hr, Bool.false_and, List.filter_cons,
    List.filter_nil, Option.isSome_none, Bool.false_eq_true, if_false, List.length_nil, Nat.add_zero]
  omega

end

/-! ### Requests -/

/-- The one request of a load goes out. -/
theorem sendLoads_one (s : State) (th : ThreadId) (a : Access) (r : Req) (hpend : (s.thr th).pend = some (.access a none [r]))
    (hr : r.sent = false) (hfree : s.slotFree th = true) :
    s.sendLoads th 2 = (s.leaveSlots th).setThr th
      { s.thr th with pend := some (.access a none [{ r with sent := true }]) } := by
  have hfirst : [r].findIdx? (fun r => !r.sent) = some 0 := by simp [hr]
  have hnone : [{ r with sent := true }].findIdx? (fun r => !r.sent) = none := by simp
  simp only [State.sendLoads, hpend, hfirst, hfree, if_true, State.modThr_eq, State.setThr_thr, List.modify_cons, hnone]
  rfl

/-- The thread has posted a store (R217). -/
def Thread.posts (t : Thread) (gen : Byte) (va : Word) (what : PostWhat) : Thread :=
  { t with nextId := t.nextId + 1, posted := t.posted ++ [{ id := t.nextId, va := va, pc := t.pc, gen := gen, what := what }] }

theorem post_setThr (s : State) {th : ThreadId} {c : CtxId} (hc : s.thCtx th = some c) (va : Word) (what : PostWhat) :
    s.post th va what = s.setThr th ((s.thr th).posts (s.ctx c).gen va what) := by
  simp [State.post, hc, Thread.posts]

/-- The one request of a store is posted, and the store retires. -/
theorem sendStores_one (s : State) (th : ThreadId) (c : CtxId) (a : Access) (r : Req) (hc : s.thCtx th = some c)
    (hpend : (s.thr th).pend = some (.access a none [r])) {p : Part} (hparts : r.parts = [0]) (hp : a.parts[0]? = some p)
    (hfree : s.slotFree th = true) :
    s.sendStores th 2 =
      (s.setThr th { (s.thr th).posts (s.ctx c).gen p.va (.cells (reqCells a r)) with pend := none }).storeSent th a.fin := by
  simp only [State.sendStores, hpend, hparts, hp, hfree, post_setThr s hc, if_true, State.modThr_eq, State.setThr_thr,
    State.setThr_setThr]

/-- A thread that has noted its issue counts nothing for a scalar store. -/
theorem countRetired_scalar (s : State) (th : ThreadId) (t : Thread) :
    ((s.noted th).setThr th t).countRetired th false false = (s.noted th).setThr th t := by
  simp only [State.countRetired, noted_setCore, State.modCore_eq, State.setThr_core, State.setCore_core, b2n]
  have hput (k : Core) : ((s.setCore (thCore th) k).setThr th t).setCore (thCore th) k = (s.setCore (thCore th) k).setThr th t :=
    congrArg (fun u => u.setThr th t) (s.setCore_setCore (thCore th) k k)
  exact hput _

/-! ### The Larder -/

section
variable {s : State} {th : ThreadId} {c : CtxId} {va : Word} {r : RegionEntry}

theorem inControl_larder (hhi : va.toNat < 0x300000000) : inControl va = false := by
  rw [inControl, Bool.and_eq_false_iff, decide_eq_false_iff_not]
  exact .inl (by omega)

theorem ownVa_larder (th : ThreadId) (hlo : 0x200000000 ≤ va.toNat) : ownVa th va = false := by
  simp only [ownVa, Bool.or_eq_false_iff, Bool.and_eq_false_iff, decide_eq_false_iff_not]
  exact ⟨by omega, .inl (.inr (by omega))⟩

/-- A part in a region of the Larder that the context may use is at the place that its address names. -/
theorem checkPart_larder_access {p : Part} (k : AKind) (failed : Option (Nat × Reason × Nat)) {align : Nat}
    (hlo : 0x200000000 ≤ p.va.toNat) (hhi : p.va.toNat < 0x300000000) (halign : p.va.toNat % align = 0)
    (hregion : (s.ctx c).mem.region 0 ((p.va.toNat - 0x200000000) / 0x20000000) (p.va.toNat % 0x20000000 / 0x100000) = some r)
    (hperm : permOk k (s.thr th).super r.r r.w r.x r.u = true) :
    s.checkPart th c k align failed p = .ok p.va.toNat false := by
  simp [State.checkPart, window_larder hlo hhi, halign, hregion, hperm]

/-- A scalar access of the Larder passes its checks and is served beyond the own Bench. -/
theorem access_larder {p : Part} (k : AKind) {f : AccEnd} (hc : s.thCtx th = some c)
    (hf : f = .st ∨ ∃ rd len signed, f = .ld rd len signed)
    (hlo : 0x200000000 ≤ p.va.toNat) (hhi : p.va.toNat < 0x300000000) (halign : p.va.toNat % p.len = 0)
    (hregion : (s.ctx c).mem.region 0 ((p.va.toNat - 0x200000000) / 0x20000000) (p.va.toNat % 0x20000000 / 0x100000) = some r)
    (hperm : permOk k (s.thr th).super r.r r.w r.x r.u = true) :
    s.access th { kind := k, parts := [p], fin := f } =
      s.serve th c { kind := k, parts := [p], fin := f } [(p.va.toNat, false)] := by
  have hcheck := checkPart_larder_access (th := th) k none hlo hhi halign hregion hperm
  obtain rfl | ⟨rd, len, signed, rfl⟩ := hf <;> simp [State.access, hc, State.checkParts, partAlign, hcheck]

/-- The translations that an access of the Larder has used: none. -/
theorem touchParts_larder {p : Part} (hlo : 0x200000000 ≤ p.va.toNat) (hhi : p.va.toNat < 0x300000000) :
    s.touchParts th c [p] = s := by
  simp [State.touchParts, window_larder hlo hhi]

theorem reqsOf_one (loc : Nat) : reqsOf false [loc] = [{ line := loc / 64, parts := [0] }] := rfl

/-- A scalar access of the Larder, with a slot free, sends its one request. -/
theorem serve_larder {p : Part} (k : AKind) {f : AccEnd} (hf : f = .st ∨ ∃ rd len signed, f = .ld rd len signed)
    (hlo : 0x200000000 ≤ p.va.toNat) (hhi : p.va.toNat < 0x300000000) (hfree : s.slotFree th = true) :
    s.serve th c { kind := k, parts := [p], fin := f } [(p.va.toNat, false)] =
      if k = .store then
        (s.setThr th ((s.thr th).asks .waitUnit .slot { kind := k, parts := [p], fin := f }
          { line := p.va.toNat / 64, parts := [0] })).sendStores th 2
      else
        (s.setThr th ((s.thr th).asks .waitMem (s.thr th).why { kind := k, parts := [p], fin := f }
          { line := p.va.toNat / 64, parts := [0] })).sendLoads th 2 := by
  obtain rfl | ⟨rd, len, signed, rfl⟩ := hf <;> cases k <;>
    simp [State.serve, AccEnd.badTile, ownVa_larder th hlo, touchParts_larder hlo hhi, hfree, AccEnd.isTile, AccEnd.merges,
      reqsOf_one, Thread.asks]

/-- The cells of a value that a request of its one part carries. -/
theorem reqCells_value (k : AKind) (f : AccEnd) (va : Word) (v len : Nat) :
    reqCells { kind := k, parts := [{ va := va, len := len, idx := 0, data := leBytes v len }], fin := f }
      { line := va.toNat / 64, parts := [0] } = valueCells v len va.toNat := by
  have hloc : va.toNat / 64 * 64 + va.toNat % 64 = va.toNat := Nat.div_add_mod' _ _
  simp only [reqCells, List.flatMap_cons, List.flatMap_nil, List.getElem?_cons_zero, hloc, List.append_nil]
  exact partCells_leBytes va v len va.toNat

end

/-! ### The instructions -/

section
variable {s : State} {th : ThreadId} {c : CtxId} {r : RegionEntry}

/-- Where a thread goes does not depend on what it waited for. -/
theorem retires_cleared (s : State) (t : Thread) (st : TState) (why : Why) (pend : Option Pend) (pc : Word) :
    s.retires th { t with st := st, why := why, pend := pend } pc = s.retires th t pc := by
  have hleave (u : State) (x : Thread) : (u.setThr th x).leaveSlots th = (u.leaveSlots th).setThr th x := rfl
  simp only [State.retires, State.goesTo, State.arrive, hleave, State.modThr_eq, State.setThr_thr, State.setThr_setThr,
    Thread.counted]

/-- A scalar store whose one request is posted retires. -/
theorem storeSent_scalar (s : State) (t : Thread) :
    ((s.noted th).setThr th t).storeSent th .st = s.retires th t (t.pc + 4) := by
  have hscalar : AccEnd.st.isVector = false := rfl
  rw [State.storeSent, hscalar, countRetired_scalar, State.retire, State.setThr_thr, noted_retireTo]

/-- A scalar load of the Larder goes out, and its thread waits for the reply. -/
theorem serve_larder_load {p : Part} {rd : Reg} {len : Nat} {signed : Bool} (hlo : 0x200000000 ≤ p.va.toNat)
    (hhi : p.va.toNat < 0x300000000) (hfree : s.slotFree th = true) :
    (s.noted th).serve th c { kind := .load, parts := [p], fin := .ld rd len signed } [(p.va.toNat, false)] =
      s.waits th { s.thr th with
        st := .waitMem
        pend := some (.access { kind := .load, parts := [p], fin := .ld rd len signed } none
          [{ line := p.va.toNat / 64, parts := [0], sent := true }]) } := by
  have hfree' : (s.noted th).slotFree th = true := by rwa [noted_slotFree]
  have hasks := slotFree_asks (s.noted th) th .waitMem (s.thr th).why
    { kind := .load, parts := [p], fin := .ld rd len signed } (r := { line := p.va.toNat / 64, parts := [0] }) rfl hfree'
  have hsent := sendLoads_one _ th _ _ (by rw [State.setThr_thr]; rfl) rfl hasks
  rw [serve_larder .load (.inr ⟨_, _, _, rfl⟩) hlo hhi hfree', if_neg (by decide)]
  refine hsent.trans ?_
  rw [State.setThr_thr]
  exact ((s.noted th).leaveSlots th).setThr_setThr th _ _

/-- A scalar store of the Larder is posted, and retires. -/
theorem serve_larder_store {p : Part} (hc : s.thCtx th = some c) (hlo : 0x200000000 ≤ p.va.toNat)
    (hhi : p.va.toNat < 0x300000000) (hfree : s.slotFree th = true) :
    (s.noted th).serve th c { kind := .store, parts := [p], fin := .st } [(p.va.toNat, false)] =
      s.retires th ((s.thr th).posts (s.ctx c).gen p.va (.cells (reqCells { kind := .store, parts := [p], fin := .st }
        { line := p.va.toNat / 64, parts := [0] }))) ((s.thr th).pc + 4) := by
  have hfree' : (s.noted th).slotFree th = true := by rwa [noted_slotFree]
  have hasks := slotFree_asks (s.noted th) th .waitUnit .slot { kind := .store, parts := [p], fin := .st }
    (r := { line := p.va.toNat / 64, parts := [0] }) rfl hfree'
  have hsent := sendStores_one (p := p) ((s.noted th).setThr th _) th c _ _ hc (by rw [State.setThr_thr]; rfl) rfl rfl hasks
  rw [serve_larder .store (.inl rfl) hlo hhi hfree', if_pos rfl]
  refine hsent.trans ?_
  rw [State.setThr_thr, State.setThr_setThr, storeSent_scalar]
  exact retires_cleared s ((s.thr th).posts _ _ _) .waitUnit .slot none _

/-- A scalar load of the Larder is sent, and its thread waits for the reply. -/
theorem loadInstr_larder {rd rs1 : Reg} {imm : BitVec 16} (h : s.issues th [rd, rs1]) (len : Nat) (signed : Bool) {va : Word}
    (hva : (s.thr th).xr rs1 + immS imm = va) (hc : s.thCtx th = some c) (hfree : s.slotFree th = true)
    (hlo : 0x200000000 ≤ va.toNat) (hhi : va.toNat < 0x300000000) (halign : va.toNat % len = 0)
    (hregion : (s.ctx c).mem.region 0 ((va.toNat - 0x200000000) / 0x20000000) (va.toNat % 0x20000000 / 0x100000) = some r)
    (hlevel : ((s.thr th).super || r.u) = true) (hr : r.r = true) :
    loadInstr th len signed rd rs1 imm s = .next (s.waits th { s.thr th with
      st := .waitMem
      pend := some (.access { kind := .load, parts := [{ va := va, len := len, idx := 0 }], fin := .ld rd len signed } none
        [{ line := va.toNat / 64, parts := [0], sent := true }]) }) := by
  rw [loadInstr, issueWith_issues _ _ _ _ h]
  simp only [noted_thr, hva, inControl_larder hhi, Bool.false_eq_true, if_false]
  rw [access_larder (s := s.noted th) (p := { va := va, len := len, idx := 0 }) (r := r) .load hc
      (.inr ⟨_, _, _, rfl⟩) hlo hhi halign hregion (by simp [permOk, hr, hlevel]),
    serve_larder_load hlo hhi hfree]

/-- A scalar store of the Larder is posted, and retires. -/
theorem storeInstr_larder {rs2 rs1 : Reg} {imm : BitVec 16} (h : s.issues th [rs2, rs1]) (len : Nat) {va : Word}
    (hva : (s.thr th).xr rs1 + immS imm = va) (hc : s.thCtx th = some c) (hfree : s.slotFree th = true)
    (hlo : 0x200000000 ≤ va.toNat) (hhi : va.toNat < 0x300000000) (halign : va.toNat % len = 0)
    (hregion : (s.ctx c).mem.region 0 ((va.toNat - 0x200000000) / 0x20000000) (va.toNat % 0x20000000 / 0x100000) = some r)
    (hlevel : ((s.thr th).super || r.u) = true) (hw : r.w = true) :
    storeInstr th len rs2 rs1 imm s = .next (s.retires th ((s.thr th).posts (s.ctx c).gen va
      (.cells (valueCells ((s.thr th).xr rs2).toNat len va.toNat))) ((s.thr th).pc + 4)) := by
  rw [storeInstr, issueWith_issues _ _ _ _ h]
  simp only [noted_thr, hva, inControl_larder hhi, Bool.false_eq_true, if_false]
  rw [access_larder (s := s.noted th)
      (p := { va := va, len := len, idx := 0, data := leBytes ((s.thr th).xr rs2).toNat len }) (r := r) .store hc (.inl rfl)
      hlo hhi halign hregion (by simp [permOk, hw, hlevel]),
    serve_larder_store hc hlo hhi hfree, reqCells_value]

end

/-- Settles O10: a load is `loadInstr_larder` and a store `storeInstr_larder`, each at its length. -/
theorem larderAccessesAreSent : Obligations.LarderAccessesAreSent := by
  unfold Obligations.LarderAccessesAreSent
  intro s th rd rs1 imm c r h hc hfree t va hlo hhi hregion hlevel loads stores
  have sent (len : Nat) (signed : Bool) (halign : va.toNat % len = 0) (hr : r.r = true) :=
    loadInstr_larder h len signed rfl hc hfree hlo hhi halign hregion hlevel hr
  have posted (len : Nat) (halign : va.toNat % len = 0) (hw : r.w = true) :=
    storeInstr_larder h len rfl hc hfree hlo hhi halign hregion hlevel hw
  exact ⟨sent 1 true, sent 1 false, sent 2 true, sent 2 false, sent 4 true, sent 4 false, sent 8 false, posted 1, posted 2,
    posted 4, posted 8⟩

end Sys2Proof.Machine
end

section
/-!
PROOFS. Refutations of two statements about memory, each by a state that meets the hypotheses and on which the model gives another
outcome.
-/

namespace Sys2Proof.Machine

/-! ### O12: an instruction after PGINVA that the thread may not fetch -/

/-- The thread's PGINVA stands at the last word of die 0's Larder, and waits to complete. The context has no region in the Larder
of die 1, which the next address lies in. -/
def lastWordInval : State := oneThread { lonelyThread with pc := 0x21FFFFFFC, st := .waitMem, pend := some (.pginv none) }
  { gated := false }

/-- The PGINVA retires, and the fetch of the next instruction takes MEMORY: the thread is at its handler. -/
theorem lastWordInval_goes_to_handler :
    (reached (exec (.pginvComplete 0) lastWordInval)).map (fun u => (u.thr 0).pc) = some 0x200000100 := by decide

/-- Refutes O12: a next pc in a populated window may still lie in no region of the context, and then the thread is at its handler
once PGINVA has completed (R45, R196, R197). -/
theorem not_fenceAndInvalidation : ¬ Obligations.FenceAndInvalidation := by
  unfold Obligations.FenceAndInvalidation
  rintro ⟨-, h⟩
  obtain ⟨u, hexec, hpc, -⟩ := h lastWordInval 0 0 none (by decide) (by decide) (by decide)
    (by decide) (by decide)
  have hhandler := lastWordInval_goes_to_handler
  rw [hexec] at hhandler
  have hpc' := hpc.symm.trans (Option.some.inj hhandler)
  revert hpc'
  decide

/-! ### O36: a channel of a generation that a purge has ended -/

/-- A channel of an ended generation issues nothing, and its phase does not end (R408, Table 14.4). -/
theorem strmIssue_old (s : State) (q : QuadId) (ch : BitVec 3) (h : s.strmOld (s.chan q.toNat ch.toNat) = true) :
    exec (.strmIssue q ch) s = .next s := by
  simp [exec_strmIssue, execStrmIssue, h]

/-- An END that neither waits nor signals, and begins no further pass. -/
def plainEnd : Desc :=
  { op := 15, flags := 0, esz := 0, timeout := 1, src := 0, dst := 0, cols := 0, rows := 0, ss := 0, ds := 0, waitTally := 0
    waitArg := 0, sigTally := 0, rep := 0, srs := 0, drs := 0 }

/-- Channel 2 of quad 0 has come to its END in generation 1 of context 0, which runs in generation 0. -/
def staleChannel : State :=
  { oneThread lonelyThread { gated := false } with
    strm := [(0, { chans := [(2, { st := .running, gen := 1, desc := some plainEnd, inData := true })] })] }

/-- Refutes O36: no hypothesis says that the channel is of its context's generation, and one of an ended generation stays RUNNING
at its END (`strmIssue_old`). -/
theorem not_streamChannelData : ¬ Obligations.StreamChannelData := by
  unfold Obligations.StreamChannelData
  intro h
  obtain ⟨-, -, -, hend⟩ := h staleChannel 0 2 plainEnd (by decide) (by decide) (by decide)
    (by decide)
  obtain ⟨u, hexec, hidle, -⟩ := hend (by decide) (by decide) (by decide) (by decide)
    (by decide) (by decide) (by decide) (.inl (by decide))
  rw [strmIssue_old staleChannel 0 2 (by decide)] at hexec
  obtain rfl : staleChannel = u := by injection hexec
  revert hidle
  decide

end Sys2Proof.Machine
end

section
/-!
PROOFS. A descriptor's reply that comes to a channel of an ended generation, and the refutation that rests on it (R231, R408).
-/

namespace Sys2Proof.Machine

/-- A channel of an ended generation looks at no descriptor: the reply is counted as late, and its bytes are not checked (R408,
Table 14.4). -/
theorem strmDescReply_old (s : State) (q : QuadId) (ch : BitVec 3) (r : SRead)
    (hreads : (s.chan q.toNat ch.toNat).reads = [r]) (hdesc : r.desc.isSome = true) (hclean : s.poisonIn r.loc 64 = false)
    (hold : s.strmOld (s.chan q.toNat ch.toNat) = true) :
    exec (.strmDescReply q ch) s = .next ((((s.modChan q.toNat ch.toNat fun x => { x with reads := x.reads.eraseIdx 0 }).pumpEngine
      q.toNat ch.toNat).strmLate q.toNat).strmDrain q.toNat ch.toNat) := by
  have holdest : (s.chan q.toNat ch.toNat).reads.findIdx? (·.desc.isSome) = some 0 := by simp [hreads, hdesc]
  have hread : (s.chan q.toNat ch.toNat).reads[0]? = some r := by simp [hreads]
  simp [exec_strmDescReply, execStrmDescReply, holdest, hread, hclean, hold]

/-- The read of descriptor 0 at the start of die 0's Larder. -/
def firstDescRead : SRead := { loc := 0x200000000, va := 0x200000000, len := 64, desc := some 0 }

/-- Channel 2 of quad 0 waits for its descriptor 0, whose 64 bytes are 0, in generation 1 of context 0, which runs in
generation 0. -/
def staleDescChannel : State :=
  { oneThread lonelyThread { gated := false } with
    strm := [(0, { chans := [(2, { base := 0x200000000, st := .running, gen := 1, want := some 0, reads := [firstDescRead] })] })] }

/-- Refutes O35: a descriptor of 64 bytes 0 has no legal OP, but no hypothesis says that the channel is of its context's
generation, and the reply to one of an ended generation is dropped (`strmDescReply_old`): it stays RUNNING and does not fault. -/
theorem not_streamChannelControl : ¬ Obligations.StreamChannelControl := by
  unfold Obligations.StreamChannelControl
  intro h
  obtain ⟨-, hdesc, -⟩ := h staleDescChannel 0 2 .reeve 0 openLarder
  obtain ⟨-, hreply⟩ := hdesc firstDescRead 0 (by decide) (by decide) (by decide) (by decide) (by decide)
  obtain ⟨hbad, -⟩ := hreply (by decide)
  obtain ⟨u, hexec, ⟨hfaulted, -⟩, -⟩ := hbad (by decide)
  rw [strmDescReply_old staleDescChannel 0 2 firstDescRead (by decide) (by decide) (by decide) (by decide)] at hexec
  obtain rfl := Host.Outcome.next.inj hexec
  revert hfaulted
  decide

end Sys2Proof.Machine
end

section
/-!
PROOFS. Refutations of the four statements about tallies and bells (R42, R45, R62, R197, R250 to R270), each by a state that meets
the hypotheses and on which the model gives another outcome.
-/

namespace Sys2Proof.Machine

/-- What thread 0 is found to be after a command, it is in the state that the command is known to reach. -/
theorem thread_of_reached {α : Type} (f : Thread → α) {i : Instr} {s u : State} {a : α} (hexec : exec i s = .next u)
    (hfound : (reached (exec i s)).map (fun u => f (u.thr 0)) = some a) : f (u.thr 0) = a := by
  rw [hexec] at hfound
  exact Option.some.inj hfound

/-! ### O31: the slot of a posted signal -/

/-- Thread 0 stands at a TSIG of amount X1 = 1 to tally 0 and has three requests outstanding: one of its own four slots is left.
Thread 1 of the core has twenty, which take the core's sixteen shared slots. No line is held. -/
def lastSlot : State :=
  (oneThread { lonelyThread with x := [(1, 1)], dropped := 3 } { gated := false }).setThr 1 { dropped := 20 }

/-- The signal holds the last slot until it is applied (R42, R266), so that the fetch of the next line waits for one. -/
theorem lastSlot_taken_by_signal :
    (reached (exec (.tsig 0 0 0 1) lastSlot)).map (fun u => (u.thr 0).st) = some .waitUnit := by decide

/-- The state that the statement names beside the message: the retirement, in which the signal is not yet counted, finds the slot
free for the fetch. -/
theorem lastSlot_free_without_signal :
    ((lastSlot.retires 0 (lastSlot.thr 0) ((lastSlot.thr 0).pc + 4)).thr 0).st = .waitFetch := by decide

/-- Refutes O31: the statement adds the posted message to the state after the retirement, but the message is sent first and takes
a slot, and where that was the last one the thread is in WAIT_UNIT and not in WAIT_FETCH. -/
theorem not_syncInstructionResults : ¬ Obligations.SyncInstructionResults := by
  unfold Obligations.SyncInstructionResults
  intro h
  obtain ⟨hposts, -⟩ := h lastSlot 0 0 0 0 1 ⟨by decide, by decide⟩ (by decide) (by decide) (by decide) (by decide)
    (fun m hm => absurd hm List.not_mem_nil)
  obtain ⟨hsig, -⟩ := hposts (by decide) (by decide) (by decide) rfl
  have hwaits := thread_of_reached Thread.st hsig lastSlot_taken_by_signal
  exact absurd (lastSlot_free_without_signal.symm.trans hwaits) (by decide)

/-! ### O32, O33: an instruction after a wait that the thread may not fetch -/

/-- The thread's TWAIT or BWAIT at object 5 stands at the last word of die 0's Larder, and its message is on its way. The context
has no region in the Larder of die 1, which the next address lies in. -/
def lastWordWait (bell : Bool) (y : Sync) : State :=
  { oneThread { lonelyThread with pc := 0x21FFFFFFC, st := .waitSync, wait := some (bell, 5) } { gated := false } with sync := y }

/-- A wait for amount 3. -/
def tallyWaitMsg : SyncMsg := { op := .wait, obj := 5, src := .thread 0, ctx := 0, gen := 0, arg := 3 }

/-- The tally holds 4. -/
def lastWordTally : State := lastWordWait false { tallies := [(5, { value := 4, assigned := true })], msgs := [tallyWaitMsg] }

/-- A wait for round 6. -/
def bellWaitMsg : SyncMsg := { op := .bellWait, bell := true, obj := 5, src := .thread 0, ctx := 0, gen := 0, arg := 6 }

/-- The bell has released round 6. -/
def lastWordBell : State := lastWordWait true { bells := [(5, { count := 2, done := 7, assigned := true })], msgs := [bellWaitMsg] }

/-- The TWAIT retires, and the fetch of the next instruction takes MEMORY: the thread is at its handler. -/
theorem lastWordTally_goes_to_handler :
    (reached (exec (.tallyWait 0) lastWordTally)).map (fun u => (u.thr 0).pc) = some 0x200000100 := by decide

/-- So with the BWAIT. -/
theorem lastWordBell_goes_to_handler :
    (reached (exec (.bellWait 0) lastWordBell)).map (fun u => (u.thr 0).pc) = some 0x200000100 := by decide

/-- Refutes O32: the hypotheses let the next pc lie in a populated window and in no region of the context, and then the thread is at
its handler once its wait has completed (R45, R196, R197). -/
theorem not_tallyOperations : ¬ Obligations.TallyOperations := by
  unfold Obligations.TallyOperations
  intro h
  obtain ⟨-, -, -, hwait⟩ := h lastWordTally 0 tallyWaitMsg 0 0 rfl rfl rfl (by decide) (by unfold noSlotWaits; decide)
  obtain ⟨hcompletes, -⟩ := hwait (by decide) (fun hlatch => absurd hlatch (by decide))
  obtain ⟨u, hexec, -, -, -, -, hpc, -⟩ := hcompletes (by decide) (by decide) (by decide) (by decide) (by decide) (by decide)
  have hhandler := thread_of_reached Thread.pc hexec lastWordTally_goes_to_handler
  exact absurd (hpc.symm.trans hhandler) (by decide)

/-- Refutes O33: as for O32, a thread whose wait at a bell ends at once may not be allowed to fetch its next instruction. -/
theorem not_bellOperations : ¬ Obligations.BellOperations := by
  unfold Obligations.BellOperations
  intro h
  obtain ⟨-, -, hwait, -⟩ := h lastWordBell 0 bellWaitMsg 0 0 rfl rfl rfl (by decide)
  obtain ⟨u, hexec, -, -, -, -, hpc, -⟩ := hwait (by decide) (by decide) (by decide) (by decide) (by decide) (by decide)
  have hhandler := thread_of_reached Thread.pc hexec lastWordBell_goes_to_handler
  exact absurd (hpc.symm.trans hhandler) (by decide)

/-! ### O34: a pause that meets an exception

The model shows a thread whose exception waits in WAIT_UNIT (`State.holdExc`), but the statement takes every state, and its
hypotheses exclude a store error and an instruction in flight without excluding such an exception. -/

/-- The withdrawal of the thread's wait at tally 5. -/
def withdrawal : SyncMsg := { op := .withdraw, obj := 5, src := .thread 0, ctx := 0, gen := 0 }

/-- The thread's wait, queued at tally 5. -/
def queuedWait : Waiter := { src := .thread 0, ctx := 0, n := 3 }

/-- The thread waits at tally 5 with its line at hand, an order to pause has sent the withdrawal, and the thread holds an exception
that waits to be taken (R55). -/
def pausedWithException : State :=
  { oneThread { lonelyThread with
      st := .waitSync, wait := some (false, 5), pauseReq := true
      exc := some { cause := .memory, reason := memAlign, tval := 0 } }
    { icache := [(0x8000000, 0)], userLines := [0x8000000], gated := false } with
    sync := { tallies := [(5, { assigned := true, q := [queuedWait] })], msgs := [withdrawal] } }

/-- The exception goes first: the withdrawal leaves the thread READY. -/
theorem pausedWithException_goes_on :
    (reached (exec (.syncWithdraw 0) pausedWithException)).map (fun u => (u.thr 0).st) = some .ready := by decide

/-- Refutes O34: before an exception that waits, a pause does not take hold at the boundary to which the withdrawal brings the
thread (R61, R62). -/
theorem not_syncTimeoutsAndRemote : ¬ Obligations.SyncTimeoutsAndRemote := by
  unfold Obligations.SyncTimeoutsAndRemote
  rintro ⟨-, h, -⟩
  obtain ⟨u, hexec, -, hpaused, -⟩ := h pausedWithException 0 withdrawal 0 queuedWait (by decide) rfl rfl rfl (by decide)
    ⟨0, by decide, by decide⟩ (by decide) (by decide) (by decide) (by decide) (by decide) (by decide)
  have hready := thread_of_reached Thread.st hexec pausedWithException_goes_on
  exact absurd (hpaused.symm.trans hready) (by decide)

end Sys2Proof.Machine
end

section
/-!
PROOFS. What sending packets leaves of the gradient reduction (R332 to R340), and what a bucket's slot shows after it is set (R274).
-/

namespace Sys2Proof.Machine

/-! ### Sending -/

/-- From s to u the reduction engines, the contexts and the module's number are as they were. -/
abbrev State.SameReduction (s u : State) : Prop := u.red = s.red ∧ u.ctxs = s.ctxs ∧ u.fab.module = s.fab.module

namespace State.SameReduction

variable {s u v : State}

theorem refl (s : State) : s.SameReduction s := ⟨rfl, rfl, rfl⟩

theorem trans (h : s.SameReduction u) (k : u.SameReduction v) : s.SameReduction v := by
  obtain ⟨hred, hctxs, hmodule⟩ := h
  obtain ⟨kred, kctxs, kmodule⟩ := k
  exact ⟨kred.trans hred, kctxs.trans hctxs, kmodule.trans hmodule⟩

theorem modFab (s : State) {f : Fab → Fab} (hf : (f s.fab).module = s.fab.module) : s.SameReduction (s.modFab f) := ⟨rfl, rfl, hf⟩

theorem record (s : State) (r : Rec) : s.SameReduction (s.record r) := ⟨by simp, by simp, by simp⟩

theorem drainPort (p fuel : Nat) (s : State) : s.SameReduction (s.drainPort p fuel) := by
  induction fuel generalizing s with
  | zero => exact refl s
  | succ fuel ih =>
    unfold State.drainPort
    dsimp only
    split
    · split_ifs <;> exact ⟨rfl, rfl, rfl⟩
    · refine trans ?_ (ih _)
      exact ⟨rfl, rfl, rfl⟩

theorem enqueue (s : State) (p : Nat) (q : Packet) : s.SameReduction (s.enqueue p q) :=
  (show s.SameReduction (s.modPort p _) from ⟨rfl, rfl, rfl⟩).trans (drainPort p _ _)

theorem deliver (s : State) (q : Packet) : s.SameReduction (s.deliver q) := by
  unfold State.deliver
  dsimp only
  split_ifs <;> exact ⟨rfl, rfl, rfl⟩

theorem routePkt (q : Packet) (h : s.routePkt q = some u) : s.SameReduction u := by
  unfold State.routePkt at h
  split_ifs at h
  · obtain rfl := Option.some.inj h; exact deliver s q
  · obtain rfl := Option.some.inj h; exact modFab s rfl
  · obtain ⟨p, -, rfl⟩ := Option.map_eq_some_iff.mp h; exact enqueue s p q

theorem loseRecord (s : State) (p : Nat) (code : Reason) (h : PktHdr) : s.SameReduction (s.loseRecord p code h) := by
  have dropped : s.SameReduction (s.modFab fun b => { b with drop := b.drop + 1 }) := modFab s rfl
  unfold State.loseRecord
  dsimp only
  split_ifs
  · exact (dropped.trans (record _ _)).trans (modFab _ rfl)
  · exact dropped

theorem lose (s : State) (p : Nat) (code : Reason) (q : Packet) : s.SameReduction (s.lose p code q) := by
  have lost := loseRecord s p code q.hdr
  unfold State.lose
  dsimp only
  split_ifs
  · exact lost
  · cases hroute : (s.loseRecord p code q.hdr).routePkt ((s.loseRecord p code q.hdr).noticeOf q.hdr code) with
    | some t => exact lost.trans (routePkt _ hroute)
    | none => exact lost.trans (loseRecord _ _ _ _)

theorem sendOne (s : State) (q : Packet) : s.SameReduction (s.sendOne q) := by
  unfold State.sendOne
  cases hroute : s.routePkt q with
  | some t => exact routePkt q hroute
  | none => exact lose s _ _ q

theorem sendPkt (s : State) (q : Packet) : s.SameReduction (s.sendPkt q) :=
  foldl_keeps (s.SameReduction ·) (fun t p h => h.trans (sendOne t p)) _ (refl s)

end State.SameReduction

/-! ### Slots -/

variable (s : State)

theorem find?_sset_self {α : Type} (k : Nat) (v : α) (m : SMap α) : (sset k v m).find? (·.1 == k) = some (k, v) := by
  induction m with
  | nil => simp [sset]
  | cons x m ih =>
    unfold sset
    split_ifs with hlt heq
    · simp
    · simp
    · simp [ih, Ne.symm heq]

/-- Setting a key changes no entry that a predicate holds of, where it holds neither of the entry found there nor of the new one. -/
theorem filter_sset {α : Type} (p : Nat × α → Bool) (k : Nat) (v w : α) (m : SMap α) (hfound : m.find? (·.1 == k) = some (k, w))
    (hold : p (k, w) = false) (hnew : p (k, v) = false) : (sset k v m).filter p = m.filter p := by
  induction m with
  | nil => simp at hfound
  | cons x m ih =>
    obtain ⟨k', v'⟩ := x
    unfold sset
    split_ifs with hlt heq
    · simp [hnew]
    · obtain rfl : v' = w := by simpa [heq] using hfound
      subst heq
      simp [hold, hnew]
    · rw [List.find?_cons_of_neg (by simpa using Ne.symm heq)] at hfound
      simp only [List.filter_cons, ih hfound]

@[simp] theorem State.setBucket_bucket (e k : Nat) (b : Bucket) : (s.setBucket e k b).bucket e k = some b := by
  simp [State.bucket, State.setBucket, find?_sset_self]

@[simp] theorem State.setBucket_setBucket (e k : Nat) (b c : Bucket) :
    (s.setBucket e k b).setBucket e k c = s.setBucket e k c := by
  simp [State.setBucket, State.modRedEng, smod_smod]

@[simp] theorem State.dropInbox_bucket (i e k : Nat) : (s.dropInbox i).bucket e k = s.bucket e k := rfl

theorem State.redEng_modRedEng_ne {e e' : Nat} (f : RedEngine → RedEngine) (h : e' ≠ e) :
    (s.modRedEng e f).redEng e' = s.redEng e' := by
  simp [State.redEng, State.modRedEng, sget_smod, h]

end Sys2Proof.Machine
end

section
/-!
PROOFS. When a bucket is at rest (R289 to R296): it can neither start nor end anything, so that its engine leaves it as it is.
-/

namespace Sys2Proof.Machine

variable {s : State} {e k : Nat} {r : RingSt} {b : Bucket}

/-- With two columns or more, no more than one frame of a total is not every chunk's. -/
theorem Bucket.allTotals_of_short (l : Nat) (hcol : 2 ≤ r.ncol) (hshort : b.totals.length ≤ 1) : b.allTotals r l = false := by
  obtain ⟨c, hc, hmissing⟩ : ∃ c < r.ncol, (b.totals.filter fun f => f.hdr.chunk == c) = [] := by
    match htotals : b.totals with
    | [] => exact ⟨0, by omega, rfl⟩
    | [f] =>
      by_cases hfirst : f.hdr.chunk = 0
      · exact ⟨1, by omega, by simp [hfirst]⟩
      · exact ⟨0, by omega, by simp [hfirst]⟩
    | _ :: _ :: _ => simp [htotals] at hshort
  refine List.all_eq_false.mpr ⟨c, List.mem_range.mpr hc, ?_⟩
  simp [hmissing, covers]

theorem State.shadowDefer_of_primary (hprimary : s.myShadow r = false) : s.shadowDefer e k r = s := by
  unfold State.shadowDefer
  split
  · rfl
  · split
    · simp [hprimary]
    · rfl

/-- A bucket's pass has begun, or cannot: its contribution is not at hand, or its one circuit, of a one-dimensional ring, goes
round. -/
abbrev Bucket.PassStands (b : Bucket) (r : RingSt) : Prop :=
  b.e.isSome = true ∧ (b.begun = true ∨ b.ready false = false) ∨
    b.e = none ∧ b.pre = true ∧ b.origin = true ∧ r.cfg.twoD = false

theorem State.redOriginate_of_stands (own : Nat) (hbucket : s.bucket e k = some b) (hunfrozen : b.frozen = false)
    (hstands : b.PassStands r) : s.redOriginate e k r own = s := by
  rcases hstands with ⟨hfixed, -⟩ | ⟨hnone, hpre, horigin, hrow⟩
  · simp [State.redOriginate, hbucket, hfixed]
  · simp [State.redOriginate, hbucket, hnone, hpre, horigin, hrow, hunfrozen]

theorem State.redBegin_of_stands (own : Nat) (hbucket : s.bucket e k = some b) (hprimary : s.myShadow r = false)
    (hstands : b.PassStands r) : s.redBegin e k r own = s := by
  rcases hstands with ⟨hfixed, hbegun⟩ | ⟨hnone, hpre, -, -⟩
  · obtain ⟨x, hx⟩ := Option.isSome_iff_exists.mp hfixed
    rcases hbegun with hbegun | hwaits
    · simp [State.redBegin, hbucket, hx, hbegun]
    · simp [State.redBegin, hbucket, hx, hprimary, hwaits]
  · simp [State.redBegin, hbucket, hnone, hpre]

theorem State.redRetry_of_noneWaits (own fuel : Nat) (hbucket : s.bucket e k = some b) (hnone : b.waiting = []) :
    s.redRetry e k r own fuel = s := by
  cases fuel with
  | zero => rfl
  | succ fuel => simp [State.redRetry, hbucket, hnone]

/-- The totals that are here end no pass. -/
abbrev State.PassLasts (s : State) (r : RingSt) (b : Bucket) : Prop :=
  (b.totals.any fun f => f.hdr.srcfail) = false ∧ b.allTotals r (s.elemsOf b) = false

theorem State.redEnd_of_lasts (hbucket : s.bucket e k = some b) (hunended : b.ended = false) (hlasts : s.PassLasts r b) :
    s.redEnd e k r = (false, s) := by
  obtain ⟨hunfailed, hincomplete⟩ := hlasts
  simp [State.redEnd, hbucket, hunended, hunfailed, hincomplete]

/-- Bucket b of ring r, in slot k of engine e of a primary, can go no further by itself: no frame waits, and no pass of it begins or
ends. -/
abbrev State.AtRest (s : State) (e k : Nat) (r : RingSt) (b : Bucket) : Prop :=
  s.bucket e k = some b ∧ s.ring b.ctx b.ring = some r ∧ s.myShadow r = false ∧ b.frozen = false ∧ b.ended = false ∧
    b.waiting = [] ∧ b.PassStands r ∧ s.PassLasts r b

/-- The engine takes a bucket at rest no further. -/
theorem State.AtRest.redProgress (h : s.AtRest e k r b) (fuel : Nat) : s.redProgress e k fuel = s := by
  obtain ⟨hbucket, hring, hprimary, hunfrozen, hunended, hnone, hstands, hlasts⟩ := h
  cases fuel with
  | zero => rfl
  | succ fuel =>
    simp [State.redProgress, hbucket, hring, hunfrozen, hunended, State.shadowDefer_of_primary hprimary,
      State.redOriginate_of_stands _ hbucket hunfrozen hstands, State.redRetry_of_noneWaits _ _ hbucket hnone,
      State.redBegin_of_stands _ hbucket hprimary hstands, State.redEnd_of_lasts hbucket hunended hlasts]

/-! ### Frames that are sent -/

/-- Sending a frame counts its bytes, and leaves the slots, the contexts and the module's number. -/
theorem State.sendFrame_leaves (s : State) (e : Nat) (b : Bucket) (r : RingSt) (v : Nat) (f : Frame) :
    (∀ e' k', (s.sendFrame e b r v f).bucket e' k' = s.bucket e' k') ∧ (s.sendFrame e b r v f).ctxs = s.ctxs ∧
      (s.sendFrame e b r v f).fab.module = s.fab.module := by
  let counted := s.modRedEng e fun x => { x with cntBytes := x.cntBytes + 4 * f.words.length }
  obtain ⟨hred, hctxs, hmodule⟩ := State.SameReduction.sendPkt counted
    (counted.mkPkt (r.memberAt (r.host v)).module b.ctx b.ctx (b.id ^^^ BitVec.ofNat 16 f.hdr.chunk) (uRed e)
      (redTag b.ring v b.id b.step) (.frame f.hdr f.words f.roll))
  refine ⟨fun e' k' => ?_, hctxs, hmodule⟩
  unfold State.sendFrame State.bucket State.redEng
  dsimp only
  rw [hred]
  by_cases heng : e' = e <;> simp [counted, State.modRedEng, sget_smod, heng]

theorem State.AtRest.sendFrame (h : s.AtRest e k r b) (e' : Nat) (c : Bucket) (v : Nat) (f : Frame) :
    (s.sendFrame e' c r v f).AtRest e k r b := by
  obtain ⟨hbucket, hring, hprimary, hunfrozen, hunended, hnone, hstands, hunfailed, hincomplete⟩ := h
  obtain ⟨hslots, hctxs, hmodule⟩ := s.sendFrame_leaves e' c r v f
  have hctx : ∀ c', (s.sendFrame e' c r v f).ctx c' = s.ctx c' := fun c' => by simp only [State.ctx, hctxs]
  have helems : (s.sendFrame e' c r v f).elemsOf b = s.elemsOf b := by simp only [State.elemsOf, hctx]
  refine ⟨(hslots e k).trans hbucket, ?_, ?_, hunfrozen, hunended, hnone, hstands, hunfailed, ?_⟩
  · rw [State.ring, hctx]; exact hring
  · rw [State.myShadow, hmodule]; exact hprimary
  · rw [helems]; exact hincomplete

/-- A frame for another member is sent. -/
theorem State.redWork_sends (own n v : Nat) (f : Frame) (hbucket : s.bucket e k = some b) (hother : r.host v ≠ own) :
    s.redWork e k r own (n + 2) [(v, f)] = s.sendFrame e b r v f := by
  simp [State.redWork, hbucket, hother]

/-- A frame at a position of this member that leads to one frame for another member. -/
theorem State.redWork_forwards (own n v next : Nat) (f g : Frame) (b' : Bucket) (hbucket : s.bucket e k = some b)
    (hhere : r.host v = own) (hread : s.sourceRead e k r own v f = s) (hhop : s.hop r own b v f = some (b', [(next, g)]))
    (hother : r.host next ≠ own) :
    s.redWork e k r own (n + 3) [(v, f)] = (s.setBucket e k b').sendFrame e b' r next g := by
  rw [State.redWork]
  simp only [hbucket, hhere, hread, hhop, bne_self_eq_false, Bool.false_eq_true, if_false, Option.getD_some, List.append_nil]
  exact State.redWork_sends own n next g (s.setBucket_bucket e k b') hother

end Sys2Proof.Machine
end

section
/-!
PROOFS. What a bucket's contribution is read from (R284, R286, R302): a change of the bucket that keeps its step changes nothing of
it, and where it is at hand the read meets no uncorrectable error.
-/

namespace Sys2Proof.Machine

variable {s : State} {e k : Nat} {r : RingSt} {b c d : Bucket} {g : RegRec}

/-- A slot holds an earlier step of bucket d that uses a group of its deferred values. -/
def Bucket.groupBefore (d : Bucket) (x : Nat × Bucket) : Bool :=
  (x.2.step != d.step && stepLe x.2.step d.step) && (x.2.usesDefer && x.2.ctx == d.ctx && x.2.ring == d.ring && x.2.id == d.id)

theorem State.deferIndex_eq (s : State) (d : Bucket) :
    s.deferIndex d = ((List.range 8).flatMap fun e => ((s.redEng e).slots.filter d.groupBefore).map (·.2.step)).length := by
  simp only [State.deferIndex, State.deferUsers, List.filter_flatMap, List.filter_map, List.filter_filter]
  rfl

/-- The group of deferred values that a bucket uses does not depend on what its own slot holds. -/
theorem State.setBucket_deferIndex (hb : s.bucket e k = some b) (hc : c.step = b.step) (hd : d.step = b.step) :
    (s.setBucket e k c).deferIndex d = s.deferIndex d := by
  obtain ⟨x, hfound, rfl⟩ := Option.map_eq_some_iff.mp hb
  obtain rfl : x.1 = k := by simpa using List.find?_some hfound
  have hslots : ∀ e', ((s.setBucket e x.1 c).redEng e').slots.filter d.groupBefore = (s.redEng e').slots.filter d.groupBefore := by
    intro e'
    by_cases heng : e' = e
    · subst heng
      rw [State.setBucket, State.modRedEng_redEng]
      exact filter_sset _ _ _ _ _ hfound (by simp [Bucket.groupBefore, hd]) (by simp [Bucket.groupBefore, hc, hd])
    · rw [State.setBucket, s.redEng_modRedEng_ne _ heng]
  simp only [State.deferIndex_eq, hslots]

theorem State.setBucket_contrib (hb : s.bucket e k = some b) (hc : c.step = b.step) (hd : d.step = b.step) (lo n : Nat) :
    (s.setBucket e k c).contrib d lo n = s.contrib d lo n := by
  have hindex := State.setBucket_deferIndex hb hc hd
  delta State.contrib State.slotPoison State.deferPart
  simp only [hindex]
  rfl

theorem State.setBucket_contribExp (hb : s.bucket e k = some b) (hc : c.step = b.step) (hd : d.step = b.step) :
    (s.setBucket e k c).contribExp d = s.contribExp d := by
  simp only [State.contribExp, State.setBucket_contrib hb hc hd]

/-! ### The read of a source -/

theorem State.firstPoison_of_clean {l n : Nat} (h : s.poisonIn l n = false) : s.firstPoison l n = none := by
  simp [State.firstPoison, h]

/-- A contribution of the registered source is none where its read, or that of the deferral slot, meets an uncorrectable error. -/
theorem State.contrib_of_registered (hreg : b.reg = some g) (hout : b.outcome = some 0) (lo n : Nat)
    (hbad : (s.poisonIn (g.src + (if g.bf16 then 2 else 4) * lo) ((if g.bf16 then 2 else 4) * n) ||
      (b.usesDefer && (s.slotPoison b g.defer lo n).isSome)) = true) : s.contrib b lo n = none := by
  delta State.contrib
  rw [hreg, hout]
  cases b.copy <;> exact if_pos hbad

/-- A contribution of the registered source that is at hand was read without an uncorrectable error. -/
theorem State.clean_of_contrib {lo n : Nat} (hreg : b.reg = some g) (hout : b.outcome = some 0) (h : (s.contrib b lo n).isSome = true) :
    s.firstPoison (g.src + (if g.bf16 then 2 else 4) * lo) ((if g.bf16 then 2 else 4) * n) = none ∧
      (if b.usesDefer then s.slotPoison b g.defer lo n else none) = none := by
  by_cases hbad : (s.poisonIn (g.src + (if g.bf16 then 2 else 4) * lo) ((if g.bf16 then 2 else 4) * n) ||
      (b.usesDefer && (s.slotPoison b g.defer lo n).isSome)) = true
  · rw [State.contrib_of_registered hreg hout lo n hbad] at h
    exact absurd h (by decide)
  · obtain ⟨hsrc, hslot⟩ := Bool.or_eq_false_iff.mp (Bool.not_eq_true _ ▸ hbad)
    exact ⟨State.firstPoison_of_clean hsrc, by simpa using hslot⟩

/-- The elements that a member reads of its contribution for a frame at its own position: all of them for the exponent of the
pre-round, else those under the frame's words. -/
def RingSt.sourceRange (r : RingSt) (l : Nat) (f : Frame) : Nat × Nat :=
  if f.hdr.phase.toNat = 1 then (0, l) else ((r.rangeOf l f.hdr.phase.toNat f.hdr.chunk).1 + f.hdr.offset, f.words.length)

theorem RingSt.sourceRange_gather (l : Nat) {f : Frame} (hphase : f.hdr.phase = 1) : r.sourceRange l f = (0, l) := by
  simp [RingSt.sourceRange, hphase]

theorem RingSt.sourceRange_reduce (l : Nat) {f : Frame} (hphase : f.hdr.phase = 3) :
    r.sourceRange l f = ((r.chunkRange l f.hdr.chunk).1 + f.hdr.offset, f.words.length) := by
  simp [RingSt.sourceRange, RingSt.rangeOf, hphase]

/-- A frame of another phase than pre-round gather and reduce-scatter reads nothing. -/
theorem State.sourceRead_of_phase (own v : Nat) (f : Frame) (hgather : f.hdr.phase.toNat ≠ 1) (hreduce : f.hdr.phase.toNat ≠ 3) :
    s.sourceRead e k r own v f = s := by
  delta State.sourceRead
  split
  · rfl
  · split
    · rfl
    · simp [hgather, hreduce]

/-- A read that finds the contribution at hand changes nothing. -/
theorem State.sourceRead_of_contrib (own v : Nat) (f : Frame) (hb : s.bucket e k = some b) (hreg : b.reg = some g)
    (hout : b.outcome = some 0)
    (hread : (s.contrib b (r.sourceRange g.elems f).1 (r.sourceRange g.elems f).2).isSome = true) :
    s.sourceRead e k r own v f = s := by
  obtain ⟨hsrc, hslot⟩ := State.clean_of_contrib hreg hout hread
  simp only [RingSt.sourceRange] at hsrc hslot
  delta State.sourceRead
  simp only [hb, hreg, beq_iff_eq]
  split
  · rfl
  · rw [hsrc, hslot]

end Sys2Proof.Machine
end

section
/-!
PROOFS. One hop of a frame at a member's own position (R286, R289 to R292), phase by phase: what the member adds to it, what it keeps
of it, and where the frame goes on to.
-/

namespace Sys2Proof.Machine

variable {s : State} {r : RingSt} {b : Bucket} {g : RegRec} {ce : Int} {h : FrameHdr} {ws : List Int} {roll : List (BitVec 2)}
  {own : Nat}

/-- This member is a primary that adds its registered source to bucket b; ce is the local exponent of what it adds. -/
abbrev State.Contributes (s : State) (r : RingSt) (b : Bucket) (g : RegRec) (ce : Int) : Prop :=
  b.reg = some g ∧ b.outcome = some 0 ∧ b.srcfail = false ∧ s.myShadow r = false ∧ s.contribExp b = some ce

theorem Bucket.ready_of_registered (hreg : b.reg = some g) (honTime : b.outcome = some 0) (shadow : Bool) :
    b.ready shadow = true := by
  simp [Bucket.ready, honTime, hreg]

theorem Bucket.adds_of_onTime (honTime : b.outcome = some 0) : b.adds = true := by simp [Bucket.adds, honTime]

theorem State.elemsOf_registered (s : State) (hreg : b.reg = some g) : s.elemsOf b = g.elems := by simp [State.elemsOf, hreg]

/-- The exponent is that of the whole source, which was read. -/
theorem State.Contributes.contrib_isSome (m : s.Contributes r b g ce) : (s.contrib b 0 g.elems).isSome = true := by
  obtain ⟨hreg, honTime, -, -, hexp⟩ := m
  rw [State.contribExp, hreg, honTime] at hexp
  cases hcopy : b.copy <;> rw [hcopy] at hexp <;> obtain ⟨vs, hvs, -⟩ := Option.map_eq_some_iff.mp hexp <;> simp [hvs]

/-! ### The pre-round (R289) -/

/-- The exponent and the roll entry are entered in a gather message of the row's circuit, which goes on along the row. -/
theorem State.hop_gather (m : s.Contributes r b g ce) (hphase : h.phase = 1) (hrow : h.chunk ≠ 1) (hsrc : h.srcfail = false)
    (hlast : own % r.ncol ≠ r.ncol - 1) :
    s.hop r own b own ⟨h, ws, roll⟩ = some (b, [(r.rowNext own,
      ⟨{ h with maxexp := max (b.keepE.getD (-126)) (max h.maxexp ce) }, ws, roll.set (s.myShard r) 0⟩)]) := by
  obtain ⟨hreg, honTime, hunfailed, hprimary, hexp⟩ := m
  delta State.hop
  simp [hphase, hrow, Bucket.ready_of_registered hreg honTime, hprimary, Bucket.adds_of_onTime honTime, hexp, hunfailed,
    honTime, hsrc, hlast, enterRoll]

/-- A spread message of a one-dimensional ring fixes the pass exponent and the roll, and goes on along the row. -/
theorem State.hop_spread (hphase : h.phase = 2) (hrow : h.chunk ≠ 1) (hone : r.cfg.twoD = false)
    (hlast : own % r.ncol ≠ (2 * r.ncol - 2) % r.ncol) :
    s.hop r own b own ⟨h, ws, roll⟩ =
      some ({ b with e := some h.maxexp, roll := roll }, [(r.rowNext own, ⟨h, ws, roll⟩)]) := by
  rw [Nat.two_mul] at hlast
  delta State.hop
  simp [hphase, hrow, hone, hlast]

/-! ### Reduce-scatter (R290, R292) -/

/-- add() of R292 with the values vs of a shard's contribution, whose local exponent is ce. -/
def Frame.added (f : Frame) (shard : Nat) (ce : Int) (vs : List FVal) : Frame :=
  let sums := (f.words.zip vs).map fun z => addWord z.1 (quantise f.hdr.h f.hdr.e z.2)
  ⟨{ f.hdr with breach := f.hdr.breach || sums.any (·.2), nonfinite := f.hdr.nonfinite || vs.any fun v => !isFin v
                maxexp := max f.hdr.maxexp ce },
    sums.map (·.1), if f.roll = [] then [] else f.roll.set shard 0⟩

theorem State.addFrame_of_contrib (m : s.Contributes r b g ce) {vs : List FVal} (hphase : h.phase = 3)
    (hvs : s.contrib b ((r.chunkRange g.elems h.chunk).1 + h.offset) ws.length = some vs) :
    s.addFrame r b g.elems ⟨h, ws, roll⟩ = Frame.added ⟨h, ws, roll⟩ (s.myShard r) ce vs := by
  obtain ⟨-, honTime, hunfailed, hprimary, hexp⟩ := m
  have hrange : r.rangeOf g.elems h.phase.toNat h.chunk = r.chunkRange g.elems h.chunk := by simp [RingSt.rangeOf, hphase]
  by_cases hroll : roll = [] <;>
    simp [State.addFrame, Frame.added, hprimary, hunfailed, Bucket.adds_of_onTime honTime, hexp, honTime, hrange, hvs, hroll, enterRoll]

/-- A frame that is not yet final goes on along the row with the member's contribution. -/
theorem State.hop_reduce (m : s.Contributes r b g ce) {vs : List FVal} (hphase : h.phase = 3)
    (hvs : s.contrib b ((r.chunkRange g.elems h.chunk).1 + h.offset) ws.length = some vs)
    (hlast : modDiff (own % r.ncol) h.chunk r.ncol ≠ r.ncol - 1) :
    s.hop r own b own ⟨h, ws, roll⟩ = some (b, [(r.rowNext own, Frame.added ⟨h, ws, roll⟩ (s.myShard r) ce vs)]) := by
  have hadd := State.addFrame_of_contrib (roll := roll) m hphase hvs
  obtain ⟨hreg, honTime, -, -, -⟩ := m
  delta State.hop
  simp [hphase, Bucket.ready_of_registered hreg honTime, s.elemsOf_registered hreg, hadd, Frame.added, hlast]

/-- In a one-dimensional ring the chunk's last member has the final total: it keeps it, and sends it on to be gathered. -/
theorem State.hop_reduce_last (m : s.Contributes r b g ce) {vs : List FVal} (hphase : h.phase = 3) (hone : r.cfg.twoD = false)
    (hvs : s.contrib b ((r.chunkRange g.elems h.chunk).1 + h.offset) ws.length = some vs)
    (hlast : modDiff (own % r.ncol) h.chunk r.ncol = r.ncol - 1) :
    let f := Frame.added ⟨h, ws, roll⟩ (s.myShard r) ce vs
    s.hop r own b own ⟨h, ws, roll⟩ = some (b.total f, [(r.rowNext own, { f with hdr := { f.hdr with phase := 4 } })]) := by
  have hadd := State.addFrame_of_contrib (roll := roll) m hphase hvs
  obtain ⟨hreg, honTime, -, -, -⟩ := m
  delta State.hop
  simp [hphase, Bucket.ready_of_registered hreg honTime, s.elemsOf_registered hreg, hadd, hlast, hone, Frame.added]

/-- The first final total is kept. -/
theorem Bucket.total_first (f : Frame) (hnone : b.totals = []) :
    b.total f = { b with totals := [f], roll := if f.roll = [] then b.roll else f.roll } := by
  simp [Bucket.total, hnone]

/-! ### All-gather (R290, R291) -/

/-- A final total is kept, and goes on along the row. -/
theorem State.hop_allGather (hphase : h.phase = 4) (hlast : modDiff (own % r.ncol) h.chunk r.ncol ≠ (2 * r.ncol - 2) % r.ncol) :
    s.hop r own b own ⟨h, ws, roll⟩ = some (b.total ⟨h, ws, roll⟩, [(r.rowNext own, ⟨h, ws, roll⟩)]) := by
  rw [Nat.two_mul] at hlast
  delta State.hop
  simp [hphase, hlast]

/-! ### The columns of a grid (R291) -/

theorem map_range_getD {α β : Type} (d : α) (l : List α) (f : α → Nat → β) :
    ((List.range l.length).map fun i => f ((l[i]?).getD d) i) = l.zipIdx.map fun z => f z.1 z.2 := by
  apply List.ext_getElem
  · simp
  · intro i hi _
    simp only [List.length_map, List.length_range] at hi
    simp [hi]

/-- add() of R292 on the words of a row total, from word lo of the chunk on. -/
def Frame.addedTotal (f : Frame) (rt : List Frame) (lo : Nat) : Frame :=
  let sums := f.words.zipIdx.map fun z => addWord z.1 (wordAt rt (lo + z.2))
  let hm := mergeHdr f.hdr rt
  ⟨{ hm with breach := hm.breach || sums.any (·.2) }, sums.map (·.1), if f.roll = [] then [] else mergeRoll f.roll (rollOf rt)⟩

/-- A part that is not yet final goes on along the column with the total of the member's row. -/
theorem State.hop_columnReduce (hreg : b.reg = some g) (hphase : h.phase = 5)
    (hheld : covers (b.rowTotal own)
      ((r.chunkRange g.elems (h.chunk / r.nrow)).2 - (r.chunkRange g.elems (h.chunk / r.nrow)).1) = true)
    (hlast : modDiff (own / r.ncol) (h.chunk % r.nrow) r.nrow ≠ r.nrow - 1) :
    s.hop r own b own ⟨h, ws, roll⟩ = some (b, [(r.colNext own, Frame.addedTotal ⟨h, ws, roll⟩ (b.rowTotal own)
      ((r.partRange g.elems (h.chunk / r.nrow) (h.chunk % r.nrow)).1 + h.offset - (r.chunkRange g.elems (h.chunk / r.nrow)).1))]) := by
  have hsums := fun rt lo => map_range_getD 0 ws fun w i => addWord w (wordAt rt (lo + i))
  delta State.hop
  simp [hphase, s.elemsOf_registered hreg, hheld, hlast, Frame.addedTotal, hsums, -List.map_map, -List.any_map]

/-- A position that lacks a part of its row chunk assembles nothing. -/
theorem assemble_of_missing (l v n : Nat) (hn : n < r.nrow)
    (hmissing : covers (b.partTotal v ((v % r.ncol + 1) % r.ncol * r.nrow + n))
      ((r.partRange l ((v % r.ncol + 1) % r.ncol) n).2 - (r.partRange l ((v % r.ncol + 1) % r.ncol) n).1) = false) :
    assemble r l v b = (b, []) := by
  unfold assemble
  refine if_neg ?_
  simp only [List.all_map, List.all_eq_true, List.mem_range, not_forall]
  exact ⟨n, hn, by simpa using hmissing⟩

/-- A final part is kept, and goes on along the column; while parts of the row chunk are missing nothing else follows. -/
theorem State.hop_columnGather (hphase : h.phase = 6)
    (hlast : modDiff (own / r.ncol) (h.chunk % r.nrow) r.nrow ≠ (2 * r.nrow - 2) % r.nrow)
    (hnone : assemble r (s.elemsOf b) own { b with rows := b.rows ++ [(own, ⟨h, ws, roll⟩)] } =
      ({ b with rows := b.rows ++ [(own, ⟨h, ws, roll⟩)] }, [])) :
    s.hop r own b own ⟨h, ws, roll⟩ =
      some ({ b with rows := b.rows ++ [(own, ⟨h, ws, roll⟩)] }, [(r.colNext own, ⟨h, ws, roll⟩)]) := by
  rw [Nat.two_mul] at hlast
  delta State.hop
  simp [hphase, hnone, hlast]

end Sys2Proof.Machine
end

section
/-!
PROOFS. O37: the way of a reduction frame at a member's own position (R286, R289 to R292).
-/

namespace Sys2Proof.Machine

variable {s : State} {k : Nat} {p : Packet} {h : FrameHdr} {ws : List Int} {roll : List (BitVec 2)} {e j : Nat} {b b' : Bucket}
  {r : RingSt} {g : RegRec} {ce : Int}

/-- The k-th packet of the inbox is a frame for this member's own position, of the pass that its bucket is in; nothing of the bucket
waits and no total of it is final. -/
abbrev State.FrameHere (s : State) (k : Nat) (p : Packet) (h : FrameHdr) (ws : List Int) (roll : List (BitVec 2)) (e j : Nat)
    (b : Bucket) (r : RingSt) : Prop :=
  s.inboxAt k [0x10, 0x11] = some p ∧ p.body = .frame h ws roll ∧ s.ctxServes p.hdr.dctx = true ∧
    s.ring p.hdr.dctx h.ring.toNat = some r ∧ s.findBucket p.hdr.dctx h.ring.toNat h.bucket h.step = some (e, j) ∧
    s.bucket e j = some b ∧ b.ctx = p.hdr.dctx ∧ b.ring = h.ring.toNat ∧ b.frozen = false ∧ b.ended = false ∧
    b.waiting = [] ∧ b.totals = [] ∧ h.pass = b.pass ∧ h.srcfail = false ∧ 2 ≤ r.ncol ∧
    p.hdr.tag.toNat % 1024 = r.pos s.fab.module ∧ r.host (r.pos s.fab.module) = r.pos s.fab.module

/-- The bucket as it handles a frame: it stands in the frame's phase. -/
def Bucket.handles (b : Bucket) (h : FrameHdr) : Bucket := { b with phase := h.phase.toNat }

/-- The state in which it does. -/
def State.handling (s : State) (k e j : Nat) (b : Bucket) (h : FrameHdr) : State := (s.dropInbox k).setBucket e j (b.handles h)

namespace State.FrameHere

theorem bucket (H : s.FrameHere k p h ws roll e j b r) : s.bucket e j = some b := by
  obtain ⟨-, -, -, -, -, hbucket, -⟩ := H; exact hbucket

theorem noTotal (H : s.FrameHere k p h ws roll e j b r) : b.totals = [] := by
  obtain ⟨-, -, -, -, -, -, -, -, -, -, -, hnone, -⟩ := H; exact hnone

theorem unfailed (H : s.FrameHere k p h ws roll e j b r) : h.srcfail = false := by
  obtain ⟨-, -, -, -, -, -, -, -, -, -, -, -, -, hunfailed, -⟩ := H; exact hunfailed

theorem live (H : s.FrameHere k p h ws roll e j b r) : r.host (r.pos s.fab.module) = r.pos s.fab.module := by
  obtain ⟨-, -, -, -, -, -, -, -, -, -, -, -, -, -, -, -, hlive⟩ := H; exact hlive

/-- The packet is taken from the inbox, and its frame is worked through as far as it leads. -/
theorem redFrame (H : s.FrameHere k p h ws roll e j b r) (phases : List Nat) (hphase : h.phase.toNat ∈ phases)
    (hdeadline : s.startsDeadline r (r.pos s.fab.module) b h = false) :
    redFrame k phases s = .next (((s.handling k e j b h).redWork e j r (r.pos s.fab.module) redFuel
      [(r.pos s.fab.module, ⟨h, ws, roll⟩)]).redProgress e j 2) := by
  have hstart : (s.dropInbox k).startsDeadline r (r.pos s.fab.module) b h = false := hdeadline
  obtain ⟨hinbox, hbody, hserves, hring, hfound, hbucket, -, -, hunfrozen, hunended, -, -, hpass, -, -, hhere, hlive⟩ := H
  simp only [Sys2Proof.Machine.redFrame, hinbox]
  simp [hbody, hphase, hring, hserves, hhere, hlive, hfound, hbucket, hunfrozen, hunended, hpass, hstart, State.handling,
    Bucket.handles]

/-- After a hop to another member that leaves the bucket at rest, the frame has been sent there and nothing else is done. -/
theorem forwards (H : s.FrameHere k p h ws roll e j b r) {phases : List Nat} {next : Nat} {f : Frame}
    (hphase : h.phase.toNat ∈ phases) (hdeadline : s.startsDeadline r (r.pos s.fab.module) b h = false)
    (hread : (s.handling k e j b h).sourceRead e j r (r.pos s.fab.module) (r.pos s.fab.module) ⟨h, ws, roll⟩ = s.handling k e j b h)
    (hhop : (s.handling k e j b h).hop r (r.pos s.fab.module) (b.handles h) (r.pos s.fab.module) ⟨h, ws, roll⟩ =
      some (b', [(next, f)]))
    (hrest : ((s.dropInbox k).setBucket e j b').AtRest e j r b') (hother : r.host next ≠ r.pos s.fab.module) :
    Sys2Proof.Machine.redFrame k phases s = .next (((s.dropInbox k).setBucket e j b').sendFrame e b' r next f) := by
  have hset : (s.handling k e j b h).setBucket e j b' = (s.dropInbox k).setBucket e j b' := State.setBucket_setBucket _ _ _ _ _
  have hwork : (s.handling k e j b h).redWork e j r (r.pos s.fab.module) redFuel [(r.pos s.fab.module, ⟨h, ws, roll⟩)] =
      ((s.dropInbox k).setBucket e j b').sendFrame e b' r next f := by
    rw [← hset]
    exact State.redWork_forwards _ (redFuel - 3) _ next _ f b' (State.setBucket_bucket _ e j _) H.live hread hhop hother
  rw [H.redFrame phases hphase hdeadline, hwork, (hrest.sendFrame e b' next f).redProgress 2]

/-- A bucket that has kept no more than one final total, and whose pass has begun or waits for its exponent, is at rest. -/
theorem atRest (H : s.FrameHere k p h ws roll e j b r) (hprimary : s.myShadow r = false)
    (hsame : (b'.ctx, b'.ring, b'.frozen, b'.ended, b'.waiting) = (b.ctx, b.ring, b.frozen, b.ended, b.waiting))
    (hshort : b'.totals.length ≤ 1) (hsrc : (b'.totals.any fun f => f.hdr.srcfail) = false)
    (hstands : b'.PassStands r) :
    ((s.dropInbox k).setBucket e j b').AtRest e j r b' := by
  simp only [Prod.mk.injEq] at hsame
  obtain ⟨hctx, hring, hfrozen, hended, hwaiting⟩ := hsame
  obtain ⟨-, -, -, hofRing, -, -, hctx', hring', hunfrozen, hunended, hnone, -, -, -, hcolumns, -⟩ := H
  exact ⟨State.setBucket_bucket _ _ _ _, by rw [hctx, hring, hctx', hring']; exact hofRing, hprimary, hfrozen.trans hunfrozen,
    hended.trans hunended, hwaiting.trans hnone, hstands, hsrc, Bucket.allTotals_of_short _ hcolumns hshort⟩

/-- So is one that has kept none. -/
theorem atRest_none (H : s.FrameHere k p h ws roll e j b r) (hprimary : s.myShadow r = false)
    (hsame : (b'.ctx, b'.ring, b'.frozen, b'.ended, b'.waiting, b'.totals) = (b.ctx, b.ring, b.frozen, b.ended, b.waiting, b.totals))
    (hstands : b'.PassStands r) :
    ((s.dropInbox k).setBucket e j b').AtRest e j r b' := by
  have hnone : b'.totals = [] := by simp_all [H.noTotal]
  exact H.atRest hprimary (by simp_all) (by simp [hnone]) (by simp [hnone]) hstands

/-- The contribution as the bucket handles the frame is what it was before. -/
theorem contrib (H : s.FrameHere k p h ws roll e j b r) (lo n : Nat) :
    (s.handling k e j b h).contrib (b.handles h) lo n = s.contrib (b.handles h) lo n :=
  State.setBucket_contrib (s := s.dropInbox k) (b := b) (c := b.handles h) (d := b.handles h) H.bucket rfl rfl lo n

theorem contributes (H : s.FrameHere k p h ws roll e j b r) (m : s.Contributes r (b.handles h) g ce) :
    (s.handling k e j b h).Contributes r (b.handles h) g ce := by
  obtain ⟨hreg, honTime, hunfailed, hprimary, hexp⟩ := m
  exact ⟨hreg, honTime, hunfailed, hprimary,
    (State.setBucket_contribExp (s := s.dropInbox k) (b := b) (c := b.handles h) (d := b.handles h) H.bucket rfl rfl).trans hexp⟩

/-! ### The phases -/

/-- A bucket with a registration waits for no deadline. -/
theorem noDeadline (hreg : (b.handles h).reg = some g) (own : Nat) : s.startsDeadline r own b h = false := by
  have hreg : b.reg = some g := hreg
  simp [State.startsDeadline, hreg]

/-- A gather message with the member's exponent and roll entry goes on along the row. -/
theorem preroundGather (H : s.FrameHere k p h ws roll e j b r) (m : s.Contributes r (b.handles h) g ce) (hphase : h.phase = 1)
    (hrow : h.chunk ≠ 1) (hone : r.cfg.twoD = false) (hpre : b.pre = true) (hnone : b.e = none) (horigin : b.origin = true)
    (hlast : r.pos s.fab.module % r.ncol ≠ r.ncol - 1) (hother : r.host (r.rowNext (r.pos s.fab.module)) ≠ r.pos s.fab.module) :
    exec (.preroundGather k) s = .next (((s.dropInbox k).setBucket e j (b.handles h)).sendFrame e (b.handles h) r
      (r.rowNext (r.pos s.fab.module))
      ⟨{ h with maxexp := max (b.keepE.getD (-126)) (max h.maxexp ce) }, ws, roll.set (s.myShard r) 0⟩) := by
  have mt := H.contributes m
  obtain ⟨hreg, honTime, -, hprimary, -⟩ := m
  refine H.forwards (by simp [hphase]) (noDeadline hreg _) ?_ (State.hop_gather mt hphase hrow H.unfailed hlast) ?_ hother
  · refine State.sourceRead_of_contrib _ _ _ (State.setBucket_bucket _ _ _ _) hreg honTime ?_
    rw [RingSt.sourceRange_gather _ hphase]
    exact mt.contrib_isSome
  · exact H.atRest_none hprimary rfl (.inr ⟨hnone, hpre, horigin, hone⟩)

/-- A spread message goes on along the row. -/
theorem preroundSpread (H : s.FrameHere k p h ws roll e j b r) (hphase : h.phase = 2) (hrow : h.chunk ≠ 1)
    (hone : r.cfg.twoD = false) (hwaits : (b.handles h).ready (s.myShadow r) = false)
    (hlast : r.pos s.fab.module % r.ncol ≠ (2 * r.ncol - 2) % r.ncol)
    (hother : r.host (r.rowNext (r.pos s.fab.module)) ≠ r.pos s.fab.module) :
    let fixed : Bucket := { b.handles h with e := some h.maxexp, roll := roll }
    exec (.preroundSpread k) s =
      .next (((s.dropInbox k).setBucket e j fixed).sendFrame e fixed r (r.rowNext (r.pos s.fab.module)) ⟨h, ws, roll⟩) := by
  have hprimary : s.myShadow r = false := (Bool.or_eq_false_iff.mp hwaits).1
  rw [hprimary] at hwaits
  exact H.forwards (by simp [hphase]) (by simp [State.startsDeadline, hphase])
    (State.sourceRead_of_phase _ _ _ (by simp [hphase]) (by simp [hphase])) (State.hop_spread hphase hrow hone hlast)
    (H.atRest_none hprimary rfl (.inl ⟨rfl, .inr hwaits⟩)) hother

/-- The read of a reduce-scatter frame finds the contribution at hand. -/
theorem reduceRead (H : s.FrameHere k p h ws roll e j b r) (hreg : (b.handles h).reg = some g)
    (honTime : (b.handles h).outcome = some 0) (hphase : h.phase = 3) {vs : List FVal}
    (hvs : s.contrib (b.handles h) ((r.chunkRange g.elems h.chunk).1 + h.offset) ws.length = some vs) (own v : Nat) :
    (s.handling k e j b h).sourceRead e j r own v ⟨h, ws, roll⟩ = s.handling k e j b h := by
  refine State.sourceRead_of_contrib _ _ _ (State.setBucket_bucket _ _ _ _) hreg honTime ?_
  rw [RingSt.sourceRange_reduce _ hphase, H.contrib, hvs]
  rfl

/-- A frame that is not yet final goes on along the row. -/
theorem reduceScatter (H : s.FrameHere k p h ws roll e j b r) (m : s.Contributes r (b.handles h) g ce) (hphase : h.phase = 3)
    (hfixed : b.e.isSome = true) (hbegun : b.begun = true) {vs : List FVal}
    (hvs : s.contrib (b.handles h) ((r.chunkRange g.elems h.chunk).1 + h.offset) ws.length = some vs)
    (hlast : modDiff (r.pos s.fab.module % r.ncol) h.chunk r.ncol ≠ r.ncol - 1)
    (hother : r.host (r.rowNext (r.pos s.fab.module)) ≠ r.pos s.fab.module) :
    exec (.reduceScatterFrame k) s = .next (((s.dropInbox k).setBucket e j (b.handles h)).sendFrame e (b.handles h) r
      (r.rowNext (r.pos s.fab.module)) (Frame.added ⟨h, ws, roll⟩ (s.myShard r) ce vs)) := by
  have mt := H.contributes m
  obtain ⟨hreg, honTime, -, hprimary, -⟩ := m
  refine H.forwards (by simp [hphase]) (noDeadline hreg _) (H.reduceRead hreg honTime hphase hvs _ _)
    (State.hop_reduce mt hphase ((H.contrib _ _).trans hvs) hlast) ?_ hother
  exact H.atRest_none hprimary rfl (.inl ⟨hfixed, .inl hbegun⟩)

/-- A bucket that has kept one final total without SRCFAIL is at rest. -/
theorem atRest_total (H : s.FrameHere k p h ws roll e j b r) (hprimary : s.myShadow r = false) (hfixed : b.e.isSome = true)
    (hbegun : b.begun = true) (f : Frame) (hsrc : f.hdr.srcfail = false) :
    ((s.dropInbox k).setBucket e j ((b.handles h).total f)).AtRest e j r ((b.handles h).total f) := by
  rw [Bucket.total_first (b := b.handles h) f H.noTotal]
  exact H.atRest hprimary rfl (Nat.le_refl 1) (by simp [hsrc]) (.inl ⟨hfixed, .inl hbegun⟩)

/-- A final total of a one-dimensional ring is kept, and goes on in phase 4. -/
theorem reduceScatter_last (H : s.FrameHere k p h ws roll e j b r) (m : s.Contributes r (b.handles h) g ce) (hphase : h.phase = 3)
    (hfixed : b.e.isSome = true) (hbegun : b.begun = true) {vs : List FVal}
    (hvs : s.contrib (b.handles h) ((r.chunkRange g.elems h.chunk).1 + h.offset) ws.length = some vs)
    (hlast : modDiff (r.pos s.fab.module % r.ncol) h.chunk r.ncol = r.ncol - 1) (hone : r.cfg.twoD = false)
    (hother : r.host (r.rowNext (r.pos s.fab.module)) ≠ r.pos s.fab.module) :
    let f := Frame.added ⟨h, ws, roll⟩ (s.myShard r) ce vs
    exec (.reduceScatterFrame k) s = .next (((s.dropInbox k).setBucket e j ((b.handles h).total f)).sendFrame e
      ((b.handles h).total f) r (r.rowNext (r.pos s.fab.module)) { f with hdr := { f.hdr with phase := 4 } }) := by
  have mt := H.contributes m
  obtain ⟨hreg, honTime, -, hprimary, -⟩ := m
  exact H.forwards (by simp [hphase]) (noDeadline hreg _) (H.reduceRead hreg honTime hphase hvs _ _)
    (State.hop_reduce_last mt hphase hone ((H.contrib _ _).trans hvs) hlast)
    (H.atRest_total hprimary hfixed hbegun _ H.unfailed) hother

/-- A gathered total is kept, and goes on along the row. -/
theorem allGather (H : s.FrameHere k p h ws roll e j b r) (hreg : (b.handles h).reg = some g)
    (hprimary : s.myShadow r = false) (hphase : h.phase = 4) (hfixed : b.e.isSome = true) (hbegun : b.begun = true)
    (hlast : modDiff (r.pos s.fab.module % r.ncol) h.chunk r.ncol ≠ (2 * r.ncol - 2) % r.ncol)
    (hother : r.host (r.rowNext (r.pos s.fab.module)) ≠ r.pos s.fab.module) :
    exec (.allGatherFrame k) s = .next (((s.dropInbox k).setBucket e j ((b.handles h).total ⟨h, ws, roll⟩)).sendFrame e
      ((b.handles h).total ⟨h, ws, roll⟩) r (r.rowNext (r.pos s.fab.module)) ⟨h, ws, roll⟩) :=
  H.forwards (by simp [hphase]) (noDeadline hreg _) (State.sourceRead_of_phase _ _ _ (by simp [hphase]) (by simp [hphase]))
    (State.hop_allGather hphase hlast) (H.atRest_total hprimary hfixed hbegun _ H.unfailed) hother

/-- A part that is not yet final goes on along the column. -/
theorem columnReduceScatter (H : s.FrameHere k p h ws roll e j b r) (hreg : (b.handles h).reg = some g)
    (hprimary : s.myShadow r = false) (hphase : h.phase = 5) (hfixed : b.e.isSome = true) (hbegun : b.begun = true)
    (hheld : covers (b.rowTotal (r.pos s.fab.module))
      ((r.chunkRange g.elems (h.chunk / r.nrow)).2 - (r.chunkRange g.elems (h.chunk / r.nrow)).1) = true)
    (hlast : modDiff (r.pos s.fab.module / r.ncol) (h.chunk % r.nrow) r.nrow ≠ r.nrow - 1)
    (hother : r.host (r.colNext (r.pos s.fab.module)) ≠ r.pos s.fab.module) :
    exec (.columnReduceScatter k) s = .next (((s.dropInbox k).setBucket e j (b.handles h)).sendFrame e (b.handles h) r
      (r.colNext (r.pos s.fab.module)) (Frame.addedTotal ⟨h, ws, roll⟩ (b.rowTotal (r.pos s.fab.module))
        ((r.partRange g.elems (h.chunk / r.nrow) (h.chunk % r.nrow)).1 + h.offset - (r.chunkRange g.elems (h.chunk / r.nrow)).1))) := by
  refine H.forwards (by simp [hphase]) (noDeadline hreg _) (State.sourceRead_of_phase _ _ _ (by simp [hphase]) (by simp [hphase]))
    (State.hop_columnReduce hreg hphase hheld hlast) ?_ hother
  exact H.atRest_none hprimary rfl (.inl ⟨hfixed, .inl hbegun⟩)

/-- A final part is kept, and goes on along the column. -/
theorem columnAllGather (H : s.FrameHere k p h ws roll e j b r) (hreg : (b.handles h).reg = some g)
    (hprimary : s.myShadow r = false) (hphase : h.phase = 6) (hfixed : b.e.isSome = true) (hbegun : b.begun = true)
    (hlast : modDiff (r.pos s.fab.module / r.ncol) (h.chunk % r.nrow) r.nrow ≠ (2 * r.nrow - 2) % r.nrow) (b' : Bucket)
    (hkept : b' = { b.handles h with rows := b.rows ++ [(r.pos s.fab.module, ⟨h, ws, roll⟩)] }) {n : Nat} (hn : n < r.nrow)
    (hmissing : covers (b'.partTotal (r.pos s.fab.module) ((r.pos s.fab.module % r.ncol + 1) % r.ncol * r.nrow + n))
      ((r.partRange g.elems ((r.pos s.fab.module % r.ncol + 1) % r.ncol) n).2 -
        (r.partRange g.elems ((r.pos s.fab.module % r.ncol + 1) % r.ncol) n).1) = false)
    (hother : r.host (r.colNext (r.pos s.fab.module)) ≠ r.pos s.fab.module) :
    exec (.columnAllGather k) s = .next (((s.dropInbox k).setBucket e j b').sendFrame e b' r
      (r.colNext (r.pos s.fab.module)) ⟨h, ws, roll⟩) := by
  subst hkept
  refine H.forwards (by simp [hphase]) (noDeadline hreg _) (State.sourceRead_of_phase _ _ _ (by simp [hphase]) (by simp [hphase]))
    (State.hop_columnGather hphase hlast ?_) ?_ hother
  · rw [State.elemsOf_registered _ hreg]
    exact assemble_of_missing _ _ n hn hmissing
  · exact H.atRest_none hprimary rfl (.inl ⟨hfixed, .inl hbegun⟩)

end State.FrameHere

/-! ### The statement -/

theorem clampTo_eq_max_min {lo hi : Int} (h : lo ≤ hi) (v : Int) : clampTo lo hi v = max lo (min hi v) := by
  unfold clampTo
  split_ifs <;> omega

/-- One word of add(), as the statement names it. -/
theorem addWord_eq_clampTo (w q : Int) :
    let clip (v : Int) : Int := clampTo (-(2 ^ 31 - 1)) (2 ^ 31 - 1) v
    addWord w q = (clip (w + clip q), decide (clip q ≠ q) || decide (clip (w + clip q) ≠ w + clip q)) := by
  simp only [clampTo_eq_max_min (show -(2 ^ 31 - 1) ≤ (2 ^ 31 - 1 : Int) by decide)]
  rfl

/-- Settles O37, phase by phase: each hop sends one frame on and leaves the bucket at rest, so that nothing else follows. -/
theorem reductionFrameHops : Obligations.ReductionFrameHops := by
  unfold Obligations.ReductionFrameHops
  intro s k p h ws roll e j b r hinbox hbody hserves hring hfound hbucket hctx hofRing hunfrozen hunended hnoneWaits hnoTotal hpass
    hunfailed hcolumns own hhere hlive c nc nr x y sends kept lim clip adds clips
  have H : s.FrameHere k p h ws roll e j b r :=
    ⟨hinbox, hbody, hserves, hring, hfound, hbucket, hctx, hofRing, hunfrozen, hunended, hnoneWaits, hnoTotal, hpass, hunfailed,
      hcolumns, hhere, hlive⟩
  have hadd : ∀ w q, addWord w q = (adds w q, clips w q) := addWord_eq_clampTo
  have hkept : ∀ f, kept f = c.total f := fun f => (Bucket.total_first (b := c) f hnoTotal).symm
  refine ⟨fun hphase hrow hone hwaits hlast hother => H.preroundSpread hphase hrow hone hwaits hlast hother, ?_⟩
  intro g ce hreg hout hsrc hprimary hexp entered
  have m : s.Contributes r (b.handles h) g ce := ⟨hreg, hout, hsrc, hprimary, hexp⟩
  refine ⟨fun hphase hrow hone hpre hnone horigin hlast hother =>
    H.preroundGather m hphase hrow hone hpre hnone horigin hlast hother, ?_⟩
  intro hfixed hbegun
  refine ⟨?_, ?_, ?_, ?_⟩
  · intro vs hphase hvs q f
    have hf : f = Frame.added ⟨h, ws, roll⟩ (s.myShard r) ce vs := by
      simp only [Frame.added, hadd, List.map_map, List.any_map]
      rfl
    rw [hkept, hf]
    exact ⟨fun hlast hother => H.reduceScatter m hphase hfixed hbegun hvs hlast hother,
      fun hlast hone hother => H.reduceScatter_last m hphase hfixed hbegun hvs hlast hone hother⟩
  · intro hphase hlast hother
    rw [hkept]
    exact H.allGather hreg hprimary hphase hfixed hbegun hlast hother
  · intro xc rt lo total hm hphase hheld hlast hother
    have hsent := H.columnReduceScatter hreg hprimary hphase hfixed hbegun hheld hlast hother
    simp only [Frame.addedTotal, hadd, List.map_map, List.any_map] at hsent
    exact hsent
  · intro b' xc hphase hlast hmissing hother
    obtain ⟨n, hn, hmissing⟩ := hmissing
    exact H.columnAllGather hreg hprimary hphase hfixed hbegun hlast b' rfl hn hmissing hother

end Sys2Proof.Machine
end

section
/-!
PROOFS. O38: an ANNOUNCE that reaches a frozen bucket (R289, R297, R420).

The statement has an ANNOUNCE start the deadline of every bucket that has no registration, no outcome and no circuit of its own. But
a member drops what comes in for a bucket that a switchover has frozen (R420), so that no deadline of it starts.
-/

namespace Sys2Proof.Machine

/-- An ANNOUNCE for a frozen bucket is dropped and counted. -/
theorem announce_frozen {s : State} {k : Nat} {p : Packet} {h : FrameHdr} {ws : List Int} {roll : List (BitVec 2)} {e j : Nat}
    {b : Bucket} {r : RingSt} (hinbox : s.inboxAt k [0x10, 0x11] = some p) (hbody : p.body = .frame h ws roll) (hphase : h.phase = 7)
    (hring : s.ring p.hdr.dctx h.ring.toNat = some r)
    (hfound : s.findBucket p.hdr.dctx h.ring.toNat h.bucket h.step = some (e, j)) (hbucket : s.bucket e j = some b)
    (hfrozen : b.frozen = true) : exec (.announce k) s = .next (s.redStale e k) := by
  rw [exec_announce]
  simp only [execAnnounce, hinbox]
  simp [hbody, hphase, hring, hfound, hbucket, hfrozen]

/-- A message that is dropped changes no bucket. -/
theorem redStale_bucket (s : State) (e k j : Nat) : (s.redStale e k).bucket e j = s.bucket e j := by
  simp only [State.redStale, State.bucket, State.modRedEng_redEng]
  rfl

/-- Three primaries in a row, with PREROUND. -/
def threePrimaries : List Member := [⟨0, false, 0⟩, ⟨1, false, 1⟩, ⟨2, false, 2⟩]

def preroundRing : RingSt where
  cfg := { kindOk := true, reservedZero := true, twoD := false, nrow := 1, ncol := 3, predict := false, drop := true, pmargin := 1
           deadline := 5, timeout := 9, h := 3, maxBuckets := 9, digestFrame := 0, digestLen := 0, members := threePrimaries }
  members := threePrimaries

/-- Step 4 of bucket 7, frozen before any member of its row has registered it. -/
def frozenBucket : Bucket := { ctx := 0, gen := 0, ring := 0, id := 7, step := 4, pre := true, frozen := true }

/-- The header of an ANNOUNCE of that step. -/
def announceHdr : FrameHdr :=
  { bucket := 7, ring := 0, step := 4, pass := 0, phase := 7, breach := false, nonfinite := false, srcfail := false, h := 3, e := 0
    maxexp := -126, chunk := 0, offset := 0 }

/-- Module 1 sends it to module 0. -/
def announcePkt : Packet where
  hdr := { dest := 0, src := 1, vc := 2, cls := false, hops := 0, flow := 7, sctx := 0, sgen := 0, dctx := 0, typ := 0x11
           unit := 0x0600, tag := redTag 0 0 7 4 }
  body := .frame announceHdr [] []
  wire := []
  crc := 0

/-- Module 0, the first of the ring, has the ANNOUNCE in its inbox and the frozen bucket in slot 3 of engine 0. -/
def announcedWhileFrozen : State :=
  { ctxs := [(0, { st := .running, rings := [preroundRing] })]
    red := [(0, { slots := [(3, frozenBucket)] })]
    fab := { module := 0, inbox := [announcePkt] } }

/-- Refutes O38: no hypothesis of its clause of the ANNOUNCE says that the bucket is not frozen, and the deadline of a frozen bucket
does not start (`announce_frozen`). -/
theorem not_reductionBuckets : ¬ Obligations.ReductionBuckets := by
  unfold Obligations.ReductionBuckets
  rintro ⟨-, hannounce, -⟩
  have hstarts := hannounce announcedWhileFrozen 0 announcePkt announceHdr [] [] 0 3 frozenBucket preroundRing (by decide) rfl rfl
    (by decide) (by decide) (by decide) rfl rfl rfl (by decide)
  have hdropped : exec (.announce 0) announcedWhileFrozen = .next (announcedWhileFrozen.redStale 0 0) :=
    announce_frozen (p := announcePkt) (h := announceHdr) (j := 3) (b := frozenBucket) (r := preroundRing) (by decide) rfl rfl
      (by decide) (by decide) (by decide) rfl
  have hsame := Host.Outcome.next.inj (hdropped.symm.trans hstarts)
  have hbucket := congrArg (·.bucket 0 3) hsame
  simp only [redStale_bucket, State.setBucket_bucket] at hbucket
  exact absurd hbucket (by decide)

end Sys2Proof.Machine
end

section
/-!
PROOFS. What sending a packet keeps, for every property that its steps keep (R332 to R340), and what the walks, the reads and the packets
of a put leave of the memory, the contexts and the puts in flight (R342).
-/

namespace Sys2Proof.Machine

/-! ### What sending a packet keeps -/

/-- P speaks of nothing that a packet on its way changes: an update of the fabric that leaves the puts, what leaves the module, and a
record keep it. -/
def BesidePackets (P : State → Prop) : Prop :=
  (∀ (s : State) (f : Fab → Fab), (f s.fab).puts = s.fab.puts → P s → P (s.modFab f)) ∧
    (∀ (s : State) (o : Out), P s → P (s.send o)) ∧ ∀ (s : State) (r : Rec), P s → P (s.record r)

namespace BesidePackets

variable {P : State → Prop} {s t : State}

theorem fab (h : BesidePackets P) (s : State) (f : Fab → Fab) (hf : (f s.fab).puts = s.fab.puts) (hs : P s) : P (s.modFab f) := by
  obtain ⟨hfab, -, -⟩ := h
  exact hfab s f hf hs

theorem out (h : BesidePackets P) (s : State) (o : Out) (hs : P s) : P (s.send o) := by
  obtain ⟨-, hout, -⟩ := h
  exact hout s o hs

theorem record (h : BesidePackets P) (s : State) (r : Rec) (hs : P s) : P (s.record r) := by
  obtain ⟨-, -, hrecord⟩ := h
  exact hrecord s r hs

theorem drainPort (h : BesidePackets P) (p fuel : Nat) (hs : P s) : P (s.drainPort p fuel) := by
  induction fuel generalizing s with
  | zero => exact hs
  | succ fuel ih =>
    unfold State.drainPort
    dsimp only
    split
    · split_ifs
      · exact h.out _ _ hs
      · exact hs
    · exact ih (h.out _ _ (h.fab _ _ rfl hs))

theorem enqueue (h : BesidePackets P) (p : Nat) (q : Packet) (hs : P s) : P (s.enqueue p q) :=
  h.drainPort _ _ (h.fab s _ rfl hs)

theorem deliver (h : BesidePackets P) (q : Packet) (hs : P s) : P (s.deliver q) := by
  have hdropped : P (s.modFab fun b => { b with arriving := b.arriving.filter fun x => !x.sameMsg q }) := h.fab s _ rfl hs
  unfold State.deliver
  dsimp only
  split_ifs
  · exact h.fab s _ rfl hs
  · exact hdropped
  · exact h.fab _ _ rfl hdropped
  · exact h.fab _ _ rfl hdropped

theorem routePkt (h : BesidePackets P) {q : Packet} (hroute : s.routePkt q = some t) (hs : P s) : P t := by
  unfold State.routePkt at hroute
  split_ifs at hroute
  · obtain rfl := Option.some.inj hroute; exact h.deliver q hs
  · obtain rfl := Option.some.inj hroute; exact h.fab s _ rfl hs
  · obtain ⟨p, -, rfl⟩ := Option.map_eq_some_iff.mp hroute; exact h.enqueue p q hs

theorem loseRecord (h : BesidePackets P) (p : Nat) (code : Reason) (hdr : PktHdr) (hs : P s) : P (s.loseRecord p code hdr) := by
  have hcounted : P (s.modFab fun b => { b with drop := b.drop + 1 }) := h.fab s _ rfl hs
  unfold State.loseRecord
  dsimp only
  split_ifs
  · exact h.fab _ _ rfl (h.record _ _ hcounted)
  · exact hcounted

theorem lose (h : BesidePackets P) (p : Nat) (code : Reason) (q : Packet) (hs : P s) : P (s.lose p code q) := by
  have hlost := h.loseRecord p code q.hdr hs
  unfold State.lose
  dsimp only
  split_ifs
  · exact hlost
  · cases hroute : (s.loseRecord p code q.hdr).routePkt ((s.loseRecord p code q.hdr).noticeOf q.hdr code) with
    | some t => exact h.routePkt hroute hlost
    | none => exact h.loseRecord _ _ _ hlost

theorem sendOne (h : BesidePackets P) (q : Packet) (hs : P s) : P (s.sendOne q) := by
  unfold State.sendOne
  cases hroute : s.routePkt q with
  | some t => exact h.routePkt hroute hs
  | none => exact h.lose _ _ q hs

theorem sendPkt (h : BesidePackets P) (q : Packet) (hs : P s) : P (s.sendPkt q) :=
  foldl_keeps P (fun _ p => h.sendOne p) q.pieces hs

end BesidePackets

/-! ### What reading and sending a put keeps -/

theorem State.eq_of_offCaches {s u : State} (h : u.offCaches = s.offCaches) :
    u = { s with dies := u.dies, grans := u.grans, freeCtr := u.freeCtr } := by
  cases s
  cases u
  simp only [State.offCaches, State.mk.injEq] at h ⊢
  simp only [h, and_self]

/-- A context but for its memory's side. -/
def Ctx.offMem (x : Ctx) : Ctx := { x with mem := {} }

theorem Ctx.puts_of_offMem {x y : Ctx} (h : x.offMem = y.offMem) :
    x.gen = y.gen ∧ x.putK = y.putK ∧ x.putReady = y.putReady := by
  have hoff {α : Type} (f : Ctx → α) : f x.offMem = f y.offMem := congrArg f h
  exact ⟨hoff (·.gen), hoff (·.putK), hoff (·.putReady)⟩

/-- From s to u the memory, the puts in flight, and the contexts but for their counts of page walks are as they were. -/
abbrev State.SamePuts (s u : State) : Prop :=
  u.mem = s.mem ∧ u.fab.puts = s.fab.puts ∧ ∀ c, (u.ctx c).offMem = (s.ctx c).offMem

namespace State.SamePuts

variable {s u v : State}

theorem refl (s : State) : s.SamePuts s := ⟨rfl, rfl, fun _ => rfl⟩

theorem trans (h : s.SamePuts u) (k : u.SamePuts v) : s.SamePuts v := by
  obtain ⟨hmem, hputs, hctx⟩ := h
  obtain ⟨kmem, kputs, kctx⟩ := k
  exact ⟨kmem.trans hmem, kputs.trans hputs, fun c => (kctx c).trans (hctx c)⟩

theorem besidePackets (s : State) : BesidePackets s.SamePuts :=
  ⟨fun _ _ hf h => h.trans ⟨rfl, hf, fun _ => rfl⟩, fun _ _ h => h.trans ⟨rfl, rfl, fun _ => rfl⟩,
    fun _ _ h => h.trans ⟨by simp, by simp, by simp⟩⟩

theorem of_offCaches (h : u.offCaches = s.offCaches) : s.SamePuts u := by
  rw [State.eq_of_offCaches h]
  exact ⟨rfl, rfl, fun _ => rfl⟩

theorem modCtxMem (s : State) (c : CtxId) (f : CtxMem → CtxMem) : s.SamePuts (s.modCtxMem c f) := by
  refine ⟨rfl, rfl, fun d => ?_⟩
  by_cases hd : d = c
  · subst hd
    simp [State.modCtxMem, Ctx.offMem]
  · rw [State.modCtxMem, State.modCtx_eq, State.setCtx_ctx_ne _ _ _ _ hd]

theorem readVia (s : State) (l n : Nat) : s.SamePuts (s.readVia l n) := of_offCaches (by simp)

theorem walkReads (s : State) (c : CtxId) (page : Nat) (r : WalkRes) : s.SamePuts (s.walkReads c page r) := by
  apply of_offCaches
  unfold State.walkReads
  split
  · simp only [beq_iff_eq]
    split_ifs <;> simp
  · simp
  · simp

theorem hubWalks (s : State) (c : CtxId) (a n : Nat) : s.SamePuts (s.hubWalks c a n) := by
  unfold State.hubWalks
  split_ifs
  · exact foldl_keeps s.SamePuts (fun t page h => (h.trans (modCtxMem t c _)).trans (walkReads _ c page _)) _ (refl s)
  · exact refl s

theorem hubReads (s : State) (c : CtxId) (a n : Nat) : s.SamePuts (s.hubReads c a n) := by
  refine foldl_keeps s.SamePuts (fun t r h => ?_) _ (refl s)
  cases t.hubXlat c false r.1 with
  | some l => exact h.trans (readVia t l r.2)
  | none => exact h

theorem eccRecord (s : State) (loc addr : Nat) (req : UnitId) (c : Option CtxId) (w : Option ThreadId) :
    s.SamePuts (s.eccRecord loc addr req c w) := by
  obtain ⟨d, g, f, hmeet⟩ := s.meetEcc_frame loc
  have hmet : s.SamePuts (s.meetEcc loc) := by rw [hmeet]; exact ⟨rfl, rfl, fun _ => rfl⟩
  exact (besidePackets s).record _ _ hmet

/-- Sending the packets of a put. -/
theorem putSend (s : State) (c : CtxId) (x : PutRec) (id fuel off : Nat) : s.SamePuts (s.putSend c x id fuel off) := by
  induction fuel generalizing s off with
  | zero => exact refl s
  | succ fuel ih =>
    have hread := hubReads s c (x.src + off) (min 4096 (x.len - off))
    by_cases hdone : min 4096 (x.len - off) == 0 <;> simp only [State.putSend, hdone, if_true, if_false, Bool.false_eq_true]
    · exact refl s
    · cases (s.hubReads c (x.src + off) (min 4096 (x.len - off))).hubRead c (x.src + off) (min 4096 (x.len - off)) with
      | inr l => exact hread.trans (eccRecord _ _ _ _ _ _)
      | inl bs => exact ((besidePackets s).sendPkt _ hread).trans (ih _ _)

end State.SamePuts

end Sys2Proof.Machine
end

section
/-!
PROOFS. What decides which ranges a hub may reach, the signal of a hub to a tally without waiters, and the end of a put: its STATUS, its
counts and its DONE_TALLY (R254, R264, R342 to R344).
-/

namespace Sys2Proof.Machine

/-! ### What a hub may reach -/

theorem State.hubWake_frame (s : State) (h : Nat) : ∃ p, s.hubWake h = { s with pwr := p } := by
  unfold State.hubWake
  split_ifs <;> exact ⟨_, rfl⟩

/-- To a hub of context c, u offers the ranges that s does: memory, marks, cache part, owners and the context's regions agree. -/
abbrev State.SameReach (c : CtxId) (s u : State) : Prop :=
  u.mem = s.mem ∧ u.poison = s.poison ∧ u.cfrac = s.cfrac ∧ u.quadOwner = s.quadOwner ∧ (u.ctx c).mem = (s.ctx c).mem

namespace State.SameReach

variable {c : CtxId} {s u : State}

theorem mem (h : s.SameReach c u) : u.mem = s.mem := by
  obtain ⟨hmem, -⟩ := h
  exact hmem

theorem window (h : s.SameReach c u) (va : Word) : u.window c va = s.window c va := by
  obtain ⟨-, -, hcfrac, -, hctx⟩ := h
  rw [State.window, State.window, hcfrac, hctx]

theorem walkPage (h : s.SameReach c u) (page : Nat) : u.walkPage c page = s.walkPage c page := by
  obtain ⟨hmem, hpoison, -, -, hctx⟩ := h
  unfold State.walkPage State.poisonIn State.peek
  rw [hmem, hpoison, hctx]

theorem hubXlat (h : s.SameReach c u) (store : Bool) (va : Nat) : u.hubXlat c store va = s.hubXlat c store va := by
  simp only [State.hubXlat, h.walkPage]

theorem rangeWindow (h : s.SameReach c u) (r : Int × Int) : u.rangeWindow c r = s.rangeWindow c r := by
  simp only [State.rangeWindow, h.window]

theorem rangeEntries (h : s.SameReach c u) (r : Int × Int) : u.rangeEntries c r = s.rangeEntries c r := by
  obtain ⟨-, -, -, howners, hctx⟩ := h
  simp only [State.rangeEntries, State.coreCtx, State.quadCtx, howners, hctx]

theorem hubRange (h : s.SameReach c u) (store : Bool) (a n : Nat) : u.hubRange c store a n = s.hubRange c store a n := by
  simp only [State.hubRange, h.rangeWindow, h.hubXlat, h.rangeEntries]

theorem putOk (h : s.SameReach c u) (hroutes : u.fab.routes = s.fab.routes) (htallies : u.sync.tallies = s.sync.tallies)
    (x : PutRec) : u.putOk c x = s.putOk c x := by
  simp only [State.putOk, State.peers, State.tally, h.hubRange, hroutes, htallies]

end State.SameReach

/-! ### The signal of a hub (R254, R264) -/

section

variable (s : State)

theorem State.srcCodes_snd (src : Src) : ∃ n, (s.srcCodes src).2.2 = { s with freeCtr := n } := by
  unfold State.srcCodes
  cases src <;> exact ⟨_, rfl⟩

/-- From s to u the memory, the fabric and the sync units are as they were. -/
abbrev State.SameHubs (s u : State) : Prop := u.mem = s.mem ∧ u.fab = s.fab ∧ u.sync = s.sync

theorem State.syncRecord_hubs (bell : Bool) (id : Nat) (code : Reason) (by_ : SyncBy) :
    s.SameHubs (s.syncRecord bell id code by_) := by
  obtain ⟨n, hn⟩ := s.srcCodes_snd by_.src
  simp [State.SameHubs, State.syncRecord, hn]

theorem State.syncError_hubs (bell : Bool) (id : Nat) (code : Reason) (by_ : SyncBy) :
    s.SameHubs (s.syncError bell id code by_) := by
  obtain ⟨hmem, hfab, hsync⟩ := s.syncRecord_hubs bell id code by_
  simp only [State.syncError]
  split_ifs
  all_goals exact ⟨hmem, hfab, hsync⟩

/-- A tally whose change leaves it no waiter serves nobody. -/
theorem State.serve_modTally {id : Nat} {f : Tally → Tally} (hq : (f (s.tally id)).q = []) :
    (s.modTally id f).serve_ id = s.modTally id f := by
  simp [State.serve_, hq, State.serveTally]

theorem State.signalTally_frame {id : Nat} (n : Nat) (by_ : SyncBy) (hq : (s.tally id).q = []) :
    (s.signalTally id n by_).mem = s.mem ∧ (s.signalTally id n by_).fab = s.fab := by
  obtain ⟨omem, ofab, -⟩ := s.syncError_hubs false id tallyOverrun by_
  obtain ⟨smem, sfab, ssync⟩ := s.syncError_hubs false id syncSaturate by_
  have hsaturated : ((s.syncError false id syncSaturate by_).tally id).q = [] := by rwa [State.tally, ssync]
  simp only [State.signalTally]
  split_ifs
  · rw [State.serve_modTally _ hq]; exact ⟨rfl, rfl⟩
  · exact ⟨omem, ofab⟩
  · rw [State.serve_modTally _ hsaturated]; exact ⟨smem, sfab⟩
  · rw [State.serve_modTally _ hq]; exact ⟨rfl, rfl⟩

/-- A hub's signal to a tally without waiters leaves the memory and the fabric. -/
theorem State.hubSignal_frame (c : CtxId) {id : Nat} (hq : (s.tally id).q = []) :
    (s.hubSignal c id).mem = s.mem ∧ (s.hubSignal c id).fab = s.fab := by
  simp only [State.hubSignal]
  split_ifs
  · exact State.signalTally_frame (s.modSyncDie _ _) _ _ hq
  · obtain ⟨hmem, hfab, -⟩ := State.syncRecord_hubs (s.modSyncDie (id / 4096) fun x => { x with ops := x.ops + 1 }) false id
      syncOwner ⟨1, .hub c .reg, some c, 1, 0⟩
    exact ⟨hmem, hfab⟩

/-- The signal of a hub to a tally of its context that counts and has no waiter. -/
theorem State.hubSignal_counts {c : CtxId} {id : Nat} (hassigned : (s.tally id).assigned = true) (hctx : (s.tally id).ctx = c)
    (hlatch : (s.tally id).latch = false) (hq : (s.tally id).q = []) (hroom : (s.tally id).value.toNat < 2 ^ 32 - 1) :
    ((s.hubSignal c id).tally id).value = (s.tally id).value + 1 := by
  have hfits : ¬ (s.tally id).value.toNat + 1 > 0xFFFFFFFF := by omega
  have hsame (f : SyncDie → SyncDie) : (s.modSyncDie (id / 4096) f).tally id = s.tally id := rfl
  simp [State.hubSignal, State.signalTally, hsame, hassigned, hctx, hlatch, hfits, State.serve_modTally, hq]

/-! ### STATUS and the end of a put (Table 11.10) -/

theorem State.pokeVia_frame (l : Nat) (bs : List Byte) : (s.pokeVia l bs).fab = s.fab ∧ (s.pokeVia l bs).sync = s.sync := by
  rw [State.pokeVia, State.eq_of_offCaches (s.offCaches_writeVia l bs.length)]
  exact ⟨rfl, rfl⟩

theorem leBytes_length (v n : Nat) : (leBytes v n).length = n := by simp [leBytes_eq_map]

theorem leBytes_getD {v n i : Nat} (h : i < n) : (leBytes v n).getD i 0 = BitVec.ofNat 8 (v / 256 ^ i) := by
  simp [leBytes_eq_map, List.getD, h]

/-- From s to u the memory changes only where the record in this slot has its STATUS, which then reads this value. -/
def State.StatusWritten (s u : State) (slot status : Nat) : Prop :=
  ∀ a, memGet u.mem a =
    if slot + 48 ≤ a ∧ a < slot + 56 then BitVec.ofNat 8 (status / 256 ^ (a - (slot + 48))) else memGet s.mem a

/-- The counts of puts after one that ended for this reason. -/
def Fab.putCounted (b : Fab) (reason : Reason) : Fab :=
  if reason == 0 then { b with putDone := (b.putDone + 1) % 2 ^ 32 } else { b with putBad := (b.putBad + 1) % 2 ^ 32 }

@[simp] theorem Fab.putCounted_puts (b : Fab) (reason : Reason) : (b.putCounted reason).puts = b.puts := by
  unfold Fab.putCounted
  split_ifs <;> rfl

section

variable (c : CtxId) (slot : Nat) {done : Nat} (reason : Reason) (part : Bool)

/-- The put's STATUS is written and it is counted; what is left of its end is the signal. -/
def State.putStatus : State :=
  (s.pokeVia (slot + 48) (leBytes (reason.toNat + b2n part * 2 ^ 16 + 2 ^ 63) 8)).modFab (·.putCounted reason)

theorem State.putEnd_eq : s.putEnd c slot done reason part = (s.putStatus slot reason part).hubSignal c done := rfl

@[simp] theorem State.putStatus_tally (i : Nat) : (s.putStatus slot reason part).tally i = s.tally i := by
  rw [State.putStatus, State.modFab_tally, State.tally, (s.pokeVia_frame _ _).2, State.tally]

@[simp] theorem State.putStatus_fab : (s.putStatus slot reason part).fab = s.fab.putCounted reason := by
  simp only [State.putStatus, State.modFab, (s.pokeVia_frame _ _).1]

theorem State.putEnd_fab (hq : (s.tally done).q = []) : (s.putEnd c slot done reason part).fab = s.fab.putCounted reason := by
  rw [State.putEnd_eq, (State.hubSignal_frame _ c (by simpa using hq)).2, State.putStatus_fab]

theorem State.putEnd_status (hwf : Memory.wf s.mem = true) (hq : (s.tally done).q = []) :
    s.StatusWritten (s.putEnd c slot done reason part) slot (reason.toNat + b2n part * 2 ^ 16 + 2 ^ 63) := by
  intro a
  rw [State.putEnd_eq, (State.hubSignal_frame _ c (by simpa using hq)).1, State.putStatus, State.modFab_mem,
    (s.pokeVia_mem _ _).1, State.poke, memGet_memWrite _ _ _ hwf, leBytes_length]
  by_cases h : slot + 48 ≤ a ∧ a < slot + 56
  · rw [if_pos (by omega), if_pos h, leBytes_getD (by omega)]
  · rw [if_neg (by omega), if_neg h]

end

/-- A put in flight of the context's current generation, whose DONE_TALLY counts, has room and has no waiter. -/
abbrev State.PutFlies (x : PutSt) : Prop :=
  s.fab.puts.find? (fun y => y.id == x.id) = some x ∧ x.gen = (s.ctx x.ctx).gen ∧ Memory.wf s.mem = true ∧
    (s.tally x.done).assigned = true ∧ (s.tally x.done).ctx = x.ctx ∧ (s.tally x.done).latch = false ∧ (s.tally x.done).q = [] ∧
    (s.tally x.done).value.toNat < 2 ^ 32 - 1

/-- From s to u put x has ended with this STATUS: it is in flight no longer, and DONE_TALLY has been signalled. -/
def State.PutEnded (x : PutSt) (status : Nat) (u : State) : Prop :=
  (u.tally x.done).value = (s.tally x.done).value + 1 ∧ (∀ y, y ∈ u.fab.puts ↔ y ∈ s.fab.puts ∧ y.id ≠ x.id) ∧
    s.StatusWritten u x.slot.toNat status

/-- The state to which a put's end is added: the put is gone from the table, and a failure has its record. -/
def State.putClosed (x : PutSt) (code : Reason) (flow : BitVec 16) : State :=
  let s := s.modFab fun b => { b with puts := b.puts.filter fun y => y.id != x.id }
  if code == 0 then s else s.putRecord x.ctx code x.dest flow

theorem State.putClosed_spec (x : PutSt) (code : Reason) (flow : BitVec 16) :
    (s.putClosed x code flow).mem = s.mem ∧ (∀ i, (s.putClosed x code flow).tally i = s.tally i) ∧
      (s.putClosed x code flow).fab.puts = s.fab.puts.filter fun y => y.id != x.id := by
  by_cases hdone : code == 0 <;> simp only [State.putClosed, hdone, if_true, if_false, Bool.false_eq_true]
  · exact ⟨rfl, fun _ => rfl, rfl⟩
  · exact ⟨State.record_mem _ _, State.record_tally _ _, congrArg Fab.puts (State.record_fab _ _)⟩

theorem State.putAnswer_eq {x : PutSt} (h : s.PutFlies x) (code : Reason) (part : Bool) (flow : BitVec 16) :
    s.putAnswer x.id code part flow = (s.putClosed x code flow).putEnd x.ctx x.slot.toNat x.done code part := by
  obtain ⟨hfound, hgen, -⟩ := h
  simp [State.putAnswer, hfound, hgen, State.putClosed]

theorem State.putAnswer_ends {x : PutSt} (h : s.PutFlies x) (code : Reason) (part : Bool) (flow : BitVec 16) :
    s.PutEnded x (code.toNat + b2n part * 2 ^ 16 + 2 ^ 63) (s.putAnswer x.id code part flow) := by
  have hanswer := State.putAnswer_eq s h code part flow
  obtain ⟨hmem, htally, hputs⟩ := s.putClosed_spec x code flow
  obtain ⟨-, -, hwf, hassigned, howned, hunlatched, hunwaited, hroom⟩ := h
  have hq : ((s.putClosed x code flow).tally x.done).q = [] := by rw [htally]; exact hunwaited
  have hsignalled : ((s.putClosed x code flow).putStatus x.slot.toNat code part).tally x.done = s.tally x.done := by
    rw [State.putStatus_tally, htally]
  rw [hanswer]
  refine ⟨?_, fun y => ?_, fun a => ?_⟩
  · rw [State.putEnd_eq, State.hubSignal_counts, hsignalled] <;> rw [hsignalled]
    exacts [hassigned, howned, hunlatched, hunwaited, hroom]
  · rw [State.putEnd_fab _ _ _ _ _ hq, Fab.putCounted_puts, hputs]
    simp
  · rw [State.putEnd_status _ _ _ _ _ (by rw [hmem]; exact hwf) hq a, hmem]

end
end Sys2Proof.Machine
end

section
/-!
PROOFS. O42: records that are read, data that arrive, and the ends of puts (R341 to R344).
-/

namespace Sys2Proof.Machine

/-! ### Bytes of a put in the memory (R343) -/

theorem memWrite_append (a : Nat) (xs ys : List Byte) (m : List Host.Cell) :
    memWrite a (xs ++ ys) m = memWrite (a + xs.length) ys (memWrite a xs m) := by
  induction xs generalizing a m with
  | nil => rfl
  | cons x xs ih => simp only [List.cons_append, memWrite, ih, List.length_cons, Nat.add_assoc, Nat.add_comm 1]

theorem State.hubXlat_low (s : State) (c : CtxId) (store : Bool) {va : Nat} (h : va < 0x100000000000) :
    s.hubXlat c store va = some va := by
  simp [State.hubXlat, Nat.not_le.mpr h]

/-- One run of a write of `bs` for context c: the state, and how many of the bytes are written. -/
def hubStep (c : CtxId) (bs : List Byte) (acc : State × Nat) (r : Nat × Nat) : State × Nat :=
  match acc.1.hubXlat c true r.1 with
  | some l => (acc.1.pokeVia l ((bs.drop acc.2).take r.2), acc.2 + r.2)
  | none => (acc.1, acc.2 + r.2)

theorem State.hubWrite_eq (s : State) (c : CtxId) (a : Nat) (bs : List Byte) :
    s.hubWrite c a bs = ((pageRuns a 3 bs.length).foldl (hubStep c bs) (s, 0)).1 := rfl

theorem hubStep_low (c : CtxId) (bs : List Byte) (t : State) (off k : Nat) {a : Nat} (h : a < 0x100000000000) :
    hubStep c bs (t, off) (a, k) = (t.pokeVia a ((bs.drop off).take k), off + k) := by
  simp only [hubStep, State.hubXlat_low t c true h]

/-- Outside the Granary, runs that cover n bytes from a write the next n of the bytes there. -/
theorem foldl_hubStep_mem (c : CtxId) (bs : List Byte) (fuel : Nat) (t : State) {a off n : Nat} (hlow : a + n ≤ 0x100000000000)
    (hlen : off + n ≤ bs.length) (hfuel : n ≠ 0 → a % 0x10000 + n ≤ fuel * 0x10000) :
    ((pageRuns a fuel n).foldl (hubStep c bs) (t, off)).1.mem = memWrite a ((bs.drop off).take n) t.mem := by
  induction fuel generalizing t a off n with
  | zero =>
    obtain rfl : n = 0 := by omega
    rfl
  | succ fuel ih =>
    cases n with
    | zero => rfl
    | succ m =>
      obtain ⟨k, hk⟩ : ∃ k, k = min (m + 1) (0x10000 - a % 0x10000) := ⟨_, rfl⟩
      have hruns : pageRuns a (fuel + 1) (m + 1) = (a, k) :: pageRuns (a + k) fuel (m + 1 - k) := by rw [hk]; rfl
      have hsplit : (bs.drop off).take (m + 1) = (bs.drop off).take k ++ (bs.drop (off + k)).take (m + 1 - k) := by
        rw [← List.drop_drop, ← List.take_add, Nat.add_sub_cancel' (by omega)]
      have hfirst : ((bs.drop off).take k).length = k := by rw [List.length_take, List.length_drop]; omega
      rw [hruns, List.foldl_cons, hubStep_low c bs t off k (by omega), ih _ (by omega) (by omega) (by omega),
        (t.pokeVia_mem _ _).1, State.poke, hsplit, memWrite_append, hfirst]

/-- Outside the Granary, up to 64 KiB are written from a on. -/
theorem State.hubWrite_mem (s : State) (c : CtxId) {a : Nat} {bs : List Byte} (hlow : a + bs.length ≤ 0x100000000000)
    (hlen : bs.length ≤ 0x10000) : (s.hubWrite c a bs).mem = memWrite a bs s.mem := by
  rw [State.hubWrite_eq, foldl_hubStep_mem c bs 3 s hlow (by omega) (by omega), List.drop_zero, List.take_length]

/-! ### Data that arrive (R343) -/

theorem State.sendPkt_mem (s : State) (q : Packet) : (s.sendPkt q).mem = s.mem := ((State.sendPkt_over q).keeps s).2.2.1

theorem State.hubWalks_low (s : State) (c : CtxId) {a : Nat} (n : Nat) (h : a < 0x100000000000) : s.hubWalks c a n = s := by
  simp [State.hubWalks, Nat.not_le.mpr h]

/-- What is kept of put `id` of `src` that arrives, before its packet at hand. -/
def State.putIn (s : State) (src : ModuleNo) (id : Nat) (gen : Byte) : PutIn :=
  (s.fab.putsIn.find? fun x => x.src == src && x.id == id).getD { src := src, id := id, gen := gen }

theorem State.putIn_of_earlier {s : State} {src : ModuleNo} {id : Nat} {gen : Byte}
    (h : ∀ y ∈ s.fab.putsIn, y.src = src → y.id = id → y.refused = false ∧ y.gen = gen) :
    (s.putIn src id gen).refused = false ∧ (s.putIn src id gen).gen = gen := by
  unfold State.putIn
  cases hfind : s.fab.putsIn.find? fun x => x.src == src && x.id == id with
  | none => exact ⟨rfl, rfl⟩
  | some y =>
    obtain ⟨hsrc, hid⟩ : y.src = src ∧ y.id = id := by simpa using List.find?_some hfind
    exact h y (List.mem_of_find?_eq_some hfind) hsrc hid

/-- Data that the context may write, of a put of which no packet was refused, are written where they belong. -/
theorem execPutData_mem {s : State} {k : Nat} {p : Packet} {id len off : Nat} {daddr : Word} {last : Bool} {data : List Byte}
    (hinbox : s.inboxAt k [0x20] = some p) (hbody : p.body = .putData id len off daddr false none last data)
    (hrunning : (s.ctx p.hdr.dctx).st = .running) (hserves : s.ctxServes p.hdr.dctx = true) (hlen : data.length ≤ 4096)
    (htier : (isLarder daddr.toNat || isCellar daddr.toNat) = true) (hrange : s.hubRange p.hdr.dctx true daddr.toNat data.length = true)
    (hearlier : ∀ y ∈ s.fab.putsIn, y.src = p.hdr.src → y.id = id → y.refused = false ∧ y.gen = (s.ctx p.hdr.dctx).gen) :
    ∃ u, execPutData k s = .next u ∧ u.mem = memWrite daddr.toNat data s.mem := by
  have hlow : daddr.toNat < 0x5000000000 := by
    simp only [isLarder, isCellar, Bool.or_eq_true, Bool.and_eq_true, decide_eq_true_eq] at htier
    omega
  obtain ⟨t, ht⟩ : ∃ t, t = (s.dropInbox k).hubWake (s.putHub p.hdr.src) := ⟨_, rfl⟩
  obtain ⟨w, hw⟩ := (s.dropInbox k).hubWake_frame (s.putHub p.hdr.src)
  have hctx : t.ctx p.hdr.dctx = s.ctx p.hdr.dctx := by rw [ht, hw]; rfl
  have hfab : t.fab.putsIn = s.fab.putsIn := by rw [ht, hw]; rfl
  have hreach : s.SameReach p.hdr.dctx t := by rw [ht, hw]; exact ⟨rfl, rfl, rfl, rfl, rfl⟩
  have hmem : (t.hubWrite p.hdr.dctx daddr.toNat data).mem = memWrite daddr.toNat data s.mem := by
    rw [State.hubWrite_mem _ _ (by omega) (by omega), hreach.mem]
  obtain ⟨hrefused, hgen⟩ := State.putIn_of_earlier hearlier
  unfold State.putIn at hrefused hgen
  rw [← hfab] at hrefused hgen
  have hserves' : t.ctxServes p.hdr.dctx = true := by rw [← hserves, State.ctxServes, hctx, State.ctxServes]
  have hwalks : t.hubWalks p.hdr.dctx daddr.toNat data.length = t := t.hubWalks_low _ _ (by omega)
  have hmay : ((s.ctx p.hdr.dctx).st == .running || (s.ctx p.hdr.dctx).st == .paused) = true := by rw [hrunning]; rfl
  unfold execPutData
  simp only [hinbox, hbody, ← ht, hctx, hrefused, hgen, hserves', hmay, htier, hreach.hubRange, hrange, hwalks, beq_self_eq_true,
    Bool.and_self, Bool.false_eq_true, if_true, if_false]
  cases last with
  | false => exact ⟨_, rfl, hmem⟩
  | true => exact ⟨_, rfl, (State.sendPkt_mem _ _).trans hmem⟩

/-! ### Records that are read (R341, R342) -/

/-- Context c after the hub has taken the next record of its queue. -/
def Ctx.putTaken (x : Ctx) : Ctx := { x with putK := (x.putK + 1) % 2 ^ 32, putReady := x.putReady - 1 }

/-- The hub has taken the record in a slot, for a module, and waits for the next signal of the queue's tally. -/
def State.putTaken (s : State) (c : CtxId) (slot : Nat) (dest : ModuleNo) (tally : Nat) : State :=
  (((s.readVia slot 64).hubWake (s.putHub dest)).modCtx c Ctx.putTaken).hubWait c .put tally

section

variable (s : State) (c : CtxId) (slot : Nat) (dest : ModuleNo) (tally : Nat)

theorem State.putTaken_ctx : (s.putTaken c slot dest tally).ctx c = (s.ctx c).putTaken := by
  obtain ⟨w, hw⟩ := (s.readVia slot 64).hubWake_frame (s.putHub dest)
  rw [State.putTaken, hw, State.eq_of_offCaches (s.offCaches_readVia slot 64), State.modCtx_eq]
  exact State.setCtx_ctx _ _ _

theorem State.putTaken_frame : (s.putTaken c slot dest tally).fab = s.fab ∧
    (s.putTaken c slot dest tally).sync.tallies = s.sync.tallies ∧ s.SameReach c (s.putTaken c slot dest tally) := by
  have hmem : ((s.putTaken c slot dest tally).ctx c).mem = (s.ctx c).mem := by rw [State.putTaken_ctx]; rfl
  obtain ⟨w, hw⟩ := (s.readVia slot 64).hubWake_frame (s.putHub dest)
  rw [State.putTaken, hw, State.eq_of_offCaches (s.offCaches_readVia slot 64)] at hmem ⊢
  exact ⟨rfl, rfl, rfl, rfl, rfl, rfl, hmem⟩

theorem State.putTaken_tally (i : Nat) : (s.putTaken c slot dest tally).tally i = s.tally i := by
  rw [State.tally, (s.putTaken_frame c slot dest tally).2.1, State.tally]

theorem State.putTaken_putOk (x : PutRec) : (s.putTaken c slot dest tally).putOk c x = s.putOk c x := by
  obtain ⟨hfab, htallies, hreach⟩ := s.putTaken_frame c slot dest tally
  exact hreach.putOk (congrArg Fab.routes hfab) htallies x

end

/-- A good record is remembered under the next number and its block is sent. -/
def State.putLaunch (s : State) (c : CtxId) (slot : Nat) (x : PutRec) : State :=
  let t := s.hubWalks c x.src x.len
  (t.modFab fun b => { b with
    nextPut := s.fab.nextPut + 1
    puts := b.puts ++ [{ ctx := c, gen := (t.ctx c).gen, id := s.fab.nextPut, slot := BitVec.ofNat 64 slot, dest := x.dest
                         done := x.done, many := decide (x.len > 4096) }] }).putSend c x s.fab.nextPut 16385 0

/-- A bad record ends with its record in the log and FAB_PUT_FORMAT in its STATUS. -/
def State.putRefuse (s : State) (c : CtxId) (slot : Nat) (x : PutRec) : State :=
  (s.putRecord c fabPutFormat x.dest x.flow).putEnd c slot x.done fabPutFormat false

/-- A hub takes the next record, whose slot holds no error: what it says decides. -/
theorem execPutRead_takes {s : State} {c : CtxId} {q : QueueCfg} (hq : (s.ctx c).img.bind (·.putq) = some q)
    (hserves : s.ctxServes c = true) (hready : 0 < (s.ctx c).putReady) {slot : Nat} {x : PutRec}
    (hslot : slot = q.base.toNat + (s.ctx c).putK % q.slots * 64) (hx : x = putRec (memBytes s.mem slot 64))
    (hclean : s.poisonIn slot 64 = false) :
    execPutRead c s = .next (if s.putOk c x then (s.putTaken c slot x.dest q.tally).putLaunch c slot x
      else (s.putTaken c slot x.dest q.tally).putRefuse c slot x) := by
  have hok := s.putTaken_putOk c slot x.dest q.tally x
  have hx' : putRec (s.peek slot 64) = x := hx.symm
  have hready' : ((s.ctx c).putReady == 0) = false := by simpa using Nat.ne_of_gt hready
  unfold execPutRead
  simp only [hq, hready', hserves, ← hslot, hx', hclean, Bool.not_true, Bool.or_self, Bool.false_or, Bool.false_eq_true, if_false]
  change (if (!(s.putTaken c slot x.dest q.tally).putOk c x) = true then
    Host.Outcome.next ((s.putTaken c slot x.dest q.tally).putRefuse c slot x)
    else .next ((s.putTaken c slot x.dest q.tally).putLaunch c slot x)) = _
  rw [hok]
  cases s.putOk c x <;> rfl

theorem State.putLaunch_spec (s : State) (c : CtxId) (slot : Nat) (x : PutRec) : (s.putLaunch c slot x).mem = s.mem ∧
    ((s.putLaunch c slot x).ctx c).offMem = (s.ctx c).offMem ∧ (s.putLaunch c slot x).fab.puts = s.fab.puts ++
      [{ ctx := c, gen := (s.ctx c).gen, id := s.fab.nextPut, slot := BitVec.ofNat 64 slot, dest := x.dest, done := x.done
         many := decide (4096 < x.len) }] := by
  obtain ⟨hmem, hputs, hctx⟩ := State.SamePuts.hubWalks s c x.src x.len
  obtain ⟨kmem, kputs, kctx⟩ := State.SamePuts.putSend _ c x s.fab.nextPut 16385 0
  have hgen : ((s.hubWalks c x.src x.len).ctx c).gen = (s.ctx c).gen := (Ctx.puts_of_offMem (hctx c)).1
  refine ⟨kmem.trans hmem, (kctx c).trans (hctx c), kputs.trans ?_⟩
  rw [State.modFab]
  simp only [hputs, hgen, gt_iff_lt]

theorem State.putRecord_eq (s : State) (c : CtxId) (code : Reason) (dest : ModuleNo) (flow : BitVec 16) :
    ∃ r, s.putRecord c code dest flow = s.record r := ⟨_, rfl⟩

theorem State.putRefuse_spec (s : State) (c : CtxId) (slot : Nat) (x : PutRec) (hwf : Memory.wf s.mem = true)
    (hq : (s.tally x.done).q = []) :
    s.StatusWritten (s.putRefuse c slot x) slot (0x070B + 2 ^ 63) ∧
      (s.putRefuse c slot x).fab = { s.fab with putBad := (s.fab.putBad + 1) % 2 ^ 32 } := by
  obtain ⟨r, hr⟩ := s.putRecord_eq c fabPutFormat x.dest x.flow
  have hmem : (s.record r).mem = s.mem := State.record_mem s r
  have hq' : ((s.record r).tally x.done).q = [] := by rw [State.record_tally]; exact hq
  rw [State.putRefuse, hr]
  refine ⟨fun a => ?_, ?_⟩
  · rw [State.putEnd_status _ _ _ _ _ (by rw [hmem]; exact hwf) hq' a, hmem]
    rfl
  · rw [State.putEnd_fab _ _ _ _ _ hq', State.record_fab, Fab.putCounted, if_neg (by decide)]

/-! ### Answers, losses and timeouts (R340, R343, R344) -/

section

variable {s : State} {x : PutSt} (h : s.PutFlies x)
include h

theorem State.PutFlies.answered (code : Reason) (part : Bool) (flow : BitVec 16) :
    s.PutEnded x (code.toNat + (if part then 2 ^ 16 else 0) + 2 ^ 63) (s.putAnswer x.id code part flow) := by
  have hends := s.putAnswer_ends h code part flow
  cases part <;> exact hends

theorem State.PutFlies.dropInbox (k : Nat) : (s.dropInbox k).PutFlies x := h

/-- PARTIAL of a lost put is open where several packets were sent. -/
theorem State.PutFlies.lost (flow : BitVec 16) : ∃ part : Bool, (x.many = false → part = false) ∧
    s.PutEnded x (0x070C + (if part then 2 ^ 16 else 0) + 2 ^ 63) (s.putLost x.id flow) := by
  have ⟨hfound, _⟩ := h
  cases hmany : x.many with
  | false =>
    refine ⟨false, fun _ => rfl, ?_⟩
    simp only [State.putLost, hfound, hmany, Bool.false_eq_true, if_false]
    exact h.answered fabPutRefused false flow
  | true =>
    have hdrawn : (s.draw 1).2.PutFlies x := h
    refine ⟨(s.draw 1).1 == 1, nofun, ?_⟩
    simp only [State.putLost, hfound, hmany, if_true]
    exact hdrawn.answered fabPutRefused _ flow

theorem State.PutFlies.reply {k : Nat} {p : Packet} {code : Reason} {part : Bool} (hinbox : s.inboxAt k [0x21] = some p)
    (hbody : p.body = .putReply x.id code part) :
    ∃ u, execPutReply k s = .next u ∧ s.PutEnded x (code.toNat + (if part then 2 ^ 16 else 0) + 2 ^ 63) u :=
  ⟨_, by simp only [execPutReply, hinbox, hbody], (h.dropInbox k).answered code part p.hdr.flow⟩

theorem State.PutFlies.notice {k : Nat} {p : Packet} {hdr : PktHdr} {code : Reason} (hinbox : s.inboxAt k [0x40] = some p)
    (hbody : p.body = .undeliverable hdr code) (htyp : hdr.typ = 0x20) (htag : hdr.tag.toNat = x.id)
    (hgen : hdr.sgen = (s.ctx hdr.sctx).gen) :
    ∃ part : Bool, (x.many = false → part = false) ∧ ∃ u, execUndeliverableNotice k s = .next u ∧
      s.PutEnded x (0x070C + (if part then 2 ^ 16 else 0) + 2 ^ 63) u := by
  obtain ⟨part, hpart, hends⟩ := (h.dropInbox k).lost hdr.flow
  have hacts : (s.dropInbox k).undelivered hdr = (s.dropInbox k).putLost x.id hdr.flow := by
    have hcurrent : hdr.sgen = ((s.dropInbox k).ctx hdr.sctx).gen := hgen
    simp [State.undelivered, htyp, htag, hcurrent]
  exact ⟨part, hpart, _, by simp only [execUndeliverableNotice, hinbox, hbody, hacts], hends⟩

theorem State.PutFlies.timeout {i : Nat} (hi : s.fab.puts[i]? = some x) :
    ∃ u, execPutTimeout i s = .next u ∧ s.PutEnded x (0x070D + 2 ^ 16 + 2 ^ 63) u :=
  ⟨_, by simp only [execPutTimeout, hi],
    h.answered fabPutTimeout true (BitVec.ofNat 16 (byteField (s.peek (x.slot.toNat + 32) 2) 0 2))⟩

end

/-! ### The statement -/

/-- Settles O42: a record is taken by `execPutRead_takes` and sent or refused, data land by `execPutData_mem`, and every end of a put
is `putAnswer_ends`. -/
theorem puts : Obligations.Puts := by
  unfold Obligations.Puts
  refine ⟨fun s c q hq hserves hready => ?_, fun s k p id len off daddr last data hinbox hbody hrunning hserves hwf hlen htier hrange
    hearlier => ?_, fun s x hfound hgen hwf => ?_⟩
  · intro slot x hclean
    obtain ⟨hfab, -, hreach⟩ := s.putTaken_frame c slot x.dest q.tally
    have htaken := execPutRead_takes hq hserves hready rfl rfl hclean
    rw [exec_putRead]
    refine ⟨fun hok => ?_, fun hbad hwait hwf => ?_⟩
    · rw [if_pos hok] at htaken
      obtain ⟨hmem, hctx, hputs⟩ := (s.putTaken c slot x.dest q.tally).putLaunch_spec c slot x
      obtain ⟨-, hk, hleft⟩ := Ctx.puts_of_offMem hctx
      rw [s.putTaken_ctx] at hk hleft hputs
      rw [hfab] at hputs
      exact ⟨_, htaken, hmem.trans hreach.mem, hk, hleft, hputs⟩
    · rw [if_neg (by simpa using hbad)] at htaken
      obtain ⟨hstatus, hfab'⟩ := (s.putTaken c slot x.dest q.tally).putRefuse_spec c slot x (by rw [hreach.mem]; exact hwf)
        (by rw [s.putTaken_tally]; exact hwait)
      rw [hfab] at hfab'
      exact ⟨_, htaken, by rw [hfab'], by rw [hfab'], fun a => by rw [hstatus a, hreach.mem]⟩
  · obtain ⟨u, hexec, hmem⟩ := execPutData_mem hinbox hbody hrunning hserves hlen htier hrange hearlier
    exact ⟨u, hexec, fun a => by rw [hmem]; exact memGet_memWrite _ _ _ hwf a⟩
  · intro _ hassigned howned hunlatched hunwaited hroom
    have hflies : s.PutFlies x := ⟨hfound, hgen, hwf, hassigned, howned, hunlatched, hunwaited, hroom⟩
    exact ⟨fun k p code part => hflies.reply, fun k p h code => hflies.notice, fun i => hflies.timeout⟩

end Sys2Proof.Machine
end

section
/-!
PROOFS. Refutations of three statements about the fabric (R313, R329, R340), each by a state that meets the hypotheses and on which the
model gives another outcome.
-/

namespace Sys2Proof.Machine

/-! ### O39: packet data in a flit -/

/-- A flit in order puts its packet data into the receive buffer of its port (R313, R326). -/
theorem execFlitReceive_rxPkts {s : State} {p : Fin 17} {f : Flit} (hup : (s.port p.val).st = .up) (hp : p.val ≠ 16)
    (hok : f.ok = true) (hidle : f.idle = false) (hseq : f.seq = (s.port p.val).expected) (hqueue : (s.port p.val).queue = []) :
    ∃ u, execFlitReceive p f s = .next u ∧
      (u.port p.val).rxPkts = (s.port p.val).rxPkts ++ (takeFlit (s.port p.val).rxPart (f.data.drop 8)).1.toList := by
  obtain ⟨hfec, hcrc⟩ : f.fecOk = true ∧ f.crcOk = true := by simpa [Flit.ok] using hok
  have hgate : (p.val == 16) = false := by simpa using hp
  refine ⟨_, by simp [execFlitReceive, hup, hgate, hfec, hcrc, hidle, hseq, Port.countFec, hqueue, State.drainPort]; rfl, ?_⟩
  simp

/-- Packet data of zeros begin with a whole packet: a header whose LENGTH is 0 (R313, R332). -/
theorem takeFlit_zeros {n : Nat} (h : 32 ≤ n) : takeFlit [] (List.replicate n 0) = (some (List.replicate 32 0), []) := by
  have hlength : leNat (((List.replicate n (0 : Byte)).drop 12).take 2) = 0 := by
    rw [List.drop_replicate, List.take_replicate, Nat.min_eq_left (by omega)]
    rfl
  simp only [takeFlit, List.nil_append, hlength, List.length_replicate, Nat.mul_zero, Nat.add_zero, h, if_true,
    List.take_replicate, Nat.min_eq_left]

/-- A flit without credits that the FEC had nothing to mend in: the CRC is that of its data (R313). -/
def sealFlit (seq : BitVec 12) (data : List Byte) : Flit :=
  { seq := seq, idle := false, credits := [], data := data, crc := crc64 data, corr := [], unc := [] }

theorem sealFlit_ok (seq : BitVec 12) (data : List Byte) : (sealFlit seq data).ok = true := by
  simp [sealFlit, Flit.ok, Flit.fecOk, Flit.crcOk]

/-- Flit 0 with a link header and 240 bytes of packet data, all 0. -/
def headerFlit : Flit := sealFlit 0 (List.replicate 248 0)

theorem headerFlit_ok : headerFlit.ok = true := sealFlit_ok _ _

theorem headerFlit_brings_packet : takeFlit [] (headerFlit.data.drop 8) = (some (List.replicate 32 0), []) := by
  rw [headerFlit, sealFlit, List.drop_replicate]
  exact takeFlit_zeros (by decide)

/-- Port 0 is UP and has received nothing. -/
def freshLink : State := { fab := { ports := [(0, { st := .up })] } }

/-- Refutes O39: a flit in order also puts its packet data into the receive buffer, where the statement has the rest of the port as it
was. -/
theorem not_linkLayer : ¬ Obligations.LinkLayer := by
  unfold Obligations.LinkLayer
  intro h
  obtain ⟨hup, -⟩ := h freshLink 0
  obtain ⟨htaken, -⟩ := hup rfl (by decide)
  have hstays := htaken headerFlit headerFlit_ok rfl rfl rfl
  obtain ⟨u, hexec, hbrings⟩ := execFlitReceive_rxPkts (s := freshLink) (p := 0) rfl (by decide) headerFlit_ok rfl rfl rfl
  rw [exec_flitReceive, hexec] at hstays
  obtain rfl := Host.Outcome.next.inj hstays
  rw [State.send_port, State.modPort_port] at hbrings
  have hempty : [] = ([] : List (List Byte)) ++ (takeFlit [] (headerFlit.data.drop 8)).1.toList := hbrings
  rw [headerFlit_brings_packet] at hempty
  exact absurd hempty (by simp)

/-! ### O40: the lane where the next flit starts -/

/-- Port 0 is UP and transmits on six lanes; its next flit starts at place 2 of them, and its laser sources are healthy. -/
def sixLanes : State :=
  { fab := { ports := [(0, { st := .up, txWidth := 6, txGood := 0x3F, peerMap := 0x3F, laneNext := 2 })]
             lasers := (List.range 4).map fun m => (m, { seen := true }) } }

/-- Once the neighbour receives all eight lanes well, the striping starts again at the first. -/
theorem sixLanes_starts_again :
    (reached (exec (.lanemap 0 0xFF) sixLanes)).map (fun u => (u.port 0).laneNext) = some 0 := by decide

/-- Refutes O40: at a new width the next flit starts on the first active lane again, where the statement has all of the port but its
transmit lanes and their width as it was. -/
theorem not_lanesAndLasers : ¬ Obligations.LanesAndLasers := by
  unfold Obligations.LanesAndLasers
  rintro ⟨-, htransmit, -⟩
  obtain ⟨hfits, -⟩ := htransmit sixLanes 0 0xFF 0 rfl rfl
  obtain ⟨u, hexec, -, hport⟩ := hfits (by decide) rfl
  have hstarts := sixLanes_starts_again
  rw [hexec] at hstarts
  have hstays : (u.port 0).laneNext = 2 := congrArg Port.laneNext hport
  exact absurd ((Option.some.inj hstarts).symm.trans hstays) (by decide)

/-! ### O41: a corrupt packet from module 0xFFFF -/

theorem State.loseRecord_inbox (s : State) (p : Nat) (code : Reason) (h : PktHdr) :
    (s.loseRecord p code h).fab.inbox = s.fab.inbox := by
  unfold State.loseRecord
  dsimp only
  split_ifs
  · simp [State.fabRecord, State.modFab]
  · rfl

/-- The notice of a packet lost on its way from 0xFFFF comes to this module's own inbox (R318, R340). -/
theorem State.lose_inbox_of_self (s : State) (p : Nat) (code : Reason) {q : Packet} (hsrc : q.hdr.src = 0xFFFF)
    (htyp : q.hdr.typ ≠ 0x40) : (s.lose p code q).fab.inbox.length = s.fab.inbox.length + 1 := by
  have hself (t : State) : t.routePkt (t.noticeOf q.hdr code) =
      some (t.modFab fun b => { b with inbox := b.inbox ++ [t.noticeOf q.hdr code] }) := by
    simp [State.routePkt, State.deliver, State.noticeOf, Packet.seal, hsrc]
  have hown : (q.hdr.typ == 0x40) = false := by simpa using htyp
  simp only [State.lose, hown, Bool.false_eq_true, if_false, hself, State.modFab, List.length_append, List.length_singleton,
    State.loseRecord_inbox]

theorem State.creditBack_inbox (s : State) (p : Nat) (q : Packet) : (s.creditBack p q).fab.inbox = s.fab.inbox := by
  unfold State.creditBack
  dsimp only
  split_ifs <;> rfl

theorem State.creditBack_routes (s : State) (p : Nat) (q : Packet) : (s.creditBack p q).fab.routes = s.fab.routes ∧
    (s.creditBack p q).fab.module = s.fab.module := by
  unfold State.creditBack
  dsimp only
  split_ifs <;> exact ⟨rfl, rfl⟩

/-- A packet for this module whose E2E_CRC is wrong is lost (R332). -/
theorem execPacketReceive_corrupt {s : State} {p : PortId} {q : Packet} (hholds : (s.port p.toNat).holds q = true)
    (hvc : q.hdr.vc.toNat < 6) (hsrc : s.peers.contains q.hdr.src = true) (hdest : q.hdr.dest = s.fab.module)
    (hcrc : q.crcOk = false) : execPacketReceive p q s =
      .next (((s.creditBack p.toNat q).lose p.toNat fabE2eCrc q).lostHere q) := by
  obtain ⟨hroutes, hmodule⟩ := s.creditBack_routes p.toNat q
  have hpeers : (s.creditBack p.toNat q).peers = s.peers := by rw [State.peers, State.peers, hroutes]
  simp [execPacketReceive, hholds, Nat.not_le.mpr hvc, hpeers, List.contains_iff_mem.mp hsrc, hmodule, hdest, hcrc]

/-- The header of a packet for module 0 from 0xFFFF, by which a module names itself (R318). -/
def selfHdr : PktHdr :=
  { dest := 0, src := 0xFFFF, vc := 0, cls := false, hops := 0, flow := 0, sctx := 0, sgen := 0, dctx := 0, typ := 0x50, unit := 0
    tag := 0 }

/-- A packet whose E2E_CRC is off by one. -/
def corruptPkt : Packet := { hdr := selfHdr, body := .heartbeat, wire := [], crc := selfHdr.e2e [] + 1 }

theorem corruptPkt_crcOk : corruptPkt.crcOk = false := by
  have hoff (x : BitVec 32) : (x == x + 1) = false := by simp
  exact hoff (selfHdr.e2e [])

/-- The packet has come to module 0, whose peer set holds 0xFFFF: the check of the fabric section compares route entries with the
module's own number only (`State.fabErr`, R320). -/
def routeToItself : State :=
  { fab := { module := 0, routes := [⟨0xFFFF, [0]⟩], ports := [(0, { st := .up, rxPkts := [corruptPkt.bytes] })] } }

theorem routeToItself_holds : (routeToItself.port 0).holds corruptPkt = true := by
  have hbuffer : (routeToItself.port 0).rxPkts = [corruptPkt.bytes] := rfl
  simp [Port.holds, hbuffer]

/-- Refutes O41: no hypothesis says that the source of a packet is another module, and the notice of a corrupt packet from itself
lengthens the inbox. -/
theorem not_packetsAndRoutes : ¬ Obligations.PacketsAndRoutes := by
  unfold Obligations.PacketsAndRoutes
  rintro ⟨hreceive, -⟩
  obtain ⟨-, hcorrupt, -⟩ := hreceive routeToItself 0 corruptPkt rfl (by decide) (by decide) routeToItself_holds
  obtain ⟨u, hexec, hinbox, -⟩ := hcorrupt (.inl rfl) corruptPkt_crcOk
  have hlost := execPacketReceive_corrupt (p := 0) routeToItself_holds (by decide) (by decide) rfl corruptPkt_crcOk
  rw [exec_packetReceive, hlost] at hexec
  obtain rfl := Host.Outcome.next.inj hexec
  have hnotified := (routeToItself.creditBack 0 corruptPkt).lose_inbox_of_self 0 fabE2eCrc (q := corruptPkt) rfl (by decide)
  rw [State.creditBack_inbox] at hnotified
  exact absurd (hnotified.symm.trans (congrArg List.length hinbox)) (by decide)

end Sys2Proof.Machine
end

section
/-!
PROOFS. Frames of the data feed's server, and what the rows of the feed leave that move no data: requests, repeats, the end of a shard
and a refusal (R357, R370, R373, R374).
-/

namespace Sys2Proof.Machine

/-! ### Frames and sessions of the Gate (R357) -/

theorem State.modFeed_eq (s : State) (c : CtxId) (f : Feed → Feed) :
    s.modFeed c f = s.modCtx c fun x => { x with feed := f x.feed } := rfl

@[simp] theorem State.modFeed_feed (s : State) (c : CtxId) (f : Feed → Feed) : ((s.modFeed c f).ctx c).feed = f (s.ctx c).feed := by
  simp [State.modFeed_eq]

/-- A change of a feed is what it makes of the feed at hand. -/
theorem State.modFeed_congr {s : State} {c : CtxId} {f k : Feed → Feed} (h : f (s.ctx c).feed = k (s.ctx c).feed) :
    s.modFeed c f = s.modFeed c k := by
  simp only [State.modFeed_eq, State.modCtx_eq, h]

@[simp] theorem State.modFeed_out (s : State) (c : CtxId) (f : Feed → Feed) : (s.modFeed c f).out = s.out := rfl
@[simp] theorem State.modFeed_mem (s : State) (c : CtxId) (f : Feed → Feed) : (s.modFeed c f).mem = s.mem := rfl
@[simp] theorem State.modFeed_sync (s : State) (c : CtxId) (f : Feed → Feed) : (s.modFeed c f).sync = s.sync := rfl

/-- The state in which the message of a frame of session x acts: the frame is counted and its number is in the window. -/
def State.framed (s : State) (x : Session) (pn : Word) : State := s.frameIn.modSession x.num fun y => y.received pn

theorem Session.received_keeps (x : Session) (pn : Word) : (x.received pn).role = x.role ∧ (x.received pn).key = x.key ∧
    (x.received pn).num = x.num ∧ (x.received pn).begun = x.begun ∧ (x.received pn).last = x.last := by
  unfold Session.received
  split_ifs <;> exact ⟨rfl, rfl, rfl, rfl, rfl⟩

theorem State.protectedIn_fresh (s : State) {x : Session} {pn : Word} (act : State → State) (h : x.replayed pn = false) :
    s.protectedIn (some x) pn act = act (s.framed x pn) := by
  simp only [State.protectedIn, h, Bool.false_eq_true, if_false]
  rfl

/-- The session that a search finds which looks at nothing that a frame changes, it finds after a frame of that session. -/
theorem State.framed_find? (s : State) {p : Session → Bool} {x : Session} {pn : Word} (hp : ∀ y : Session, p (y.received pn) = p y)
    (h : s.gate.sessions.find? p = some x) : (s.framed x pn).gate.sessions.find? p = some (x.received pn) := by
  have hsame : (p ∘ fun z : Session => if z.num == x.num then z.received pn else z) = p := by
    funext y
    simp only [Function.comp_apply]
    split_ifs
    · exact hp y
    · rfl
  simp only [State.framed, State.modSession, State.modGate, State.frameIn, List.find?_map, hsame, h]
  simp

/-- The server of a feed is found in the same session after a frame of it. -/
theorem State.feedSession_framed (s : State) {g : FeedSection} {x : Session} (pn : Word) (h : s.feedSession g = some x) :
    (s.framed x pn).feedSession g = some (x.received pn) := by
  refine s.framed_find? (fun y => ?_) h
  obtain ⟨hrole, hkey, -⟩ := y.received_keeps pn
  rw [hrole, hkey]

/-! ### The feed may work -/

section

variable {s : State} {c : CtxId} {g : FeedSection}

theorem State.feedServes_iff :
    s.feedServes c g = true ↔ s.gateUp = true ∧ s.ctxServes c = true ∧ ∃ x, s.feedSession g = some x := by
  simp [State.feedServes, Option.isSome_iff_exists, and_assoc]

theorem State.port_up_of_gateUp (h : s.gateUp = true) : ((s.port 16).st == .up) = true := by
  simp only [State.gateUp, Bool.and_eq_true] at h
  obtain ⟨hup, -⟩ := h
  exact hup

theorem State.gateOut_up {o : Out} (h : ((s.port 16).st == .up) = true) :
    s.gateOut o = (s.modGate fun g => { g with tx := g.tx + 1 }).send o := if_pos h

/-- A protected frame of an open session leaves while the port is UP. -/
theorem State.feedOut_sends {x : Session} (o : BitVec 32 → Out) (hup : ((s.port 16).st == .up) = true)
    (hsession : s.feedSession g = some x) :
    (s.feedOut g o).out = s.out ++ [o x.num] ∧ (s.feedOut g o).mem = s.mem ∧ ∀ d, (s.feedOut g o).ctx d = s.ctx d := by
  have hfound : s.feedOut g o = s.gateOutOn x.num (o x.num) := by rw [State.feedOut, hsession]
  have hnumbered : s.gateOutOn x.num (o x.num) = (s.modSession x.num fun x => { x with txPn := x.txPn + 1 }).gateOut (o x.num) :=
    if_pos hup
  have hup' (f : Session → Session) : (((s.modSession x.num f).port 16).st == .up) = true := hup
  rw [hfound, hnumbered, State.gateOut_up (hup' _)]
  exact ⟨rfl, rfl, fun _ => rfl⟩

/-- A message of the server's that is new, of its session, and for context c by its header. -/
def State.FeedFresh (s : State) (c : CtxId) (g : FeedSection) (pn : Word) (hdr : BitVec 256) (kind : Byte) (len : Nat) :
    Prop :=
  headerOk hdr kind len = true ∧ headerContext hdr = c.setWidth 8 ∧
    ∀ x, s.feedSession g = some x → x.replayed pn = false ∧ headerSession hdr = x.num

/-- What a message of the server's does is done in the state that the frame leaves. -/
theorem State.feedFrame_acts {pn : Word} {hdr : BitVec 256} {kind : Byte} {len : Nat} (act : State → FeedSection → State)
    (hcfg : (s.ctx c).feed.cfg = some g) (hserves : s.feedServes c g = true) (hfresh : s.FeedFresh c g pn hdr kind len) :
    ∃ k, s.feedFrame c pn hdr kind len act = act { s with gate := k } g := by
  obtain ⟨hup, hctx, x, hsession⟩ := State.feedServes_iff.1 hserves
  obtain ⟨hok, hcontext, hof⟩ := hfresh
  obtain ⟨hnew, hnum⟩ := hof x hsession
  have hserves' : (s.framed x pn).ctxServes c = true := hctx
  have hheader : (s.framed x pn).feedHdrOk c g hdr kind len = true := by
    simp [State.feedHdrOk, hok, hcontext, s.feedSession_framed pn hsession, hnum, x.received_keeps pn]
  refine ⟨(s.framed x pn).gate, ?_⟩
  simp only [State.feedFrame, hup, hcfg, hsession, s.protectedIn_fresh _ hnew, hserves', hheader, Bool.and_self, Bool.not_true,
    Bool.false_eq_true, if_true, if_false]
  rfl

end

/-! ### Requests (R373, R374) -/

/-- The feed once n records from its cursor on have been requested. -/
def Feed.requested (f : Feed) (n : Nat) : Feed :=
  { f with
    reqOff := f.reqOff + BitVec.ofNat 64 n
    flight := f.flight ++ (List.range n).map fun i => { offset := f.reqOff + BitVec.ofNat 64 i, epoch := f.reqEpoch } }

/-- The feed once record r has been requested again. -/
def Feed.repeated (f : Feed) (r : FeedRec) : Feed :=
  { f with
    repeats := (f.repeats + 1) % 2 ^ 32
    flight := f.flight.map fun x => if x.offset == r.offset && x.epoch == r.epoch then { x with fails := x.fails + 1 } else x }

section

variable {s : State} {c : CtxId} {g : FeedSection} {x : Session}

/-- A message behind a change of the feed. -/
theorem State.modFeed_feedOut (f : Feed → Feed) (o : BitVec 32 → Out) (hup : ((s.port 16).st == .up) = true)
    (hsession : s.feedSession g = some x) :
    ((s.modFeed c f).feedOut g o).out = s.out ++ [o x.num] ∧ ((s.modFeed c f).feedOut g o).mem = s.mem ∧
      (((s.modFeed c f).feedOut g o).ctx c).feed = f (s.ctx c).feed := by
  obtain ⟨hout, hmem, hctx⟩ := State.feedOut_sends (s := s.modFeed c f) o hup hsession
  exact ⟨hout, hmem, by rw [hctx, State.modFeed_feed]⟩

theorem State.hubWake_keeps (s : State) (h : Nat) : (s.hubWake h).out = s.out ∧ (s.hubWake h).mem = s.mem ∧
    (s.hubWake h).port 16 = s.port 16 ∧ (s.hubWake h).feedSession g = s.feedSession g ∧ (s.hubWake h).ctx c = s.ctx c := by
  obtain ⟨w, hw⟩ := s.hubWake_frame h
  rw [hw]
  exact ⟨rfl, rfl, rfl, rfl, rfl⟩

theorem execFeedRequest_eq {n : Nat} (hcfg : (s.ctx c).feed.cfg = some g) (hserves : s.feedServes c g = true)
    (hn : min (g.window - (s.ctx c).feed.flight.length) ((s.ctx c).feed.credits - (s.ctx c).feed.flight.length) = n)
    (hactive : (s.ctx c).feed.st = .active) (hpos : 0 < n) :
    execFeedRequest c s = .next (((s.hubWake 0).modFeed c (·.requested n)).feedOut g fun k =>
      .feedReq c k g.dataset g.shard (s.ctx c).feed.reqOff (s.ctx c).feed.reqEpoch n) := by
  obtain ⟨-, -, -, -, hctx⟩ := s.hubWake_keeps (c := c) (g := g) 0
  have hsome : (n == 0) = false := by simpa using Nat.ne_of_gt hpos
  unfold execFeedRequest
  simp only [hcfg, hn, hactive, hsome, hserves, bne_self_eq_false, Bool.not_true, Bool.or_self, Bool.false_eq_true, if_false]
  rw [State.modFeed_congr (k := (·.requested n)) (by rw [hctx]; rfl)]

/-- As many records as the window and the slots allow are requested. -/
theorem execFeedRequest_leaves {n : Nat} (hcfg : (s.ctx c).feed.cfg = some g) (hserves : s.feedServes c g = true)
    (hn : min (g.window - (s.ctx c).feed.flight.length) ((s.ctx c).feed.credits - (s.ctx c).feed.flight.length) = n)
    (hactive : (s.ctx c).feed.st = .active) (hpos : 0 < n) (hsession : s.feedSession g = some x) :
    ∃ u, execFeedRequest c s = .next u ∧
      u.out = s.out ++ [Out.feedReq c x.num g.dataset g.shard (s.ctx c).feed.reqOff (s.ctx c).feed.reqEpoch n] ∧ u.mem = s.mem ∧
      (u.ctx c).feed = (s.ctx c).feed.requested n := by
  obtain ⟨hup, -, -⟩ := State.feedServes_iff.1 hserves
  obtain ⟨hout, hmem, hport, hserver, hctx⟩ := s.hubWake_keeps (c := c) (g := g) 0
  refine ⟨_, execFeedRequest_eq hcfg hserves hn hactive hpos, ?_⟩
  rw [← hout, ← hmem, ← hctx]
  exact State.modFeed_feedOut _ _ (by rw [hport]; exact State.port_up_of_gateUp hup) (hserver.trans hsession)

/-- A record that has not come is requested again, its failure counted; seven in a row are not recorded. -/
theorem execFeedRetryExpiry_leaves {r : FeedRec} (hcfg : (s.ctx c).feed.cfg = some g) (hserves : s.feedServes c g = true)
    (hactive : (s.ctx c).feed.st = .active) (hflight : (s.ctx c).feed.flight = [r]) (hopen : r.done = false) (hfails : r.fails < 7)
    (hsession : s.feedSession g = some x) :
    ∃ u, execFeedRetryExpiry c s = .next u ∧
      u.out = s.out ++ [Out.feedReq c x.num g.dataset g.shard r.offset r.epoch 1] ∧ u.mem = s.mem ∧
      (u.ctx c).feed = (s.ctx c).feed.repeated r := by
  obtain ⟨hup, hctx, -⟩ := State.feedServes_iff.1 hserves
  have heighth : (r.fails + 1 == 8) = false := by simpa using (by omega : r.fails ≠ 7)
  have hsends : execFeedRetryExpiry c s = .next ((s.modFeed c (·.repeated r)).feedOut g fun k =>
      .feedReq c k g.dataset g.shard r.offset r.epoch 1) := by
    unfold execFeedRetryExpiry
    simp only [hcfg, hctx, hactive, hflight, State.feedRetry, hopen, heighth, beq_self_eq_true, Bool.true_or, Bool.and_self,
      Bool.false_eq_true, if_true, if_false]
    rfl
  exact ⟨_, hsends, State.modFeed_feedOut _ _ (State.port_up_of_gateUp hup) hsession⟩

theorem Feed.repeated_only {f : Feed} {r : FeedRec} (h : f.flight = [r]) :
    f.repeated r = { f with repeats := (f.repeats + 1) % 2 ^ 32, flight := [{ r with fails := r.fails + 1 }] } := by
  simp [Feed.repeated, h]

end

/-! ### The end of a shard, a refusal (R370, Table 12.14) -/

theorem Feed.settle_frame (f : Feed) :
    ∃ fo fe d de, f.settle = { f with fillOff := fo, fillEpoch := fe, doneOff := d, doneEpoch := de } := by
  unfold Feed.settle
  dsimp only
  split_ifs <;> exact ⟨_, _, _, _, rfl⟩

/-- What settling the cursors of a written record leaves. -/
theorem Feed.settle_keeps (f : Feed) : f.settle.flight = f.flight ∧ f.settle.reqOff = f.reqOff ∧ f.settle.reqEpoch = f.reqEpoch ∧
    f.settle.delivered = f.delivered ∧ f.settle.nextSlot = f.nextSlot := by
  obtain ⟨fo, fe, d, de, h⟩ := f.settle_frame
  rw [h]
  exact ⟨rfl, rfl, rfl, rfl, rfl⟩

/-- From s to u nothing leaves, the memory is as it was, and the feed of context c becomes f. -/
def State.FeedBecomes (s : State) (c : CtxId) (f : Feed) (u : State) : Prop := u.out = s.out ∧ u.mem = s.mem ∧ (u.ctx c).feed = f

theorem State.FeedBecomes.leaves {s u : State} {c : CtxId} {f : Feed} (h : s.FeedBecomes c f u) :
    u.out = s.out ++ [] ∧ u.mem = s.mem ∧ (u.ctx c).feed = f := by
  rw [List.append_nil]
  exact h

theorem State.feedRecord_eq (s : State) (c : CtxId) (code : Reason) (sev : Byte) : ∃ r, s.feedRecord c code sev = s.record r :=
  ⟨_, rfl⟩

/-- A change of the feed behind one record. -/
theorem State.feedRecord_modFeed (s : State) (c : CtxId) (code : Reason) (sev : Byte) (f : Feed → Feed) :
    s.FeedBecomes c (f (s.ctx c).feed) ((s.feedRecord c code sev).modFeed c f) := by
  obtain ⟨r, hr⟩ := s.feedRecord_eq c code sev
  rw [hr]
  exact ⟨State.record_out _ _, State.record_mem _ _, by rw [State.modFeed_feed, State.record_ctx]⟩

theorem State.stopFeed_becomes (s : State) (c : CtxId) (code : Reason) :
    s.FeedBecomes c { (s.ctx c).feed with st := .stopped, stopReason := code, flight := [] } (s.stopFeed c code) :=
  s.feedRecord_modFeed c code sevError _

/-- The feed after the shard has ended at an offset: records from there on are not awaited, and the next is the first of the next
epoch. -/
def Feed.turned (f : Feed) (offset : Word) : Feed :=
  Feed.settle { f with
    flight := f.flight.filter fun r => !(r.epoch == f.reqEpoch && decide (offset.toNat ≤ r.offset.toNat))
    reqOff := 0, reqEpoch := f.reqEpoch + 1 }

theorem Feed.turned_keeps (f : Feed) (offset : Word) : (f.turned offset).reqOff = 0 ∧ (f.turned offset).reqEpoch = f.reqEpoch + 1 ∧
    (f.turned offset).flight =
      f.flight.filter fun r => !(r.epoch == f.reqEpoch && decide (offset.toNat ≤ r.offset.toNat)) := by
  unfold Feed.turned
  obtain ⟨hflight, hoff, hepoch, -, -⟩ := Feed.settle_keeps _
  exact ⟨hoff, hepoch, hflight⟩

theorem Feed.not_ended {f : Feed} (h : f.st = .active) : (f.st == .stopped) = false ∧ (f.st == .idle) = false := by
  rw [h]
  exact ⟨rfl, rfl⟩

/-- The shard of context c's feed ends at an offset. -/
def State.feedEnds (s : State) (c : CtxId) (offset : Word) : State :=
  if offset = 0 then s.stopFeed c feedEmpty else (s.feedRecord c feedEpochCode sevInfo).modFeed c (·.turned offset)

theorem State.feedEnds_zero (s : State) (c : CtxId) :
    s.FeedBecomes c { (s.ctx c).feed with st := .stopped, stopReason := 0x0242, flight := [] } (s.feedEnds c 0) :=
  s.stopFeed_becomes c feedEmpty

theorem State.feedEnds_turns (s : State) (c : CtxId) {offset : Word} (h : offset ≠ 0) :
    s.FeedBecomes c ((s.ctx c).feed.turned offset) (s.feedEnds c offset) := by
  have hturns : s.feedEnds c offset = (s.feedRecord c feedEpochCode sevInfo).modFeed c (·.turned offset) := if_neg h
  rw [hturns]
  exact s.feedRecord_modFeed c feedEpochCode sevInfo _

section

variable {s : State} {c : CtxId} {g : FeedSection} {pn : Word} {hdr : BitVec 256} {offset : Word}
  (hcfg : (s.ctx c).feed.cfg = some g) (hserves : s.feedServes c g = true) (hactive : (s.ctx c).feed.st = .active)
include hcfg hserves hactive

theorem execFeedEnd_ends (hfresh : s.FeedFresh c g pn hdr 0x22 20) (hwithin : offset.toNat ≤ (s.ctx c).feed.reqOff.toNat) :
    ∃ k, execFeedEnd c ⟨pn, hdr, g.dataset, g.shard, (s.ctx c).feed.reqEpoch⟩ offset s =
      .next (({ s with gate := k } : State).feedEnds c offset) := by
  obtain ⟨k, hk⟩ := State.feedFrame_acts _ hcfg hserves hfresh
  refine ⟨k, congrArg Host.Outcome.next (hk.trans ?_)⟩
  have hctx : ({ s with gate := k } : State).ctx c = s.ctx c := rfl
  obtain ⟨r, hr⟩ := ({ s with gate := k } : State).feedRecord_eq c feedEpochCode sevInfo
  obtain ⟨hstopped, hidle⟩ := Feed.not_ended hactive
  simp only [State.feedEnds, hctx, hstopped, hidle, bne_self_eq_false, Nat.not_lt.mpr hwithin, decide_false, Bool.or_self,
    Bool.false_eq_true, if_false, beq_iff_eq]
  refine if_congr Iff.rfl rfl (State.modFeed_congr ?_)
  rw [hr, State.record_ctx, hctx]
  rfl

theorem execFeedErr_stops (hfresh : s.FeedFresh c g pn hdr 0x23 22) (code : BitVec 16) :
    ∃ k, execFeedErr c ⟨pn, hdr, g.dataset, g.shard, offset, code⟩ s =
      .next (({ s with gate := k } : State).stopFeed c feedRefused) := by
  obtain ⟨k, hk⟩ := State.feedFrame_acts _ hcfg hserves hfresh
  refine ⟨k, congrArg Host.Outcome.next (hk.trans ?_)⟩
  have hctx : ({ s with gate := k } : State).ctx c = s.ctx c := rfl
  obtain ⟨hstopped, hidle⟩ := Feed.not_ended hactive
  simp only [hctx, hstopped, hidle, bne_self_eq_false, Bool.or_self, Bool.false_eq_true, if_false]

end

end Sys2Proof.Machine
end

section
/-!
PROOFS. O46: a record that comes in one fragment, its way to its slot and the READY signal, and the statement (R372, R374).
-/

namespace Sys2Proof.Machine

/-! ### A record that comes in one fragment (R374) -/

theorem joinFrags_single {bs : List Byte} (h : 0 < bs.length) : joinFrags bs.length 2 [(0, bs)] [] = some bs := by
  have hne : (0 == bs.length) = false := by simpa using Nat.ne_of_lt h
  have hfull : bs.isEmpty = false := by simpa [List.isEmpty_iff, ← List.length_pos_iff] using h
  simp [joinFrags, hne, hfull]

/-- The record once its one fragment d has come and its CRC is right. -/
def FeedRec.whole (r : FeedRec) (d : FeedFragment) : FeedRec :=
  { r with len := some d.len, crc := d.crc, frags := [(0, d.bytes)], done := true }

/-- The feed with record r alone in flight. -/
def Feed.holding (f : Feed) (r : FeedRec) : Feed := { f with flight := [r] }

/-- Fragment d is all of record r of the feed, of which nothing has come. -/
def FeedRec.FilledBy (r : FeedRec) (g : FeedSection) (d : FeedFragment) : Prop :=
  (r.done = false ∧ r.frags = [] ∧ r.len = none) ∧
  (d.dataset = g.dataset ∧ d.shard = g.shard ∧ d.offset = r.offset ∧ d.epoch = r.epoch ∧ d.fragOffset = 0) ∧
  d.bytes.length = d.len ∧ 0 < d.len ∧ d.len ≤ 8160 ∧ d.len + 64 ≤ g.slot

section

variable {s : State} {c : CtxId} {g : FeedSection} {r : FeedRec} {d : FeedFragment}

theorem FeedRec.FilledBy.undone (h : r.FilledBy g d) : r.done = false := by
  obtain ⟨⟨hdone, -⟩, -⟩ := h
  exact hdone

theorem FeedRec.FilledBy.length (h : r.FilledBy g d) : d.bytes.length = d.len := by
  obtain ⟨-, -, hlength, -⟩ := h
  exact hlength

/-- The fragment's bytes join to the record's. -/
theorem FeedRec.FilledBy.joins (h : r.FilledBy g d) : joinFrags d.len 2 [(0, d.bytes)] [] = some d.bytes := by
  obtain ⟨-, -, hlength, hpos, -⟩ := h
  rw [← hlength] at hpos ⊢
  exact joinFrags_single hpos

/-- One fragment completes the record; with a wrong CRC the record starts again. -/
theorem FeedRec.take_filled (h : r.FilledBy g d) :
    r.take g d = some (if crc32c d.bytes = d.crc then r.whole d else { r with crc := d.crc }) := by
  have hjoin := h.joins
  obtain ⟨⟨hdone, hfrags, hlen⟩, ⟨hdataset, hshard, -, -, hfirst⟩, hlength, -, hshort, -⟩ := h
  by_cases hcrc : crc32c d.bytes = d.crc <;>
    simp [FeedRec.take, FeedRec.whole, hdataset, hshard, hdone, hfrags, hlen, hfirst, hlength, hjoin, hcrc, hshort]

/-- A fragment that is all of the one record in flight. -/
theorem State.feedData_filled {img : CtxImage} {base len : Nat} (himg : (s.ctx c).img = some img) (hring : feedRing img = some (base, len))
    (hactive : (s.ctx c).feed.st = .active) (hflight : (s.ctx c).feed.flight = [r]) (h : r.FilledBy g d) :
    s.feedData c d g = (s.modFeed c
      (·.holding (if crc32c d.bytes = d.crc then r.whole d else { r with crc := d.crc }))).feedDeliver c g base 2 := by
  have htake := FeedRec.take_filled h
  obtain ⟨-, ⟨-, -, hoffset, hepoch, -⟩, -, -, -, hslot⟩ := h
  have hroom : ¬ d.len > g.slot - 64 := by omega
  simp only [State.feedData, himg, Option.bind_some, hring, hflight, List.findIdx?_cons, hoffset, hepoch, beq_self_eq_true,
    Bool.and_self, if_true, List.getElem?_cons_zero, htake, hactive, reduceCtorEq, beq_iff_eq, if_false, hroom]
  exact congrArg (fun t : State => t.feedDeliver c g base 2) (State.modFeed_congr (by rw [hflight]; rfl))

/-! ### A complete record goes to its slot (R372, R374) -/

theorem State.pokeVia_ctx (s : State) (l : Nat) (bs : List Byte) : (s.pokeVia l bs).ctx c = s.ctx c := by
  rw [State.pokeVia, State.eq_of_offCaches (s.offCaches_writeVia l bs.length)]
  rfl

/-- The feed once record r at its front has been written to its slot. -/
def Feed.written (f : Feed) (g : FeedSection) (r : FeedRec) (rest : List FeedRec) : Feed :=
  Feed.settle { f with
    flight := rest, delivered := (f.delivered + 1) % 2 ^ 32, nextSlot := (f.nextSlot + 1) % g.nslots
    credits := f.credits - 1
    slots := if f.credits > g.nslots then f.slots else f.slots ++ [(r.offset, r.epoch)] }

theorem Feed.written_keeps (f : Feed) (g : FeedSection) (r : FeedRec) (rest : List FeedRec) : (f.written g r rest).flight = rest ∧
    (f.written g r rest).delivered = (f.delivered + 1) % 2 ^ 32 ∧
    (f.written g r rest).nextSlot = (f.nextSlot + 1) % g.nslots := by
  unfold Feed.written
  obtain ⟨hflight, -, -, hdelivered, hslot⟩ := Feed.settle_keeps _
  exact ⟨hflight, hdelivered, hslot⟩

/-- Record r of bytes `bs` is in its slot, and READY is still to be signalled. -/
def State.slotWritten (s : State) (c : CtxId) (g : FeedSection) (base : Nat) (r : FeedRec) (rest : List FeedRec) (bs : List Byte) :
    State :=
  (s.pokeVia (granLoc (base + (s.ctx c).feed.nextSlot * g.slot)) (slotBytesOf g r bs)).modFeed c (·.written g r rest)

theorem State.slotWritten_eq (s : State) (c : CtxId) (g : FeedSection) (base : Nat) (r : FeedRec) (rest : List FeedRec) (bs : List Byte) :
    s.slotWritten c g base r rest bs =
      (s.pokeVia (granLoc (base + (s.ctx c).feed.nextSlot * g.slot)) (slotBytesOf g r bs)).modFeed c (·.written g r rest) := rfl

/-- Nothing is delivered while the record at the front, if there is one, is not complete; a complete one goes to its slot. -/
theorem State.feedDeliver_cases (s : State) (c : CtxId) (g : FeedSection) (base k : Nat) :
    ((∀ r rest, (s.ctx c).feed.flight = r :: rest → r.done = false) → s.feedDeliver c g base k = s) ∧
    ∀ {r : FeedRec} {rest : List FeedRec} {n : Nat} {bs : List Byte}, (s.ctx c).feed.flight = r :: rest → r.done = true →
      r.len = some n → joinFrags n (r.frags.length + 1) r.frags [] = some bs →
      s.feedDeliver c g base (k + 1) = ((s.slotWritten c g base r rest bs).hubSignal c g.ready).feedDeliver c g base k := by
  constructor
  · intro hopen
    cases k with
    | zero => rfl
    | succ k =>
      cases hflight : (s.ctx c).feed.flight with
      | nil => simp only [State.feedDeliver, hflight]
      | cons r rest => simp only [State.feedDeliver, hflight, hopen r rest hflight]
  · intro r rest n bs hflight hdone hlen hjoin
    simp only [State.feedDeliver, hflight, hdone, hlen, hjoin, Option.getD_some, State.slotWritten_eq, State.modFeed_eq, State.modCtx_eq,
      State.setCtx_ctx, State.setCtx_setCtx]
    rfl

theorem State.feedDeliver_stays (base k : Nat) (hopen : ∀ r rest, (s.ctx c).feed.flight = r :: rest → r.done = false) :
    s.feedDeliver c g base k = s :=
  (s.feedDeliver_cases c g base k).1 hopen

theorem State.feedDeliver_front {rest : List FeedRec} {n : Nat} {bs : List Byte} (base k : Nat)
    (hflight : (s.ctx c).feed.flight = r :: rest) (hdone : r.done = true) (hlen : r.len = some n)
    (hjoin : joinFrags n (r.frags.length + 1) r.frags [] = some bs) :
    s.feedDeliver c g base (k + 1) = ((s.slotWritten c g base r rest bs).hubSignal c g.ready).feedDeliver c g base k :=
  (s.feedDeliver_cases c g base k).2 hflight hdone hlen hjoin

/-- A signal of a hub to a tally without waiters that counts leaves the contexts. -/
theorem State.hubSignal_ctx {id : Nat} (hassigned : (s.tally id).assigned = true) (hctx : (s.tally id).ctx = c)
    (hlatch : (s.tally id).latch = false) (hq : (s.tally id).q = []) (hroom : (s.tally id).value.toNat < 2 ^ 32 - 1) :
    (s.hubSignal c id).ctx c = s.ctx c := by
  have hfits : ¬ (s.tally id).value.toNat + 1 > 0xFFFFFFFF := by omega
  have hsame (f : SyncDie → SyncDie) : (s.modSyncDie (id / 4096) f).tally id = s.tally id := rfl
  simp only [State.hubSignal, State.signalTally, hsame, hassigned, hctx, hlatch, hfits, beq_self_eq_true, Bool.and_self,
    Bool.false_eq_true, if_true, if_false]
  rw [State.serve_modTally _ hq]
  rfl

/-- A tally of context c that counts, with room and no waiter. -/
abbrev State.Counting (s : State) (c : CtxId) (id : Nat) : Prop :=
  (s.tally id).assigned = true ∧ (s.tally id).ctx = c ∧ (s.tally id).latch = false ∧ (s.tally id).q = [] ∧
    (s.tally id).value.toNat < 2 ^ 32 - 1

theorem State.slotWritten_tally (base : Nat) (rest : List FeedRec) (bs : List Byte) (id : Nat) :
    (s.slotWritten c g base r rest bs).tally id = s.tally id := by
  rw [State.tally, State.slotWritten_eq, State.modFeed_sync, (s.pokeVia_frame _ _).2, State.tally]

theorem State.slotWritten_feed (base : Nat) (rest : List FeedRec) (bs : List Byte) :
    ((s.slotWritten c g base r rest bs).ctx c).feed = (s.ctx c).feed.written g r rest := by
  rw [State.slotWritten_eq, State.modFeed_feed, State.pokeVia_ctx]

theorem State.slotWritten_mem (base : Nat) (rest : List FeedRec) (bs : List Byte) :
    (s.slotWritten c g base r rest bs).mem =
      memWrite (granLoc (base + (s.ctx c).feed.nextSlot * g.slot)) (slotBytesOf g r bs) s.mem := by
  rw [State.slotWritten_eq, State.modFeed_mem, (s.pokeVia_mem _ _).1, State.poke]

theorem slotBytesOf_length (g : FeedSection) (r : FeedRec) (bs : List Byte) : (slotBytesOf g r bs).length = 64 + bs.length := by
  simp only [slotBytesOf, List.length_append, leBytes_length]

/-- The one record in flight is complete: it is written and READY is signalled. -/
theorem State.feedDeliver_only {n : Nat} {bs : List Byte} (base : Nat) (hflight : (s.ctx c).feed.flight = [r]) (hdone : r.done = true)
    (hlen : r.len = some n) (hjoin : joinFrags n (r.frags.length + 1) r.frags [] = some bs) (hcounts : s.Counting c g.ready) :
    ((s.feedDeliver c g base 2).ctx c).feed = (s.ctx c).feed.written g r [] ∧
      ((s.feedDeliver c g base 2).tally g.ready).value = (s.tally g.ready).value + 1 ∧
      (s.feedDeliver c g base 2).mem =
        memWrite (granLoc (base + (s.ctx c).feed.nextSlot * g.slot)) (slotBytesOf g r bs) s.mem := by
  have htally := State.slotWritten_tally (s := s) (c := c) (g := g) (r := r) base [] bs g.ready
  have hfeed := State.slotWritten_feed (s := s) (c := c) (g := g) (r := r) base [] bs
  have hcounts' : (s.slotWritten c g base r [] bs).Counting c g.ready := by simpa only [State.Counting, htally] using hcounts
  obtain ⟨hassigned, hctx, hlatch, hq, hroom⟩ := hcounts'
  have hkeeps := State.hubSignal_ctx hassigned hctx hlatch hq hroom
  obtain ⟨hempty, -⟩ := (s.ctx c).feed.written_keeps g r []
  rw [State.feedDeliver_front base 1 hflight hdone hlen hjoin, State.feedDeliver_stays base 1 (by rw [hkeeps, hfeed, hempty]; nofun)]
  refine ⟨by rw [hkeeps, hfeed], ?_, ?_⟩
  · rw [State.hubSignal_counts _ hassigned hctx hlatch hq hroom, htally]
  · rw [(State.hubSignal_frame _ c hq).1, State.slotWritten_mem]

end

/-! ### A fragment arrives (R374) -/

section

variable {s : State} {c : CtxId} {g : FeedSection} {r : FeedRec} {d : FeedFragment} {img : CtxImage} {base len : Nat}
  (hcfg : (s.ctx c).feed.cfg = some g) (hserves : s.feedServes c g = true) (himg : (s.ctx c).img = some img)
  (hring : feedRing img = some (base, len)) (hactive : (s.ctx c).feed.st = .active) (hflight : (s.ctx c).feed.flight = [r])
  (hfills : r.FilledBy g d) (hfresh : s.FeedFresh c g d.pn d.hdr 0x21 (32 + d.len))
include hcfg hserves himg hring hactive hflight hfills hfresh

/-- A fragment that is all of the one record in flight. -/
theorem execFeedData_fills : ∃ k, execFeedData c d s = .next ((({ s with gate := k } : State).modFeed c
    (·.holding (if crc32c d.bytes = d.crc then r.whole d else { r with crc := d.crc }))).feedDeliver c g base 2) := by
  rw [← hfills.length] at hfresh
  obtain ⟨k, hk⟩ := State.feedFrame_acts (fun t g => t.feedData c d g) hcfg hserves hfresh
  exact ⟨k, congrArg Host.Outcome.next (hk.trans (State.feedData_filled himg hring hactive hflight hfills))⟩

theorem execFeedData_delivers (hcrc : crc32c d.bytes = d.crc) (hwf : Memory.wf s.mem = true) (hcounts : s.Counting c g.ready) :
    ∃ u, execFeedData c d s = .next u ∧ (u.ctx c).feed.flight = [] ∧
      (u.ctx c).feed.delivered = ((s.ctx c).feed.delivered + 1) % 2 ^ 32 ∧
      (u.ctx c).feed.nextSlot = ((s.ctx c).feed.nextSlot + 1) % g.nslots ∧
      (u.tally g.ready).value = (s.tally g.ready).value + 1 ∧
      ∀ a, memGet u.mem a =
        if granLoc (base + (s.ctx c).feed.nextSlot * g.slot) ≤ a ∧
          a < granLoc (base + (s.ctx c).feed.nextSlot * g.slot) + 64 + d.len
        then (slotBytesOf g (r.whole d) d.bytes).getD (a - granLoc (base + (s.ctx c).feed.nextSlot * g.slot)) 0
        else memGet s.mem a := by
  obtain ⟨k, hk⟩ := execFeedData_fills hcfg hserves himg hring hactive hflight hfills hfresh
  rw [if_pos hcrc] at hk
  have hjoin : joinFrags d.len ((r.whole d).frags.length + 1) (r.whole d).frags [] = some d.bytes := hfills.joins
  have hheld : ((({ s with gate := k } : State).modFeed c (·.holding (r.whole d))).ctx c).feed = (s.ctx c).feed.holding (r.whole d) :=
    State.modFeed_feed _ _ _
  obtain ⟨hfeed, hready, hmem⟩ := State.feedDeliver_only (g := g) base (congrArg Feed.flight hheld) rfl rfl hjoin hcounts
  rw [hheld] at hfeed hmem
  obtain ⟨hflight', hdelivered, hslot⟩ := ((s.ctx c).feed.holding (r.whole d)).written_keeps g (r.whole d) []
  refine ⟨_, hk, by rw [hfeed, hflight'], by rw [hfeed, hdelivered]; rfl, by rw [hfeed, hslot]; rfl, hready, fun a => ?_⟩
  rw [hmem]
  refine (memGet_memWrite _ _ _ hwf a).trans ?_
  rw [slotBytesOf_length, hfills.length, ← Nat.add_assoc]
  rfl

/-- A record whose CRC is wrong is awaited again, and nothing is written. -/
theorem execFeedData_drops (hcrc : crc32c d.bytes ≠ d.crc) : ∃ u, execFeedData c d s = .next u ∧
    s.FeedBecomes c { (s.ctx c).feed with flight := [{ r with crc := d.crc }] } u := by
  obtain ⟨k, hk⟩ := execFeedData_fills hcfg hserves himg hring hactive hflight hfills hfresh
  have hheld : ((({ s with gate := k } : State).modFeed c (·.holding { r with crc := d.crc })).ctx c).feed =
      (s.ctx c).feed.holding { r with crc := d.crc } := State.modFeed_feed _ _ _
  rw [if_neg hcrc, State.feedDeliver_stays base 2] at hk
  · exact ⟨_, hk, rfl, rfl, hheld⟩
  · intro r' rest hflight'
    rw [hheld] at hflight'
    obtain ⟨rfl, -⟩ := List.cons.inj hflight'
    exact hfills.undone

end

/-- The record's header and bytes in its slot, as R372 lays them out. -/
theorem slotBytesOf_whole {g : FeedSection} {r : FeedRec} {d : FeedFragment} (h : r.FilledBy g d) :
    slotBytesOf g (r.whole d) d.bytes = leBytes g.dataset.toNat 4 ++ leBytes g.shard.toNat 4 ++ leBytes r.offset.toNat 8 ++
      leBytes r.epoch.toNat 4 ++ leBytes d.len 4 ++ leBytes d.crc.toNat 4 ++ List.replicate 36 0 ++ d.bytes := by
  have hzeros : leBytes 0 36 = List.replicate 36 0 := rfl
  rw [← h.length, ← hzeros]
  rfl

/-! ### The statement -/

/-- Settles O46, row by row: requests by `execFeedRequest_leaves` and `execFeedRetryExpiry_leaves`, a fragment by
`execFeedData_delivers` or `execFeedData_drops`, the end of a shard and a refusal by `execFeedEnd_ends` and `execFeedErr_stops`. -/
theorem dataFeed : Obligations.DataFeed := by
  unfold Obligations.DataFeed
  intro s c g f hcfg hserves fresh leaves
  refine ⟨?_, ?_, ?_, ?_, ?_⟩
  · intro n hactive hpos x hsession
    exact execFeedRequest_leaves hcfg hserves rfl hactive hpos hsession
  · intro img base len r d himg hring hactive hflight hdone hfrags hlen hdataset hshard hoffset hepoch hfirst hlength hpos hshort hroom
      hfresh slot bytes ready
    have hfills : r.FilledBy g d :=
      ⟨⟨hdone, hfrags, hlen⟩, ⟨hdataset, hshard, hoffset, hepoch, hfirst⟩, hlength, hpos, hshort, hroom⟩
    refine ⟨fun hcrc hwf hq hassigned hctx hlatch hvalue => ?_, fun hcrc => ?_⟩
    · have hdelivers := execFeedData_delivers hcfg hserves himg hring hactive hflight hfills hfresh hcrc hwf
        ⟨hassigned, hctx, hlatch, hq, hvalue⟩
      rw [slotBytesOf_whole hfills] at hdelivers
      exact hdelivers
    · obtain ⟨u, hexec, hbecomes⟩ := execFeedData_drops hcfg hserves himg hring hactive hflight hfills hfresh hcrc
      obtain ⟨hout, hmem, hfeed⟩ := hbecomes.leaves
      exact ⟨u, hexec, hout, hmem, by rw [hfeed], by rw [hfeed], by rw [hfeed]⟩
  · intro pn offset hdr hactive hwithin hfresh
    obtain ⟨k, hk⟩ := execFeedEnd_ends hcfg hserves hactive hfresh hwithin
    refine ⟨fun hsome => ?_, fun hnone => ?_⟩
    · obtain ⟨hout, hmem, hfeed⟩ := (({ s with gate := k } : State).feedEnds_turns c hsome).leaves
      exact ⟨_, hk, hout, hmem, by rw [hfeed]; exact f.turned_keeps offset⟩
    · obtain rfl := hnone
      obtain ⟨hout, hmem, hfeed⟩ := (({ s with gate := k } : State).feedEnds_zero c).leaves
      exact ⟨_, hk, hout, hmem, by rw [hfeed]; exact ⟨rfl, rfl⟩⟩
  · intro pn hdr offset why hactive hfresh
    obtain ⟨k, hk⟩ := execFeedErr_stops hcfg hserves hactive hfresh why
    obtain ⟨hout, hmem, hfeed⟩ := (({ s with gate := k } : State).stopFeed_becomes c feedRefused).leaves
    exact ⟨_, hk, hout, hmem, by rw [hfeed]; exact ⟨rfl, rfl, rfl⟩⟩
  · intro r x hactive hflight hdone hfails hsession
    rw [← Feed.repeated_only hflight]
    exact execFeedRetryExpiry_leaves hcfg hserves hactive hflight hdone hfails hsession

end Sys2Proof.Machine
end

section
/-!
PROOFS. Refutations of three statements about the Gate and its commands (R62, R206, R356, R369), each by a state that meets the hypotheses
and on which the model gives another outcome.
-/

namespace Sys2Proof.Machine

/-- The module has released with its Vault READY, and the Gate is UP: one CONTROL session is open, number 7, of the peer at address 5,
and gets the event records of severity ERROR and above. -/
def openGate : State :=
  { gate := { enable := true, keys := [⟨0, some .control, 5⟩], nextNum := 9
              sessions := [{ num := 7, key := 0, role := .control, mac := 5, minSev := some sevError }] }
    boot := { phase := .released }
    vault := { st := .ready }
    fab := { ports := [(16, { enable := true, st := .up })] } }

/-! ### A request that is admitted (R359) -/

/-- The context at which a request is aimed. -/
def aimedAt (r : ReqHdr) (aim : Aim) : Option CtxId :=
  if r.context.toNat < 16 && aim != .module then some (BitVec.ofNat 4 r.context.toNat) else none

/-- No command executes at the context of a request. -/
def State.freeFor (s : State) (r : ReqHdr) (aim : Aim) : Prop := ∀ c, aimedAt r aim = some c → (s.ctx c).cmd = none

/-- Nothing executes for a request that is admitted, once its context is free. -/
theorem State.not_busyFor {s : State} {r : ReqHdr} {op : CmdOp} {aim : Aim} (hown : s.executing r.session = none)
    (hmodule : s.seqr.modCmd = none) (hfree : s.freeFor r aim) : s.busyFor r.session op (aimedAt r aim) = false := by
  have hother : (aimedAt r aim).bind (fun c => (s.ctx c).cmd) = none := by
    cases haim : aimedAt r aim with
    | none => rfl
    | some c => exact hfree c haim
  simp [State.busyFor, hother, hown, hmodule]

/-- A request that is admitted is in the form of its row, and its command is the row's. -/
theorem admitted_form {s : State} {r : ReqHdr} {op : CmdOp} (h : admitted s r (opNum op)) :
    r.formatOk = true ∧ opOf r op = op ∧ ofRow r op = true := by
  obtain ⟨-, -, hversion, hkind, hzero, hlen, hbody, hop, -⟩ := h
  simp [ReqHdr.formatOk, opOf, ofRow, hversion, hkind, hzero, hlen, hbody, hop]

/-- An admitted request of a command of Table 12.4 acts, in a state that differs from the one at hand in the Gate only. -/
theorem State.request_acts {s : State} {r : ReqHdr} {op : CmdOp} {aim : Aim} {legal : State → CtxId → Bool}
    (act : State → CmdExec → Option CtxId → State) (hadmitted : admitted s r (opNum op)) (hrow : ∀ n, op ≠ .other n)
    (haim : aimBad aim r.context = false) (hfree : s.freeFor r aim)
    (hlegal : ∀ g, legal { s with gate := g } ((aimedAt r aim).getD 0) = true) :
    ∃ g, s.request r op aim true legal act =
      .next (act { s with gate := g } ⟨r.session, r.seq, op, r.context⟩ (aimedAt r aim)) := by
  obtain ⟨hformat, hop, hofRow⟩ := admitted_form hadmitted
  obtain ⟨hup, hphase, -, -, -, -, -, -, hown, hmodule, x, hsession, hnew, hrole, hseq⟩ := hadmitted
  obtain ⟨xrole, -, -, xbegun, xlast⟩ := x.received_keeps r.pn
  have hfound : (s.framed x r.pn).session r.session = some (x.received r.pn) :=
    s.framed_find? (fun y => by obtain ⟨-, -, hnum, -⟩ := y.received_keeps r.pn; rw [hnum]) hsession
  have hother : (op == CmdOp.other r.opcode) = false := by simpa using hrow r.opcode
  have hagain : (x.begun && r.seq == x.last) = false := by
    cases hbegun : x.begun with
    | false => rfl
    | true => simp [hseq, hbegun]
  have hnext : (r.seq != if x.begun = true then x.last + 1 else 1) = false := by simpa using hseq
  have hbusy (g : Gate) : ({ s with gate := g } : State).busyFor r.session op (aimedAt r aim) = false :=
    State.not_busyFor (s := { s with gate := g }) hown hmodule hfree
  have hrecovery : (s.boot.phase == .recovery) = false := by rw [hphase]; rfl
  have hallows : roleAllows (x.received r.pn).role op = true := by rw [xrole, hrole]; rfl
  obtain ⟨t, ht⟩ : ∃ t, t = (s.framed x r.pn).modSession r.session fun y => { y with begun := true, last := r.seq, stored := none } :=
    ⟨_, rfl⟩
  have hgate : t = { s with gate := t.gate } := by rw [ht]; rfl
  have hlegal' : legal t ((aimedAt r aim).getD 0) = true := by rw [hgate]; exact hlegal _
  have hbusy' : t.busyFor r.session op (aimedAt r aim) = false := by rw [hgate]; exact hbusy _
  have hrecovery' : (t.boot.phase == .recovery) = false := by rw [hgate]; exact hrecovery
  have hcontext : aimedAt r aim = if r.context.toNat < 16 && aim != .module then some (BitVec.ofNat 4 r.context.toNat) else none := rfl
  refine ⟨t.gate, ?_⟩
  rw [State.request, hup, hofRow, State.session, hsession, State.protectedIn_fresh _ _ hnew, hfound]
  simp only [State.examine, hop, hformat, hother, xbegun, xlast, hagain, hnext, hallows, haim, ← ht, ← hcontext, hbusy', hrecovery',
    hlegal', ← hgate, Bool.not_true, Bool.false_and, Bool.or_self, Bool.false_eq_true, if_false]

/-- The first request of session 7, to context 0. -/
def firstRequest (opcode : Byte) : ReqHdr := { raw := headerOf 0x01 opcode 0 7 1 0 0 0 0, pn := 1, bodyOk := true }

/-! ### O43: a record that a session waits for -/

/-- A session after an event record of a severity: it waits for the record, if it asked for that severity (R369). -/
def Session.told (x : Session) (sev : Byte) (idx : Nat) : Session :=
  match x.minSev with
  | some m => if m.toNat ≤ sev.toNat then { x with waiting := x.waiting ++ [idx] } else x
  | none => x

theorem State.record_sessions (s : State) (r : Rec) :
    (s.record r).gate.sessions = s.gate.sessions.map fun x => x.told r.sev s.log.next := by
  rw [State.record, State.fhAppend_gate]
  rfl

/-- The Vault has verified a signature of a frame that arrived. -/
def State.frameVerified (s : State) : State := s.frameIn.modVault fun v => { v with verifies := (v.verifies + 1) % 2 ^ 32 }

/-- A FINISH whose signature does not verify writes a record. -/
theorem exec_badFinish {s : State} {hdr : BitVec 256} {h : Handshake} {role : Role} (hup : s.gateUp = true)
    (hfind : s.gate.hands.find? (fun h => h.num == headerSession hdr) = some h) (hready : s.vault.st = .ready)
    (hkey : s.authKey h.key h.mac = some role) :
    exec (.finish hdr false) s = .next (s.frameVerified.handRecord cmdAuth (some (headerSession hdr))) := by
  have hframe : s.frameIn.gate.hands.find? (fun h => h.num == headerSession hdr) = some h := hfind
  have hvault : s.frameIn.vault.st = .ready := hready
  have hrole : s.frameVerified.authKey h.key h.mac = some role := hkey
  rw [State.frameVerified] at hrole ⊢
  show execFinish hdr false s = _
  simp only [execFinish, hup, hframe, hvault, bne_self_eq_false, hrole, Bool.not_true, Bool.not_false, Bool.true_or,
    Bool.false_eq_true, if_false, if_true]

/-- A record of the handshake reaches the sessions that ask for errors. -/
theorem State.handRecord_sessions (s : State) (code : Reason) (n : Option (BitVec 32)) :
    (s.handRecord code n).gate.sessions = s.gate.sessions.map fun x => x.told sevError s.log.next :=
  State.record_sessions s _

/-- A handshake of the peer's for a session 8. -/
def begunHandshake : Handshake := { num := 8, key := 0, mac := 5, shared := 0, transcript := 0 }

/-- HELLO and ACCEPT of session 8 have been sent. -/
def shaking : State := { openGate with gate := { openGate.gate with hands := [begunHandshake] } }

/-- The HELLO that began it. -/
def firstHello : Hello := { hdr := headerOf 0x10 0 0 0 0 0 0 0 1604, mac := 5, key := 0, rsv := 0, nonce := 0, ek := 0, bodyOk := true }

/-- The FINISH of session 8. -/
def finishHdr : BitVec 256 := headerOf 0x12 0 0 8 0 0 0 0 4627

/-- Refutes O43: the record of a FINISH that fails joins the records for which a session that asked for its severity waits (R369),
where the statement has the sessions as they were. -/
theorem not_gateAndSessions : ¬ Obligations.GateAndSessions := by
  unfold Obligations.GateAndSessions
  rintro ⟨-, -, hhandshake, -⟩
  obtain ⟨-, -, hfinish⟩ := hhandshake shaking firstHello ⟨0, some .control, 5⟩ (by decide) rfl rfl (by decide) rfl
  obtain ⟨-, u, hexec, -, hsessions, -⟩ := hfinish begunHandshake .control finishHdr rfl rfl rfl rfl rfl (by decide)
  have hrecord : exec (.finish finishHdr false) shaking =
      .next (shaking.frameVerified.handRecord cmdAuth (some (headerSession finishHdr))) :=
    exec_badFinish (by decide) rfl rfl rfl
  obtain rfl := Host.Outcome.next.inj (hexec.symm.trans hrecord)
  have htold := (State.handRecord_sessions _ _ _).symm.trans hsessions
  exact absurd (congrArg (List.map (·.waiting)) htold) (by decide)

/-! ### O44: a digest that is read through the cache part of its home -/

theorem State.gateOut_dies (s : State) (o : Out) : (s.gateOut o).dies = s.dies := by
  unfold State.gateOut
  split <;> rfl

theorem State.gateOutOn_dies (s : State) (n : BitVec 32) (o : Out) : (s.gateOutOn n o).dies = s.dies := by
  unfold State.gateOutOn
  split
  · exact State.gateOut_dies _ _
  · rfl

theorem State.reply_dies (s : State) (r : Reply) : (s.reply r).dies = s.dies := by
  unfold State.reply
  split
  · exact State.gateOutOn_dies _ _ _
  · rfl

theorem State.answered_dies (s : State) (k : CmdExec) (body : Body) : (s.answered k body).dies = s.dies := State.reply_dies _ _

/-- A QUERY of a digest reads the entry, and answers with it. -/
def digestAnswer (ring : Byte) (bucket : BitVec 16) (step : BitVec 32) (s : State) (k : CmdExec) (c : Option CtxId) : State :=
  let found := s.digEntry (c.getD 0) ring.toNat bucket step
  let s := s.digRead (c.getD 0) ring.toNat bucket step
  match found with
  | some d => s.answered k (.digest d.sent d.recv d.roll)
  | none => s.answered k (.digest 0 0 [])

theorem execQueryDigest_eq (r : ReqHdr) (ring : Byte) (bucket : BitVec 16) (step : BitVec 32) (s : State) :
    execQueryDigest r ring bucket step s = s.request r .query .context true always (digestAnswer ring bucket step) := rfl

theorem digestAnswer_dies (ring : Byte) (bucket : BitVec 16) (step : BitVec 32) (s : State) (k : CmdExec) (c : Option CtxId) :
    (digestAnswer ring bucket step s k c).dies = (s.digRead (c.getD 0) ring.toNat bucket step).dies := by
  unfold digestAnswer
  cases s.digEntry (c.getD 0) ring.toNat bucket step <;> exact State.answered_dies _ _ _

theorem sset_ne_nil {α : Type} (k : Nat) (v : α) (m : SMap α) : sset k v m ≠ [] := by
  cases m with
  | nil => exact List.cons_ne_nil _ _
  | cons e m =>
    unfold sset
    split
    · exact List.cons_ne_nil _ _
    · split <;> exact List.cons_ne_nil _ _

/-- A read through a cache part leaves marks at the granule's home. -/
theorem State.readGranule_dies (s : State) (gi : Nat) (secs : List Nat) : (s.readGranule gi secs).dies ≠ [] := by
  unfold State.readGranule
  dsimp only
  split
  · split <;> exact sset_ne_nil _ _ _
  · exact sset_ne_nil _ _ _

theorem State.readGranule_cfrac (s : State) (gi : Nat) (secs : List Nat) : (s.readGranule gi secs).cfrac = s.cfrac := by
  rw [State.eq_of_offCaches (s.offCaches_readGranule gi secs)]

/-- A granule is read at its home, or by its controller where no part of the Cellars is a cache. -/
def State.readThrough (s : State) (x : Nat × List Nat) : State :=
  if s.cfrac == 0 then s.countGran x.1 x.2.length else s.readGranule x.1 x.2

theorem State.readThrough_marks {s : State} (x : Nat × List Nat) (h : (s.cfrac == 0) = false) :
    ((s.readThrough x).cfrac == 0) = false ∧ (s.readThrough x).dies ≠ [] := by
  rw [State.readThrough, h, if_neg Bool.false_ne_true, s.readGranule_cfrac]
  exact ⟨h, s.readGranule_dies _ _⟩

/-- With CFRAC above 0 a read of the Granary leaves its mark at a die (R206). -/
theorem State.readVia_dies {s : State} {l n : Nat} {x : Nat × List Nat} {xs : List (Nat × List Nat)} (hgran : isGran l = true)
    (hcfrac : (s.cfrac == 0) = false) (hgranules : granulesOf l n = x :: xs) : (s.readVia l n).dies ≠ [] := by
  have hread : s.readVia l n = xs.foldl State.readThrough (s.readThrough x) := by
    rw [State.readVia, hgran, hgranules]
    rfl
  have hmarks := foldl_keeps (fun t => (t.cfrac == 0) = false ∧ t.dies ≠ []) (f := State.readThrough)
    (fun t y ⟨hpart, _⟩ => t.readThrough_marks y hpart) xs (s.readThrough_marks x hcfrac)
  rw [hread]
  exact hmarks.2

/-- A ring whose digests, of one bucket, lie at the start of the Granary. -/
def digestRing : RingSt :=
  { cfg := { kindOk := true, reservedZero := true, twoD := false, nrow := 1, ncol := 1, predict := false, drop := false, pmargin := 0
             deadline := 0, timeout := 0, h := 0, maxBuckets := 1, digestFrame := 0, digestLen := 1, members := [] }
    members := [] }

/-- Context 0 has the ring, whose store holds an entry of bucket 1 and step 0; a part of the Cellars is a cache. -/
def cachedDigest : State :=
  { openGate with ctxs := [(0, { st := .running, rings := [digestRing] })], cfrac := 1, mem := [(granLoc 0, 1)] }

theorem cachedDigest_digRead (g : Gate) : (({ cachedDigest with gate := g } : State).digRead 0 0 1 0).dies ≠ [] := by
  have hread : ({ cachedDigest with gate := g } : State).digRead 0 0 1 0 =
      ({ cachedDigest with gate := g } : State).readVia (granLoc 0) 384 := rfl
  have hgranules : granulesOf (granLoc 0) 384 = (0, [0, 1, 2, 3]) :: [(1, [0, 1])] := by decide
  rw [hread]
  exact State.readVia_dies (by decide) rfl hgranules

theorem cachedDigest_entry : cachedDigest.digEntry ((firstRequest 0x09).context.setWidth 4) (0 : Byte).toNat 1 0 =
    some { ring := 0, id := 1, step := 0, sent := 0, recv := 0, roll := [] } := by
  rfl

/-- Refutes O44: with CFRAC above 0 a QUERY of a digest reads its entry through the cache part of the entry's home (R206), which counts
and fills a line of the die, where the statement has the dies as they were. -/
theorem not_queriesAndTelemetry : ¬ Obligations.QueriesAndTelemetry := by
  unfold Obligations.QueriesAndTelemetry
  intro h
  obtain ⟨hcontext, -⟩ := h cachedDigest (firstRequest 0x09)
  obtain ⟨-, hdigest, -⟩ := hcontext (by decide) (by decide)
  have hrow (n : Byte) : CmdOp.query ≠ .other n := by simp
  have hadmitted : admitted cachedDigest (firstRequest 0x09) 0x09 := by unfold admitted; decide
  obtain ⟨u, hexec, -, ⟨-, -, -, hframe⟩, -⟩ := hdigest 0 1 0 _ cachedDigest_entry hadmitted
  obtain ⟨g, hreads⟩ := State.request_acts (r := firstRequest 0x09) (op := .query) (aim := .context) (legal := always)
    (digestAnswer 0 1 0) hadmitted hrow rfl (fun c hc => Option.some.inj hc ▸ rfl) fun _ => rfl
  have hanswered := Host.Outcome.next.inj (hexec.symm.trans ((execQueryDigest_eq _ _ _ _ _).trans hreads))
  have hdies : u.dies = cachedDigest.dies := (congrArg State.dies hframe :)
  rw [hanswered, digestAnswer_dies] at hdies
  exact cachedDigest_digRead g hdies

/-! ### O45: a pause that meets an exception at a fetch -/

/-- Thread 0 of context 0 stands at an instruction that it may not fetch, with the exception still to be taken (R45). -/
def heldAtFetch : State :=
  let s := oneThread { lonelyThread with
    st := .waitUnit, why := .retire, exc := some { cause := .fetch, reason := exeFetch, tval := 0x200000000, atFetch := true } }
    { gated := false }
  { openGate with quadOwner := s.quadOwner, ctxs := s.ctxs, threads := s.threads, cores := s.cores }

theorem State.orderPause_halted {s : State} {th : ThreadId} (h : (s.thr th).st = .halted) : s.orderPause th = s :=
  if_pos (by rw [h]; rfl)

/-- An order to pause leaves a thread that has an exception to take where it stands (R61). -/
theorem State.orderPause_excepted {s : State} {th : ThreadId} (hst : (s.thr th).st = .waitUnit) (hexc : (s.thr th).exc.isSome = true)
    (hwait : (s.thr th).wait = none) : s.orderPause th = s.modThr th fun t => { t with pauseReq := true } := by
  simp [State.orderPause, State.settle, State.abandonWait, hst, hexc, hwait]

/-- A fold leaves a state that each of its steps leaves. -/
theorem foldl_eq_of_fixed {α : Type} {f : State → α → State} {s : State} {l : List α} (h : ∀ x ∈ l, f s x = s) :
    l.foldl f s = s := by
  induction l with
  | nil => rfl
  | cons x l ih =>
    rw [List.foldl_cons, h x List.mem_cons_self]
    exact ih fun y hy => h y (List.mem_cons_of_mem x hy)

/-- Channels that are idle have nothing to pause. -/
theorem State.pauseChans_none {s : State} (c : CtxId) (h : s.strm = []) : (s.eachChan c fun s q ch => s.strmPauseChan q ch) = s :=
  foldl_eq_of_fixed fun q _ => foldl_eq_of_fixed fun ch _ => by
    simp [State.strmPauseChan, State.chan, State.engine, h]

/-- In a context of which one thread alone has work, and that has an exception to take, a pause only marks the thread. -/
theorem State.pauseOrders_excepted {s : State} {c : CtxId} {th : ThreadId} {l : List ThreadId} (hthreads : s.threadsOf c = th :: l)
    (hst : (s.thr th).st = .waitUnit) (hexc : (s.thr th).exc.isSome = true) (hwait : (s.thr th).wait = none) (hself : th ∉ l)
    (hothers : ∀ y ∈ l, (s.thr y).st = .halted) (hchans : s.strm = []) : ((s.pauseOrders c).thr th).st = .waitUnit := by
  have hmarked (y : ThreadId) (hy : y ∈ l) : ((s.modThr th fun t => { t with pauseReq := true }).thr y).st = .halted := by
    rw [State.modThr, State.setThr_thr_ne _ _ _ _ (by rintro rfl; exact hself hy)]
    exact hothers y hy
  have hnone : (s.modThr th fun t => { t with pauseReq := true }).strm = [] := hchans
  rw [State.pauseOrders, hthreads, List.foldl_cons, State.orderPause_excepted hst hexc hwait,
    foldl_eq_of_fixed fun y hy => State.orderPause_halted (hmarked y hy), State.pauseChans_none c hnone]
  show ((s.setThr th { s.thr th with pauseReq := true }).thr th).st = .waitUnit
  rw [State.setThr_thr]
  exact hst

/-- A pause marks its command and gives its orders, unless a round is held. -/
def pauseBegun (s : State) (k : CmdExec) (c : Option CtxId) : State :=
  let c := c.getD 0
  let s := s.take_ c k
  if (s.ctx c).snap.phase == .quiescing then s else s.pauseOrders c

theorem execPause_eq (r : ReqHdr) (s : State) :
    execPause r s = s.request r .pause .context true (inState [.running]) pauseBegun := rfl

/-- The exception goes first: the orders to pause leave the thread in WAIT_UNIT. -/
theorem heldAtFetch_pauseBegun (g : Gate) (k : CmdExec) :
    ((pauseBegun { heldAtFetch with gate := g } k (some 0)).thr 0).st = .waitUnit := by
  have hidle : ¬ ((({ heldAtFetch with gate := g } : State).take_ 0 k).ctx 0).snap.phase == .quiescing := by
    intro h
    cases h
  rw [pauseBegun, Option.getD_some, if_neg hidle]
  exact State.pauseOrders_excepted (l := [1, 2, 3, 4, 5, 6, 7, 8, 9, 10, 11, 12, 13, 14, 15]) rfl rfl rfl rfl (by decide)
    (by intro y hy; fin_cases hy <;> rfl) rfl

/-- Refutes O45: a thread that holds an exception at its fetch counts as at a boundary, but before the exception a pause does not take
hold there (R61, R62). -/
theorem not_contextCommands : ¬ Obligations.ContextCommands := by
  unfold Obligations.ContextCommands
  rintro ⟨h, -⟩
  obtain ⟨-, -, hidle, -⟩ := h heldAtFetch (firstRequest 0x03) (by decide) (by decide)
  obtain ⟨hpause, -⟩ := hidle (by decide)
  have hadmitted : admitted heldAtFetch (firstRequest 0x03) 0x03 := by unfold admitted; decide
  have hrow (n : Byte) : CmdOp.pause ≠ .other n := by simp
  obtain ⟨u, hexec, -, -, hthreads⟩ := hpause (by decide) (by decide) hadmitted
  obtain ⟨hpaused, -⟩ := hthreads 0 (by decide) (by decide) (by decide) (by decide)
  obtain ⟨g, hbegins⟩ := State.request_acts (r := firstRequest 0x03) (op := .pause) (aim := .context) (legal := inState [.running])
    pauseBegun hadmitted hrow rfl (fun c hc => Option.some.inj hc ▸ rfl) fun _ => rfl
  obtain rfl := Host.Outcome.next.inj (hexec.symm.trans ((execPause_eq _ _).trans hbegins))
  have haim : aimedAt (firstRequest 0x03) .context = some 0 := rfl
  rw [haim] at hpaused
  exact absurd (hpaused.symm.trans (heldAtFetch_pauseBegun g _)) (by decide)

end Sys2Proof.Machine
end
